-- ==== Sys2Proof/Word.lean ====
section
/-! DEFINITION. The word types of UF24 and the numbers of its units. -/

namespace Sys2Proof

/-- A 32-bit register or instruction word. -/
abbrev Word := BitVec 32

/-- One byte. -/
abbrev Byte := BitVec 8

/-- One sector of 64 B (Table 0.3): byte `k` is bits `[8k+7:8k]` (03 R100). -/
abbrev Sector := BitVec 512

/-- A Smith: 0-23 for AS0-AS23 and 24 for the Master Smith (02 R46). -/
abbrev SmithId := Fin 25

/-- A physical channel, and with it an anvil and a Loft slice (00 R12). -/
abbrev Chan := Fin 24

/-- A client port (00 R12). -/
abbrev PortId := Fin 128

/-- A hearth (00 R12). -/
abbrev HearthId := Fin 4

/-- A protected region of Hedge (Table 14.3). -/
abbrev RegionId := Fin 8

/-- A Smith register field d, a or b of the instruction word (Table 2.6). -/
abbrev RegNo := BitVec 4

/-- The Master Smith's number. -/
def masterSmith : SmithId := 24

end Sys2Proof
end

