-- ==== Sys2Proof/Syntax.lean ====
section
/-! DEFINITION. The commands of UF24: one constructor per row of opcode_table.json.

Operands. `m` is the Smith that executes; `d a b imm` are the fields of its instruction word (Table 2.6).
`now` is the nanosecond timebase at which the event falls; `ck` is the number of the CK edge of the channel.
`w` is the whole word that a host write carries. Other operands are what the surroundings supply. A pair is two operands
of one event: its moment or place, and what it meets there. -/

namespace Sys2Proof

/-- An error of a Loft slice's own storage, met by a step (Table 10.7). -/
inductive StoreErr where
  | none | single
  | double (lo hi : Bool)        -- in the word of the line's lower or upper sector
  | tag (way : Fin 16)
deriving DecidableEq, Repr

/-- An error of a word of the plot bitmap, met by a lookup (09 R315). -/
inductive BitmapErr where
  | none | single | double
deriving DecidableEq, Repr

/-- What one repetition of an EYE pattern samples, burst by burst: 64 B of DQ or echoed CA, and 64 bits of DMI or captured
RDQS edges (07 Table 7.4). -/
abbrev EyeSample := List (Sector × BitVec 64)

/-- A parity error met by a selection (Table 5.3, causes 0x1 to 0x3). -/
inductive EntryParity where
  | good | entryBad | bothBad | cacheBad
deriving DecidableEq, Repr

/-- One beat of the key port (Table 14.4), KP_LAST left to the operation's end. -/
structure KeyBeat where
  op     : BitVec 2
  region : RegionId
  data   : Word
deriving DecidableEq, Repr

/-- What the memory test of a quarter finds in one macro (16 R525): failing cells as (row, column). -/
structure MacroFinding where
  macroId   : Nat
  cells     : List (Nat × Nat)
  firstAddr : BitVec 20
  firstBit  : BitVec 10
  fails     : Nat
deriving DecidableEq, Repr

/-- What a wrapper instruction of the test access port does (16 R531): nothing in the Assay engine, an access of the engine of no further
effect, a write of AST_CTL or of AST_SEED, or a shift of a scan chain. -/
inductive TapOp where
  | other
  | engine
  | ctl (w : Word)
  | seed (w : Word)
  | shift
deriving DecidableEq, Repr

/-- A function of the Loft that starts and stops (Table 10.5). -/
inductive LoftFn where
  | wg0 | wg1 | wg2 | wg3 | rick | prefetch
deriving DecidableEq, Repr

/-- The commands, in the order of opcode_table.json. -/
inductive Instr where
  -- Smith instructions: arithmetic
  | add (m : SmithId) (d a b : RegNo)
  | sub (m : SmithId) (d a b : RegNo)
  | and (m : SmithId) (d a b : RegNo)
  | or (m : SmithId) (d a b : RegNo)
  | xor (m : SmithId) (d a b : RegNo)
  | shl (m : SmithId) (d a b : RegNo)
  | shr (m : SmithId) (d a b : RegNo)
  | sra (m : SmithId) (d a b : RegNo)
  | mul (m : SmithId) (d a b : RegNo)
  | slt (m : SmithId) (d a b : RegNo)
  | sltu (m : SmithId) (d a b : RegNo)
  | addi (m : SmithId) (d a : RegNo) (imm : BitVec 14)
  | andi (m : SmithId) (d a : RegNo) (imm : BitVec 14)
  | ori (m : SmithId) (d a : RegNo) (imm : BitVec 14)
  | xori (m : SmithId) (d a : RegNo) (imm : BitVec 14)
  | shli (m : SmithId) (d a : RegNo) (imm : BitVec 14)
  | shri (m : SmithId) (d a : RegNo) (imm : BitVec 14)
  | lui (m : SmithId) (d : RegNo) (imm : BitVec 18)
  -- memory and register access
  | ldw (m : SmithId) (d a : RegNo) (imm : BitVec 14)
  | stw (m : SmithId) (d a : RegNo) (imm : BitVec 14)
  | csrr (m : SmithId) (d a : RegNo) (imm : BitVec 14) (now : Nat)
  | csrw (m : SmithId) (a b : RegNo) (imm : BitVec 14) (now : Nat)
  | csrs (m : SmithId) (d a b : RegNo) (imm : BitVec 14) (now : Nat)
  | csrc (m : SmithId) (d a b : RegNo) (imm : BitVec 14) (now : Nat)
  -- control
  | beq (m : SmithId) (a b : RegNo) (imm : BitVec 14)
  | bne (m : SmithId) (a b : RegNo) (imm : BitVec 14)
  | blt (m : SmithId) (a b : RegNo) (imm : BitVec 14)
  | bge (m : SmithId) (a b : RegNo) (imm : BitVec 14)
  | jal (m : SmithId) (d : RegNo) (imm : BitVec 14)
  | jr (m : SmithId) (a : RegNo) (imm : BitVec 14)
  | halt (m : SmithId)
  -- DRAM, pauses, PHY, waits
  | cmd (m : SmithId) (d a : RegNo) (imm : BitVec 14)
  | rdmr (m : SmithId) (d : RegNo) (imm : BitVec 14)
  | pause (m : SmithId) (d a : RegNo) (imm : BitVec 14) (now : Nat)
  | endp (m : SmithId) (d a : RegNo)
  | dly (m : SmithId) (a b : RegNo)
  | dlyEffect (m : SmithId) (ck : Nat)
  | eye (m : SmithId) (d a b : RegNo)
  | eyeEnd (m : SmithId) (samples : List EyeSample)
  | osc (m : SmithId) (d a : RegNo)
  | oscEnd (m : SmithId) (lower upper : BitVec 16)
  | wck (m : SmithId) (a : RegNo) (imm : BitVec 14) (ck : Nat)
  | wckEnd (m : SmithId) (ck : Nat)
  | wns (m : SmithId) (a : RegNo) (imm : BitVec 14) (now : Nat)
  | wnsEnd (m : SmithId) (now : Nat)
  | wev (m : SmithId) (d a : RegNo) (imm : BitVec 14) (now : Nat)
  | wevEnd (m : SmithId) (now : Nat)
  | sig (m : SmithId) (a : RegNo) (imm : BitVec 14)
  | wsig (m : SmithId) (d a : RegNo) (imm : BitVec 14) (now : Nat)
  | wsigEnd (m : SmithId) (now : Nat)
  | slw (m : SmithId) (a b : RegNo) (imm : BitVec 14)
  | slc (m : SmithId) (d a b : RegNo) (imm : BitVec 14) (now : Nat)
  | raise (m : SmithId) (d a b : RegNo) (imm : BitVec 14)
  | eventDispatch (m : SmithId)
  | tick (m : SmithId) (now : Nat)
  -- host control of the Smiths and the mailbox
  | msStart (w : Word)
  | msStop (w : Word)
  | asStart (w : Word)
  | asStop (w : Word)
  | go (w : Word)
  | verifyEnd (reference : Bool)
  | instructionMemoryWrite (addr : BitVec 24) (w : Word)
  | smiEvset (w : Word)
  | ping (seq : Byte)
  | kindleRun (seq : Byte) (arg0 arg1 : Word) (now : Nat)
  | slotCommit (seq : Byte) (arg0 arg1 arg2 : Word) (votes : List (Fin 4 × Word)) (late : Bool) (now : Nat)
  | setTarget (seq : Byte) (arg0 arg1 : Word)
  | shedFloor (seq : Byte) (arg0 : Word)
  | steward (seq : Byte) (arg0 arg1 : Word)
  | temperNow (seq : Byte) (now : Nat)
  | gangRejoin (seq : Byte) (heard : List (Fin 3 × BitVec 128)) (now : Nat)
  | margin (seq : Byte) (arg0 arg1 arg2 arg3 : Word) (now : Nat)
  | park (seq : Byte) (arg0 : Word) (now : Nat)
  -- client ports
  | read (p : PortId) (op : BitVec 4) (addr : BitVec 41) (len : BitVec 6) (tag : BitVec 9)
      (label : BitVec 5) (colour : BitVec 2) (attr : BitVec 4)
  | write (p : PortId) (addr : BitVec 41) (len : BitVec 6) (tag : BitVec 9)
      (label : BitVec 5) (colour : BitVec 2) (attr : BitVec 4)
  | writeMasked (p : PortId) (addr : BitVec 41) (len : BitVec 6) (tag : BitVec 9)
      (label : BitVec 5) (colour : BitVec 2) (attr : BitVec 4)
  | seal (p : PortId) (tag : BitVec 9)
  | hint (p : PortId) (addr : BitVec 41) (len : BitVec 6) (tag : BitVec 9)
      (label : BitVec 5) (colour : BitVec 2) (attr : BitVec 4)
  | writeBeat (p : PortId) (data : Sector) (be : BitVec 64) (wpoison wlast : Bool)
  | responseBeat (p : PortId)
  | panic (p : PortId) (level : BitVec 2)
  | sealDone (p : PortId)
  | portEnable (k : Fin 4) (w : Word)
  | portDisable (k : Fin 4) (w : Word)
  | portDrainEnd (p : PortId)
  -- Bellows and Tongs
  | requestAccept (p : PortId) (now : Nat)
  | shaperWheelDue (p : PortId) (now : Nat)
  | windowBoundary (p : PortId) (now : Nat)
  | release (p : PortId) (now : Nat)
  | tongsGrant (ret : Bool) (output : Fin 131) (now : Nat)
  | tongsWatchdogBite (ret : Bool) (output : Fin 131) (now : Nat)
  | responseEnter (p : PortId) (now : Nat)
  | haltClear (p : PortId) (w : Word)
  -- Loft
  | loftRead (c : Chan) (errs : List StoreErr) (now : Nat)
  | loftWrite (c : Chan) (met : Nat × List (StoreErr × StoreErr))   -- the timebase, and the errors of each line's held copy and open merge entry
  | loftHint (c : Chan) (met : Nat × List StoreErr)
  | loftPrefetch (read : Chan × StoreErr)              -- the slice, and the error of its line read
  | loftFill (read : Chan × StoreErr)                  -- the slice, and the error of the set that it installs into
  | lineDrop (c : Chan)
  | mergeTimer (c : Chan) (entry now : Nat)
  | blockingModeEnd (c : Chan) (now : Nat)
  | invall (w : Word)
  | sweepStart (c : Chan)
  | sweepEnd (c : Chan)
  | wgEn (w : Word)
  | rickEn (w : Word)
  | pfEn (w : Word)
  | loftFunctionStarted (f : LoftFn)
  | loftFunctionStopped (f : LoftFn)
  -- anvil queues
  | lineReadAccept (c : Chan) (err : BitmapErr) (now : Nat)
  | mergeFlushAccept (c : Chan) (errs : BitmapErr × StoreErr) (now : Nat)
  | commandSelect (c : Chan) (parity : EntryParity)
  -- command stage
  | act (c : Chan) (ck : Nat)
  | pre (c : Chan) (ck : Nat)
  | prea (c : Chan) (ck : Nat)
  | rd (c : Chan) (ck : Nat)
  | wr (c : Chan) (ck : Nat)
  | refpb (c : Chan) (ck : Nat)
  | refab (c : Chan) (ck : Nat)
  | rfm (c : Chan) (ck : Nat)
  | mrw (c : Chan) (ck : Nat)
  | mrr (c : Chan) (ck : Nat)
  | mpc (c : Chan) (ck : Nat)
  | sre (c : Chan) (ck : Nat)
  | srx (c : Chan) (ck : Nat) (now : Nat)
  | pde (c : Chan) (ck : Nat)
  | pdx (c : Chan) (ck : Nat)
  | readDataReturn (c : Chan) (err : Sector) (now : Nat)
  | mrrResult (c : Chan) (lower upper : Byte)
  -- refresh, temperature, pauses
  | mr4Poll (c : Chan) (now : Nat)
  | mr4Result (c : Chan) (rank0 rank1 : List (BitVec 5))
  | refreshDebtTick (c : Chan) (rank : Fin 2) (now : Nat)
  | holdSet (c : Chan) (w : Word)
  | pauseGrant (c : Chan) (ck : Nat) (now : Nat)
  | pauseForce (c : Chan) (now : Nat)
  | pauseExpire (c : Chan) (ck : Nat)
  -- PHY
  | retrain (c : Chan) (now : Nat)
  | retrainIntervalWrite (c : Chan) (w : Word) (now : Nat)
  | zqCalibration (h : HearthId) (now : Nat)
  | zqCodeApply (edge : Chan × Nat)                    -- the channel, and its CK edge
  | zqLatchDue (c : Chan) (rank : Fin 2) (now : Nat)
  | pllEnable (c : Chan) (w : Word)
  | fspChange (c : Chan) (w : Word)
  | rateChange (c : Chan) (w : Word)
  | pllLock (h : HearthId)
  | pllLockLoss (h : HearthId)
  | dlydatAccess (c : Chan) (w : Option Word)
  | patdatAccess (c : Chan) (w : Option Word)
  -- slots
  | slotBoundary (c : Chan) (ck : Nat)
  | slotTableSwitch (c : Chan) (ck : Nat) (now : Nat)
  -- check codes and scrubbing
  | stgo (c : Chan) (w : Word)
  | selfTestEnd (c : Chan) (failing : Option (Fin 96))
  | gleanerEn (c : Chan) (w : Word)
  | gleanerVisit (c : Chan) (now : Nat)
  | gleanerVisitEnd (c : Chan) (now : Nat)
  | gleanerTransitionEnd (c : Chan)
  | lapOverdue (c : Chan) (now : Nat)
  | patrolAdvance (c : Chan) (now : Nat)
  -- modes, sag, ageing
  | modeRequest (w : Word)
  | modeComplete (w : Word) (now : Nat)
  | bankedQueuesEmpty
  | quarterEnd (signatureGood : Bool) (findings : List MacroFinding)
  | faultDrainTimeout (now : Nat)
  | shedLevelChange (w : Word)
  | shedStepTimer (now : Nat)
  | comparatorCrossing (level : Nat × Nat)             -- VDD_CORE in µV, and the timebase
  | sagRelease (comparator : Bool) (level : Fin 8) (now : Nat)
  | rateMonitor (period : Nat) (now : Nat)
  | pmSag (level : BitVec 3)
  | bankedSagRelease (now : Nat)
  | temperGo (w : Word)
  | temperRound (now : Nat)
  | temperRoundEnd (counts : List (Nat × Nat)) (now : Nat)
  | vreqCodeWrite (w : Word)
  | pmVack (level : Bool × Nat)
  | pmOffreq (level : Bool)
  | powerGateAck
  | resetAssert
  | resetDeassert (gangId gangSize : BitVec 2)
  | fuseImageRead (first second : List Word)
  -- Hedge
  | loadK1 (beats : List KeyBeat)
  | loadK2 (beats : List KeyBeat)
  | erase (beats : List KeyBeat)
  | keyctlErase (w : Word)
  | regionStartingEnd (r : RegionId)
  | regionStoppingEnd (r : RegionId)
  | bufferRelease (base : BitVec 35) (size : BitVec 30) (claim owner : PortId)
  | releaseHonour (now : Nat)
  -- fault unit and event FIFO
  | faultAccept (pos : Nat)
  | faultMessageTransfer
  | faultPulseEnd
  | forceMessage (k : Fin 3) (w : Word)
  | firstvRearm (w : Word)
  | injectionArm (w : Word)
  | injectionDisarm (w : Word)
  | evqPutHdr (w : Word) (now : Nat)
  | evqPutLo (w : Word)
  | evqPutHi (w : Word) (now : Nat)
  | evqDataLo
  | evqDataHi (now : Nat)
  | flush (w : Word) (now : Nat)
  | evqTimeout (now : Nat)
  -- the host port
  | timebaseLoRead (now : Nat)
  | slotTloRead (c : Chan)
  | lapLoRead (c : Chan)
  | capturedHiRead (addr : BitVec 24) (now : Nat)
  | rcRead (addr : BitVec 24)
  | adjacencyMapWrite (k : Fin 2) (w : Word)
  | registerWrite (addr : BitVec 24) (w : Word) (now : Nat)
  | unalignedAccess (addr : BitVec 24) (w : Option Word)
  | unpopulatedAccess (addr : BitVec 24) (w : Option Word)
  | bankedAccessRefused (addr : BitVec 24) (w : Option Word)
  | anvilTransitionEnd (c : Chan)
  -- Assay
  | directRun (w : Word)
  | clrrep (w : Word)
  | tapInstruction (op : TapOp)
  -- gang
  | xchg (w : Word) (now : Nat)
  | linkWordReceive (k : Fin 3) (word : BitVec 1024)
  | linkTrained (k : Fin 3) (delay : BitVec 16)
  | credentials (k : Fin 3) (now : Nat)
  | heartbeatSend (now : Nat)
  | heartbeat (k : Fin 3) (now : Nat)
  | heartbeatTimeout (peer : Fin 4) (now : Nat)
  | peerStartingEnd (peer : Fin 4) (now : Nat)
  | peerStoppingEnd (peer : Fin 4)
  | smsgSend (w : Word)
  | smithMessage (k : Fin 3)
  | smsgRxLo
  | smsgRxHi
  | zqCalibrationEnd (h : HearthId) (pcode ncode : BitVec 6)
  | alwaysOnPowerUp
deriving DecidableEq, Repr

end Sys2Proof
end

