-- ==== Sys2Proof/Config.lean ====
section
/-! DEFINITION. What the spec leaves open: opaque values that no proof can see, and the fixed numbers of the block. -/

namespace Sys2Proof

/-- Free value: what a DRAM sector that UF24 has not written holds, by channel and place in the channel; the first
argument also counts the times that the contents of its rank became undefined under 02 R585. The spec gives no
contents of the DRAM after power-up (log entry 3). -/
opaque Config.dramPowerUp : Nat → Nat → Sector

/-- Free value: the bits that a Smith RD samples where the DRAM drives no defined data: 64 B of DQ for a
RD to a bank with no open row (02 R585), and the DMI levels (07 R253). The argument numbers the sample. -/
opaque Config.freeBurst : Nat → Sector

/-- Free value: the 64 DMI bits of a sampled burst (07 R253). -/
opaque Config.freeDmi : Nat → BitVec 64

/-- Free value: the byte enables of a beat of a WRITE_MASKED that comes over a gang link, numbered by the beat: a
link word carries data and poison and no byte enables (17 Table 17.1; log entry 11). -/
opaque Config.freeEnables : Nat → BitVec 64

/-- Free value: the error with which a skew is computed, which 17 R550 bounds by 8 ns, numbered by the heartbeat (log
entry 87). -/
opaque Config.freeSkew : Nat → Nat

/-- Free value: a 64-bit value the spec leaves open, numbered by the sample (log entry 4). -/
opaque Config.freeWord : Nat → BitVec 64

/-- Free value: the 64-bit expected signature of the logic test of a quarter, held in the engine's ROM
(16 R524); the spec does not print it. -/
opaque Config.expectedSignature : Nat → BitVec 64

/-- Free value: how a signature that differs from the expected one differs from it, numbered by the sample (16 R524). -/
opaque Config.signature : Nat → BitVec 64

/-- Free value: 64 B that the memory test of a direct run leaves in a memory, numbered by the sample (16 R525; log entry 104). -/
opaque Config.marched : Nat → Sector

/-- Free value: the channel of the anvil or Loft slice that an SRAM macro belongs to, none for any other macro. The
macro list comes with the licence and the spec does not print it (16 Table 16.3, log entry 14). -/
opaque Config.macroChannel : Nat → Option Nat

/-- Free value: the quarter, modulo 4, that an SRAM macro of no anvil and no slice is tested in, from the same list (log entry 14). -/
opaque Config.macroQuarter : Nat → Nat

/-- Free value: field ID of the message about an item that was not restored, by channel and item (16 R518, Table 16.3;
log entry 22). -/
opaque Config.notRestoredId : Nat → Nat → Nat

/-- Free value: the ratio of a monitor pair whose reference loop counted 0, by the other count (13 R458; log entry
21). -/
opaque Config.freeRatio : Nat → Nat

/-- Mode register whose operand gives the run time of the WCK2DQI oscillator (02 R84 names JESD209-5C).
PRESUMED: MR37 (log entry 5). -/
def Config.mrOscDqi : Nat := 37

/-- Mode register whose operand gives the run time of the WCK2DQO oscillator. PRESUMED: MR40 (log entry 5). -/
def Config.mrOscDqo : Nat := 40

/-- MPC operands that start and stop the interval oscillators (02 R71 names JESD209-5C).
PRESUMED: 0x81 and 0x82 start and stop WCK2DQI, 0x83 and 0x84 start and stop WCK2DQO (log entry 5). -/
def Config.oscOps : List Nat := [0x81, 0x82, 0x83, 0x84]

/-- MPC operand that starts an oscillator: WCK2DQO where `dqo`, else WCK2DQI. PRESUMED (log entry 5). -/
def Config.oscStart (dqo : Bool) : Nat := if dqo then 0x83 else 0x81

/-- MPC operand that stops an oscillator. PRESUMED (log entry 5). -/
def Config.oscStop (dqo : Bool) : Nat := if dqo then 0x84 else 0x82

/-- Mode register that holds the low or the high byte of an oscillator's count. PRESUMED: MR35 and MR36 for WCK2DQI,
MR38 and MR39 for WCK2DQO (log entry 5). -/
def Config.mrOscCount (dqo high : Bool) : Nat := (if dqo then 38 else 35) + (if high then 1 else 0)

/-- Free value: the run time in CK that an operand of an oscillator run-time register selects, 0 where it selects none;
02 R84 leaves the encoding to JESD209-5C (log entry 31). -/
opaque Config.oscRunTime : Byte → Nat

/-- Free value: the channel's ranks are byte-mode pairs of x8 dies (00 Table of DRAM parts, 02 R75). It is a property
of the DRAM that is fitted, and no register holds it (log entry 31). -/
opaque Config.byteMode : Nat → Bool

/-- Mode register that enables DBI: bit 6 for reads, bit 7 for writes. PRESUMED: MR3 (log entry 5). -/
def Config.mrDbi : Nat := 3

/-- Mode register of the segment mask of partial-array self-refresh. PRESUMED: MR23 (log entry 5). -/
def Config.mrPasr : Nat := 23

/-- Mode register of the bank mask of partial-array self-refresh (07 R269). PRESUMED: MR24 (log entry 5). -/
def Config.mrBankMask : Nat := 24

/-- Mode registers of the read DQ calibration: the invert masks of the two bytes and the two halves of the pattern.
PRESUMED: MR31 to MR34 (log entry 5). -/
def Config.mrCal : List Nat := [31, 32, 33, 34]

/-- What a mode register holds with no MRW since the DRAM's power-up (02 R75 leaves it to JESD209-5C). PRESUMED: 0x5A and
0x3C in the calibration pattern, DBI off, no segment masked (log entry 5). -/
def Config.mrDefault (ma : Nat) : Byte := if ma = 33 then 0x5A else if ma = 34 then 0x3C else 0

/-- Mode register of ZQ calibration: bit 5 at 0 selects background calibration (07 R268). PRESUMED: MR28 (log entry 5). -/
def Config.mrZq : Nat := 28

/-- Mode register of the frequency set point, written and in use in bits 1:0 and 3:2 (07 R246). PRESUMED: MR16 (log entry 5). -/
def Config.mrFsp : Nat := 16

/-- Free value: the word of an Anvil Smith's data memory, by channel, in which the reference Master Smith image leaves a flag (08
R285, log entry 98). -/
opaque Config.flagWord : Nat → Nat

/-- Free value: the drift in ppt of an oscillator count against a baseline of 0 (07 R260, log entry 90). -/
opaque Config.freeDrift : Nat → Nat

/-- Free value: the shift in codes for counts or baselines of 0 (07 R260, log entry 90). -/
opaque Config.freeShift : Nat → Nat → Int

/-- Free value: how much of what R550 of 17 lets an instance slew it does slew (log entry 93). -/
opaque Config.freeSlew : Nat → Nat

/-- MPC operand of the ZQ latch (07 R268). PRESUMED: 0x86 (log entry 5). -/
def Config.zqLatchOp : Nat := 0x86

/-- The gang protocol version of R543. -/
def Config.gangVersion : BitVec 16 := 0x0102

/-- Duration of one tick of the Bellows in ns (11, Rates, bursts and ticks). -/
def Config.tickNs : Nat := 64

end Sys2Proof
end

