-- ==== Sys2Proof/Machine/State.lean ====
section
/-! DEFINITION. The state of UF24 as plain data, and the state right after reset.

Registers live in one sparse word memory keyed by host byte address (Table 18.1); what an unlisted register reads as
is its reset value (`resetWord` in Machine/Regs.lean). Everything the spec gives a block beyond its registers has
its own field here. -/

namespace Sys2Proof.Machine

/-- Sparse memory of 32-bit words, addresses strictly rising, no entry equal to what an unlisted one reads as. -/
abbrev WMem := List (Nat × Word)

/-- Sparse memory of sectors, addresses strictly rising. -/
abbrev SMem := List (Nat × Sector)

/-- A function that starts and stops (13 R455). -/
inductive FnState where
  | off | starting | on | stopping
deriving DecidableEq, Repr

/-- Response statuses (Table 3.7). -/
inductive Status where
  | ok | okCorrected | poison | fetchUe | halted | cmdError | addressFault
  | denied | unmapped | dropped | keyAbsent | sealDone
deriving DecidableEq, Repr

/-! ### Smiths (02) -/

/-- The four states of a Smith (R48). -/
inductive SmithRun where
  | stopped | idle | running | waiting
deriving DecidableEq, Repr

/-- What a WAITING Smith is blocked in (Tables 2.8 and 2.9, column "Waits on"). -/
inductive Wait where
  | cmd (d : RegNo) (c : Chan)
  | rdmr (d : RegNo) (c : Chan)
  | pause (d : RegNo) (c : Chan)
  | dly (c : Chan) (lanes : List Nat) (code : BitVec 10) (due : Nat)
  | eye (d : RegNo) (c : Chan) (rank pattern : Nat) (mask : Word)
  | osc (d : RegNo) (c : Chan) (rank : Nat) (dqo : Bool)
  | wck (c : Chan) (due : Nat)
  | wns (due : Nat)
  | wev (d : RegNo) (mask : BitVec 16) (deadline : Option Nat)
  | wsig (d : RegNo) (mask : BitVec 25) (deadline : Option Nat)
  | slw (c : Chan) (index : Nat) (entry : Byte)
  | raise (stop : Bool)
deriving DecidableEq, Repr

/-- The captures of one reader of the register space (02 R58, 18 R563, 15 R511 and R513). -/
structure Captures where
  timebase : Option Word
  slot     : Vector (Option Word) 24
  lap      : Vector (Option Word) 24
  evq      : Option (Nat × Word)      -- record and high half taken by EVQ_DATA_LO
  evqLast  : BitVec 64
  smsg     : Option Word
  smsgSrc  : BitVec 2
deriving DecidableEq, Repr

/-- One MRR of a Smith: its channel and, once it has crossed, its result (R74, R75). -/
structure MrrResult where
  chan  : Chan
  value : Option (BitVec 16)
deriving DecidableEq, Repr

/-- One Smith (Table 2.1, Table 2.4). -/
structure Smith where
  run      : SmithRun
  pc       : BitVec 13
  g        : Vector Word 16
  evpend   : BitVec 16
  evmask   : BitVec 16
  evcause  : BitVec 5
  tick     : BitVec 14
  tickFrom : Nat
  sigset   : BitVec 25
  vec      : Vector Word 16
  dmem     : WMem
  wait     : Option Wait
  stopReq  : Bool                -- a stop waits for the instruction boundary (R91)
  mrr      : List MrrResult
  caps     : Captures
deriving DecidableEq, Repr

/-- An instruction memory and its image (R52, R68, R90, R93, R97). `reference` says that the accepted image is
the reference image of release 1.2, whose programs 08 describes. -/
structure Image where
  mem       : WMem
  accepted  : Bool
  length    : Nat
  entry     : BitVec 13
  reference : Bool
deriving DecidableEq, Repr

/-! ### Client ports and Bellows (03, 11) -/

/-- One write data beat (Table 3.1). -/
structure Beat where
  data    : Sector
  be      : BitVec 64
  wpoison : Bool
  wlast   : Bool
deriving DecidableEq, Repr

/-- The result of one sector of a READ (R123, R124): `poisoned` is RPOISON. -/
structure SecRes where
  status   : Status
  data     : Sector
  poisoned : Bool
deriving DecidableEq, Repr

/-- Where an outstanding request stands. -/
inductive Stage where
  | crossing   -- transferred, not yet taken by the Bellows
  | draining   -- refused by the port adapter; a write takes its beats first (R120)
  | queued     -- in its label queue (R374)
  | flying     -- its first piece has been released (R375)
  | seal       -- a SEAL held by the port adapter (R117)
  | answered   -- its response is in the response queue
deriving DecidableEq, Repr

/-- What a link injection of mode 0b10 has inverted in a response that holds no data beat of its own (15 R505). -/
structure Flip where
  status  : BitVec 4
  data    : Sector
  rpoison : Bool
deriving DecidableEq, Repr

/-- An outstanding request of a port (R108). -/
structure Req where
  id      : Nat
  op      : BitVec 4
  addr    : Nat
  len     : Nat
  tag     : BitVec 9
  label   : Nat
  colour  : BitVec 2
  attr    : BitVec 4
  beats   : List Beat
  stage   : Stage
  cause   : Nat                  -- protocol error cause (R119); 0 none
  refusal : Option Status        -- the port adapter's answer (Table 1.7, rows 1 and 2)
  dropInj : Bool                 -- discarded by link fault injection (Table 15.6, mode 0b01)
  time    : Nat                  -- acceptance time (R377 step 6)
  epoch   : Nat                  -- window epoch of its stamp (R377 step 3)
  booked  : Nat                  -- bytes that it has added to that window's count (R377 step 3)
  heat    : Nat                  -- heat given at release (R398)
  overBud : Bool                 -- over-budget mark (R391)
  sent    : Nat                  -- pieces released
  parts   : List (Nat × Status × List SecRes)   -- answers of its pieces
  flip    : Flip
deriving DecidableEq, Repr

/-- A response in a response queue: beats not yet transferred, first first. -/
structure Resp where
  req    : Nat
  tag    : BitVec 9
  status : BitVec 4
  data   : Bool                  -- a data result, which holds reserved beats (R25)
  beats  : List (Sector × Bool)
deriving DecidableEq, Repr

/-- What the response channel carried at the last transfer (Table 3.1). -/
structure RespBeat where
  tag     : BitVec 9
  status  : BitVec 4
  data    : Sector
  rpoison : Bool
  rlast   : Bool
deriving DecidableEq, Repr

/-- The running state of a label (11, Label parameter memory, bytes 8-15). Tokens are in 1/16 B (R379). -/
structure LabelRun where
  tc      : Nat
  tp      : Nat
  npol    : Nat
  ts      : Nat
  nsh     : Nat
  parked  : Option Nat
  deficit : Nat
  avg     : Nat
deriving DecidableEq, Repr

/-- A client port with its Bellows. -/
structure Port where
  nextId   : Nat
  reqs     : List Req
  early    : List Beat           -- beats ahead of their request (R109)
  respq    : List Resp
  reserved : Nat                 -- data beats of the response queue reserved (R25)
  out      : Option RespBeat
  panic    : BitVec 2
  labels   : Vector LabelRun 32
  cur      : Nat                 -- the label last served in the weighted group (R388)
  selected : Option Nat          -- request selected and not yet released (R389)
  count    : Nat                 -- counted bytes of the window (R390)
  epoch    : Nat
  window   : Nat                 -- length of the running window in µs
  boundary : Nat                 -- next window boundary in ns
  throttle : Int                 -- port throttle bucket in 1/16 B; labels share it, so it may fall below 0 (R400)
  nthr     : Nat
deriving DecidableEq, Repr

/-! ### Tongs (01) -/

/-- Where a piece comes from: a port of this instance, or a gang link with the sender's tag (17). -/
inductive Origin where
  | port (p : PortId) (req : Nat) (idx : Nat)
  | link (k : Fin 3) (stag : Nat)
deriving DecidableEq, Repr

/-- A range invalidation (R369): system addresses `[base, base + size)`. -/
structure Range where
  base : Nat
  size : Nat
  key  : Bool
  full : Bool
deriving DecidableEq, Repr

/-- A piece of a request inside the core (R115), under its internal tag. -/
structure Piece where
  tag     : Nat
  origin  : Origin
  op      : BitVec 4
  port    : Nat
  addr    : Nat
  sectors : Nat
  label   : Nat
  attr    : BitVec 4
  heat    : Nat
  beats   : List Beat
  accept  : Nat
  judged  : Bool                 -- Hedge has permitted it
  next    : Nat                  -- sectors already taken by the slice
  results : List (Nat × SecRes)
  status  : Option Status        -- the one-beat answer, or the STATUS of a peer's response (17 R539)
  flip    : Flip
  erased  : List Range           -- key-erasure sweeps that have begun since Hedge permitted it (14 R480)
deriving DecidableEq, Repr

/-- A token waiting at an output of the Tongs. `tag` names a piece; a response carries its answer in the piece. -/
structure Waiting where
  output : Nat
  input  : Nat
  heat   : Nat
  tag    : Nat
deriving DecidableEq, Repr

/-- The crossbar: waiting inputs of both networks, the input last granted per network, output and heat,
the moment since which an output has waited, the bite and the bites not yet accepted by the fault unit (R29, R32,
R36), and the port that last took an internal tag at each heat (R27). -/
structure Tongs where
  reqNet : List Waiting
  retNet : List Waiting
  last   : List ((Bool × Nat × Nat) × Nat)
  since  : List ((Bool × Nat) × Nat)
  bitten : Option Nat
  limitFrom : Nat                -- when TNG_WDOG_NS.LIMIT took its value
  biteLimit : Nat                -- LIMIT at the first bite (R36)
  bites  : List (Nat × Nat)      -- detail and heat of the bites whose message has not been accepted
  hung   : Bool                  -- TNG_HANG records the bite accepted first (R36)
  tagTurn : List (Nat × Nat)     -- heat, and the port that last took a tag at that heat (R27, R29)
deriving DecidableEq, Repr

/-! ### Loft (10) -/

/-- A line held in a way or in the rick. -/
structure Line where
  line   : Nat                   -- λ of R333
  way    : Nat
  data   : Sector × Sector
  pois   : Bool × Bool
  pref   : Bool
  pin    : Bool
deriving DecidableEq, Repr

/-- A waiter of a miss register: a piece and the line's sectors it asks for. -/
structure Waiter where
  tag  : Nat
  secs : Bool × Bool
deriving DecidableEq, Repr

/-- Who opened a miss register. -/
inductive Opener where
  | read (tag : Nat)
  | hint
  | prefetch
deriving DecidableEq, Repr

/-- A miss register (R341 to R343). -/
structure Miss where
  id      : Nat
  line    : Nat
  sent    : Bool
  drop    : Bool
  keyDrop : Bool                 -- marked by a key-erasure sweep (R371)
  opener  : Opener
  waiters : List Waiter
  heat    : Nat
  pin     : Bool
  port    : Option Nat
deriving DecidableEq, Repr

/-- A merge entry (Table 10.3). -/
structure Merge where
  id     : Nat
  line   : Nat
  data   : Sector × Sector
  mask   : BitVec 64 × BitVec 64
  pset   : Bool × Bool
  pclr   : Bool × Bool
  smask  : Bool × Bool
  stream : Bool
  heat   : Nat
  start  : Nat
  opener : Nat                   -- piece that opened it
  port   : Option Nat
  flush  : Bool                  -- its flush has begun
  group  : Option Nat            -- swath group number (R350, R198)
  split  : Bool                  -- sectors that an open entry has given to a group; they share its place (R350)
deriving DecidableEq, Repr

/-- A prefetch on its way to a slice (R356). -/
structure Prefetch where
  line : Nat
  port : Nat
  pin  : Bool
deriving DecidableEq, Repr

/-- A line read's answer on its way from the anvil to the slice. -/
structure Fill where
  miss : Nat
  res  : Option SecRes × Option SecRes
  fresh : Bool                   -- a sector was found uncorrectable and is not yet poisoned (R344)
deriving DecidableEq, Repr

/-- One Loft slice. -/
structure Slice where
  inq     : List Nat             -- tags, in arrival order (R339)
  pfq     : List Prefetch
  fills   : List Fill
  drops   : List Nat             -- lines the anvil directs the slice to drop (R367)
  ways    : List Line
  plru    : List (Nat × BitVec 16)
  miss    : List Miss
  rick    : List Line            -- oldest first
  merge   : List Merge           -- oldest first
  ranges  : List Range           -- the queue of R369, at most 4
  waiting : List Range           -- ranges that wait at their sources while the queue is full (R369)
  sweep   : Option Range
  nextId  : Nat
  cleaning : List (Nat × List Nat)   -- way groups being cleaned, with the misses and merges that must end first (R364)
  settle  : Option Nat           -- start of the 100 µs of R346 after BANKED
  last01  : Option Nat           -- time of the last 0x01 message (R373)
  used    : Nat                  -- LFT_PF.USED and ISSUED without their modulus (the model's own counters, 08 R281)
  issued  : Nat
deriving DecidableEq, Repr

/-- A stride detector (R356); the list is kept most recently trained first. -/
structure Detector where
  port  : Nat
  label : Nat
  last  : Int
  step  : Int
  conf  : Nat
deriving DecidableEq, Repr

/-- A Loft function: its state and the number of slices is the spec's; here one state for the Loft (R358). -/
structure Fn where
  state : FnState
  want  : Bool                   -- the request
deriving DecidableEq, Repr

/-! ### Anvils (05, 06, 07, 09, 12) -/

/-- A DRAM place: rank, bank, row. -/
structure Place where
  rank : Nat
  bank : Nat
  row  : Nat
deriving DecidableEq, Repr

/-- What a read entry is for. -/
inductive ReadKind where
  | demand (miss : Nat) (half : Bool × Bool)    -- sectors of a line for a miss register
  | preread (write : Nat)                       -- pre-read of a write entry (R195)
  | scrub                                       -- the Gleaner's row visit (R323)
  | patrol (again dirty : Bool)                 -- the patrol's read (R328), with the marks of a row visit
deriving DecidableEq, Repr

/-- A read entry: positions of its row still to read, read and in flight, and returned. -/
structure ReadEnt where
  seq    : Nat
  stamp  : Nat
  kind   : ReadKind
  place  : Place
  secs   : List Nat              -- data sectors asked for (sector-in-row)
  todo   : List Nat
  flying : List Nat
  got    : List (Nat × Sector)
  heat   : Nat
  port   : Option Nat
  waits  : List Nat              -- writes (by seq) that must reach the DRAM first (R192)
  waitsM : List Nat              -- merge entries it waits for (R193)
  locate : Bool                  -- a locate read is in progress (R307)
deriving DecidableEq, Repr

/-- One sector of a write entry. -/
structure WSec where
  pos   : Nat                    -- sector-in-row
  data  : Sector
  mask  : BitVec 64
  pset  : Bool
  pclr  : Bool
deriving DecidableEq, Repr

/-- What a write entry writes. -/
inductive WriteKind where
  | data                         -- client data, a plot-fill row or a buffer-release zero-write: encrypted, encoded
  | save                         -- a sector of the banking area: encoded, not encrypted (16 R517)
  | mend                         -- stored bytes with their poison marks, as the scrub corrected them (R323)
  | poison                       -- the check sector re-encoded over the stored bytes with the mark set (R311)
  | bitmap (m : Nat)             -- the poison bitmap rewritten (R306, R323)
deriving DecidableEq, Repr

/-- A write entry (Table 5.1). -/
structure WriteEnt where
  seq    : Nat
  stamp  : Nat
  kind   : WriteKind
  place  : Place
  secs   : List WSec             -- the sectors it covers (R192)
  heat   : Nat
  port   : Option Nat
  ready  : Bool                  -- every pre-read has been merged
  todo   : List Nat              -- positions still to write, in order, once ready
  enc    : List (Nat × Sector × Bool)  -- position, stored bytes and poison mark, once ready
  deltas : List (Nat × Nat)      -- swath code: change of the XOR of the words, by position (R309)
  waitsR : List Nat              -- reads whose RD must issue first
  waitsW : List Nat              -- writes that must reach the DRAM first
  group  : Option Nat            -- swath group (R198)
  marks  : List Nat              -- a poison write: the sectors that its check burst marks (Table 9.4)
  recode : List Nat              -- a poison write: sectors whose swath's parities it recomputes from the stored words (R311)
  fill   : Bool                  -- belongs to the plot fill in progress
deriving DecidableEq, Repr

/-- A write of an anvil's own that waits for a write entry, one line of a row (R173): zeros of a buffer release (14 R484), or saved
sectors (16 R517). It has arrived: later accesses wait for it under R192. -/
structure FeedWrite where
  seq   : Nat
  place : Place
  secs  : List WSec
  save  : Bool
deriving DecidableEq, Repr

/-- Direction of an anvil (R181). -/
inductive Dir where
  | read | drain | interrupt
deriving DecidableEq, Repr

/-- A command word's code (Table 2.12). -/
inductive Code where
  | mrw | mrr | act | pre | prea | rd | wr | refpb | refab | rfm | sre | srx | pde | pdx | mpc
deriving DecidableEq, Repr

/-- Who put a command into the command slot. -/
inductive CmdSrc where
  | readEnt (seq : Nat) (pos : Nat)
  | writeEnt (seq : Nat) (pos : Nat)
  | smith (m : SmithId)
  | osc (m : SmithId)             -- a command that an OSC issues (02 R84)
  | refresh
  | rfm
  | neighbour (aggressor : Place)
  | mr4
  | zq
  | close
deriving DecidableEq, Repr

/-- A command in, or on its way to, the command slot. -/
structure Cmd where
  code : Code
  rank : Nat
  bank : Nat
  row  : Nat
  ap   : Bool
  bl16 : Bool
  col  : Nat
  ma   : Nat
  op   : Nat
  src  : CmdSrc
  due  : Nat                     -- the first edge it may issue at (02 R84); 0 for none
  bound : Bool                   -- it enters at the next slot boundary (02 R72, 06 R222)
  seen : Bool                    -- it stood in the slot when the latest command issued (R182)
deriving DecidableEq, Repr

/-- A command that has issued, kept for the timing rules (R206). -/
structure Issued where
  ck   : Nat
  code : Code
  rank : Nat
  bank : Nat
  dq   : Nat                     -- CK of DQ its burst occupies; 0 for none
  mark : Bool                    -- an MPC ZQ latch, or a precharge made by AP
deriving DecidableEq, Repr

/-- A RD whose burst has not crossed back, or an MRR whose result has not. -/
structure Burst where
  ck   : Nat
  cmd  : Cmd
  data : Option Sector           -- what the DRAM drives; none where it drives nothing defined
deriving DecidableEq, Repr

/-- A held check sector (R300); the list is kept most recently used first. -/
structure Check where
  place : Place
  pos   : Nat
  data  : Sector
deriving DecidableEq, Repr

/-- A refresh rank (R217). -/
structure RankRefresh where
  debt    : Int
  marks   : BitVec 8
  rounds  : Nat
  overdue : Bool                 -- an episode of R221 is open
  next    : Nat                  -- when the debt next rises, in 1/32 ns
deriving DecidableEq, Repr

/-- A pause requested on a channel (R76). -/
structure PauseReq where
  smith  : SmithId
  n      : Nat
  time   : Nat
  prep   : Bool                  -- preparation has begun
  forced : Bool                  -- it prepares at the next slot boundary (07 R264)
deriving DecidableEq, Repr

/-- A granted pause. -/
structure PauseGrant where
  smith : SmithId
  n     : Nat
  start : Nat
deriving DecidableEq, Repr

/-- A plot fill in progress (R199): rows still to write. -/
structure PlotFill where
  seq   : Nat                    -- its own arrival number: waiting accesses name it (R200)
  plot  : Nat
  heat  : Nat
  port  : Option Nat
  rows  : List Nat               -- row indices still to enter as write entries
  live  : List Nat               -- seqs of its write entries not yet at the DRAM
deriving DecidableEq, Repr

/-- The grant of an anvil (R414, R420). -/
inductive Grant where
  | none
  | owner (p : Nat)
  | background (p : Nat) (count : Nat)
  | carried (p : Nat) (untilCk : Nat) (drops : Bool)   -- over a table switch; a background grant drops with its port
deriving DecidableEq, Repr

/-- A row visit of the Gleaner (R323). -/
structure Visit where
  row    : Nat
  left   : List (List Nat)       -- positions still to enter as read entries, one line each (R173, R322)
  got    : List (Nat × Sector)   -- positions that its completed entries have read
  dirty  : Bool                  -- a write to the row has arrived since it began
  again  : List Nat              -- sectors whose address fault or seal failure this second visit confirms; none in a first visit
  mended : Bool                  -- taken from the mend list
  last   : Bool                  -- the last row of its lap
deriving DecidableEq, Repr

/-- One anvil with its command stage, PHY lanes, Gleaner and slot tables. -/
structure Anvil where
  fn        : Fn
  seq       : Nat
  reads     : List ReadEnt
  writes    : List WriteEnt
  pages     : Vector (Option Nat) 32
  hits      : Vector (List (Nat × Nat)) 16   -- per bank queue, heat and stamp of the page hits served in a row, newest first (R180)
  dir       : Dir
  slot      : List Cmd
  heat7     : List (Cmd × Bool)  -- heat-7 work, oldest first; true: it fell due while a pause was granted (R266)
  ck        : Nat
  hist      : List Issued
  bursts    : List Burst
  cache     : List Check
  plotBase  : Bool               -- valid bit of a plot not listed in plotExc
  plotExc   : List Nat
  fills     : List PlotFill      -- plot fills, oldest first; the first one runs (R199)
  tim       : Vector Word 9      -- ANV_TIM0-7 and ANV_DERATE as the command stage holds them (R210)
  timPend   : Bool               -- a write of them waits for a hold (R210)
  selfRef   : Vector Bool 2      -- a rank is in self-refresh
  pdown     : Vector Bool 2
  ranks     : Vector RankRefresh 2
  mr4Due    : Option Nat
  mr4Lower  : List Nat           -- states shown by consecutive lower polls (R224)
  mult      : Nat                -- 0, 1, 2: M = 1, 2, critical with M = 4
  thermReq  : Bool
  tally     : List (Nat × List (Nat × Nat))
  neighbour : List (Place × List Nat × Bool)   -- neighbour refreshes pending: aggressor, victims left, beyond BUDGET
  sweep     : List Place         -- aggressors of a sweep still to be released, at most 4 being pending (R231, R232)
  raa       : Vector Nat 32
  hammer    : Nat                -- slots of BUDGET used in the current period (R240)
  pauses    : List PauseReq
  granted   : List PauseGrant    -- one at a time in service; in KINDLE each Smith may hold one (R80)
  owed      : List (SmithId × Bool)     -- Smiths that owe an ENDP; true when the pause expired
  mrs       : List ((Nat × Nat) × Byte) -- operands of the last MRWs, by rank and mode register (02 R84)
  phyDbi    : Bool               -- the PHY inverts bytes and drives DMI (07 R256)
  dly       : List (Nat × BitVec 10)
  live      : List (Nat × BitVec 10)
  dlyPend   : List (Nat × BitVec 10)    -- store writes the live codes take at the next hold (R252)
  dlyLost   : Bool               -- the delay store was not restored: bank-out trains in full (16 R518)
  pat       : WMem
  patDmi    : List (Nat × BitVec 64)
  zqApply   : Bool               -- new codes wait for an idle bus (R267)
  zqUsed    : BitVec 6 × BitVec 6   -- PCODE and NCODE that the channel's drivers use (R267)
  zqDue     : Vector (Option Nat) 2
  retrainAt : Nat                -- the interval of event 6 runs from here (R259)
  testing   : Bool               -- the checker self-test runs
  macroOff  : Bool               -- an unrepairable macro kept it off at the end of COLD (16 R529)
  resetN : Bool                  -- the channel's RESET_n is high (19 R579 to R581)
  resetAt : Nat                  -- when it was released last
  last01    : Option Nat
  groupRun  : Option Nat         -- swath group whose bursts run (R198)
  sealBad   : List Place         -- rows whose seal failed in the row visit in progress (R306)
  sealRetry : List (Place × Bool)   -- rows whose seal failed with a write waiting; true once the row has been closed (R306)
  feed      : List FeedWrite     -- writes of its own that wait for a write entry, oldest first (14 R484, 16 R517)
  gln       : Fn
  walk      : Nat
  mend      : List Nat
  visit     : Option Visit
  lapStart  : Option Nat
  lapTold   : Bool
  patrolAt  : Nat                -- time of the patrol's last advance
  bank0     : List (Nat × Byte)
  bank1     : List (Nat × Byte)
  slotStart : Nat                -- CK edge at which the active table started
  grant     : Grant
  slotFresh : Bool               -- the table's first boundary is the next one (R409, R412)
  boundAt   : Option Nat         -- the boundary that the active table decided last
  dram      : SMem               -- what UF24 has written to the channel's DRAM
  segLost   : List (Nat × Nat × Nat)   -- rows of a rank lost in self-refresh, from the first up to the second, excluded (07 R270)
  lost      : Vector Nat 2       -- times that the contents of a rank became undefined (02 R585; the model's own counter)
  free      : Nat                -- samples of a free value taken so far (the model's own counter)
  drained   : Bool               -- its queues were emptied for a BANKED transition (R70)
deriving DecidableEq, Repr

/-- One hearth (07). -/
structure Hearth where
  locking : Bool                 -- a lock or relock is in progress (R244)
  zqDone  : Bool                 -- its drivers have been calibrated since it was powered (R255, R267)
  zqFrom  : Nat
  lockAt  : Nat                  -- when LOCK rose last
deriving DecidableEq, Repr

/-! ### Hedge (14) -/

/-- A region's function and keys (R475, R476). -/
structure Region where
  fn      : Fn
  k1      : Option (BitVec 256)
  k2      : Option (BitVec 256)
  engine  : Option (BitVec 256 × BitVec 256)
deriving DecidableEq, Repr

/-- A release message (Table 14.6). -/
structure Release where
  base  : Nat
  size  : Nat
  claim : Nat
  owner : Nat
  writes : List (Chan × Nat)     -- write entries, by seq, that held a sector of the range when it was accepted
  merges : List (Chan × Nat)     -- merge entries that did
deriving DecidableEq, Repr

/-- Hedge beyond its registers. -/
structure Hedge where
  fuse     : Vector Word 128     -- the fuse shadow (R466)
  regions  : Vector Region 8
  alarm    : Bool
  lastB    : Option Nat          -- time of the last class-B message (R486)
  queue    : List Release
  honour   : Bool                -- the front message has been judged honourable
deriving DecidableEq, Repr

/-! ### Fault unit and event FIFO (15) -/

/-- A fault message before acceptance (Table 15.1); `raiser` is the Smith whose RAISE or fault waits for it (R493). -/
structure Msg where
  source : Byte
  kind   : Byte
  sev    : BitVec 2
  addr   : BitVec 41
  detail : BitVec 23
  raiser : Option SmithId
deriving DecidableEq, Repr

/-- The fault unit: messages that wait for acceptance, accepted messages that have not left, the last message
the collector took, and the running pulse. -/
structure FaultUnit where
  arriving : List Msg
  queue    : List (BitVec 96)
  sent     : Option (BitVec 96)
  pulse    : Option Nat          -- when the message of the latest start was accepted (R500)
deriving DecidableEq, Repr

/-- A record of the event FIFO: its words so far, its length, whether it is complete. -/
structure Rec where
  id       : Nat
  len      : Nat
  words    : List (BitVec 64)
  complete : Bool
  gap      : Bool
deriving DecidableEq, Repr

/-- Who reads the event FIFO and the register space. -/
inductive Agent where
  | host
  | smith (m : SmithId)
deriving DecidableEq, Repr

/-- The event FIFO (15). Records stand in arrival order; `reading` is the record whose first word a reader took. -/
structure Evq where
  recs    : List Rec
  nextId  : Nat
  writing : Option Nat           -- the Master Smith's unfinished record; its id
  ignore  : Nat                  -- words of a dropped record still to ignore (R510)
  putLo   : Word
  reading : Option (Nat × Agent)
  flushP  : Bool
  timer   : Option Nat           -- the unread timer runs from here (R515)
deriving DecidableEq, Repr

/-! ### Modes, Temper, Assay, gang (13, 16, 17) -/

/-- The modes (Table 13.1). -/
inductive Mode where
  | cold | kindle | forge | lowfire | banked | assay | quench
deriving DecidableEq, Repr

/-- How far a BANKED entry or exit has come (R441, R443). -/
inductive BankStep where
  | none | draining | ready | bankIn | run | gateOff | off | gateOn | bankOut
deriving DecidableEq, Repr

/-- The mode control beyond GLB_MODE. -/
structure ModeCtl where
  mode     : Mode
  step     : BankStep
  hostBank : Bool                -- a host request for BANKED was accepted or recorded (R449)
  recorded : Option Mode         -- the request recorded during a transition (R435)
  recHost  : Bool                -- the recorded request for BANKED is the host's (R449)
  held     : Bool                -- an exit request arrived during the automatic run (R523)
  wake     : List SmithId        -- Smiths to start at BANKED exit (R52)
  pgReq    : BitVec 2            -- PM_PGREQ
  offReq   : Bool                -- PM_OFFREQ
  offRun   : Bool                -- the BANKED entry in progress is a planned power-off (16 R519)
  offAck   : Bool                -- PM_OFFACK
  pinsLow  : Bool                -- RST_N is low
  fuseRead : Bool                -- the fuse image has been read in this COLD
  gateFrom : Option Nat          -- when the fault unit began to drain before power gating (R497)
  gated    : Bool                -- the core has no power (R441 step 7)
  shedFrom : Nat                 -- shed step timer
  shedLow  : Nat                 -- latest change of GLB_SHED.LEVEL (R447)
deriving DecidableEq, Repr

/-- Temper beyond its registers. -/
structure Temper where
  round   : Bool                 -- a round is in progress
  roundAt : Nat                  -- when it started (R457)
  again   : Bool                 -- a scheduled time fell during the round
  base    : Option Nat           -- last scheduled time, or the completion of KINDLE exit
  vreq    : BitVec 6             -- PM_VREQ, but for the changes that `vreqs` holds
  vreqs   : List (Nat × BitVec 6)   -- changes of TMP_VREQ.CODE on their way to PM_VREQ, newest first, by the REFCLK cycle they take effect at (R460)
  vack    : Bool
  vset    : BitVec 8             -- levels that the comparator has asserted (R451)
  rset    : BitVec 8             -- levels that the rate monitor has asserted (R452)
  above   : Vector (Option Nat) 8   -- comparator: since when each level's release condition holds (R451)
  pmPin   : BitVec 3             -- the sag input of the power-management port (R450)
  below   : Vector (Option Nat) 8   -- rate monitor: since when each level's release condition holds
deriving DecidableEq, Repr

/-- The repair of one macro in the retention store (16 R527). -/
structure Repair where
  macroId : Nat
  rows    : List Nat
  cols    : List Nat
  unrep   : Bool
deriving DecidableEq, Repr

/-- A run of the Assay engine. -/
inductive RunKind where
  | automatic | short | direct
deriving DecidableEq, Repr

/-- The Assay engine. -/
structure Assay where
  run      : Option (RunKind × List Nat)   -- quarters still to end, first first
  repairs  : List Repair
  inForce  : List Repair                   -- the repair that the core's memories apply (R527)
  saveSeq  : Word                -- save sequence of the retention store (16 Table 16.1)
  records  : List (Nat × Word)             -- result words of Table 16.6
  tested   : BitVec 4                      -- quarters whose memory test has left its records
  holdExit : Bool                          -- an unrepairable mapped macro holds BANKED (R529)
  tap      : Bool                          -- the last wrapper instruction was replaced by bypass
  later    : List (Nat × Nat)              -- severity and detail of the short test's findings, to be sent at KINDLE (R528)
deriving DecidableEq, Repr

/-- A request header or response header taken from a link, waiting for its beats. -/
structure LinkItem where
  hdr   : BitVec 160
  beats : List (Sector × Bool)
  want  : Nat
  drop  : Bool                    -- its peer has departed: it is discarded once its beats have come (17 R547)
deriving DecidableEq, Repr

/-- A gang link (17). -/
structure Link where
  rxSeq   : BitVec 8             -- SEQ of the last good word
  started : Bool
  nak     : Bool
  replays : Nat                  -- failures of the word now awaited
  items   : List LinkItem        -- headers whose data stream is not complete, oldest first
  ctrl    : List (BitVec 128)    -- control messages received and not yet handled
  txCtrl  : List (BitVec 128)    -- control messages handed to the transmitter, newest first
  txHdr   : List (BitVec 160 × Nat)   -- headers handed to the transmitter, oldest first, with the beats each owns
  txData  : List (Sector × Bool) -- their data beats, with WPOISON or RPOISON
  reqCr   : Nat                  -- credits held (R536)
  datCr   : Nat
  reqBack : Nat                  -- entries of this receiver that are free again and not yet returned to the peer (R536)
  datBack : Nat
  owed    : Nat                  -- beats that the headers already sent still own
  txSeq   : BitVec 8             -- SEQ of the next new word
  store   : List (BitVec 1024)   -- the last 128 words sent, newest first (R537)
  replay  : List (BitVec 1024)   -- words to send again, first first (R537)
  asked   : BitVec 8             -- the word that the peer asked for last
  tries   : Nat                  -- replays of that word
  out     : Option (BitVec 1024) -- the word sent last
  late    : List (Nat × Nat)     -- STAG and READ beats of requests answered UNMAPPED whose response has not come (R547)
deriving DecidableEq, Repr

/-- A gang peer (R542). -/
structure Peer where
  fn    : Fn
  hbAt  : Nat                    -- time of the latest valid heartbeat, or of the start of membership
  mode  : BitVec 3
  shed  : BitVec 3
  view  : BitVec 4
  skew  : Int
  calm  : Nat                    -- consecutive heartbeats within 50 ns
  since : Nat
deriving DecidableEq, Repr

/-- The gang unit. -/
structure Gang where
  links  : Vector Link 3
  peers  : Vector Peer 4
  fifo   : List (BitVec 64 × BitVec 2)
  txLo   : Word
  hbSent : Nat
  differs : BitVec 4             -- peers that have shown another version or digest since the last exchange (R543, 08 Table 8.6)
  free   : Nat                   -- free values taken so far outside the anvils (the model's own counter)
deriving DecidableEq, Repr

/-- What the reference Master Smith image asks of an Anvil Smith, as a flag in its data memory (08 Table 8.1, R273, R285). -/
inductive Order where
  | train (fsp : Nat)
  | margin (ranks : List Nat) (mail : Bool)   -- `mail`: for the MARGIN command, else for temper (13 R459)
  | park
  | bankIn
  | bankOut
deriving DecidableEq, Repr

/-- What an Anvil Smith reports to the Master Smith. -/
inductive Report where
  | calibrated                                -- step 1 of training has passed (06 R215)
  | trained (pass : Bool)
  | margin (windows : Nat × Nat × Nat) (mail : Bool)
  | parked
  | banked                                    -- a bank-in or bank-out step has ended
deriving DecidableEq, Repr

/-- A step of a program of the reference Anvil Smith image. `dir` is the direction of a DMI class (07 R250). -/
inductive JobStep where
  | zqMode (rank : Nat)                          -- step 1 of 07 Table 7.5: background calibration mode (07 R268)
  | zq (rank : Nat)                              -- step 1: the hearth's codes, and the latch
  | told                                         -- step 1 has passed: the Master Smith learns it (06 R215)
  | saved                                        -- the save of bank-in has reached the DRAM (13 R441)
  | window (step rank cls dir : Nat)             -- the windows of a lane class; step 7 stands for MARGIN
  | level (rank : Nat)                           -- one of the 8 sweeps of step 3
  | dbi (on : Bool)                              -- 07 R256
  | check (rank pattern cls dir : Nat)           -- one EYE at the codes in use (07 R258, R261)
  | count (rank : Nat) (dqo : Bool)              -- one OSC (07 R260)
  | baseline                                     -- the counts become the baseline
  | judge                                        -- the drift of the counts (07 R260)
  | move (rank : Nat)                            -- the codes of a rank are moved in a pause (07 R260)
  | moved (rank : Nat)                           -- the new codes have passed (07 R261)
deriving DecidableEq, Repr

/-- The program that an Anvil Smith runs. -/
inductive JobKind where
  | train (fsp : Nat) | bankIn | bankOut | retrain | margin (mail : Bool)
deriving DecidableEq, Repr

/-- A program of the reference Anvil Smith image in progress (08 Table 8.1). -/
structure Job where
  kind      : JobKind
  steps     : List JobStep        -- the first one runs
  code      : Nat                 -- the code a sweep tries
  maps      : List Word           -- pass maps of a sweep at the codes before it, latest first
  levels    : List (Nat × Nat)    -- transitions of the sweeps of step 3, byte 0 and byte 1
  saved     : List (Nat × BitVec 10)   -- codes to put back, by offset
  counts    : List ((Nat × Nat × Bool) × Nat)   -- oscillator counts, by rank, byte and WCK2DQO
  windows   : List (Nat × Nat)    -- smallest window found, by lane class
  cancelled : Bool
deriving DecidableEq, Repr

/-- A mailbox command that the Master Smith has handed to the Anvil Smiths (08 R273), with the time it must answer by. -/
inductive Task where
  | kindle (rest : List Nat) (fsp : Nat) (waiting failed : List Chan) (limit : Nat)   -- set points to train, the one in work
  | margin (c : Chan) (limit : Nat)
  | park (waiting : List Chan) (limit : Nat)
  | settle (points : List Nat) (limit : Nat)        -- KINDLE_RUN, until every DRAM reset is released and settled (19 R579)
  | rejoin (limit : Nat)                            -- GANG_REJOIN, until its peers have answered (17 R543)
deriving DecidableEq, Repr

/-- What the reference images remember in their data memories outside the status block of 08 Table 8.7. -/
structure Prog where
  knobs  : BitVec 3              -- STEWARD ARG0: WM, PREFETCH, RETRAIN
  bounds : Word                  -- STEWARD ARG1: lowest and highest RI_STEWARD
  calm   : Nat                   -- consecutive ticks with every drift at a quarter of THRESH_PPT or less
  pf     : List (List (Nat × Nat))   -- prefetched lines used and issued, of every slice at the last ticks, newest first
  seen   : BitVec 4              -- peers that the gang program knows as joined
  susp   : Bool                  -- GNG_SKEW.SUSP as the gang program saw it last
  high   : List (Nat × Nat)      -- ANV_WM.HIGH as steward wrote it last, by channel (01 R45)
  depth  : List (Nat × Nat)      -- LFT_PF.DEPTH as steward wrote it last, by channel
  code   : Nat                   -- TMP_VREQ.CODE, the timing guard, THRESH_PPT, RI_TEMPER and ADMIT_CAP_PPT of the last temper run (13 R459)
  guard  : Nat
  thresh : Nat
  ri     : Nat
  cap    : Nat
  margins : List (Nat × Nat)     -- smallest window of the latest MARGIN measurement, by channel (13 R459)
  measured : Nat                 -- the channel that temper measured last
  mode   : Bool                  -- the mode handler runs (R273)
  task   : Option Task
  reports : List (Chan × Report)
  orders : Vector (List Order) 24
  jobs   : Vector (Option Job) 24
  base   : Vector (List ((Nat × Nat × Bool) × Nat)) 24   -- baseline counts (07 R260)
deriving DecidableEq, Repr

/-- Nothing inverted. -/
def Flip.none : Flip := { status := 0, data := 0, rpoison := false }

/-- Two inversions together. -/
def Flip.xor (a b : Flip) : Flip :=
  { status := a.status ^^^ b.status, data := a.data ^^^ b.data, rpoison := a.rpoison != b.rpoison }

/-- The timebase counter beyond its value: REFCLK cycles since RST_N (19 R577), the skew to the reference that is still
to be slewed away, and the ns counted towards the next ns that may be slewed (17 R550). -/
structure Clock where
  refclk : Nat
  owed   : Int
  rest   : Nat
  free   : Nat                         -- free values taken (the model's own counter)
deriving DecidableEq, Repr

/-- The state of UF24. -/
structure State where
  timebase : Nat                       -- the 64-bit nanosecond timebase (R577)
  clock    : Clock
  regs     : WMem                      -- the register space, by host byte address
  hrpRdata : Word                      -- HRP_RDATA of the last completed access
  hrpRvalid : Bool                     -- HRP_RVALID: an access has completed (19 Table 19.1)
  hrpHeld  : List (Nat × Option Word)  -- accesses that the port holds until COLD ends, oldest first (18 R560)
  hostCaps : Captures
  smiths   : Vector Smith 25
  imageMS  : Image
  imageAS  : Image
  verify   : Option Bool               -- an image is being verified; true for the Anvil Smith image
  ports    : Vector Port 128
  pieces   : List Piece                -- pieces inside the core; their tags are the tags in use (R27)
  tongs    : Tongs
  slices   : Vector Slice 24
  detect   : List Detector
  loftFns  : Vector Fn 6
  fullInv  : List Chan                 -- slices that have not finished a full invalidation (R368)
  anvils   : Vector Anvil 24
  hearths  : Vector Hearth 4
  hedge    : Hedge
  faults   : FaultUnit
  evq      : Evq
  modes    : ModeCtl
  temper   : Temper
  assay    : Assay
  gang     : Gang
  prog     : Prog
  pending  : List Instr                -- commands that wait, first in, first out
deriving DecidableEq, Repr

/-- Why the machine stops: no command of UF24 stops it. An event whose condition does not hold leaves the state
unchanged (log entry 1), so the type has no constructor (safe). -/
inductive Fault where
deriving DecidableEq, Repr

/-- Why a command has no meaning. `notModelled` would be raised by the dispatch for a row with no meaning yet
(safe); no row is left in that state. -/
inductive Refusal where
  | notModelled (mnemonic : String)
deriving DecidableEq, Repr

/-! ### Reset -/

/-- A function that is OFF with its request OFF. -/
def Fn.reset : Fn := { state := .off, want := false }

/-- No capture pending; the halves that R513 and R563 return before any removal are 0 (log entry 6). -/
def Captures.reset : Captures :=
  { timebase := none, slot := Vector.replicate 24 none, lap := Vector.replicate 24 none,
    evq := none, evqLast := 0, smsg := none, smsgSrc := 0 }

/-- A Smith after RST_N: STOPPED, its data memory zero (R48), its local registers at Table 2.4. -/
def Smith.reset : Smith :=
  { run := .stopped, pc := 0, g := Vector.replicate 16 0, evpend := 0, evmask := 0, evcause := 0, tick := 0,
    tickFrom := 0, sigset := 0, vec := Vector.replicate 16 0, dmem := [], wait := none, stopReq := false, mrr := [],
    caps := Captures.reset }

/-- An instruction memory with no accepted image, every word 0 (R566). -/
def Image.reset : Image := { mem := [], accepted := false, length := 0, entry := 0, reference := false }

/-- The running state of a label: every bucket full (R402), in 1/16 B of the largest size of R379. -/
def LabelRun.reset : LabelRun :=
  { tc := 2 ^ 32, tp := 2 ^ 32, npol := 0, ts := 2 ^ 32, nsh := 0, parked := none, deficit := 0, avg := 0 }

/-- A port after RST_N; its first window has the length of the reset value of BLW_CFG.WINDOW. -/
def Port.reset : Port :=
  { nextId := 0, reqs := [], early := [], respq := [], reserved := 0, out := none, panic := 0,
    labels := Vector.replicate 32 LabelRun.reset, cur := 0, selected := none, count := 0, epoch := 0,
    window := 100, boundary := 100000, throttle := 2 ^ 17, nthr := 0 }

/-- The Tongs with nothing inside. -/
def Tongs.reset : Tongs :=
  { reqNet := [], retNet := [], last := [], since := [], bitten := none, limitFrom := 0, biteLimit := 0, bites := [],
    hung := false, tagTurn := [] }

/-- An empty Loft slice. -/
def Slice.reset : Slice :=
  { inq := [], pfq := [], fills := [], drops := [], ways := [], plru := [], miss := [], rick := [], merge := [],
    ranges := [], waiting := [], sweep := none, nextId := 0, cleaning := [], settle := none, last01 := none, used := 0, issued := 0 }

/-- No debt, no mark. -/
def RankRefresh.reset : RankRefresh := { debt := 0, marks := 0, rounds := 0, overdue := false, next := 0 }

/-- An anvil after RST_N: empty queues, every page closed, timing fields at their largest encodings (R211),
no plot written (R318), bank 0 active and both banks 0x00 (R406). -/
def Anvil.reset : Anvil :=
  { fn := Fn.reset, seq := 0, reads := [], writes := [], pages := Vector.replicate 32 none,
    hits := Vector.replicate 16 [], dir := .read, slot := [], heat7 := [], ck := 0, hist := [], bursts := [],
    cache := [], plotBase := false, plotExc := [], fills := [],
    tim := #v[0x7F7F7F7F, 0x7F1F3F1F, 0x0F3F7F7F, 0x0F3F3FFF, 0x1F1F1F1F, 0x03FF03FF, 0x03FFFFFF, 0x0000FFFF, 0],
    timPend := false, sweep := [], selfRef := Vector.replicate 2 false, pdown := Vector.replicate 2 false,
    ranks := Vector.replicate 2 RankRefresh.reset, mr4Due := none, mr4Lower := [], mult := 0,
    thermReq := false, tally := [], neighbour := [], raa := Vector.replicate 32 0, hammer := 0, pauses := [],
    granted := [], owed := [], mrs := [], phyDbi := false, dly := [], live := [], dlyPend := [], dlyLost := false, pat := [], patDmi := [],
    zqApply := false, zqUsed := (0x20, 0x20), zqDue := Vector.replicate 2 none, retrainAt := 0, testing := false, macroOff := false, resetN := false, resetAt := 0, last01 := none,
    groupRun := none, sealBad := [], sealRetry := [], feed := [], gln := Fn.reset, walk := 0, mend := [], visit := none, lapStart := none, lapTold := false,
    patrolAt := 0, bank0 := [], bank1 := [], slotStart := 0, grant := .none, slotFresh := true, boundAt := none,
    dram := [], segLost := [], lost := Vector.replicate 2 0, free := 0, drained := false }

/-- A hearth with its PLL stopped. -/
def Hearth.reset : Hearth := { locking := false, zqDone := false, zqFrom := 0, lockAt := 0 }

/-- A region with no key. -/
def Region.reset : Region := { fn := Fn.reset, k1 := none, k2 := none, engine := none }

/-- Hedge before the fuse image is read: the shadow reads 0 (log entry 6). -/
def Hedge.reset : Hedge :=
  { fuse := Vector.replicate 128 0, regions := Vector.replicate 8 Region.reset, alarm := false, lastB := none,
    queue := [], honour := false }

/-- The fault unit with no message. -/
def FaultUnit.reset : FaultUnit :=
  { arriving := [], queue := [], sent := none, pulse := none }

/-- The event FIFO, empty (R516). -/
def Evq.reset : Evq :=
  { recs := [], nextId := 0, writing := none, ignore := 0, putLo := 0, reading := none, flushP := false,
    timer := none }

/-- COLD with RST_N low. -/
def ModeCtl.reset : ModeCtl :=
  { mode := .cold, step := .none, hostBank := false, recorded := none, recHost := false, held := false, wake := [], pgReq := 0,
    offReq := false, offRun := false, offAck := false, pinsLow := true, fuseRead := false, gateFrom := none, gated := false, shedFrom := 0, shedLow := 0 }

/-- Temper at rest; PM_VREQ shows the reset value of TMP_VREQ.CODE, and the supply has been in range, above every release level, since
RST_N (19 R578; DEDUCED, log entry 103). -/
def Temper.reset : Temper :=
  { round := false, roundAt := 0, again := false, base := none, vreq := 0x1E, vreqs := [], vack := false, vset := 0, rset := 0,
    above := Vector.replicate 8 (some 0), pmPin := 0, below := Vector.replicate 8 none }

/-- The Assay engine and its retention store as at always-on power-up (R566). -/
def Assay.reset : Assay :=
  { run := none, repairs := [], inForce := [], saveSeq := 0, records := [], tested := 0, holdExit := false, tap := false,
    later := [] }

/-- A link held in reset. -/
def Link.reset : Link :=
  { rxSeq := 0, started := false, nak := false, replays := 0, items := [], ctrl := [], txCtrl := [], txHdr := [], txData := [],
    reqCr := 256, datCr := 512, reqBack := 0, datBack := 0, owed := 0, txSeq := 0, store := [], replay := [], asked := 0,
    tries := 0, out := none, late := [] }

/-- A peer that is OFF. -/
def Peer.reset : Peer :=
  { fn := Fn.reset, hbAt := 0, mode := 0, shed := 0, view := 0, skew := 0, calm := 0, since := 0 }

/-- The gang unit with its links in reset. -/
def Gang.reset : Gang :=
  { links := Vector.replicate 3 Link.reset, peers := Vector.replicate 4 Peer.reset, fifo := [], txLo := 0,
    hbSent := 0, differs := 0, free := 0 }

/-- The reference images have not run; every value is laid out at its start. -/
def Prog.reset : Prog :=
  { knobs := 0, bounds := 0, calm := 0, pf := [], seen := 0, susp := false, high := [], depth := [], code := 0, guard := 0, thresh := 1023, ri := 50, cap := 950, margins := [],
    measured := 23, mode := false, task := none, reports := [], orders := Vector.replicate 24 [], jobs := Vector.replicate 24 none,
    base := Vector.replicate 24 [] }

/-- No REFCLK cycle counted, nothing to slew. -/
def Clock.reset : Clock := { refclk := 0, owed := 0, rest := 0, free := 0 }

/-- UF24 right after power-up with RST_N low: COLD (Table 13.2), every register at the reset value of its table
(R566), no command pending. -/
def State.reset : State :=
  { timebase := 0, clock := Clock.reset, regs := [], hrpRdata := 0, hrpRvalid := false, hrpHeld := [], hostCaps := Captures.reset,
    smiths := Vector.replicate 25 Smith.reset, imageMS := Image.reset, imageAS := Image.reset, verify := none,
    ports := Vector.replicate 128 Port.reset, pieces := [], tongs := Tongs.reset,
    slices := Vector.replicate 24 Slice.reset, detect := [], loftFns := Vector.replicate 6 Fn.reset, fullInv := [],
    anvils := Vector.replicate 24 Anvil.reset, hearths := Vector.replicate 4 Hearth.reset, hedge := Hedge.reset,
    faults := FaultUnit.reset, evq := Evq.reset, modes := ModeCtl.reset, temper := Temper.reset,
    assay := Assay.reset, gang := Gang.reset, prog := Prog.reset, pending := [] }

end Sys2Proof.Machine
end

