-- ==== Sys2Proof/Machine/Ops.lean ====
section
/-! DEFINITION. The named operations every meaning is built from: bit fields, sparse memories, tables of blocks,
raw register access, faults and events. -/

namespace Sys2Proof.Machine

/-- What a meaning answers. -/
abbrev Out := Host.Outcome State Fault Refusal

/-- An event whose condition `c` does not hold does not occur: the state stays (log entry 1). -/
def occur (c : Bool) (s s' : State) : State := if c then s' else s

/-! ### Bits -/

/-- Bits `[hi:lo]` of a number (00 R8). -/
def bits (n hi lo : Nat) : Nat := n / 2 ^ lo % 2 ^ (hi - lo + 1)

/-- Bit `i` of a number. -/
def bit (n i : Nat) : Bool := n / 2 ^ i % 2 == 1

/-- Bits `[hi:lo]` of a word. -/
def wbits (w : Word) (hi lo : Nat) : Nat := bits w.toNat hi lo

/-- Bit `i` of a word. -/
def wbit (w : Word) (i : Nat) : Bool := bit w.toNat i

/-- A word of ones in bits `[hi:lo]`. -/
def maskBits (hi lo : Nat) : Word := BitVec.ofNat 32 ((2 ^ (hi - lo + 1) - 1) * 2 ^ lo)

/-- `w` with bits `[hi:lo]` replaced by `v`. -/
def putBits (w : Word) (hi lo v : Nat) : Word :=
  (w &&& ~~~ maskBits hi lo) ||| BitVec.ofNat 32 (v % 2 ^ (hi - lo + 1) * 2 ^ lo)

/-- A Bool as a bit. -/
def b2n (b : Bool) : Nat := if b then 1 else 0

/-- The smaller of a count and its saturation. -/
def sat (limit n : Nat) : Nat := if n < limit then n else limit

/-- Division rounded up. -/
def ceilDiv (a b : Nat) : Nat := (a + b - 1) / b

/-! ### Sparse memories -/

/-- Read of a sparse memory: `d` gives what an unlisted address reads as. -/
def SMap.get {β : Type} (d : Nat → β) : List (Nat × β) → Nat → β
  | [], k => d k
  | (k', v) :: m, k => if k = k' then v else SMap.get d m k

/-- Insert or replace, keeping addresses rising. -/
def SMap.insert {β : Type} : List (Nat × β) → Nat → β → List (Nat × β)
  | [], k, v => [(k, v)]
  | (k', v') :: m, k, v =>
    if k < k' then (k, v) :: (k', v') :: m
    else if k = k' then (k, v) :: m
    else (k', v') :: SMap.insert m k v

/-- Remove an entry. -/
def SMap.erase {β : Type} (m : List (Nat × β)) (k : Nat) : List (Nat × β) := m.filter (fun e => e.1 != k)

/-- Write of a sparse memory, keeping its canonical form: no entry equals what an unlisted address reads as. -/
def SMap.set {β : Type} [DecidableEq β] (d : Nat → β) (m : List (Nat × β)) (k : Nat) (v : β) : List (Nat × β) :=
  if v = d k then SMap.erase m k else SMap.insert m k v

/-- Addresses strictly rising. -/
def SMap.rising {β : Type} : List (Nat × β) → Bool
  | [] => true
  | [_] => true
  | a :: b :: m => decide (a.1 < b.1) && SMap.rising (b :: m)

/-- The canonical form of a sparse memory. -/
def Memory.wf {β : Type} [DecidableEq β] (d : Nat → β) (m : List (Nat × β)) : Bool :=
  SMap.rising m && m.all (fun e => e.2 != d e.1)

/-- A word memory that reads 0 where nothing is listed. -/
def WMem.get (m : WMem) (k : Nat) : Word := SMap.get (fun _ => 0) m k

/-- Write of a word memory that reads 0 where nothing is listed. -/
def WMem.set (m : WMem) (k : Nat) (w : Word) : WMem := SMap.set (fun _ => 0) m k w

/-! ### Tables of blocks -/

/-- Change entry `i` of a table. -/
def upd {α : Type} {n : Nat} (v : Vector α n) (i : Fin n) (f : α → α) : Vector α n := v.set i (f v[i])

/-- Change the Smith `m`. -/
def State.onSmith (s : State) (m : SmithId) (f : Smith → Smith) : State := { s with smiths := upd s.smiths m f }

/-- Change the port `p`. -/
def State.onPort (s : State) (p : PortId) (f : Port → Port) : State := { s with ports := upd s.ports p f }

/-- Change the Loft slice `c`. -/
def State.onSlice (s : State) (c : Chan) (f : Slice → Slice) : State := { s with slices := upd s.slices c f }

/-- Change the anvil `c`. -/
def State.onAnvil (s : State) (c : Chan) (f : Anvil → Anvil) : State := { s with anvils := upd s.anvils c f }

/-- Every channel number. -/
def allChans : List Chan := List.finRange 24

/-- Every Smith number. -/
def allSmiths : List SmithId := List.finRange 25

/-- Every port number. -/
def allPorts : List PortId := List.finRange 128

/-- The timebase at REFCLK cycle `n` of RST_N (19 R577). -/
def refNs (n : Nat) : Nat := n * 625 / 24

/-- The last REFCLK cycle whose timebase value is `now` or less (19 R577). -/
def refCycle (now : Nat) : Nat := (24 * now + 23) / 625

/-- The ns by which an instance that owes a skew to the reference slews its timebase while `d` ns pass: at most 1 in
every 1,000 ns, and no more than it owes (17 R550); a free value within that (log entry 93). -/
def Clock.slewed (k : Clock) (d : Nat) : Nat :=
  if k.owed = 0 then 0 else min k.owed.natAbs (Config.freeSlew k.free % ((k.rest + d) / 1000 + 1))

/-- The counter after `d` more ns, at REFCLK cycle `n`. -/
def Clock.run (k : Clock) (n d : Nat) : Clock :=
  if k.owed = 0 then { k with refclk := n, rest := 0 }
  else
    let u := k.slewed d
    { refclk := n, owed := if 0 < k.owed then k.owed - u else k.owed + u, rest := (k.rest + d) % 1000, free := k.free + 1 }

/-- REFCLK reaches the moment `now`, in ns since RST_N as REFCLK counts them (log entry 7): the timebase takes the value
of its last cycle, slewed in a gang, and never runs backwards (17 R550, 19 R577). -/
def State.at (s : State) (now : Nat) : State :=
  let n := max s.clock.refclk (refCycle now)
  let d := refNs n - refNs s.clock.refclk
  { s with timebase := if 0 ≤ s.clock.owed then s.timebase + d + s.clock.slewed d else s.timebase + d - s.clock.slewed d
           clock := s.clock.run n d }

/-- The host port accepts no access in COLD and holds each one (18 R560). -/
def State.holdAccess (s : State) (l : List (Nat × Option Word)) : State := { s with hrpHeld := s.hrpHeld ++ l }

/-- The timebase when REFCLK has reached the moment `now`. -/
def State.timeAt (s : State) (now : Nat) : Nat := (s.at now).timebase

/-! ### Register addresses (Tables 18.4 to 18.7) -/

def aID : Nat := 0x000000
def aCFGID : Nat := 0x000004
def aHERR : Nat := 0x000008
def aHERR_ADDR : Nat := 0x00000C
def aMODE : Nat := 0x000010
def aMODE_REQ : Nat := 0x000014
def aSHED : Nat := 0x000018
def aTB_LO : Nat := 0x000020
def aTB_HI : Nat := 0x000024
def aGANG : Nat := 0x000040
def aFURROW : Nat := 0x000044
def aCAP : Nat := 0x000048
def aCHMAP (n : Nat) : Nat := 0x000050 + 4 * n
def aADJ (n : Nat) : Nat := 0x000060 + 4 * n
def aRFM : Nat := 0x000068
def aLOFT_CTL : Nat := 0x000070
def aLOFT_STAT : Nat := 0x000074
def aGRANK (n : Nat) : Nat := 0x000080 + 4 * n
def aLAPSE (n : Nat) : Nat := 0x0000C0 + 4 * n
def aSMI_CTL : Nat := 0x000100
def aAS_SEL : Nat := 0x000104
def aSTATE0 : Nat := 0x000108
def aSTATE1 : Nat := 0x00010C
def aLOAD : Nat := 0x000110
def aEVSET : Nat := 0x000114
def aVER_MS : Nat := 0x000118
def aVER_AS : Nat := 0x00011C
def aHDR (n : Nat) : Nat := 0x000120 + 4 * n
def aMBOX_CMD : Nat := 0x000140
def aMBOX_ARG (n : Nat) : Nat := 0x000144 + 4 * n
def aMBOX_STATUS : Nat := 0x000154
def aSWD_EN (n : Nat) : Nat := 0x000180 + 4 * n
def aSWD_ACTIVE (n : Nat) : Nat := 0x000190 + 4 * n
def aPERR : Nat := 0x0001A0
def aWDOG : Nat := 0x0001C0
def aHANG : Nat := 0x0001C4
def aSCRATCH (n : Nat) : Nat := 0x000200 + 4 * n
def aFIRST (n : Nat) : Nat := 0x001000 + 4 * n
def aOVF : Nat := 0x00100C
def aQSTAT : Nat := 0x001010
def aFORCE (n : Nat) : Nat := 0x001020 + 4 * n
def aFORCE_MSG : Nat := 0x00102C
def aPIN_WIDTH : Nat := 0x001030
def aPIN_HOLD : Nat := 0x001034
def aLINKINJ : Nat := 0x001040
def aEVQ_STATUS : Nat := 0x001100
def aEVQ_CTL : Nat := 0x001104
def aEVQ_TIMEOUT : Nat := 0x001108
def aEVQ_LO : Nat := 0x001110
def aEVQ_HI : Nat := 0x001114
def aPUT_HDR : Nat := 0x001120
def aPUT_LO : Nat := 0x001124
def aPUT_HI : Nat := 0x001128
def aHDG_STAT : Nat := 0x002000
def aKEYSTAT : Nat := 0x002004
def aKEYHELD : Nat := 0x002008
def aKEYCTL : Nat := 0x00200C
def aVIOL : Nat := 0x002010
def aVCNT : Nat := 0x002014
def aRELSTAT : Nat := 0x002018
def aFUSE (w : Nat) : Nat := 0x002800 + 4 * w
def aTMP_CTL : Nat := 0x003000
def aSAG : Nat := 0x003004
def aSAGV (n : Nat) : Nat := 0x003008 + 4 * n
def aSAGR (n : Nat) : Nat := 0x003010 + 4 * n
def aRATE : Nat := 0x003018
def aAGE : Nat := 0x00301C
def aVREQ : Nat := 0x003020
def aGUARD : Nat := 0x003024
def aGNG_CTL : Nat := 0x003800
def aGNG_STAT : Nat := 0x003804
def aPEER : Nat := 0x003808
def aDIGEST : Nat := 0x00380C
def aSKEW : Nat := 0x003810
def aLINK (n : Nat) : Nat := 0x003820 + 4 * n
def aTX_LO : Nat := 0x003840
def aTX_HI : Nat := 0x003844
def aRX_LO : Nat := 0x003848
def aRX_HI : Nat := 0x00384C
def aRX_SRC : Nat := 0x003850
def aAST_STAT : Nat := 0x004000
def aAST_CTL : Nat := 0x004004
def aAST_SEED : Nat := 0x004008
def aRESIDX : Nat := 0x00400C
def aRESDAT : Nat := 0x004010

/-- Port block register at offset `o`. -/
def aPort (p o : Nat) : Nat := 0x010000 + 0x200 * p + o
def aBLW_CFG (p : Nat) : Nat := aPort p 0x000
def aHALT (p : Nat) : Nat := aPort p 0x004
/-- Word `k` of the parameters of label `l` of port `p` (11 R403). -/
def aLabel (p l k : Nat) : Nat := aPort p (0x100 + 8 * l + 4 * k)

/-- Anvil block register at offset `o`. -/
def aAnv (c o : Nat) : Nat := 0x020000 + 0x800 * c + o
def aMAP (c : Nat) : Nat := aAnv c 0x000
def aSTAT (c : Nat) : Nat := aAnv c 0x004
def aTIM (c n : Nat) : Nat := aAnv c (0x010 + 4 * n)
def aDERATE (c : Nat) : Nat := aAnv c 0x030
def aWM (c : Nat) : Nat := aAnv c 0x034
def aCMDERR (c : Nat) : Nat := aAnv c 0x03C
def aREFRESH (c : Nat) : Nat := aAnv c 0x040
def aHAMMER (c : Nat) : Nat := aAnv c 0x044
def aRFSTAT (c : Nat) : Nat := aAnv c 0x048
def aRETRAIN (c : Nat) : Nat := aAnv c 0x04C
def aSLOT (c : Nat) : Nat := aAnv c 0x050
def aTLO (c : Nat) : Nat := aAnv c 0x054
def aTHI (c : Nat) : Nat := aAnv c 0x058
def aLOST (c : Nat) : Nat := aAnv c 0x05C
def aECC_STAT (c : Nat) : Nat := aAnv c 0x100
def aECC_CNT (c : Nat) : Nat := aAnv c 0x104
def aGLN_CTL (c : Nat) : Nat := aAnv c 0x200
def aLAP_LO (c : Nat) : Nat := aAnv c 0x204
def aLAP_HI (c : Nat) : Nat := aAnv c 0x208
def aFILL (c : Nat) : Nat := aAnv c 0x20C
def aPAT_CTL (c : Nat) : Nat := aAnv c 0x280
def aPAT_START (c : Nat) : Nat := aAnv c 0x284
def aPAT_END (c : Nat) : Nat := aAnv c 0x288
def aPAT_POS (c : Nat) : Nat := aAnv c 0x28C
def aPLL (c : Nat) : Nat := aAnv c 0x400
def aFSP (c : Nat) : Nat := aAnv c 0x404
def aZQ (c : Nat) : Nat := aAnv c 0x408
def aDLYIDX (c : Nat) : Nat := aAnv c 0x410
def aPATIDX (c : Nat) : Nat := aAnv c 0x418
def aPATPTR (c : Nat) : Nat := aAnv c 0x420
def aEYECFG (c : Nat) : Nat := aAnv c 0x424
def aDRIFT (c : Nat) : Nat := aAnv c 0x428
def aPSTAT (c : Nat) : Nat := aAnv c 0x42C
def aTSTAT (c : Nat) : Nat := aAnv c 0x430

/-- Loft slice register at offset `o`. -/
def aLft (c o : Nat) : Nat := 0x030000 + 0x400 * c + o
def aLOCK (c : Nat) : Nat := aLft c 0x000
def aMERGE (c : Nat) : Nat := aLft c 0x004
def aPF (c : Nat) : Nat := aLft c 0x008
def aLSTAT (c : Nat) : Nat := aLft c 0x00C

/-- A time-driven event at timebase `now`: it occurs where its condition `c` holds then (log entries 1 and 7). -/
def timed (now : Nat) (c : State → Bool) (f : State → State) (s : State) : State :=
  occur (c (s.at now)) s (f (s.at now))

/-- A command that is the host accesses `l`, where its content is that of the command (`ok`): in COLD the port holds them, else
they take effect, and HRP_RVALID tells their completion (18 R559, R560). -/
def hostRow (l : List (Nat × Option Word)) (ok : Bool) (f : State → State) (s : State) : Out :=
  .next (occur ok s (if s.modes.mode = .cold then s.holdAccess l else { f s with hrpRvalid := true }))

/-- Host accesses at timebase `now`. -/
def hostRowAt (now : Nat) (l : List (Nat × Option Word)) (ok : Bool) (f : State → State) (s : State) : Out :=
  .next (occur ok s (if s.modes.mode = .cold then s.holdAccess l else { f (s.at now) with hrpRvalid := true }))

end Sys2Proof.Machine
end

