-- ==== Sys2Proof/Machine/Crc.lean ====
section
/-! DEFINITION. The cyclic codes of UF24: CRC-32C (09 R305) and CRC-8 (09 R304), over lists of bytes. -/

namespace Sys2Proof.Machine

/-- The bytes of a number, least significant first. -/
def toBytes (k n : Nat) : List Nat := (List.range k).map (fun i => n / 256 ^ i % 256)

/-- The number whose bytes, least significant first, are given. -/
def ofBytes (l : List Nat) : Nat := l.foldr (fun b acc => b + 256 * acc) 0

/-- One bit of the reflected CRC-32C; 0x82F63B78 is 0x1EDC6F41 reversed. -/
def crc32cBit (c : Nat) : Nat := if c % 2 = 1 then (c / 2) ^^^ 0x82F63B78 else c / 2

/-- One byte of the reflected CRC-32C. -/
def crc32cByte (c b : Nat) : Nat := Nat.repeat crc32cBit 8 (c ^^^ b)

/-- CRC-32C: reflected, initial value and final XOR 0xFFFF_FFFF (09 R305). -/
def crc32c (l : List Nat) : Nat := l.foldl crc32cByte 0xFFFFFFFF ^^^ 0xFFFFFFFF

/-- One bit of the CRC-8. -/
def crc8Bit (c : Nat) : Nat := if c ≥ 128 then (2 * c % 256) ^^^ 0x07 else 2 * c

/-- CRC-8 with polynomial 0x07, initial value 0, no reflection and no final XOR (09 R304). -/
def crc8 (l : List Nat) : Nat := l.foldl (fun c b => Nat.repeat crc8Bit 8 (c ^^^ b)) 0

end Sys2Proof.Machine
end

