-- ==== Sys2Proof/Machine/Aes.lean ====
section
/-! DEFINITION. AES-256 (FIPS 197), XTS over one sector (IEEE 1619) and CMAC (SP 800-38B), as 14 R471, R472 and
02 R94 use them. A block is a list of 16 bytes, first byte first. -/

namespace Sys2Proof.Machine

/-- Product in GF(2^8) modulo the polynomial `p`, by the bits of `b` from the top. -/
def gfMul (p a b : Nat) : Nat :=
  (List.range 8).foldl
    (fun acc i =>
      let d := if acc ≥ 128 then (2 * acc % 256) ^^^ (p % 256) else 2 * acc
      if bit b (7 - i) then d ^^^ a else d) 0

/-- Power in GF(2^8) modulo `p`. -/
def gfPow (p a n : Nat) : Nat := Nat.repeat (gfMul p a) n 1

/-- Product in the field of AES. -/
def aesMul (a b : Nat) : Nat := gfMul 0x11B a b

/-- Inverse in the field of AES: a^254, with 0 for 0. -/
def aesInv (a : Nat) : Nat :=
  let a2 := aesMul a a
  let a4 := aesMul a2 a2
  let a8 := aesMul a4 a4
  let a16 := aesMul a8 a8
  let a32 := aesMul a16 a16
  let a64 := aesMul a32 a32
  let a128 := aesMul a64 a64
  aesMul a128 (aesMul a64 (aesMul a32 (aesMul a16 (aesMul a8 (aesMul a4 a2)))))

/-- Rotate a byte left. -/
def rotl8 (a k : Nat) : Nat := (a * 2 ^ k + a / 2 ^ (8 - k)) % 256

/-- SubBytes on one byte, by its definition in FIPS 197. -/
def sboxOf (a : Nat) : Nat :=
  let b := aesInv a
  b ^^^ rotl8 b 1 ^^^ rotl8 b 2 ^^^ rotl8 b 3 ^^^ rotl8 b 4 ^^^ 0x63

/-- InvSubBytes on one byte, by its definition in FIPS 197. -/
def sboxInvOf (a : Nat) : Nat := aesInv (rotl8 a 1 ^^^ rotl8 a 3 ^^^ rotl8 a 6 ^^^ 0x05)

/-- The values of `sboxOf`, 32 to a row, the first in the low byte. -/
def sboxRows : List Nat :=
  [0xC072A49CAFA2D4ADF04759FA7DC982CA76ABD7FE2B670130C56F6BF27B777C63,
   0x75B227EBE28012079A059618C323C7041531D871F1E5A534CCF73F362693FDB7,
   0xCF584C4A39BECB6A5BB1FC20ED00D153842FE329B3D63B52A05A6E1B1A2C8309,
   0xD2F3FF1021DAB6BCF5389D928F40A351A89F3C507F02F94585334D43FBAAEFD0,
   0xDB0B5EDE14B8EE4688902A22DC4F816073195D643D7EA7C41744975FEC130CCD,
   0x08AE7A65EAF4566CA94ED58D6D37C8E779E4959162ACD3C25C2406490A3A32E0,
   0x9E1DC186B95735610EF6034866B53E708A8BBD4B1F74DDE8C6B4A61C2E2578BA,
   0x16BB54B00F2D99416842E6BF0D89A18CDF2855CEE9871E9B948ED9691198F8E1]

/-- The values of `sboxInvOf`, in the same form. -/
def sboxInvRows : List Nat :=
  [0xCBE9DEC444438E3487FF2F9B8239E37CFBD7F3819EA340BF38A53630D56A0952,
   0x25D18B6D49A25B76B224D92866A12E084EC3FA420B954CEE3D23C2A632947B54,
   0x849D8DA75746155EDAB9EDFD5048706C92B6655DCC5CA4D41698688664F6F872,
   0x6B8A130103BDAFC1020F3FCA8F1E2CD00645B3B80558E4F70AD3BC8C00ABD890,
   0x6EDF751CE837F9E28535ADE72274AC9673E6B4F0CECFF297EADC674F4111913A,
   0xF45ACD78FEC0DB9A2079D2C64B3E56FC1BBE18AA0E62B76F89C5291D711AF147,
   0xEF9CC9939F7AE52D0D4AB519A97F51605FEC8027591012B131C7078833A8DD1F,
   0x7D0C2155631469E126D677BA7E042B17619953833CBBEBC8B0F52AAE4D3BE0A0]

/-- Byte `a` of a table of rows. -/
def rowByte (rows : List Nat) (a : Nat) : Nat := rows.getD (a / 32) 0 / 256 ^ (a % 32) % 256

/-- SubBytes on one byte, read from the table (`sbox_eq_sboxOf`). -/
def sbox (a : Nat) : Nat := rowByte sboxRows a

/-- InvSubBytes on one byte, read from the table (`sboxInv_eq_sboxInvOf`). -/
def sboxInv (a : Nat) : Nat := rowByte sboxInvRows a

/-- XOR of two lists of bytes. -/
def xorBytes (a b : List Nat) : List Nat := List.zipWith (· ^^^ ·) a b

/-- The next word of the AES-256 key schedule; `ws` holds the words so far, newest first, `n` of them. -/
def aesNextWord (ws : List (List Nat)) (n : Nat) : List Nat :=
  let prev := ws.headD []
  let temp :=
    if n % 8 = 0 then
      xorBytes ((prev.rotateLeft 1).map sbox) [gfPow 0x11B 2 (n / 8 - 1), 0, 0, 0]
    else if n % 8 = 4 then prev.map sbox
    else prev
  xorBytes (ws.getD 7 []) temp

/-- The 60 words of the key schedule, first first. -/
def aesSchedule (key : List Nat) : List (List Nat) :=
  let first := (List.range 8).map (fun i => (key.drop (4 * i)).take 4)
  ((List.range 52).foldl (fun ws i => aesNextWord ws (i + 8) :: ws) first.reverse).reverse

/-- Round key `r`. -/
def roundKey (ws : List (List Nat)) (r : Nat) : List Nat := ((ws.drop (4 * r)).take 4).flatten

/-- ShiftRows. -/
def shiftRows (b : List Nat) : List Nat := (List.range 16).map (fun i => b.getD ((i + 4 * (i % 4)) % 16) 0)

/-- InvShiftRows. -/
def shiftRowsInv (b : List Nat) : List Nat := (List.range 16).map (fun i => b.getD ((i + 12 * (i % 4)) % 16) 0)

/-- MixColumns with the circulant row `m`. -/
def mixColumns (m : List Nat) (b : List Nat) : List Nat :=
  (List.range 16).map (fun i =>
    (List.range 4).foldl
      (fun acc k => acc ^^^ aesMul (m.getD ((k + 4 - i % 4) % 4) 0) (b.getD (i / 4 * 4 + k) 0)) 0)

/-- AES-256 encryption of one block under a schedule. -/
def aesEncrypt (ws : List (List Nat)) (b : List Nat) : List Nat :=
  let b := (List.range 13).foldl
    (fun b r => xorBytes (mixColumns [2, 3, 1, 1] (shiftRows (b.map sbox))) (roundKey ws (r + 1)))
    (xorBytes b (roundKey ws 0))
  xorBytes (shiftRows (b.map sbox)) (roundKey ws 14)

/-- AES-256 decryption of one block under a schedule. -/
def aesDecrypt (ws : List (List Nat)) (b : List Nat) : List Nat :=
  let b := (List.range 13).foldl
    (fun b r =>
      mixColumns [14, 11, 13, 9] (xorBytes ((shiftRowsInv b).map sboxInv) (roundKey ws (13 - r))))
    (xorBytes b (roundKey ws 14))
  xorBytes ((shiftRowsInv b).map sboxInv) (roundKey ws 0)

/-- A 256-bit key as its bytes: key bits [7:0] are the first byte (14 R475). -/
def keyBytes (k : BitVec 256) : List Nat := toBytes 32 k.toNat

/-- Product of a tweak by α in GF(2^128), the first byte least significant (IEEE 1619). -/
def xtsDouble (t : Nat) : Nat := if t ≥ 2 ^ 127 then (2 * t % 2 ^ 128) ^^^ 0x87 else 2 * t

/-- XTS of one 64-B data unit, four blocks: `f` is the block cipher under the data key, `t` the first tweak. -/
def xtsBlocks (f : List Nat → List Nat) (t : Nat) (data : Nat) : Nat :=
  ofBytes ((List.range 4).flatMap (fun j =>
    let tj := toBytes 16 (Nat.repeat xtsDouble j t)
    xorBytes (f (xorBytes (toBytes 16 (data / 2 ^ (128 * j) % 2 ^ 128)) tj)) tj))

/-- The tweak of a sector: its index, channel and gang identity (14 R472). -/
def xtsTweak (index chan gid : Nat) : List Nat := toBytes 16 (index % 2 ^ 28 + chan * 2 ^ 32 + gid * 2 ^ 40)

/-- The first tweak value, the encryption of the tweak under K2. -/
def xtsFirst (k2 : BitVec 256) (tweak : List Nat) : Nat := ofBytes (aesEncrypt (aesSchedule (keyBytes k2)) tweak)

/-- Encryption of one sector (14 R471). -/
def xtsEncrypt (keys : BitVec 256 × BitVec 256) (tweak : List Nat) (d : Sector) : Sector :=
  BitVec.ofNat 512 (xtsBlocks (aesEncrypt (aesSchedule (keyBytes keys.1))) (xtsFirst keys.2 tweak) d.toNat)

/-- Decryption of one sector (14 R471). -/
def xtsDecrypt (keys : BitVec 256 × BitVec 256) (tweak : List Nat) (d : Sector) : Sector :=
  BitVec.ofNat 512 (xtsBlocks (aesDecrypt (aesSchedule (keyBytes keys.1))) (xtsFirst keys.2 tweak) d.toNat)

/-- The number of a block, first byte most significant. -/
def ofBytesBE (l : List Nat) : Nat := l.foldl (fun acc b => 256 * acc + b) 0

/-- Doubling of a CMAC subkey, as a number with the first byte most significant. -/
def cmacDouble (t : Nat) : Nat := if t ≥ 2 ^ 127 then (2 * t % 2 ^ 128) ^^^ 0x87 else 2 * t

/-- A number as a block, first byte most significant. -/
def toBlockBE (n : Nat) : List Nat := (toBytes 16 n).reverse

/-- The chain of a CMAC over a message of whole or partial blocks; `fuel` bounds the number of blocks. -/
def cmacChain (ws : List (List Nat)) (k1 k2 : List Nat) : Nat → List Nat → List Nat → List Nat
  | 0, x, _ => x
  | fuel + 1, x, msg =>
    if msg.length > 16 then cmacChain ws k1 k2 fuel (aesEncrypt ws (xorBytes x (msg.take 16))) (msg.drop 16)
    else if msg.length = 16 then aesEncrypt ws (xorBytes x (xorBytes msg k1))
    else aesEncrypt ws (xorBytes x (xorBytes (msg ++ 128 :: List.replicate (15 - msg.length) 0) k2))

/-- AES-256 CMAC of a message, 16 bytes (SP 800-38B). -/
def cmac (key : List Nat) (msg : List Nat) : List Nat :=
  let ws := aesSchedule key
  let l := ofBytesBE (aesEncrypt ws (List.replicate 16 0))
  cmacChain ws (toBlockBE (cmacDouble l)) (toBlockBE (cmacDouble (cmacDouble l))) (msg.length / 16 + 1)
    (List.replicate 16 0) msg

end Sys2Proof.Machine
end

