-- ==== Sys2Proof/Machine/Codes.lean ====
section
/-! DEFINITION. The check codes (09): the address-bound Reed-Solomon code, the swath code, the poison bitmap and
the row seal. A row is read through a function from position (0 to 31) to its 64 B. -/

namespace Sys2Proof.Machine

/-- Byte `k` of a sector. -/
def secByte (d : Sector) (k : Nat) : Nat := d.toNat / 256 ^ k % 256

/-- A sector with `l` in its bytes from `k` on. -/
def secPut (d : Sector) (k : Nat) (l : List Nat) : Sector :=
  let n := d.toNat
  let w := 256 ^ l.length
  BitVec.ofNat 512 (n % 256 ^ k + 256 ^ k * (ofBytes l + w * (n / 256 ^ (k + l.length))))

/-- Bytes `k` to `k + len - 1` of a sector. -/
def secBytes (d : Sector) (k len : Nat) : List Nat := toBytes len (d.toNat / 256 ^ k % 256 ^ len)

/-- `old` with the bytes whose mask bit is set taken from `new` (02 Table 3.1, CP_BE). -/
def mergeBytes (old new : Sector) (be : BitVec 64) : Sector :=
  BitVec.ofNat 512 (ofBytes ((List.range 64).map (fun k => if bit be.toNat k then secByte new k else secByte old k)))

/-! ### Address-bound code -/

/-- Product in the field of R290. -/
def rsMul (a b : Nat) : Nat := gfMul 0x11D a b

/-- α^n. -/
def rsPow (n : Nat) : Nat := gfPow 0x11D 2 n

/-- The 40-bit value V of a half-sector (R292). -/
def abV (la chan gid half : Nat) (p : Bool) : Nat :=
  (la + 32 * half) / 32 % 2 ^ 29 + chan % 32 * 2 ^ 29 + gid % 4 * 2 ^ 34 + b2n p * 2 ^ 39

/-- The check symbols P0 to P3 of 32 data bytes under V (R293). -/
def abEncode (data : List Nat) (v : Nat) : List Nat :=
  (data ++ toBytes 5 v).reverse.foldl
    (fun p d =>
      let f := d ^^^ p.getD 3 0
      [rsMul f 0x40, p.getD 0 0 ^^^ rsMul f 0x78, p.getD 1 0 ^^^ rsMul f 0x36, p.getD 2 0 ^^^ rsMul f 0x0F])
    [0, 0, 0, 0]

/-- Syndrome S_i of the 41 received symbols (R294); α^i is 2^i for i < 8. -/
def abSyndrome (r : List Nat) (i : Nat) : Nat := r.reverse.foldl (fun acc x => rsMul acc (2 ^ i) ^^^ x) 0

/-- Result of `classify` (R294). -/
inductive CodeClass where
  | clean
  | single (pos val : Nat)
  | multi
deriving DecidableEq, Repr

/-- The procedure `classify` (R294). The quotient S1/S0 is α^L for at most one L of 0 to 40. -/
def abClassify (s : List Nat) : CodeClass :=
  let s0 := s.getD 0 0
  let s1 := s.getD 1 0
  let s2 := s.getD 2 0
  let s3 := s.getD 3 0
  if s0 = 0 ∧ s1 = 0 ∧ s2 = 0 ∧ s3 = 0 then .clean
  else if s0 = 0 ∨ s1 = 0 then .multi
  else
    match (List.range 41).find? (fun l =>
        rsMul s0 (rsPow l) == s1 && rsMul s1 (rsPow l) == s2 && rsMul s2 (rsPow l) == s3) with
    | some l => .single l s0
    | none => .multi

/-- Result of `decode` for one half-sector (R294). -/
inductive HalfRes where
  | good (flag : Bool)
  | fixed (flag : Bool) (pos val : Nat)
  | address (flag : Bool) (pos val : Nat)
  | bad
deriving DecidableEq, Repr

/-- The procedure `decode` on the syndromes (R294). -/
def abDecode (s : List Nat) : HalfRes :=
  match abClassify s with
  | .clean => .good false
  | .single j e =>
    if j = 40 ∧ e = 0x80 then .good true
    else if j ≤ 35 then .fixed false j e
    else .address false j e
  | .multi =>
    let t := (List.range 4).map (fun i => s.getD i 0 ^^^ rsMul 0x80 (rsPow (40 * i)))
    match abClassify t with
    | .single j e => if j ≤ 35 then .fixed true j e else .address true j e
    | _ => .bad

/-- The check sector position and first check byte of data sector `n` (R160). -/
def abCheckAt (n : Nat) : Nat × Nat := (28 + n / 8, 8 * (n % 8))

/-- Decode half `h` of data sector `n` stored at channel-local address `la`: `d` its data, `chk` its check sector. -/
def abHalf (d chk : Sector) (n la chan gid h : Nat) : HalfRes :=
  let r := secBytes chk ((abCheckAt n).2 + 4 * h) 4 ++ secBytes d (32 * h) 32 ++ toBytes 5 (abV la chan gid h false)
  abDecode ((List.range 4).map (abSyndrome r))

/-- The data of a sector after the correction of one half. -/
def abFix (d : Sector) (h : Nat) (r : HalfRes) : Sector :=
  match r with
  | .fixed _ j e =>
    if 4 ≤ j then secPut d (32 * h + (j - 4)) [secByte d (32 * h + (j - 4)) ^^^ e] else d
  | _ => d

/-- The 8 check bytes of a sector with poison flag `p` (R293, R298). -/
def abChecks (d : Sector) (la chan gid : Nat) (p : Bool) : List Nat :=
  abEncode (secBytes d 0 32) (abV la chan gid 0 p) ++ abEncode (secBytes d 32 32) (abV la chan gid 1 p)

/-- The poison bitmap of sector 31 under the address-bound code, by majority (R299). -/
def abBitmap (s31 : Sector) : Nat :=
  let c := fun i => ofBytes (secBytes s31 (32 + 4 * i) 4)
  (c 0 &&& c 1) ||| (c 0 &&& c 2) ||| (c 1 &&& c 2)

/-- The three copies of the bitmap differ (R299). -/
def abBitmapSplit (s31 : Sector) : Bool :=
  secBytes s31 32 4 != secBytes s31 36 4 || secBytes s31 32 4 != secBytes s31 40 4

/-- Sector 31 with all three copies of a bitmap written, bits 28-31 as 0 and the reserved bytes as 0 (R160). -/
def abPutBitmap (s31 : Sector) (m : Nat) : Sector :=
  let c := toBytes 4 (m % 2 ^ 28)
  secPut s31 32 (c ++ c ++ c ++ List.replicate 20 0)

/-- A number with bit `i` set or cleared. -/
def putBit (m i : Nat) (b : Bool) : Nat := if bit m i = b then m else m ^^^ 2 ^ i

/-! ### Swath code -/

/-- The swath of a data sector: its first sector and its length (R303). -/
def swathOf (n : Nat) : Nat × Nat := if n ≤ 10 then (0, 11) else if n ≤ 20 then (11, 10) else (21, 10)

/-- The positions of the swath of a data sector. -/
def swathPositions (n : Nat) : List Nat := (List.range (swathOf n).2).map (· + (swathOf n).1)

/-- Offset in sector 31 of the column parity of the swath of sector `n` (R161). -/
def columnAt (n : Nat) : Nat := if n ≤ 10 then 31 else if n ≤ 20 then 39 else 47

/-- Word `w` of a sector (R303). -/
def secWord (d : Sector) (w : Nat) : Nat := d.toNat / 2 ^ (64 * w) % 2 ^ 64

/-- Parity of a number of 64 bits (R303). -/
def parity64 (n : Nat) : Nat := (List.range 64).foldl (fun acc i => acc ^^^ b2n (bit n i)) 0

/-- The word parities of a sector as a byte, bit i for word i (R161). -/
def wordParities (d : Sector) : Nat :=
  (List.range 8).foldl (fun acc w => acc + parity64 (secWord d w) * 2 ^ w) 0

/-- XOR of the eight words of a sector. -/
def xorWords (d : Sector) : Nat := (List.range 8).foldl (fun acc w => acc ^^^ secWord d w) 0

/-- The row seal (R305). -/
def rowSeal (q : Place) (chan gid : Nat) : List Nat :=
  toBytes 4 (crc32c (toBytes 4 q.row ++ [q.bank, q.rank, chan, gid]))

/-- Sector 31 with bitmap, CRC-8 and seal written (R304, R309). -/
def swSeal (s31 : Sector) (bitmap : Nat) (q : Place) (chan gid : Nat) : Sector :=
  let bm := toBytes 4 (bitmap % 2 ^ 31)
  secPut s31 55 (bm ++ [crc8 bm] ++ rowSeal q chan gid)

/-- The bitmap of sector 31 under the swath code (R161). -/
def swBitmap (s31 : Sector) : Nat := ofBytes (secBytes s31 55 4)

/-- The seal of sector 31 is the row's own. -/
def swSealGood (s31 : Sector) (q : Place) (chan gid : Nat) : Bool := secBytes s31 60 4 == rowSeal q chan gid

/-- The CRC-8 of the bitmap is right. -/
def swCrcGood (s31 : Sector) : Bool := secByte s31 59 == crc8 (secBytes s31 55 4)

/-- Words of data sector `n` whose parity mismatches. -/
def swMismatch (d s31 : Sector) (n : Nat) : List Nat :=
  (List.range 8).filter (fun w => bit (wordParities d) w != bit (secByte s31 n) w)

/-- Finding of Table 9.3: (swath word, bit or none for a parity bit). -/
inductive SwathFinding where
  | clean
  | parityBit (word : Nat)
  | dataBit (word bitNo : Nat)
  | bad
deriving DecidableEq, Repr

/-- The index of the one set bit of a 64-bit number, where exactly one is set. -/
def oneBit (z : Nat) : Option Nat := (List.range 64).find? (fun i => z == 2 ^ i)

/-- Table 9.3 on a whole swath, read by position (R307). -/
def swClassify (get : Nat → Sector) (n : Nat) : SwathFinding :=
  let s31 := get 31
  let f := (swathOf n).1
  let bad := (swathPositions n).flatMap (fun i => (swMismatch (get i) s31 i).map (fun w => 8 * (i - f) + w))
  let z := (swathPositions n).foldl (fun acc i => acc ^^^ xorWords (get i)) (ofBytes (secBytes s31 (columnAt n) 8))
  match bad with
  | [] => if z = 0 then .clean else .bad
  | [w] =>
    if z = 0 then .parityBit w
    else match oneBit z with
      | some t => .dataBit w t
      | none => .bad
  | _ => .bad

/-- A sector with bit `t` of word `w` flipped. -/
def flipBit (d : Sector) (w t : Nat) : Sector := d ^^^ BitVec.ofNat 512 (2 ^ (64 * w + t))

end Sys2Proof.Machine
end

