-- ==== Sys2Proof/Machine/Regs.lean ====
section
/-! DEFINITION. The register space: what each register's fields are (Table 0.4), its reset value (Tables 18.4 to
18.7), its reserved encodings (R17), and the raw read and write of a stored register. -/

namespace Sys2Proof.Machine

/-- The fields of a register by type (Table 0.4), its reset value, and its fields with reserved encodings:
high bit, low bit, and which values are reserved. Bits in no mask are RO, WO or reserved. -/
structure RegInfo where
  rw    : Word := 0
  w1c   : Word := 0
  rc    : Word := 0
  lk    : Word := 0
  reset : Word := 0
  resv  : List (Nat × Nat × (Nat → Bool)) := []

/-- A register of RO and WO fields only. -/
def RegInfo.ro (reset : Word) : RegInfo := { reset := reset }

/-- Registers GLB and SMI, SWD, TNG (Table 18.4). -/
def glbRegs : List (Nat × RegInfo) :=
  [ (aID, .ro 0x01020000), (aCFGID, .ro 0x0002177F), (aHERR, { w1c := 0xC0000000 }), (aHERR_ADDR, .ro 0),
    (aMODE, { w1c := 0xC0000000 }), (aMODE_REQ, .ro 0), (aSHED, .ro 0), (aTB_LO, .ro 0), (aTB_HI, .ro 0),
    (aGANG, { lk := 0x1F00, resv := [(12, 8, fun v => 11 ≤ v)] }),
    (aFURROW, { lk := 0x000F1700, resv := [(19, 16, fun v => 9 ≤ v), (10, 8, fun v => 5 ≤ v)] }),
    (aCAP, { lk := 0x1F, resv := [(4, 0, fun v => 17 ≤ v)] }),
    (aADJ 0, { rw := 0xFFFFFFFF }), (aADJ 1, { rw := 0xFFFFFFFF }),
    (aRFM, { rw := 0x43FFFFFF, reset := 0x00806020 }),
    (aLOFT_CTL, { rw := 0x3F, reset := 0x3F }), (aLOFT_STAT, .ro 0) ]

/-- The channel map's reset values (Table 4.7). -/
def chmapRegs : List (Nat × RegInfo) :=
  let r : Word → RegInfo := fun v =>
    { lk := 0x3FFFFFFF, reset := v,
      resv := (List.range 6).map (fun e => (5 * e + 4, 5 * e, fun v => 24 ≤ v)) }
  [ (aCHMAP 0, r 0x0A418820), (aCHMAP 1, r 0x16A4A0E6), (aCHMAP 2, r 0x2307B9AC), (aCHMAP 3, r 0x2F6AD272) ]

/-- Runs of equal registers among the global ones. -/
def runRegs : List (Nat × RegInfo) :=
  (List.range 16).map (fun n => (aGRANK n, { rw := 0xFFFFFFFF })) ++
  (List.range 4).map (fun n => (aLAPSE n, { rw := 0xFFFFFFFF })) ++
  (List.range 8).map (fun n => (aHDR n, { rw := 0xFFFFFFFF })) ++
  (List.range 4).map (fun n => (aMBOX_ARG n, { rw := 0xFFFFFFFF })) ++
  (List.range 4).map (fun n => (aSWD_EN n, { rw := 0xFFFFFFFF })) ++
  (List.range 4).map (fun n => (aSWD_ACTIVE n, .ro 0)) ++
  (List.range 4).map (fun n => (aSCRATCH n, { rw := 0xFFFFFFFF })) ++
  (List.range 3).map (fun n => (aFIRST n, .ro 0)) ++
  (List.range 3).map (fun n => (aFORCE n, .ro 0)) ++
  (List.range 3).map (fun n => (aLINK n, { rc := 0x00FF0000 }))

/-- SMI, SWD_PERR and TNG registers. -/
def smiRegs : List (Nat × RegInfo) :=
  [ (aSMI_CTL, .ro 0), (aAS_SEL, { rw := 0x00FFFFFF, reset := 0x00FFFFFF }), (aSTATE0, .ro 0), (aSTATE1, { rw := 0x00040000, reset := 0 }),
    (aLOAD, { rw := 0x2, w1c := 0x3000 }), (aEVSET, .ro 0), (aVER_MS, .ro 0), (aVER_AS, .ro 0),
    (aMBOX_CMD, { rw := 0xFFFF }), (aMBOX_STATUS, { w1c := 0x40000000 }),
    (aPERR, { rc := 0x80FF077F }),
    (aWDOG, { rw := 0xFFFFFFFF, reset := 0x000186A0, resv := [(31, 0, fun v => v < 1000)] }), (aHANG, .ro 0) ]

/-- FLT and EVQ registers (15). -/
def fltRegs : List (Nat × RegInfo) :=
  [ (aOVF, { w1c := 0xC0000000, rc := 0xFFFF }), (aQSTAT, { rc := 0xFF00 }),
    (aFORCE_MSG, { rw := 0x000300FF, reset := 1, resv := [(7, 0, fun v => v == 0 || 0x1F ≤ v)] }),
    (aPIN_WIDTH, { rw := 0xFFFF, reset := 0x28, resv := [(15, 0, fun v => v < 8)] }),
    (aPIN_HOLD, { rw := 0xF, w1c := 0x80000000, reset := 6 }),
    (aLINKINJ, { rw := 0x0FFF017F, w1c := 0x40000000, resv := [(27, 18, fun v => 526 ≤ v)] }),
    (aEVQ_STATUS, { w1c := 0xC0000000, rc := 0x00FF0000 }), (aEVQ_CTL, .ro 0),
    (aEVQ_TIMEOUT, { rw := 0xFFFF, reset := 0x64 }),
    (aEVQ_LO, .ro 0), (aEVQ_HI, .ro 0), (aPUT_HDR, .ro 0), (aPUT_LO, .ro 0), (aPUT_HI, .ro 0) ]

/-- HDG and TMP registers (13, 14). -/
def hdgRegs : List (Nat × RegInfo) :=
  let v : Nat → Bool := fun v => v < 0x50
  [ (aHDG_STAT, .ro 0), (aKEYSTAT, .ro 0), (aKEYHELD, { w1c := 0xFF000000 }), (aKEYCTL, .ro 0),
    (aVIOL, { rc := 0xC000FFFF }), (aVCNT, { rc := 0xFFFF }), (aRELSTAT, { rc := 0x00FFFFFF }),
    (aTMP_CTL, { rw := 0x000FFFFF, reset := 0x00030258, resv := [(19, 16, fun v => 8 ≤ v)] }),
    (aSAG, { rw := 0xFFFF0000, reset := 0x03E80000, resv := [(31, 16, fun v => v == 0)] }),
    (aSAGV 0, { rw := 0xFFFFFFFF, reset := 0x64686C70, resv := [(7, 0, v), (15, 8, v), (23, 16, v), (31, 24, v)] }),
    (aSAGV 1, { rw := 0xFFFFFFFF, reset := 0x04545A60, resv := [(7, 0, v), (15, 8, v), (23, 16, v)] }),
    (aSAGR 0, { rw := 0xFFFFFFFF, reset := 0x9B96918C }), (aSAGR 1, { rw := 0xFFFFFFFF, reset := 0x05B4AAA0 }),
    (aRATE, .ro 0), (aAGE, .ro 0),
    (aVREQ, { rw := 0x3F, reset := 0x1E, resv := [(5, 0, fun v => 51 ≤ v)] }),
    (aGUARD, { rw := 0xFFFF, w1c := 0x80000000, reset := 0x1464 }) ]

/-- GNG and AST registers (16, 17). -/
def gngRegs : List (Nat × RegInfo) :=
  [ (aGNG_CTL, { rw := 0x8000000F }), (aGNG_STAT, { w1c := 0x8000, reset := 0x00020000 }), (aPEER, .ro 0),
    (aDIGEST, .ro 0), (aSKEW, .ro 0), (aTX_LO, .ro 0), (aTX_HI, .ro 0), (aRX_LO, .ro 0), (aRX_HI, .ro 0),
    (aRX_SRC, .ro 0), (aAST_STAT, .ro 0),
    (aAST_CTL, { rw := 0x3F00FFFF, reset := 0x2F000040,
                 resv := [(29, 28, fun v => v == 3), (15, 0, fun v => v == 0)] }),
    (aAST_SEED, { rw := 0xFFFFFFFF, reset := 1, resv := [(31, 0, fun v => v == 0)] }),
    (aRESIDX, { rw := 0xFFF, resv := [(11, 0, fun v => 3344 ≤ v)] }), (aRESDAT, .ro 0) ]

/-- Every global register (Table 18.4). -/
def globalRegs : List (Nat × RegInfo) :=
  glbRegs ++ chmapRegs ++ smiRegs ++ fltRegs ++ hdgRegs ++ gngRegs ++ runRegs

/-- Registers of an anvil block by offset (Table 18.6). -/
def anvilRegs : List (Nat × RegInfo) :=
  [ (0x000, { lk := 0x1F33, resv := [(12, 9, fun v => v == 15)] }), (0x004, .ro 0),
    (0x010, { rw := 0x7F7F7F7F, reset := 0x7F7F7F7F }), (0x014, { rw := 0x7F1F3F1F, reset := 0x7F1F3F1F }),
    (0x018, { rw := 0x0F3F7F7F, reset := 0x0F3F7F7F }),
    (0x01C, { rw := 0x0F3F3FFF, reset := 0x0F3F3FFF, resv := [(3, 0, fun v => v < 4)] }),
    (0x020, { rw := 0x1F1F1F1F, reset := 0x1F1F1F1F }), (0x024, { rw := 0x03FF03FF, reset := 0x03FF03FF }),
    (0x028, { rw := 0x03FFFFFF, reset := 0x03FFFFFF }), (0x02C, { rw := 0x0000FFFF, reset := 0x0000FFFF }),
    (0x030, { rw := 0xFFF }), (0x034, { rw := 0x001F7F7F, reset := 0x00101848 }), (0x038, .ro 0),
    (0x03C, { rw := 0x40000000, w1c := 0x80000000, rc := 0x00FF0000 }),
    (0x040, { rw := 0x9FFFFFFF, reset := 0x0BE043D0,
              resv := [(28, 26, fun v => v == 0), (15, 12, fun v => v == 0), (11, 0, fun v => v < 128)] }),
    (0x044, { rw := 0x001F1FFF, reset := 0x00080800, resv := [(11, 0, fun v => v < 0x40)] }),
    (0x048, { w1c := 0x80000000, rc := 0x00FF0000 }),
    (0x04C, { rw := 0xFFFF, reset := 0x32, resv := [(15, 0, fun v => 1 ≤ v && v ≤ 9)] }),
    (0x050, { rw := 0x0F0007FF, w1c := 0xA0000000, reset := 0x03000000, resv := [(10, 0, fun v => 1025 ≤ v)] }),
    (0x054, .ro 0), (0x058, .ro 0), (0x05C, { rc := 0xFFFFFFFF }) ]

/-- Registers ECC, GLN and HTH of an anvil block by offset (Table 18.6). -/
def anvilRegs2 : List (Nat × RegInfo) :=
  [ (0x100, .ro 0), (0x104, { rc := 0xFFFFFFFF }),
    (0x200, { rw := 0x8000FFFF, w1c := 0x06000000, reset := 0x0E10 }), (0x204, .ro 0), (0x208, .ro 0),
    (0x20C, { rw := 0xFFFFFFFF }),
    (0x280, { rw := 0xC00000FF, w1c := 0x20000000, reset := 4, resv := [(7, 0, fun v => v == 0 || 65 ≤ v)] }),
    (0x284, { rw := 0x0FFFFFFF }), (0x288, { rw := 0x0FFFFFFF, reset := 0x0FFFFFFF }), (0x28C, .ro 0),
    (0x400, { rw := 0x130, w1c := 0x40000000, resv := [(5, 4, fun v => v == 3)] }),
    (0x404, { rw := 0x00070777,
              resv := [(2, 0, fun v => 6 ≤ v), (6, 4, fun v => 6 ≤ v), (10, 8, fun v => 6 ≤ v)] }),
    (0x408, { rw := 0xFFFF, reset := 0x20202020, resv := [(15, 8, fun v => v == 0), (7, 0, fun v => v == 0)] }),
    (0x410, { rw := 0x000101FF, resv := [(8, 0, fun v => 384 ≤ v)] }), (0x414, .ro 0),
    (0x418, { rw := 0x000101FF, resv := [(8, 4, fun v => 18 ≤ v)] }), (0x41C, .ro 0),
    (0x420, { rw := 0xF0F }), (0x424, { rw := 0xFF, reset := 7 }), (0x428, { rw := 0x03FF03FF, reset := 0x10 }),
    (0x42C, { rc := 0x00FFFFFF }), (0x430, { rw := 0xCF0303FF }) ]

/-- Registers of a Loft slice block by offset (Table 18.7). -/
def sliceRegs : List (Nat × RegInfo) :=
  [ (0x000, { rw := 0xF }), (0x004, { rw := 0xFFFF, reset := 0x7D0 }),
    (0x008, { rw := 0xF, reset := 4, resv := [(3, 0, fun v => v == 0 || 9 ≤ v)] }), (0x00C, { rc := 0xFF }) ]

/-- Registers of a port block by offset (Table 18.5) with the label parameter memory (11 R403). -/
def portReg (o : Nat) : Option RegInfo :=
  if o = 0 then some { rw := 0x3FFFFFF7, reset := 0x000018D0, resv := [(2, 0, fun v => 5 ≤ v)] }
  else if o = 4 then some { w1c := 0xFFFFFFFF }
  else if 0x100 ≤ o ∧ o < 0x200 then
    if o % 8 = 0 then some { rw := 0xFFFFFFFF, reset := 0xFFFFFFFF }
    else if o % 8 = 4 then
      some { rw := 0x00FFFFFF, reset := 0x0006401F,
             resv := [(21, 20, fun v => v == 3), (11, 4, fun v => v == 0)] }
    else none
  else none

/-- The register at a byte address, where one is populated and stored (Table 18.1). The fuse shadow, the Smith
memories and the slot tables are windows and are not registers (R567). -/
def regInfo (a : Nat) : Option RegInfo :=
  if a < 0x005000 then globalRegs.lookup a
  else if 0x010000 ≤ a ∧ a < 0x020000 then portReg (a % 0x200)
  else if 0x020000 ≤ a ∧ a < 0x02C000 then
    match anvilRegs.lookup (a % 0x800) with
    | some r => some r
    | none => anvilRegs2.lookup (a % 0x800)
  else if 0x030000 ≤ a ∧ a < 0x036000 then sliceRegs.lookup (a % 0x400)
  else none

/-- The reset value of the register at an address (R566). -/
def resetWord (a : Nat) : Word := ((regInfo a).map RegInfo.reset).getD 0

/-- The one home of a register that has several addresses: HTH_PLL, HTH_FSP and HTH_ZQ of the six anvils of a
hearth are one register (07 R243). -/
def regHome (a : Nat) : Nat :=
  if 0x020000 ≤ a ∧ a < 0x02C000 ∧ 0x400 ≤ a % 0x800 ∧ a % 0x800 < 0x40C then
    aAnv ((a - 0x020000) / 0x800 / 6 * 6) (a % 0x800)
  else a

/-- The stored value of the register at an address. -/
def State.rd (s : State) (a : Nat) : Word := SMap.get resetWord s.regs (regHome a)

/-- Store a register. -/
def State.wr (s : State) (a : Nat) (w : Word) : State := { s with regs := SMap.set resetWord s.regs (regHome a) w }

/-- Field `[hi:lo]` of a stored register. -/
def State.fld (s : State) (a hi lo : Nat) : Nat := wbits (s.rd a) hi lo

/-- Bit `i` of a stored register. -/
def State.flag (s : State) (a i : Nat) : Bool := wbit (s.rd a) i

/-- Set field `[hi:lo]` of a stored register. -/
def State.setFld (s : State) (a hi lo v : Nat) : State := s.wr a (putBits (s.rd a) hi lo v)

/-- Set bit `i` of a stored register. -/
def State.setFlag (s : State) (a i : Nat) (b : Bool) : State := s.setFld a i i (b2n b)

/-- Add 1 to a counting field that saturates (types RC of the spec's counters). -/
def State.count (s : State) (a hi lo : Nat) : State :=
  s.setFld a hi lo (sat (2 ^ (hi - lo + 1) - 1) (s.fld a hi lo + 1))

/-- Put back the fields of `old` whose value in `new` is a reserved encoding (R17). -/
def keepReserved (resv : List (Nat × Nat × (Nat → Bool))) (old new : Word) : Word :=
  resv.foldl (fun w r => if r.2.2 (wbits new r.1 r.2.1) then putBits w r.1 r.2.1 (wbits old r.1 r.2.1) else w) new

/-- What a write of `w` leaves in a register by the types of its fields: RW and unlocked LK fields take the
written value unless it is a reserved encoding, W1C bits written 1 clear, the rest stays (Table 0.4, R17). -/
def typedWrite (r : RegInfo) (locked : Bool) (old w : Word) : Word :=
  let m := r.rw ||| (if locked then 0 else r.lk)
  let merged := (old &&& ~~~ m) ||| (w &&& m)
  let resv := r.resv.filter (fun f => maskBits f.1 f.2.1 &&& m != 0)
  keepReserved resv old merged &&& ~~~ (w &&& r.w1c)

/-- What a read leaves in a register: RC fields return to their reset value (Table 0.4). -/
def clearOnRead (r : RegInfo) (old : Word) : Word := (old &&& ~~~ r.rc) ||| (r.reset &&& r.rc)

/-- GLB_CAP.LOCKED (04 R170). -/
def State.locked (s : State) : Bool := s.flag aCAP 31

/-- Write the register at `a` by the types of its fields, and nothing else. -/
def State.typed (s : State) (a : Nat) (w : Word) : State :=
  match regInfo a with
  | none => s
  | some r => s.wr a (typedWrite r s.locked (s.rd a) w)

/-! ### Modes, events and faults -/

/-- The code of a mode (Table 13.1). -/
def Mode.code : Mode → Nat
  | .cold => 0 | .kindle => 1 | .forge => 2 | .lowfire => 3 | .banked => 4 | .assay => 5 | .quench => 6

/-- The mode of a code; 7 is reserved. -/
def Mode.ofCode : Nat → Option Mode
  | 0 => some .cold | 1 => some .kindle | 2 => some .forge | 3 => some .lowfire | 4 => some .banked
  | 5 => some .assay | 6 => some .quench | _ => none

/-- In FORGE or LOWFIRE. -/
def State.inService (s : State) : Bool := s.modes.mode == .forge || s.modes.mode == .lowfire

/-- GLB_MODE takes a mode; CHG is set where it changes (13 R436). After a Tongs bite it keeps its value (01 R34). -/
def State.setMode (s : State) (m : Mode) : State :=
  let s' := { s with modes := { s.modes with mode := m } }
  let s' := s'.setFld aMODE 2 0 m.code
  let s' := if m = .forge ∨ m = .lowfire then s' else s'.setFlag aSHED 31 false
  if s.tongs.bitten.isSome then s
  else if s.modes.mode == m then s' else s'.setFlag aMODE 31 true

/-- GLB_SHED.LEVEL. -/
def State.shed (s : State) : Nat := s.fld aSHED 2 0

/-- Event `n` becomes pending in a Smith; a repeat merges (02 R60). -/
def State.event (s : State) (m : SmithId) (n : Nat) : State :=
  s.onSmith m (fun x => { x with evpend := x.evpend ||| BitVec.ofNat 16 (2 ^ n) })

/-- Event `n` becomes pending in the Master Smith. -/
def State.eventMS (s : State) (n : Nat) : State := s.event masterSmith n

/-- The Anvil Smith of a channel. -/
def anvilSmith (c : Chan) : SmithId := ⟨c.val, by omega⟩

/-- Event `n` becomes pending in the Master Smith and in the Anvil Smith of channel `c` (Table 2.5). -/
def State.eventBoth (s : State) (c : Chan) (n : Nat) : State := (s.eventMS n).event (anvilSmith c) n

/-- A source hands a message to the fault unit, which accepts or drops it later (15 R491, R493). -/
def State.send (s : State) (source kind sev addr detail : Nat) : State :=
  { s with faults := { s.faults with arriving := s.faults.arriving ++
      [{ source := BitVec.ofNat 8 source, kind := BitVec.ofNat 8 kind, sev := BitVec.ofNat 2 sev,
         addr := BitVec.ofNat 41 addr, detail := BitVec.ofNat 23 detail, raiser := none }] } }

/-- Severity codes (Table 15.2). -/
def sevInfo : Nat := 0
def sevCorrected : Nat := 1
def sevUncorrected : Nat := 2
def sevFatal : Nat := 3

/-- The start of a transition that a request calls for (13 R455): OFF and ON begin one, a transition runs on. -/
def Fn.request (f : Fn) (want : Bool) : Fn :=
  match f.state, want with
  | .off, true => { state := .starting, want := want }
  | .on, false => { state := .stopping, want := want }
  | st, w => { state := st, want := w }

/-- The end of STARTING: ON, and STOPPING at once when the request is then OFF. -/
def Fn.started (f : Fn) : Fn := if f.want then { f with state := .on } else { f with state := .stopping }

/-- The end of STOPPING: OFF, and STARTING at once when the request is then ON. -/
def Fn.stopped (f : Fn) : Fn := if f.want then { f with state := .starting } else { f with state := .off }

/-- The two-bit code of a function's state (13 R455). -/
def FnState.code : FnState → Nat
  | .off => 0 | .starting => 1 | .on => 2 | .stopping => 3

/-- PEND: a transition is in progress and the request differs from its target (13 R456). -/
def Fn.pend (f : Fn) : Bool := (f.state == .starting && !f.want) || (f.state == .stopping && f.want)

end Sys2Proof.Machine
end

