-- ==== Sys2Proof/Machine/Mapping.lean ====
section
/-! DEFINITION. Address mapping (04): from a system address to instance, channel, rank, bank, row and column, and
back. -/

namespace Sys2Proof.Machine

/-- fold_w(x): the XOR of the w-bit slices of x (R143). `fuel` bounds the number of slices. -/
def foldW (w : Nat) : Nat → Nat → Nat
  | 0, _ => 0
  | fuel + 1, x => if w = 0 ∨ x = 0 then 0 else (x % 2 ^ w) ^^^ foldW w fuel (x / 2 ^ w)

/-- The fold of an address; 41 slices hold every address bit. -/
def foldAddr (w x : Nat) : Nat := foldW w 41 x

/-- GLB_GANG.ID. -/
def State.gid (s : State) : Nat := s.fld aGANG 5 4

/-- The gang size n_g; 0b11 counts as 1 (R144). -/
def State.gangSize (s : State) : Nat :=
  match s.fld aGANG 1 0 with
  | 1 => 2
  | 2 => 4
  | _ => 1

/-- q = log2(n_g). -/
def State.gangLog (s : State) : Nat := if s.gangSize = 4 then 2 else if s.gangSize = 2 then 1 else 0

/-- The gang grain H in bytes (R145). -/
def State.gangGrain (s : State) : Nat := 2 ^ (20 + s.fld aGANG 12 8)

/-- m of R148. -/
def State.mapM (s : State) : Nat := if s.flag aFURROW 12 then 3 else 1

/-- k of R148. -/
def State.mapK (s : State) : Nat := s.fld aFURROW 10 8

/-- The number of populated channels N (R148). -/
def State.nChan (s : State) : Nat := s.mapM * 2 ^ s.mapK

/-- The grain G in bytes (R148). -/
def State.grain (s : State) : Nat := 2 ^ (8 + s.fld aFURROW 19 16)

/-- GLB_CAP.PHYS_GIB. -/
def State.physGib (s : State) : Nat := s.fld aCAP 4 0

/-- GLB_CAP.CODE: the swath code (R162). -/
def State.swath (s : State) : Bool := s.flag aCAP 30

/-- S, the data sectors of a row (R153). -/
def State.rowSectors (s : State) : Nat := if s.swath then 31 else 28

/-- C_ch in bytes (R163). -/
def State.chanCap (s : State) : Nat := s.physGib * 2 ^ 30 * s.rowSectors / 32

/-- C_i in bytes (R163). -/
def State.instCap (s : State) : Nat := s.nChan * s.chanCap

/-- The user capacity of the gang in bytes (R163). -/
def State.gangCap (s : State) : Nat := s.gangSize * s.instCap

/-- CODE and USER_MIB follow GLB_FURROW and GLB_CAP.PHYS_GIB (R162). -/
def State.recap (s : State) : State :=
  let s := s.setFlag aCAP 30 (decide (96 < s.nChan * s.physGib))
  s.setFld aCAP 26 8 (s.instCap / 2 ^ 20)

/-- Entry j of the channel map (R151). -/
def State.mapEntry (s : State) (j : Nat) : Nat := s.fld (aCHMAP (j / 6)) (5 * (j % 6) + 4) (5 * (j % 6))

/-- The entries 0 to N-1 of the channel map. -/
def State.named (s : State) : List Nat := (List.range s.nChan).map s.mapEntry

/-- A channel that some entry 0 to N-1 names (R152). -/
def State.populated (s : State) (c : Nat) : Bool := s.named.contains c

/-- The logical channel of a populated channel. -/
def State.logical (s : State) (c : Nat) : Nat := s.named.idxOf c

/-- Gang interleave: instance and instance-local address (R145). -/
def State.gangMap (s : State) (a : Nat) : Nat × Nat :=
  if s.gangSize = 1 then (0, a)
  else
    let h := s.gangGrain
    let w := a / h
    ((w % s.gangSize) ^^^ foldAddr s.gangLog (w / s.gangSize), w / s.gangSize * h + a % h)

/-- Furrow interleave: logical channel and channel-local address (R148). -/
def State.furrow (s : State) (a : Nat) : Nat × Nat :=
  let g := s.grain
  let u := a / g
  let r := u % s.mapM
  let v := u / s.mapM
  let k := s.mapK
  let chi := (v % 2 ^ k) ^^^ foldAddr k (v / 2 ^ k)
  (r * 2 ^ k + chi, v / 2 ^ k * g + a % g)

/-- Reverse mapping from instance, logical channel and channel-local address (R168). -/
def State.unmap (s : State) (i j la : Nat) : Nat :=
  let g := s.grain
  let k := s.mapK
  let t := la / g
  let v := t * 2 ^ k + ((j % 2 ^ k) ^^^ foldAddr k t)
  let u := v * s.mapM + j / 2 ^ k
  let a := u * g + la % g
  if s.gangSize = 1 then a
  else
    let h := s.gangGrain
    let x := a / h
    (x * s.gangSize + (i ^^^ foldAddr s.gangLog x)) * h + a % h

/-- The system address of a channel-local address of this instance (R169). -/
def State.sysAddr (s : State) (c : Nat) (la : Nat) : Nat := s.unmap s.gid (s.logical c) la

/-- P, the DRAM rows of a bank (R156). -/
def State.bankRows (s : State) (c : Nat) : Nat := 2 ^ (15 + s.fld (aMAP c) 5 4)

/-- Two ranks. -/
def State.twoRanks (s : State) (c : Nat) : Bool := s.flag (aMAP c) 0

/-- Ranks populated behind a channel. -/
def State.nRanks (s : State) (c : Nat) : Nat := if s.twoRanks c then 2 else 1

/-- The hash h of a DRAM row (R157). -/
def State.bankHash (s : State) (c row : Nat) : Nat :=
  if s.flag (aMAP c) 8 then row % s.bankRows c / 2 ^ s.fld (aMAP c) 12 9 % 16 else 0

/-- Rank, bank number and DRAM row of a row index (R156, R157). -/
def State.place (s : State) (c ri : Nat) : Place :=
  let p := s.bankRows c
  let rr :=
    if s.twoRanks c then
      if s.flag (aMAP c) 1 then (ri / 16 % 2, ri / 32) else (ri / (16 * p), ri / 16 % p)
    else (0, ri / 16)
  let h := s.bankHash c rr.2
  { rank := rr.1, row := rr.2, bank := 4 * ((ri % 4) ^^^ (h % 4)) + ((ri / 4 % 4) ^^^ (h / 4)) }

/-- The row index of a place, the reverse of `State.place`. -/
def State.rowIndex (s : State) (c : Nat) (q : Place) : Nat :=
  let p := s.bankRows c
  let h := s.bankHash c q.row
  let low := ((q.bank / 4) ^^^ (h % 4)) + 4 * ((q.bank % 4) ^^^ (h / 4))
  let hi :=
    if s.twoRanks c then
      if s.flag (aMAP c) 1 then 2 * q.row + q.rank else q.rank * p + q.row
    else q.row
  16 * hi + low

/-- The plot of a channel-local address (R167). -/
def plotOf (la : Nat) : Nat := la / 65536

/-- Plots that hold at least one user sector of a channel. -/
def State.nPlots (s : State) : Nat := ceilDiv s.chanCap 65536

/-- In the banking area of a channel (R166). -/
def State.banking (s : State) (la : Nat) : Bool := decide (s.chanCap ≤ la + 2 ^ 20 ∧ 2 ^ 20 ≤ s.chanCap)

/-- The valid bit of a plot (R315). -/
def Anvil.written (v : Anvil) (plot : Nat) : Bool := v.plotBase != v.plotExc.contains plot

/-- Set or clear the valid bit of a plot. -/
def Anvil.markPlot (v : Anvil) (plot : Nat) (b : Bool) : Anvil :=
  if v.written plot = b then v
  else if v.plotExc.contains plot then { v with plotExc := v.plotExc.filter (· != plot) }
  else { v with plotExc := plot :: v.plotExc }

/-- Where a request or piece stands in this instance. -/
structure Spot where
  chan : Nat                     -- physical channel
  la   : Nat                     -- channel-local address
deriving DecidableEq, Repr

/-- The channel and channel-local address of an instance-local address. -/
def State.spot (s : State) (a : Nat) : Spot :=
  let jl := s.furrow a
  { chan := s.mapEntry jl.1, la := jl.2 }

/-- The four exit checks of R171; `off c` says that anvil `c` is kept off. -/
def State.mapGood (s : State) (off : Nat → Bool) : Bool :=
  s.named.dedup.length == s.named.length &&
  s.named.all (fun c => decide (c < 24) && !off c) &&
  decide (1 ≤ s.physGib ∧ s.physGib ≤ 16) &&
  s.named.all (fun c => s.nRanks c * s.bankRows c * 32 == s.physGib * 2 ^ 20)

/-- A channel number as an index; channels are 0-23. -/
def chanOf (c : Nat) : Chan := ⟨c % 24, Nat.mod_lt _ (by decide)⟩

/-- The populated channels (R152). -/
def State.popChans (s : State) : List Chan := allChans.filter (fun c => s.populated c.val)

/-- A port number as an index. -/
def portOf (p : Nat) : PortId := ⟨p % 128, Nat.mod_lt _ (by decide)⟩

end Sys2Proof.Machine
end

