-- ==== Sys2Proof/Machine/Faults.lean ====
section
/-! DEFINITION. The fault unit: acceptance, the first-error latch, FAULT_N and the fault message port (15). -/

namespace Sys2Proof.Machine

/-- Change the fault unit. -/
def State.onFaults (s : State) (f : FaultUnit → FaultUnit) : State := { s with faults := f s.faults }

/-- Places of the fault unit (R492). -/
def faultPlaces : Nat := 64

/-- The three words of a message with its instance and sequence number (Table 15.1). -/
def faultWords (m : Msg) (inst seq : Nat) : BitVec 96 :=
  BitVec.ofNat 96 (m.source.toNat + m.kind.toNat * 2 ^ 8 + m.sev.toNat * 2 ^ 16 + inst * 2 ^ 18 + seq * 2 ^ 20 +
    m.addr.toNat * 2 ^ 32 + m.detail.toNat * 2 ^ 73)

/-- What acceptance does with a message, or nothing where its source waits (R493). -/
inductive Fate where
  | accept | drop | wait
deriving DecidableEq, Repr

/-- The fate of a message by its severity and the free places (R493). -/
def State.fate (s : State) (m : Msg) : Fate :=
  let free := faultPlaces - s.faults.queue.length
  if m.sev.toNat < sevUncorrected then (if 8 ≤ free then .accept else .drop)
  else (if 0 < free then .accept else .wait)

/-- The sequence number is taken: NEXTSEQ counts modulo 4,096 (R491). -/
def State.takeSeq (s : State) : State := s.setFld aQSTAT 31 20 (s.fld aQSTAT 31 20 + 1)

/-- The latch of the first serious message (R494). -/
def State.latchFirst (s : State) (w : BitVec 96) : State :=
  let s :=
    if s.flag aOVF 31 then (s.setFlag aOVF 30 true).count aOVF 15 0
    else ((((s.wr (aFIRST 0) (w.setWidth 32)).wr (aFIRST 1) ((w >>> 32).setWidth 32)).wr (aFIRST 2)
      ((w >>> 64).setWidth 32)).setFlag aOVF 31 true)
  s.eventMS 8

/-- The pulse of FAULT_N and STICK at an accepted message (R500, R501, R502). -/
def State.pulseFor (s : State) (m : Msg) : State :=
  if s.modes.mode = .banked ∨ m.sev.toNat < s.fld aPIN_HOLD 1 0 then s
  else
    let s := s.onFaults (fun f => { f with pulse := some s.timebase })
    if m.sev.toNat = sevFatal ∧ s.flag aPIN_HOLD 2 then s.setFlag aPIN_HOLD 31 true else s

/-- TNG_HANG takes a bite: its message's detail, and the highest heat that waited (01 Table 1.5). -/
def State.setHang (s : State) (detail heat : Nat) : State :=
  (((s.setFlag aHANG 31 true).setFld aHANG 11 9 heat).setFld aHANG 8 8 (detail / 2 ^ 8)).setFld aHANG 7 0 detail

/-- TNG_HANG records the bite whose message the fault unit accepts first (01 R36). -/
def State.noteHang (s : State) (m : Msg) : State :=
  match s.tongs.bites.find? (fun b => m.source == 0x40 && m.kind == 0x0B && m.addr == 0 && m.detail.toNat == b.1) with
  | none => s
  | some b =>
    let s' := if s.tongs.hung then s else s.setHang b.1 b.2
    { s' with tongs := { s.tongs with bites := s.tongs.bites.erase b, hung := true } }

/-- A message that has been taken from its source is accepted or dropped (R491 to R494). -/
def State.judgeMsg (s : State) (m : Msg) : State :=
  match s.fate m with
  | .wait => s
  | .drop => (s.takeSeq).count aQSTAT 15 8
  | .accept =>
    let w := faultWords m s.gid (s.fld aQSTAT 31 20)
    let s := (s.takeSeq).onFaults (fun f => { f with queue := f.queue ++ [w] })
    let s := if sevUncorrected ≤ m.sev.toNat then s.latchFirst w else s
    (s.pulseFor m).noteHang m

/-- FAULT_MESSAGE_TRANSFER: the oldest accepted message leaves at a REFCLK edge (R492, R496). Until COLD ends
FM_VALID is low (R497). -/
def execFaultMessageTransfer (s : State) : Out :=
  .next (match s.faults.queue with
    | [] => s
    | w :: q =>
      occur (s.modes.mode != .cold) s (s.onFaults (fun f => { f with queue := q, sent := some w })))

/-- The running pulse has lasted FLT_PIN_WIDTH.CYCLES REFCLK cycles of 625/24 ns since its latest start, 2 cycles after
the message was accepted (R500). -/
def State.pulseOver (s : State) : Bool :=
  s.faults.pulse.any (fun t => decide (24 * t + 625 * (2 + s.fld aPIN_WIDTH 15 0) ≤ 24 * s.timebase))

/-- FAULT_PULSE_END (R500): the timebase stands at the end of the pulse or after it. -/
def execFaultPulseEnd (s : State) : Out :=
  .next (occur s.pulseOver s (s.onFaults (fun f => { f with pulse := none })))

/-- FAULT_N (R500). -/
def State.faultN (s : State) : Bool := !(s.faults.pulse.isSome || s.flag aPIN_HOLD 3 || s.flag aPIN_HOLD 31)

/-- IRQ_FAULT (R495). -/
def State.irqFault (s : State) : Bool := s.flag aOVF 31

/-- IRQ_EVENT (R515). -/
def State.irqEvent (s : State) : Bool := s.flag aEVQ_STATUS 31

/-- IRQ_MODE (13 R436). -/
def State.irqMode (s : State) : Bool := s.flag aMODE 31

/-- IRQ_ALARM (14 R487): high from the security alarm to RST_N. -/
def State.irqAlarm (s : State) : Bool := s.hedge.alarm

/-- FLT_QSTAT as it reads. -/
def State.qstatWord (s : State) : Word := putBits (s.rd aQSTAT) 6 0 s.faults.queue.length

/-- The sources of the bits of FLT_FORCE0 to FLT_FORCE2 (Table 15.10). -/
def forceSource (k : Fin 3) (i : Nat) : Nat :=
  if k = 0 then i
  else if k = 1 then 0x20 + i
  else [0x40, 0x41, 0x50, 0x51, 0x52, 0x53, 0x54, 0x55, 0x56].getD i 0

/-- Bits of FLT_FORCEk that force a message. -/
def forceBits (k : Fin 3) : Nat := if k = 2 then 9 else 24

/-- A host write to FLT_FORCEk: one message per bit, in ascending source code (R498). -/
def State.force (s : State) (k : Fin 3) (w : Word) : State :=
  ((List.range (forceBits k)).filter (fun i => wbit w i)).foldl
    (fun s i => s.send (forceSource k i) (s.fld aFORCE_MSG 7 0) (s.fld aFORCE_MSG 17 16) (2 ^ 41 - 1) 0) s

end Sys2Proof.Machine
end

