-- ==== Sys2Proof/Machine/Flags.lean ====
section
/-! DEFINITION. Status records that hardware sets: the first-event registers with their counts. -/

namespace Sys2Proof.Machine

/-- SWD_PERR records a protocol error: the first since the last read, and the count (03 Table 3.6). -/
def State.recordPerr (s : State) (p cause : Nat) : State :=
  let s := if s.flag aPERR 31 then s else ((s.setFlag aPERR 31 true).setFld aPERR 10 8 cause).setFld aPERR 6 0 p
  s.count aPERR 23 16

/-- HDG_VIOL and HDG_VCNT record a violation (14 R486, Tables 14.11 and 14.12). -/
def State.recordViol (s : State) (classA : Bool) (detail : Nat) : State :=
  let s :=
    if s.flag aVIOL 31 then s
    else ((s.setFlag aVIOL 31 true).setFlag aVIOL 30 classA).setFld aVIOL 15 0 detail
  s.count aVCNT 15 0

end Sys2Proof.Machine
end

