-- ==== Sys2Proof/Machine/Links.lean ====
section
/-! DEFINITION. The gang links seen from the core: wiring, headers and credits (17 R533 to R536). -/

namespace Sys2Proof.Machine

/-- Change the gang unit. -/
def State.onGang (s : State) (f : Gang → Gang) : State := { s with gang := f s.gang }

/-- Change link `k`. -/
def State.onLink (s : State) (k : Fin 3) (f : Link → Link) : State :=
  s.onGang (fun g => { g with links := upd g.links k f })

/-- Change the peer of instance `i`. -/
def State.onPeer (s : State) (i : Fin 4) (f : Peer → Peer) : State :=
  s.onGang (fun g => { g with peers := upd g.peers i f })

/-- The instance at the other end of link `k` (R533). -/
def State.linkPeer (s : State) (k : Fin 3) : Fin 4 := ⟨(s.gid ^^^ (k.val + 1)) % 4, Nat.mod_lt _ (by decide)⟩

/-- The link that leads to instance `i` (R533). -/
def State.linkTo (s : State) (i : Nat) : Fin 3 := ⟨((s.gid ^^^ i) - 1) % 3, Nat.mod_lt _ (by decide)⟩

/-- Link `k` is wired under R533; the others are held in reset. -/
def State.wired (s : State) (k : Fin 3) : Bool :=
  match s.gangSize with
  | 4 => true
  | 2 => k == 0
  | _ => false

/-- GNG_LINKk.STATE. -/
def State.linkState (s : State) (k : Fin 3) : Nat := s.fld (aLINK k.val) 31 30

/-- Link `k` is UP. -/
def State.linkUp (s : State) (k : Fin 3) : Bool := s.linkState k == 2

/-- Membership of instance `i` is ON, and its request is (R542, R545). -/
def State.joined (s : State) (i : Fin 4) : Bool := s.gang.peers[i].fn.state == .on && s.gang.peers[i].fn.want

/-- Membership of instance `i` is in STARTING or ON under its request: its requests are served, and answered over the link
(R547 discards those of a peer that stops). -/
def State.member (s : State) (i : Fin 4) : Bool :=
  (s.gang.peers[i].fn.state == .starting || s.gang.peers[i].fn.state == .on) && s.gang.peers[i].fn.want

/-- The port adapters route addresses of instance `i` to it (R544). -/
def State.peerServes (s : State) (i : Nat) : Bool :=
  let i : Fin 4 := ⟨i % 4, Nat.mod_lt _ (by decide)⟩
  s.joined i && (s.gang.peers[i].mode == 2 || s.gang.peers[i].mode == 3)

/-- A request header (Table 17.2). -/
def requestHeader (x : Piece) : BitVec 160 :=
  BitVec.ofNat 160 (1 + x.op.toNat * 2 ^ 4 + x.addr % 2 ^ 41 * 2 ^ 8 + (x.sectors - 1) % 64 * 2 ^ 49 +
    x.tag % 2 ^ 13 * 2 ^ 55 + x.port % 128 * 2 ^ 68 + x.label % 32 * 2 ^ 75 + x.heat % 8 * 2 ^ 80 +
    x.attr.toNat * 2 ^ 83)

/-- Status codes (Table 3.7). -/
def Status.code : Status → Nat
  | .ok => 0 | .okCorrected => 1 | .poison => 2 | .fetchUe => 3 | .halted => 4 | .cmdError => 5
  | .addressFault => 6 | .denied => 7 | .unmapped => 8 | .dropped => 9 | .keyAbsent => 10 | .sealDone => 11

/-- The status of a code; 0xC to 0xF are reserved. -/
def Status.ofCode : Nat → Status
  | 0 => .ok | 1 => .okCorrected | 2 => .poison | 3 => .fetchUe | 4 => .halted | 5 => .cmdError
  | 6 => .addressFault | 7 => .denied | 8 => .unmapped | 9 => .dropped | 10 => .keyAbsent | _ => .sealDone

/-- A response header (Table 17.2). -/
def responseHeader (stag status : Nat) : BitVec 160 :=
  BitVec.ofNat 160 (2 + stag % 2 ^ 13 * 2 ^ 4 + status % 16 * 2 ^ 17)

/-- A write operation. -/
def isWriteOp (op : BitVec 4) : Bool := op == 1 || op == 2

/-- Credits that a request header needs (R536): data credits for a write. -/
def Piece.dataCredits (x : Piece) : Nat := if isWriteOp x.op then x.sectors else 0

/-- A sender holds the credits for a request (R536). -/
def State.creditsFor (s : State) (k : Fin 3) (x : Piece) : Bool :=
  decide (1 ≤ s.gang.links[k].reqCr ∧ x.dataCredits ≤ s.gang.links[k].datCr)

/-- A request leaves over link `k`. -/
def State.linkSend (s : State) (k : Fin 3) (x : Piece) : State :=
  s.onLink k (fun l =>
    { l with txHdr := l.txHdr ++ [(requestHeader x, x.beats.length)],
             txData := l.txData ++ x.beats.map (fun b => (b.data, b.wpoison)),
             reqCr := l.reqCr - 1, datCr := l.datCr - x.dataCredits })

/-- The first of several data statuses in the order of 03 R123. -/
def worstData (l : List Status) : Status :=
  let has := fun st => l.contains st
  if has .keyAbsent then .keyAbsent
  else if has .cmdError then .cmdError
  else if has .addressFault then .addressFault
  else if has .poison then .poison
  else if has .okCorrected then .okCorrected
  else .ok

/-- The status that a link response carries for a READ's data: the first of R123 over its sectors. -/
def worstStatus (l : List SecRes) : Status := worstData (l.map SecRes.status)

/-- The answer of a piece: its one-beat status, or the first status of R123 over its sectors. -/
def Piece.answer (x : Piece) : Status := x.status.getD (worstStatus (x.results.map Prod.snd))

/-- STATUS by which an instance tells a peer that a link injection has discarded its request, so that the peer frees
the internal tag and places no response (15 Table 15.6). DESIGN CHOICE (log entry 94): the spec names no such header. -/
def droppedCode : Nat := 12

/-- The sender of a discarded request is told so. -/
def State.linkDropped (s : State) (k : Fin 3) (stag : Nat) : State :=
  s.onLink k (fun l => { l with txHdr := l.txHdr ++ [(responseHeader stag droppedCode, 0)] })

/-- A response to the sender of a request leaves over link `k` (R536, R539). -/
def State.linkReply (s : State) (k : Fin 3) (stag : Nat) (x : Piece) : State :=
  let beats := if x.status.isSome || x.op != 0 then [] else x.results.map (fun r => (r.2.data, r.2.poisoned))
  s.onLink k (fun l =>
    { l with txHdr := l.txHdr ++ [(responseHeader stag x.answer.code, beats.length)], txData := l.txData ++ beats })

end Sys2Proof.Machine
end

