-- ==== Sys2Proof/Machine/ClientPorts.lean ====
section
/-! DEFINITION. The port adapters: requests, write beats, responses, PANIC, SEAL and port drain (03). -/

namespace Sys2Proof.Machine

/-- The lifecycle, HDG_STAT.LC (14 R462). -/
def State.lifecycle (s : State) : Nat := s.fld aHDG_STAT 2 0

/-- Fuse word `w` as UF24 takes it: 0 for every word in BLANK (14 Table 14.1). -/
def State.fuseWord (s : State) (w : Fin 128) : Word := if s.lifecycle = 0 then 0 else s.hedge.fuse[w]

/-- Bit `i` of a run of fuse words that starts at word `w`. -/
def State.fuseBit (s : State) (w i : Nat) : Bool :=
  wbit (s.fuseWord ⟨(w + i / 32) % 128, Nat.mod_lt _ (by decide)⟩) (i % 32)

/-- Port `p` is of fetch class (14 Table 14.2). -/
def State.fetchClass (s : State) (p : Nat) : Bool := s.fuseBit 74 p

/-- Port `p` is of halting class. -/
def State.haltingClass (s : State) (p : Nat) : Bool := s.fuseBit 78 p

/-- The static heat of a real-time port, or none (14 Table 14.2, RTCODE). -/
def State.staticHeat (s : State) (p : Nat) : Option Nat :=
  let w := s.fuseWord ⟨(82 + p / 16) % 128, Nat.mod_lt _ (by decide)⟩
  match wbits w (2 * (p % 16) + 1) (2 * (p % 16)) with
  | 0 => none
  | 2 => some 4
  | _ => some 3

/-- Bit `p` of SWD_EN. -/
def State.portEn (s : State) (p : Nat) : Bool := s.flag (aSWD_EN (p / 32)) (p % 32)

/-- Bit `p` of SWD_ACTIVE. -/
def State.portActive (s : State) (p : Nat) : Bool := s.flag (aSWD_ACTIVE (p / 32)) (p % 32)

/-- The port accepts a request (R101, R102, R103, R108; 01 R34). -/
def State.reqReady (s : State) (p : PortId) : Bool :=
  s.portEn p && (s.modes.mode == .forge || s.modes.mode == .lowfire || s.modes.mode == .assay || s.modes.mode == .quench) &&
  s.modes.step == .none && s.tongs.bitten.isNone && decide (s.ports[p].reqs.length < 512)

/-- A write has beats still to come (R109). -/
def Req.lacksBeats (r : Req) : Bool := isWriteOp r.op && decide (r.beats.length ≤ r.len)

/-- A request of the port still owes beats (R109): it has not been answered and none of it has been released. -/
def Req.owes (r : Req) : Bool :=
  r.lacksBeats && (r.stage == .crossing || r.stage == .queued || r.stage == .draining)

/-- Beats that the write data buffer holds: those of refused writes are discarded as they come (R26, R120). -/
def Port.buffered (v : Port) : Nat :=
  v.early.length + (v.reqs.map (fun r => if r.stage == .draining then 0 else r.beats.length)).sum

/-- The port takes a write beat (R26, R101, R104). -/
def State.wReady (s : State) (p : PortId) : Bool :=
  decide (s.ports[p].buffered < 128) && (s.portEn p || (s.portActive p && s.ports[p].reqs.any Req.owes))

/-- System byte address with bits [5:0] taken as 0 (04 R142). -/
def alignAddr (a : Nat) : Nat := a / 64 * 64

/-- A request breaks R114. -/
def crosses4K (a len : Nat) : Bool := decide (4096 < alignAddr a % 4096 + 64 * (len + 1))

/-- The channel of an address is one that a direct run has put in self-refresh (16 R532). -/
def State.runHolds (s : State) (a : Nat) : Bool :=
  let ia := s.gangMap a
  ia.1 == s.gid && s.anvils[chanOf (s.spot ia.2).chan].selfRef[0]

/-- Row 1 of Table 1.7 in ASSAY: a direct run has put a channel of the request in self-refresh (R102, 16 R532). A request
whose sectors lie on several channels is denied where one of them does (DEDUCED, log entry 95). -/
def State.directDenied (s : State) (a len : Nat) : Bool :=
  s.modes.mode == .assay && s.flag aAST_STAT 27 && (List.range (len + 1)).any (fun i => s.runHolds (a + 64 * i))

/-- Rows 1 and 2 of Table 1.7, as the port adapter judges a request other than a SEAL (01 R41, 04 R146, R164). -/
def State.adapterRefusal (s : State) (addr len : Nat) : Option Status :=
  let a := alignAddr addr
  let ia := s.gangMap a
  if s.modes.mode = .quench then some .denied
  else if a < s.gangCap ∧ s.directDenied a len = true then some .denied
  else if s.gangCap ≤ a ∨ s.instCap ≤ ia.2 then some .unmapped
  else if ia.1 ≠ s.gid ∧ ¬ s.peerServes ia.1 then some .unmapped
  else none

/-- Cause 1 or 2 of a protocol error (R119); 0 for none. A SEAL ignores its address and length. -/
def protocolCause (op addr len : Nat) : Nat :=
  if 5 ≤ op then 1 else if op = 3 then 0 else if crosses4K addr len then 2 else 0

/-- Change request `id` of a port. -/
def Port.onReq (v : Port) (id : Nat) (f : Req → Req) : Port :=
  { v with reqs := v.reqs.map (fun r => if r.id = id then f r else r) }

/-- A response enters the response queue (R110). -/
def State.respond (s : State) (p : PortId) (id : Nat) (st : Status) (data : Bool) (beats : List (Sector × Bool)) :
    State :=
  s.onPort p (fun v =>
    let r := v.reqs.find? (fun r => r.id == id)
    let v := v.onReq id (fun r => { r with stage := .answered, beats := [] })
    { v with respq := v.respq ++
        [{ req := id, tag := (r.map Req.tag).getD 0, data := data, beats := beats,
           status := BitVec.ofNat 4 st.code ^^^ (r.map (fun r => r.flip.status)).getD 0 }] })

/-- A response of one beat with no data (R122), with what a link injection inverts in it (15 R505). -/
def State.answer (s : State) (p : PortId) (id : Nat) (st : Status) : State :=
  s.respond p id st false [((s.ports[p].reqs.find? (fun r => r.id == id)).map (fun r => (r.flip.data, r.flip.rpoison))).getD
    (0, false)]

/-- A request that is answered HALTED, or turns out to be a protocol error, uses nothing of its window's budget (R119,
11 R377); a window that has closed keeps its count (DEDUCED, log entry 81). -/
def State.uncount (s : State) (p : PortId) (r : Req) : State :=
  s.onPort p (fun v =>
    { (v.onReq r.id (fun r => { r with booked := 0 })) with
        count := if v.epoch = r.epoch then v.count - r.booked else v.count })

/-- A request is refused by the Bellows. A write first takes its LEN + 1 beats (R120; for DROPPED, whose row R120
does not name, DEDUCED, log entry 81). -/
def State.refuse (s : State) (p : PortId) (r : Req) (st : Status) : State :=
  if r.lacksBeats then s.onPort p (fun v => v.onReq r.id (fun r => { r with stage := .draining, refusal := some st }))
  else s.answer p r.id st

/-- A protocol error: DENIED, fault 0x0C and SWD_PERR (R119, R121). -/
def State.protocolError (s : State) (p : PortId) (r : Req) (cause : Nat) : State :=
  ((((s.uncount p r).recordPerr p cause).send 0x41 0x0C sevInfo (alignAddr r.addr) (p.val + cause * 2 ^ 8))).answer p r.id .denied

/-- Link fault injection is armed on a client port with this mode (15 R503, R504). -/
def State.armed (s : State) (gang : Bool) (target mode : Nat) : Bool :=
  s.flag aLINKINJ 31 && s.flag aLINKINJ 8 == gang && s.fld aLINKINJ 6 0 == target && s.fld aLINKINJ 17 16 == mode

/-- An armed injection fires (15 R504): ARMED and MODE clear, FIRED is set, fault 0x1D. -/
def State.fire (s : State) (gang : Bool) (target mode addr : Nat) : State :=
  let detail := target + b2n gang * 2 ^ 7 + mode * 2 ^ 8 + s.fld aLINKINJ 27 18 * 2 ^ 10
  (((s.setFlag aLINKINJ 31 false).setFld aLINKINJ 17 16 0).setFlag aLINKINJ 30 true).send
    (if gang then 0x53 else 0x56) 0x1D sevInfo (alignAddr addr) detail

/-- WLAST stands on the last beat alone (R109, R119 cause 3). -/
def lastGood (beats : List Beat) : Bool :=
  beats.dropLast.all (fun b => !b.wlast) && (beats.getLast?.map Beat.wlast).getD false

/-- A write whose beats are complete and that the port adapter answers, or that it finds malformed (R119, R120). -/
def State.settleWrite (s : State) (p : PortId) (r : Req) : State :=
  let cause := if r.cause ≠ 0 then r.cause else if lastGood r.beats then 0 else 3
  if r.dropInj then s.onPort p (fun v => { v with reqs := v.reqs.filter (fun x => x.id != r.id) })
  else if cause ≠ 0 then s.protocolError p r cause
  else match r.refusal with
    | some st => s.answer p r.id st
    | none => s

/-- Every write of the port whose last beat has come and that has not been judged yet. -/
def State.settlePort (s : State) (p : PortId) : State :=
  (s.ports[p].reqs.filter (fun r =>
      isWriteOp r.op && (r.stage == .draining || r.stage == .crossing) && decide (r.len < r.beats.length))).foldl
    (fun s r => s.settleWrite p r) s

/-- A request transfers on the request channel (R105, R108, R119, R120). -/
def State.arrive (s : State) (p : PortId) (op addr len : Nat) (tag : BitVec 9) (label : Nat) (colour : BitVec 2)
    (attr : BitVec 4) : State :=
  if ¬ s.reqReady p then s
  else
    let v := s.ports[p]
    let drop := s.armed false p.val 1
    let s := if drop then s.fire false p.val 1 addr else s
    let write := op = 1 ∨ op = 2
    let cause := protocolCause op addr len
    let refusal := if op = 3 then (if s.modes.mode = .quench then some .denied else none) else s.adapterRefusal addr len
    let stage : Stage :=
      if drop ∨ cause ≠ 0 ∨ refusal.isSome then .draining else if op = 3 then .seal else .crossing
    let mine := if write then v.early.take (len + 1) else []
    let r : Req :=
      { id := v.nextId, op := BitVec.ofNat 4 op, addr := addr, len := len, tag := tag, label := label,
        colour := colour, attr := attr, beats := mine, stage := stage, cause := cause, refusal := refusal,
        dropInj := drop, time := 0, epoch := 0, booked := 0, heat := 0, overBud := false, sent := 0, parts := [], flip := Flip.none }
    if drop = true ∧ ¬ write then s
    else
      let s := s.onPort p (fun v =>
        { v with nextId := v.nextId + 1, reqs := v.reqs ++ [r],
                 early := if write then v.early.drop (len + 1) else v.early })
      if write then s.settlePort p
      else if cause ≠ 0 then s.protocolError p r cause
      else match refusal with
        | some st => s.answer p r.id st
        | none => s

/-- READ (R111): OP 0x0, or a reserved OP, which is a protocol error (R119). -/
def execRead (p : PortId) (op : BitVec 4) (addr : BitVec 41) (len : BitVec 6) (tag : BitVec 9) (label : BitVec 5)
    (colour : BitVec 2) (attr : BitVec 4) (s : State) : Out :=
  .next (occur (op == 0 || decide (5 ≤ op.toNat)) s
    (s.arrive p op.toNat addr.toNat len.toNat tag label.toNat colour attr))

/-- WRITE (R111). -/
def execWrite (p : PortId) (addr : BitVec 41) (len : BitVec 6) (tag : BitVec 9) (label : BitVec 5)
    (colour : BitVec 2) (attr : BitVec 4) (s : State) : Out :=
  .next (s.arrive p 1 addr.toNat len.toNat tag label.toNat colour attr)

/-- WRITE_MASKED (R111). -/
def execWriteMasked (p : PortId) (addr : BitVec 41) (len : BitVec 6) (tag : BitVec 9) (label : BitVec 5)
    (colour : BitVec 2) (attr : BitVec 4) (s : State) : Out :=
  .next (s.arrive p 2 addr.toNat len.toNat tag label.toNat colour attr)

/-- SEAL (R111, R117): every other field is ignored. -/
def execSeal (p : PortId) (tag : BitVec 9) (s : State) : Out := .next (s.arrive p 3 0 0 tag 0 0 0)

/-- HINT (R111, R118). -/
def execHint (p : PortId) (addr : BitVec 41) (len : BitVec 6) (tag : BitVec 9) (label : BitVec 5)
    (colour : BitVec 2) (attr : BitVec 4) (s : State) : Out :=
  .next (s.arrive p 4 addr.toNat len.toNat tag label.toNat colour attr)

/-- A beat belongs to the first write that owes one, or waits for its request (R109). -/
def Port.takeBeat (v : Port) (b : Beat) : Port :=
  match v.reqs.find? Req.owes with
  | some r => v.onReq r.id (fun r => { r with beats := r.beats ++ [b] })
  | none => { v with early := v.early ++ [b] }

/-- The response at the front of the queue stands at its first beat. -/
def Port.atFirst (v : Port) (r : Resp) : Bool :=
  match v.reqs.find? (fun q => q.id == r.req) with
  | some q => if r.data then decide (r.beats.length = q.len + 1) else true
  | none => true

/-- The beat that mode 0b10 inverts one bit of (15 R505). -/
def corruptBeat (b : RespBeat) (i : Nat) : RespBeat :=
  if i < 512 then { b with data := b.data ^^^ BitVec.ofNat 512 (2 ^ i) }
  else if i = 512 then { b with rpoison := !b.rpoison }
  else if i ≤ 516 then { b with status := b.status ^^^ BitVec.ofNat 4 (2 ^ (i - 513)) }
  else { b with tag := b.tag ^^^ BitVec.ofNat 9 (2 ^ (i - 517)) }

/-- The swap of mode 0b11: the first two responses of the queue exchange their tags (15 Table 15.6). -/
def Port.swapTags (v : Port) : Port :=
  match v.respq with
  | a :: b :: rest => { v with respq := { a with tag := b.tag } :: { b with tag := a.tag } :: rest }
  | _ => v

/-- The beat at the front of the response queue transfers (R105, R110, R25, R108). -/
def Port.popBeat (v : Port) (corrupt : Option Nat) : Port :=
  match v.respq with
  | [] => v
  | r :: rest =>
    match r.beats with
    | [] => { v with respq := rest }
    | b :: more =>
      let o : RespBeat := { tag := r.tag, status := r.status, data := b.1, rpoison := b.2, rlast := more.isEmpty }
      let o := match corrupt with
        | some i => corruptBeat o i
        | none => o
      { v with
        out := some o
        reserved := if r.data then v.reserved - 1 else v.reserved
        respq := if more.isEmpty then rest else { r with beats := more } :: rest
        reqs := if more.isEmpty then v.reqs.filter (fun q => q.id != r.req) else v.reqs }

/-- RESPONSE_BEAT (R105, R107, R110, R122; 15 R504). With a swap armed a response starts only beside the next one. -/
def execResponseBeat (p : PortId) (s : State) : Out :=
  .next (match s.ports[p].respq with
    | [] => s
    | r :: rest =>
      let first := s.ports[p].atFirst r
      if first && s.armed false p.val 3 then
        occur (!rest.isEmpty) s
          ((s.onPort p (fun v => v.swapTags.popBeat none)).fire false p.val 3 0)
      else if first && s.armed false p.val 2 then
        (s.onPort p (fun v => v.popBeat (some (s.fld aLINKINJ 27 18)))).fire false p.val 2 0
      else s.onPort p (fun v => v.popBeat none))

/-- PANIC (R101, R127): sampled by a port of real-time class that is enabled or still drains (R104). -/
def execPanic (p : PortId) (level : BitVec 2) (s : State) : Out :=
  .next (occur ((s.portEn p || s.portActive p) && (s.staticHeat p).isSome) s (s.onPort p (fun v => { v with panic := level })))

/-- A write that has not received its response (R40). -/
def Req.openWrite (r : Req) : Bool := isWriteOp r.op && r.stage != .answered

/-- The first SEAL with no earlier open write (R40, R135). -/
def sealReady : List Req → Option Req
  | [] => none
  | r :: rest => if r.openWrite then none else if r.stage = .seal then some r else sealReady rest

/-- SEAL_DONE (R40, R117, R135). -/
def execSealDone (p : PortId) (s : State) : Out :=
  .next (match sealReady s.ports[p].reqs with
    | some r => s.answer p r.id .sealDone
    | none => s)

/-- PORT_DRAIN_END (R104): a disabled port with nothing outstanding and an empty buffer is no longer active. -/
def execPortDrainEnd (p : PortId) (s : State) : Out :=
  .next (occur (!s.portEn p && s.portActive p && s.ports[p].reqs.isEmpty && s.ports[p].early.isEmpty) s
    (s.setFlag (aSWD_ACTIVE (p.val / 32)) (p.val % 32) false))

/-- CP<p>_HALT (R131). -/
def State.haltPin (s : State) (p : Nat) : Bool := s.rd (aHALT p) != 0

/-- CP<p>_HALT_LABEL (R131). -/
def State.haltLabel (s : State) (p : Nat) : Nat := ((List.range 32).find? (fun l => s.flag (aHALT p) l)).getD 0

end Sys2Proof.Machine
end

