-- ==== Sys2Proof/Machine/Evq.lean ====
section
/-! DEFINITION. The event FIFO (15 R506 to R516). -/

namespace Sys2Proof.Machine

/-- Change the event FIFO. -/
def State.onEvq (s : State) (f : Evq → Evq) : State := { s with evq := f s.evq }

/-- Stages in use (R508). -/
def Evq.used (q : Evq) : Nat := (q.recs.map Rec.len).sum

/-- The header word of a record (Table 15.7). -/
def recHeader (len prio type source arg time : Nat) : BitVec 64 :=
  BitVec.ofNat 64 ((len - 1) % 8 + prio % 4 * 2 ^ 3 + type % 256 * 2 ^ 8 + source % 256 * 2 ^ 16 +
    arg % 256 * 2 ^ 24 + time % 2 ^ 32 * 2 ^ 32)

/-- The priority in the first word of a record that still holds its header, else that of its stored header. -/
def Rec.prio (r : Rec) : Nat := bits ((r.words.headD 0).toNat) 4 3

/-- A complete record stands in the FIFO. -/
def Evq.anyComplete (q : Evq) : Bool := q.recs.any Rec.complete

/-- EVQ_STATUS.IRQ is set. -/
def State.evqIrq (s : State) : State := s.setFlag aEVQ_STATUS 31 true

/-- EVQ_TIMEOUT_US.US. -/
def State.evqUs (s : State) : Nat := s.fld aEVQ_TIMEOUT 15 0

/-- Record `id` becomes complete (R509, R515). -/
def State.evqComplete (s : State) (id : Nat) : State :=
  let first := !s.evq.anyComplete
  let prio := ((s.evq.recs.find? (fun r => r.id == id)).map Rec.prio).getD 0
  let s := s.onEvq (fun q =>
    { q with recs := q.recs.map (fun r => if r.id = id then { r with complete := true } else r)
             timer := if first then some s.timebase else q.timer })
  if prio = 3 ∨ s.evqUs = 0 then s.evqIrq else s

/-- A word enters record `id`; its last word completes it (R509). -/
def State.evqEnter (s : State) (id : Nat) (w : BitVec 64) : State :=
  let s := s.onEvq (fun q =>
    { q with recs := q.recs.map (fun r => if r.id = id then { r with words := r.words ++ [w] } else r) })
  match s.evq.recs.find? (fun r => r.id == id) with
  | some r => if r.words.length = r.len ∧ ¬ r.complete then s.evqComplete id else s
  | none => s

/-- A GAP record with ARG 1 takes a free stage (R508). -/
def State.evqGap (s : State) : State :=
  let id := s.evq.nextId
  let h := recHeader 1 3 0 0x55 1 s.timebase
  let s := s.onEvq (fun q =>
    { q with recs := q.recs ++ [{ id := id, len := 1, words := [h], complete := false, gap := true }]
             nextId := id + 1 })
  s.evqComplete id

/-- The ARG of an unread GAP record that is the latest arrival is incremented, saturating at 255 (R508). -/
def bumpGap (r : Rec) : Rec :=
  let h := (r.words.headD 0).toNat
  { r with words := [BitVec.ofNat 64 (h % 2 ^ 24 + sat 255 (bits h 31 24 + 1) * 2 ^ 24 + h / 2 ^ 32 * 2 ^ 32)] }

/-- The latest arrival in the FIFO is an unread GAP record. -/
def Evq.gapLast (q : Evq) : Bool := (q.recs.getLast?.map Rec.gap).getD false

/-- The start of a record of `n` words; answers its number, or none where the record is dropped (R508). -/
def State.evqStart (s : State) (n prio type source arg : Nat) : State × Option Nat :=
  if n + 1 ≤ 64 - s.evq.used then
    let id := s.evq.nextId
    let r : Rec := { id := id, len := n, words := [recHeader n prio type source arg s.timebase],
                     complete := false, gap := false }
    let s := s.onEvq (fun q => { q with recs := q.recs ++ [r], nextId := id + 1 })
    (if n = 1 then s.evqComplete id else s, some id)
  else
    let s := s.count aEVQ_STATUS 23 16
    if s.evq.gapLast then
      (s.onEvq (fun q => { q with recs := q.recs.dropLast ++ (q.recs.getLast?.map bumpGap).toList }), none)
    else ((s.evqGap).send 0x55 0x1C sevInfo 0 (type % 256 + source % 256 * 2 ^ 8), none)

/-- A whole record of words after its header, from a writer that writes it in one go. -/
def State.evqRecord (s : State) (prio type source arg : Nat) (ws : List (BitVec 64)) : State :=
  match s.evqStart (ws.length + 1) prio type source arg with
  | (s, some id) => ws.foldl (fun s w => s.evqEnter id w) s
  | (s, none) => s

/-- The missing words of the Master Smith's record enter as 0 and it completes (R510). -/
def State.evqFinish (s : State) : State :=
  match s.evq.writing with
  | none => s.onEvq (fun q => { q with ignore := 0 })
  | some id =>
    let miss := ((s.evq.recs.find? (fun r => r.id == id)).map (fun r => r.len - r.words.length)).getD 0
    let s := (List.range miss).foldl (fun s _ => s.evqEnter id 0) s
    s.onEvq (fun q => { q with writing := none, ignore := 0 })

/-- The Master Smith writes EVQ_PUT_HDR (R510). -/
def State.evqPutHdr (s : State) (w : Word) : State :=
  let s := s.evqFinish
  let n := wbits w 2 0 + 1
  match s.evqStart n (wbits w 4 3) (wbits w 15 8) 0x50 (wbits w 31 24) with
  | (s, some id) => s.onEvq (fun q => { q with writing := if n = 1 then none else some id })
  | (s, none) => s.onEvq (fun q => { q with ignore := n - 1 })

/-- The Master Smith writes EVQ_PUT_LO. -/
def State.evqPutLo (s : State) (w : Word) : State := s.onEvq (fun q => { q with putLo := w })

/-- The Master Smith writes EVQ_PUT_HI: one word enters (R510). -/
def State.evqPutHi (s : State) (w : Word) : State :=
  match s.evq.writing with
  | some id =>
    let s := s.evqEnter id (BitVec.ofNat 64 (s.evq.putLo.toNat + w.toNat * 2 ^ 32))
    match s.evq.recs.find? (fun r => r.id == id) with
    | some r => if r.complete then s.onEvq (fun q => { q with writing := none }) else s
    | none => s
  | none => s.onEvq (fun q => { q with ignore := q.ignore - 1 })

/-- The oldest record of a priority level. -/
def Evq.oldest (q : Evq) (prio : Nat) : Option Rec := q.recs.find? (fun r => r.prio == prio)

/-- The record a reader takes its next word from (R511, R512). -/
def Evq.next (q : Evq) (who : Agent) : Option Rec :=
  match q.reading with
  | some (id, a) => if a = who then q.recs.find? (fun r => r.id == id) else none
  | none =>
    [3, 2, 1, 0].findSome? (fun p =>
      match q.oldest p with
      | some r => if r.complete then some r else none
      | none => none)

/-- The word at the head of the FIFO: that of the record that a reader has begun, else of the next one. -/
def Evq.head (q : Evq) : Nat :=
  let r : Option Rec := match q.reading with
    | some (id, _) => q.recs.find? (fun r => r.id == id)
    | none => q.next .host
  (r.map (fun r => (r.words.headD 0).toNat)).getD 0

/-- Every complete record is discarded (R514). -/
def Evq.flushed (q : Evq) : Evq :=
  { q with recs := q.recs.filter (fun r => !r.complete), flushP := false, timer := none }

/-- A write of 1 to EVQ_CTL.FLUSH (R514). -/
def State.evqFlush (s : State) : State :=
  s.onEvq (fun q => if q.reading.isNone then q.flushed else { q with flushP := true })

/-- Change the captures of a reader. -/
def State.onCaps (s : State) (who : Agent) (f : Captures → Captures) : State :=
  match who with
  | .host => { s with hostCaps := f s.hostCaps }
  | .smith m => s.onSmith m (fun x => { x with caps := f x.caps })

/-- The captures of a reader. -/
def State.capsOf (s : State) (who : Agent) : Captures :=
  match who with
  | .host => s.hostCaps
  | .smith m => s.smiths[m].caps

/-- A reader that removes words: host software or the Master Smith (R511). -/
def Agent.takes : Agent → Bool
  | .host => true
  | .smith m => m == masterSmith

/-- A read of EVQ_DATA_LO (R511, R513). -/
def State.evqReadLo (s : State) (who : Agent) : Word × State :=
  if who.takes then
    match s.evq.next who with
    | some r =>
      let w := (r.words.headD 0).toNat
      (BitVec.ofNat 32 w, s.onCaps who (fun c => { c with evq := some (r.id, BitVec.ofNat 32 (w / 2 ^ 32)) }))
    | none => ((s.capsOf who).evqLast.setWidth 32, s.setFlag aEVQ_STATUS 30 true)
  else (BitVec.ofNat 32 s.evq.head, s)

/-- The first word of record `id` is removed by a reader (R511, R514, R515). -/
def State.evqRemove (s : State) (who : Agent) (id : Nat) : State :=
  match s.evq.recs.find? (fun r => r.id == id) with
  | none => s
  | some r =>
    if s.evq.reading.isNone || s.evq.reading == some (id, who) then
      let last := decide (r.words.length ≤ 1)
      let s := s.onCaps who (fun c => { c with evqLast := r.words.headD 0 })
      s.onEvq (fun q =>
        let recs :=
          if last then q.recs.filter (fun x => x.id != id)
          else q.recs.map (fun x => if x.id = id then { x with words := x.words.tail, len := x.len - 1 } else x)
        let q := { q with recs := recs, reading := if last then none else some (id, who)
                          timer := if recs.any Rec.complete then some s.timebase else none }
        if last && q.flushP then q.flushed else q)
    else s

/-- A read of EVQ_DATA_HI (R511, R513). -/
def State.evqReadHi (s : State) (who : Agent) : Word × State :=
  if who.takes then
    match (s.capsOf who).evq with
    | some (id, hi) => (hi, (s.onCaps who (fun c => { c with evq := none })).evqRemove who id)
    | none =>
      (BitVec.ofNat 32 ((s.capsOf who).evqLast.toNat / 2 ^ 32), s.setFlag aEVQ_STATUS 30 true)
  else (BitVec.ofNat 32 (s.evq.head / 2 ^ 32), s)

/-- EVQ_STATUS as it reads. -/
def State.evqStatus (s : State) : Word :=
  let w := putBits (s.rd aEVQ_STATUS) 29 29 (b2n s.evq.flushP)
  let w := putBits w 28 28 (b2n (s.evq.next .host |>.isSome))
  putBits w 6 0 s.evq.used

/-- A complete record has stood for EVQ_TIMEOUT_US.US µs with no word removed (R515). -/
def State.evqDue (s : State) : Bool :=
  match s.evq.timer with
  | some t => s.evqUs != 0 && s.evq.anyComplete && decide (t + 1000 * s.evqUs ≤ s.timebase)
  | none => false

/-- EVQ_TIMEOUT (R515). -/
def execEvqTimeout (now : Nat) (s : State) : Out :=
  .next (timed now State.evqDue (fun s => s.evqIrq.onEvq (fun q => { q with timer := none })) s)

end Sys2Proof.Machine
end

