-- ==== Sys2Proof/Machine/Hold.lean ====
section
/-! DEFINITION. Holding a channel (02 R70) and the end of a pause (02 R78, R89, 07 R266). -/

namespace Sys2Proof.Machine

/-- The bank-in and bank-out steps of a BANKED transition (13 R441, R443). -/
def State.bankSteps (s : State) : Bool := s.modes.step == .bankIn || s.modes.step == .bankOut

/-- A granted pause of Smith `m` on channel `c`. -/
def State.pausedBy (s : State) (m : SmithId) (c : Chan) : Bool := s.anvils[c].granted.any (fun g => g.smith == m)

/-- Smith `m` holds channel `c` (R70). -/
def State.holds (s : State) (m : SmithId) (c : Chan) : Bool :=
  s.modes.mode == .kindle || s.pausedBy m c || (s.bankSteps && s.anvils[c].drained)

/-- Some Smith holds channel `c`. -/
def State.heldAny (s : State) (c : Chan) : Bool :=
  s.modes.mode == .kindle || !s.anvils[c].granted.isEmpty || (s.bankSteps && s.anvils[c].drained)

/-- A Smith owes an ENDP for the pause it requests. -/
def Anvil.owe (v : Anvil) (m : SmithId) : Anvil :=
  { v with owed := (m, false) :: v.owed.filter (fun o => o.1 != m) }

/-- A pause of `n` CK is requested (R76); outside service it prepares at once (R80; log entry 30). -/
def State.askPause (s : State) (m : SmithId) (n : Nat) (c : Chan) : State :=
  let prep := !s.inService || s.bankSteps
  s.onAnvil c (fun v =>
    let v := v.owe m
    { v with pauses := v.pauses ++ [{ smith := m, n := n, time := s.timebase, prep := prep, forced := false }] })

/-- Rank of heat-7 work after a pause: ZQ latch, MR4 poll, refresh (07 R266). -/
def CmdSrc.pauseRank : CmdSrc → Nat
  | .zq => 0
  | .mr4 => 1
  | _ => 2

/-- Work that fell due during the pause takes the order of R266, behind what was pending before it. -/
def orderAfterPause (l : List (Cmd × Bool)) : List (Cmd × Bool) :=
  let late := l.filter (fun e => e.2)
  (l.filter (fun e => !e.2) ++
    [0, 1, 2].flatMap (fun k => late.filter (fun e => e.1.src.pauseRank == k))).map (fun e => (e.1, false))

/-- The pause that Smith `m` holds on this channel ends (R78). DEDUCED (log entry 82): a Smith command that R71 has
permitted and that has crossed is issued even where it had not reached the command slot by then. -/
def Anvil.endPause (v : Anvil) (m : SmithId) : Anvil :=
  let left := v.granted.filter (fun g => g.smith != m)
  { v with granted := left, heat7 := if left.isEmpty then orderAfterPause v.heat7 else v.heat7 }

/-- A Smith stops: the pauses it held end and the ones it asked for are withdrawn; an ENDP still owed finds the
pause no longer held (R89, R91). DEDUCED (log entry 82): the ENDP of a withdrawn pause stays owed, and returns 0.
Its MRR results on the way are discarded, and an OSC goes no further. -/
def Anvil.dropSmith (v : Anvil) (m : SmithId) : Anvil :=
  let v' := v.endPause m
  let had := v.granted.any (fun g => g.smith == m)
  { v' with
    pauses := v'.pauses.filter (fun r => r.smith != m)
    owed := if had then v'.owed.map (fun o => if o.1 = m then (m, true) else o) else v'.owed
    heat7 := v'.heat7.filter (fun e => !(e.1.src == .osc m && decide (0 < e.1.due)))
    bursts := v'.bursts.filter (fun b => !(b.cmd.code == .mrr && (b.cmd.src == .smith m || b.cmd.src == .osc m))) }

end Sys2Proof.Machine
end

