-- ==== Sys2Proof/Machine/Operands.lean ====
section
/-! DEFINITION. The operand forms of a Smith instruction word: fields, immediates, opcodes (02 R63 to R65), the
lane selector (02 Table 2.14) and the DRAM command word (02 R69). -/

namespace Sys2Proof.Machine

/-- The opcode of an instruction word (Table 2.6). -/
def opcodeOf (w : Word) : Nat := wbits w 31 26

/-- Field d. -/
def fieldD (w : Word) : RegNo := w.extractLsb' 22 4

/-- Field a. -/
def fieldA (w : Word) : RegNo := w.extractLsb' 18 4

/-- Field b. -/
def fieldB (w : Word) : RegNo := w.extractLsb' 14 4

/-- Field imm14. -/
def fieldImm (w : Word) : BitVec 14 := w.extractLsb' 0 14

/-- imm18 of LUI: b and imm14 (R64). -/
def fieldImm18 (w : Word) : BitVec 18 := w.extractLsb' 0 18

/-- The opcodes of Table 2.7. -/
def opcodes : List Nat :=
  [0x01, 0x02, 0x03, 0x04, 0x05, 0x06, 0x07, 0x08, 0x09, 0x0A, 0x0B, 0x10, 0x11, 0x12, 0x13, 0x14, 0x15, 0x16,
   0x18, 0x19, 0x1C, 0x1D, 0x1E, 0x1F, 0x20, 0x21, 0x22, 0x23, 0x24, 0x25, 0x27, 0x28, 0x29, 0x2C, 0x2D, 0x30,
   0x31, 0x32, 0x34, 0x35, 0x36, 0x38, 0x39, 0x3A, 0x3B, 0x3E]

/-- simm: the immediate sign-extended (R64). -/
def simm (imm : BitVec 14) : Word := imm.signExtend 32

/-- uimm: the immediate zero-extended (R64). -/
def uimm (imm : BitVec 14) : Nat := imm.toNat

/-- The fields an instruction uses; `none` for a field it ignores (R63). -/
structure Fields where
  op    : Nat
  d     : Option RegNo := none
  a     : Option RegNo := none
  b     : Option RegNo := none
  imm   : Option (BitVec 14) := none
  imm18 : Option (BitVec 18) := none
deriving DecidableEq, Repr

/-- A word holds an instruction with these fields. -/
def Fields.fits (f : Fields) (w : Word) : Bool :=
  opcodeOf w == f.op && f.d.all (· == fieldD w) && f.a.all (· == fieldA w) && f.b.all (· == fieldB w) &&
  f.imm.all (· == fieldImm w) && f.imm18.all (· == fieldImm18 w)

/-- The word of an instruction from its fields, unused ones 0 (Table 2.6). -/
def encodeWord (op : Nat) (d a b : RegNo) (imm : BitVec 14) : Word :=
  BitVec.ofNat 32 (op % 64 * 2 ^ 26 + d.toNat * 2 ^ 22 + a.toNat * 2 ^ 18 + b.toNat * 2 ^ 14 + imm.toNat)

/-! ### Command words (R69) -/

/-- The code of a command word (Table 2.12); 0xF is reserved. -/
def codeOf : Nat → Option Code
  | 0 => some .mrw | 1 => some .mrr | 2 => some .act | 3 => some .pre | 4 => some .prea | 5 => some .rd
  | 6 => some .wr | 7 => some .refpb | 8 => some .refab | 9 => some .rfm | 10 => some .sre | 11 => some .srx
  | 12 => some .pde | 13 => some .pdx | 14 => some .mpc | _ => none

/-- An even number of ones in a word. -/
def evenOnes (w : Word) : Bool := (List.range 32).foldl (fun acc i => acc != wbit w i) false == false

/-- The command of a command word with CODE `k` (Table 2.11). -/
def cmdOfWord (k : Code) (w : Word) (src : CmdSrc) : Cmd :=
  { code := k, rank := wbits w 26 26, bank := wbits w 25 22, row := wbits w 17 0, ap := wbit w 17, bl16 := wbit w 16,
    col := wbits w 5 0, ma := wbits w 14 8, op := wbits w 7 0, src := src, due := 0, bound := false, seen := false }

/-- An MPC that starts or stops an interval oscillator (R71). -/
def oscMpc (op : Nat) : Bool := Config.oscOps.contains op

/-! ### Lane selectors (R81, Table 2.14) -/

/-- A lane selector. -/
structure Lanes where
  chan : Nat
  rank : Nat
  cls  : Nat
  osc  : Bool
  byte : Nat
  bitNo : Nat
  all  : Bool
deriving DecidableEq, Repr

/-- The lane selector in a register. -/
def lanesOf (w : Word) : Lanes :=
  { chan := wbits w 4 0, rank := wbits w 7 7, cls := wbits w 10 8, osc := wbit w 11, byte := wbits w 12 12,
    bitNo := wbits w 15 13, all := wbit w 16 }

/-- Offsets within a set point of the lanes a selector names (Table 7.3, R250). -/
def Lanes.offsets (l : Lanes) : List Nat :=
  let r := 48 * l.rank
  match l.cls with
  | 0 => if l.all then List.range 7 else if l.bitNo = 7 then [] else [l.bitNo]
  | 1 => [16 + r]
  | 2 => [7]
  | 3 => if l.all then [17 + r, 18 + r] else [17 + r + l.byte]
  | 4 => if l.all then (List.range 16).map (· + (19 + r)) else [19 + r + 8 * l.byte + l.bitNo]
  | 5 => if l.all then (List.range 16).map (· + (35 + r)) else [35 + r + 8 * l.byte + l.bitNo]
  | 6 => if l.all then [51 + r, 52 + r] else [51 + r + l.byte]
  | _ =>
    let o := 53 + r + 2 * (l.bitNo % 2)
    if l.all then [o, o + 1] else [o + l.byte]

/-- A selector that names no lane: CLASS 0 with ALL = 0 and BIT = 7 (R81). -/
def Lanes.none (l : Lanes) : Bool := l.offsets.isEmpty

/-- Bits of the pass map that a selector names (R83). -/
def Lanes.mapBits (l : Lanes) : List Nat :=
  match l.cls with
  | 0 => if l.all then List.range 7 else if l.bitNo = 7 then [] else [l.bitNo]
  | 1 => [7]
  | 2 => []
  | 3 => if l.all then [0, 1] else [l.byte]
  | 4 => if l.all then List.range 16 else [8 * l.byte + l.bitNo]
  | 5 => if l.all then List.range 16 else [8 * l.byte + l.bitNo]
  | 6 => if l.all then [0, 1] else [l.byte]
  | _ => if l.all then [16, 17] else [16 + l.byte]

/-- The bits of the pass map that a selector names (R83). -/
def Lanes.mask (l : Lanes) : Word := l.mapBits.foldl (fun w i => w ||| BitVec.ofNat 32 (2 ^ i)) 0

/-- The lane classes a pattern may be used with (Table 7.4). -/
def patternClasses : Nat → List Nat
  | 0 => [0, 1]
  | 1 => [3]
  | 2 => [5, 7]
  | 3 => [4, 7]
  | 4 => [6]
  | _ => []

end Sys2Proof.Machine
end

