-- ==== Sys2Proof/Machine/SmithCore.lean ====
section
/-! DEFINITION. The Smith machine: fetch, completion of an instruction, faults, start and stop (02). -/

namespace Sys2Proof.Machine

/-- The Master Smith (R46). -/
def isMaster (m : SmithId) : Bool := m == masterSmith

/-- The image a Smith executes. -/
def State.image (s : State) (m : SmithId) : Image := if isMaster m then s.imageMS else s.imageAS

/-- Instructions in the instruction memory of a Smith (Table 2.1). -/
def imemWords (m : SmithId) : Nat := if isMaster m then 8192 else 4096

/-- Bytes of the data memory of a Smith (Table 2.1). -/
def dmemBytes (m : SmithId) : Nat := if isMaster m then 16384 else 4096

/-- The source code of a Smith's messages (R88, R89). -/
def smithSource (m : SmithId) : Nat := if isMaster m then 0x50 else m.val

/-- The instruction word at the program counter. -/
def State.fetchWord (s : State) (m : SmithId) : Word := (s.image m).mem.get s.smiths[m].pc.toNat

/-- Register g[x]; g0 reads 0 (R46). -/
def State.g (s : State) (m : SmithId) (x : RegNo) : Word :=
  if x = 0 then 0 else s.smiths[m].g[x.toNat]'(by have := x.isLt; omega)

/-- Write g[x]; a write to g0 is discarded (R47). -/
def State.setG (s : State) (m : SmithId) (x : RegNo) (w : Word) : State :=
  if x = 0 then s
  else s.onSmith m (fun h => { h with g := h.g.set x.toNat w (by have := x.isLt; omega) })

/-- A program counter modulo the size of the instruction memory (R47). -/
def wrapPc (m : SmithId) (pc : Nat) : BitVec 13 := BitVec.ofNat 13 (pc % imemWords m)

/-- UF24 answers a pending mailbox command NO_SMITH (08 R277). -/
def State.mboxNoSmith (s : State) : State :=
  if s.flag aMBOX_STATUS 31 then
    ((s.setFld aMBOX_STATUS 7 0 0xFE).setFld aMBOX_STATUS 23 16 (s.fld aMBOX_CMD 15 8)).setFlag aMBOX_STATUS 31 false
  else s

/-- A signal of Smith `m` arrives: its bit in SIGSET, and event 1 (R86). -/
def State.signal (s : State) (m to_ : SmithId) : State :=
  (s.onSmith to_ (fun h => { h with sigset := h.sigset ||| BitVec.ofNat 25 (2 ^ m.val) })).event to_ 1

/-- The channel of an Anvil Smith. -/
def chanOfSmith (m : SmithId) : Option Chan := if h : m.val < 24 then some ⟨m.val, h⟩ else none

/-- A program of the reference image ends with its Smith (08 R271, R273). -/
def Prog.stop (p : Prog) (m : SmithId) : Prog :=
  match chanOfSmith m with
  | some c => { p with jobs := p.jobs.set c none }
  | none => { p with task := none, mode := false }

/-- No message of Smith `m` is waited for. -/
def FaultUnit.release (f : FaultUnit) (m : SmithId) : FaultUnit :=
  { f with arriving := f.arriving.map (fun x => if x.raiser = some m then { x with raiser := none } else x) }

/-- A Smith becomes STOPPED: its pauses end, its MRR results are discarded, its event record completes and a pending
mailbox command is answered (R89, R91, 08 R277, 15 R510). -/
def State.smithStop (s : State) (m : SmithId) : State :=
  let s := s.onSmith m (fun h => { h with run := .stopped, wait := none, stopReq := false, mrr := [] })
  let s := { s with anvils := s.anvils.map (fun v => v.dropSmith m), prog := s.prog.stop m, faults := s.faults.release m }
  if isMaster m then s.evqFinish.mboxNoSmith else s

/-- The instruction waits (Tables 2.8 and 2.9). -/
def State.smithWait (s : State) (m : SmithId) (w : Wait) : State :=
  s.onSmith m (fun h => { h with run := .waiting, wait := some w })

/-- The message of a Smith fault (R89): the cause, the Smith and its program counter; it holds its Smith until it is taken. -/
def smithFaultMsg (s : State) (m : SmithId) (cause addr : Nat) : Msg :=
  { source := BitVec.ofNat 8 (smithSource m), kind := 0x17, sev := BitVec.ofNat 2 sevUncorrected, addr := BitVec.ofNat 41 addr
    detail := BitVec.ofNat 23 (s.smiths[m].pc.toNat + cause * 2 ^ 14 + m.val * 2 ^ 18), raiser := some m }

/-- A Smith fault: kind 0x17, and the Smith stops once the fault unit has taken the message (R89, 15 R493). -/
def State.smithFault (s : State) (m : SmithId) (cause addr : Nat) : State :=
  (s.onFaults (fun u => { u with arriving := u.arriving ++ [smithFaultMsg s m cause addr] })).smithWait m (.raise true)

/-- The fetch of the next instruction: an index at or above the image length is cause 0x1 (R68), a reserved opcode
is cause 0x0 (R65). -/
def State.fetchNext (s : State) (m : SmithId) : State :=
  if (s.image m).length ≤ s.smiths[m].pc.toNat then s.smithFault m 1 0
  else if opcodes.contains (opcodeOf (s.fetchWord m)) then s
  else s.smithFault m 0 0

/-- The instruction completes and execution goes on at `pc`; a stop that waits takes effect here (R66, R91). -/
def State.smithGo (s : State) (m : SmithId) (pc : Nat) : State :=
  let s := s.onSmith m (fun h => { h with run := .running, wait := none, pc := wrapPc m pc })
  if s.smiths[m].stopReq then s.smithStop m else s.fetchNext m

/-- The instruction completes and execution goes on at pc + 1 (R66). -/
def State.smithDone (s : State) (m : SmithId) : State := s.smithGo m (s.smiths[m].pc.toNat + 1)

/-- Smith `m` is RUNNING and the word at its program counter holds this instruction. -/
def State.ready (s : State) (m : SmithId) (f : Fields) : Bool :=
  s.smiths[m].run == .running && f.fits (s.fetchWord m)

/-- `n` free values are taken. -/
def State.drawn (s : State) (n : Nat) : State := { s with gang := { s.gang with free := s.gang.free + n } }

/-- The `i`-th free value from here (log entry 4). -/
def State.free (s : State) (i : Nat) : BitVec 64 := Config.freeWord (s.gang.free + i)

/-- What a program of the reference image leaves in the registers of a Smith: free values (log entry 4). -/
def State.clobber (s : State) (m : SmithId) : State :=
  (s.onSmith m (fun h =>
    { h with g := Vector.ofFn (fun i => (s.free i.val).setWidth 32), pc := wrapPc m (s.free 16).toNat })).drawn 17

/-- Word `i` of the Master Smith status block (08 Table 8.7). -/
def State.block (s : State) (i : Nat) : Word := (s.smiths[masterSmith]).dmem.get i

/-- Write word `i` of the status block. -/
def State.setBlock (s : State) (i : Nat) (w : Word) : State :=
  s.onSmith masterSmith (fun h => { h with dmem := h.dmem.set i w })

/-- Change what the reference images remember. -/
def State.onProg (s : State) (f : Prog → Prog) : State := { s with prog := f s.prog }

/-- Major and minor of the accepted image of a Smith, as LAYOUT holds them (08 Table 8.7). -/
def State.layoutOf (s : State) (m : SmithId) : Word :=
  let w := s.rd (if isMaster m then aVER_MS else aVER_AS)
  BitVec.ofNat 32 (wbits w 31 24 * 2 ^ 16 + wbits w 23 16)

/-- The bit of PARKED that stands for a Smith (08 Table 8.7). -/
def parkedBit (m : SmithId) : Nat := if isMaster m then 0 else 1

/-- A started reference image that finds itself parked by another layout refuses to resume (08 R286). -/
def State.refuseResume (s : State) (m : SmithId) : State :=
  (s.setBlock 0 (s.layoutOf m)).smithFault m 9 0

/-- The entry point of the reference Master Smith image: the event bindings of 08 Table 8.2, the status block, and
IDLE (08 R272). Its remembered values are laid out anew where the block has another layout. The handlers stand at free
addresses. -/
def State.masterEntry (s : State) : State :=
  let fresh := s.block 0 != s.layoutOf masterSmith
  let s := (s.setBlock 0 (s.layoutOf masterSmith)).setBlock 5 (putBits (s.block 5) 0 0 0)
  let s := s.onSmith masterSmith (fun h =>
    { h with run := .idle, evmask := 0x1FBF, tick := 1000, tickFrom := s.timebase,
             vec := Vector.ofFn (fun i => if bit 0x1FBF i.val then putBits ((s.free i.val).setWidth 32) 31 31 1 else 0) })
  let s := if fresh then
      { s with prog := { Prog.reset with knobs := (s.free 16).setWidth 3, bounds := 0x00C8000A } }
    else s
  (s.drawn 17).clobber masterSmith

/-- The entry point of the reference Anvil Smith image: events 1, 3, 6 and 12 are bound and enabled, PARKED clears, and
the Smith is IDLE (08 Table 8.2, R286). -/
def State.anvilEntry (s : State) (m : SmithId) : State :=
  let s := s.setBlock 5 (putBits (s.block 5) 1 1 0)
  let s := s.onSmith m (fun h =>
    { h with run := .idle, evmask := 0x104A,
             vec := Vector.ofFn (fun i => if bit 0x104A i.val then putBits ((s.free i.val).setWidth 32) 31 31 1 else 0) })
  (s.drawn 16).clobber m

/-- The Smith runs the reference image (log entry 32). -/
def State.byReference (s : State) (m : SmithId) : Bool := (s.image m).reference

/-- What follows the start of a Smith: the entry point of a reference image, or the fetch of the first instruction (08
R286, R66). -/
def State.enterImage (s : State) (m : SmithId) : State :=
  if !s.byReference m then s.fetchNext m
  else if wbit (s.block 5) (parkedBit m) && s.block 0 != s.layoutOf m then s.refuseResume m
  else if isMaster m then s.masterEntry
  else s.anvilEntry m

/-- The mode handler of the reference Master Smith image runs from event 3 to the end of the transition (08 R273). -/
def State.modeHandler (s : State) : State :=
  if s.flag aMODE 29 then
    (s.onProg (fun p => { p with mode := true })).onSmith masterSmith (fun h => { h with run := .waiting, wait := none })
  else s

/-- The transition has ended, and with it the mode handler: the Smith is IDLE again (08 R273). -/
def State.endHandler (s : State) : State :=
  if !s.prog.mode then s
  else ((s.onProg (fun p => { p with mode := false })).onSmith masterSmith (fun h => { h with run := .idle })).clobber masterSmith

/-- A start: only a STOPPED Smith whose image is accepted; without an accepted image STARTREF is set (R90). -/
def State.smithStart (s : State) (m : SmithId) : State :=
  if !(s.image m).accepted then s.setFlag aLOAD 13 true
  else if s.smiths[m].run != .stopped then s
  else
    let entry := (s.image m).entry
    let s := s.onSmith m (fun h =>
      { h with run := .running, pc := entry, g := Vector.replicate 16 0, evpend := 0, evmask := 0, evcause := 0,
               tick := 0, tickFrom := s.timebase, sigset := 0, vec := Vector.replicate 16 0, wait := none,
               stopReq := false, mrr := [] })
    let s := if isMaster m then s.setFlag aSTATE1 18 false else s
    s.enterImage m

/-- A stop request (R91): at once between instructions, in an abandoned wait or in an ungranted PAUSE; else at the
next instruction boundary. -/
def State.smithHalt (s : State) (m : SmithId) : State :=
  match s.smiths[m].run with
  | .stopped => s
  | .idle | .running => s.smithStop m
  | .waiting =>
    match s.smiths[m].wait with
    | some (.wck ..) | some (.wns ..) | some (.wev ..) | some (.wsig ..) | some (.slw ..) | some (.pause ..) | none =>
      s.smithStop m
    | _ => s.onSmith m (fun h => { h with stopReq := true })

/-- The channel an instruction acts on: the operand in the Master Smith, its own anvil in an Anvil Smith; none for a
value above 23 (02 Instructions). -/
def chanFor (m : SmithId) (x : Nat) : Option Chan :=
  if isMaster m then (if h : x < 24 then some ⟨x, h⟩ else none)
  else if h : m.val < 24 then some ⟨m.val, h⟩ else none

/-- HALT (R66): the Smith becomes IDLE. -/
def State.smithIdle (s : State) (m : SmithId) : State :=
  let s := s.onSmith m (fun h => { h with run := .idle, pc := wrapPc m (h.pc.toNat + 1) })
  if s.smiths[m].stopReq then s.smithStop m else s

/-- The lowest event pending and enabled (R61). -/
def Smith.readyEvent (h : Smith) : Option (Fin 16) :=
  (List.finRange 16).find? (fun n => bit (h.evpend &&& h.evmask).toNat n.val)

/-- One dispatch of an IDLE Smith (R61). -/
def State.dispatch (s : State) (m : SmithId) : State :=
  match s.smiths[m].run, s.smiths[m].readyEvent with
  | .idle, some n =>
    let v := s.smiths[m].vec[n]
    let s := s.onSmith m (fun h =>
      { h with evpend := h.evpend &&& ~~~ BitVec.ofNat 16 (2 ^ n.val), evcause := BitVec.ofNat 5 n.val })
    if wbit v 31 then s.smithGo m (wbits v 12 0) else s
  | _, _ => s

/-- The next event 0 is due: PERIOD µs after the latest write or the last event 0 (R60). -/
def State.tickDue (s : State) (m : SmithId) : Bool :=
  s.smiths[m].tick != 0 && decide (s.smiths[m].tickFrom + 1000 * s.smiths[m].tick.toNat ≤ s.timebase)

/-- Event 0 occurs and the period runs on. -/
def State.doTick (s : State) (m : SmithId) : State :=
  (s.onSmith m (fun h => { h with tickFrom := h.tickFrom + 1000 * h.tick.toNat })).event m 0

/-- TICK (R60). -/
def execTick (m : SmithId) (now : Nat) (s : State) : Out :=
  .next (timed now (fun s => s.tickDue m) (fun s => s.doTick m) s)

/-- The RAISE or the fault that waits for a message completes once the fault unit has taken the message (15 R493, R88). DEDUCED
(log entry 54): with imm14[10] the Smith stops also where the unit has dropped the message. -/
def State.raiseDone (s : State) (who : Option SmithId) : State :=
  match who with
  | none => s
  | some m =>
    match s.smiths[m].wait with
    | some (.raise stop) => if stop then s.smithStop m else s.smithDone m
    | _ => s

/-- A forced message: no source of its own sends that address (15 R498, R499). -/
def Msg.forced (m : Msg) : Bool := m.addr == BitVec.allOnes 41 && m.raiser.isNone

/-- The mutual-exclusion element may pick the i-th message: a source sends its messages one after another and is held while one waits (15
R493), and forced messages come in ascending source code (15 R498). -/
def State.mayAccept (s : State) (i : Nat) (m : Msg) : Bool :=
  (s.faults.arriving.take i).all (fun x => x.source != m.source && !(x.forced && m.forced))

/-- FAULT_ACCEPT: the fault unit takes the i-th message that has arrived (15 R491, R493). -/
def execFaultAccept (i : Nat) (s : State) : Out :=
  .next (match s.faults.arriving[i]? with
    | none => s
    | some m =>
      if s.fate m = .wait ∨ s.mayAccept i m = false then s
      else
        ((s.onFaults (fun f => { f with arriving := f.arriving.eraseIdx i })).judgeMsg m).raiseDone m.raiser)

end Sys2Proof.Machine
end

