-- ==== Sys2Proof/Machine/SlotTable.lean ====
section
/-! DEFINITION. The slot tables: banks, entries, lengths and periods (12 R406 to R411). -/

namespace Sys2Proof.Machine

/-- ANV_SLOT.ACT: the physical bank that is active. -/
def State.slotAct (s : State) (c : Nat) : Bool := s.flag (aSLOT c) 28

/-- ANV_SLOT.PEND. -/
def State.slotPend (s : State) (c : Nat) : Bool := s.flag (aSLOT c) 30

/-- ALEN, the length of the active table. -/
def State.alen (s : State) (c : Nat) : Nat := s.fld (aSLOT c) 21 11

/-- SLEN, the length of the shadow table. -/
def State.slen (s : State) (c : Nat) : Nat := s.fld (aSLOT c) 10 0

/-- BURST. -/
def State.burst (s : State) (c : Nat) : Nat := s.fld (aSLOT c) 27 24

/-- A physical bank of an anvil. -/
def Anvil.bank (v : Anvil) (b : Bool) : List (Nat × Byte) := if b then v.bank1 else v.bank0

/-- Entry `i` of a physical bank; entries hold 0x00 until written (R406). -/
def Anvil.slotEntry (v : Anvil) (b : Bool) (i : Nat) : Byte := SMap.get (fun _ => 0) (v.bank b) i

/-- Write entry `i` of a physical bank. -/
def Anvil.setSlot (v : Anvil) (b : Bool) (i : Nat) (x : Byte) : Anvil :=
  if b then { v with bank1 := SMap.set (fun _ => 0) v.bank1 i x }
  else { v with bank0 := SMap.set (fun _ => 0) v.bank0 i x }

/-- The owner of an entry, where VALID is 1 (R407). -/
def slotOwner (x : Byte) : Option Nat := if x.toNat < 128 then none else some (x.toNat % 128)

/-- The owned entries of a bank within length `l`, by port. -/
def Anvil.owners (v : Anvil) (b : Bool) (l : Nat) : List Nat :=
  (v.bank b).filterMap (fun e => if e.1 < l then slotOwner e.2 else none)

/-- Bit `p` of GLB_LAPSE (R428). -/
def State.lapsed (s : State) (p : Nat) : Bool := s.flag (aLAPSE (p / 32)) (p % 32)

/-- A port owns a valid entry in the active table of an anvil. -/
def State.ownsSlotOf (s : State) (p : Nat) (c : Chan) : Bool :=
  (s.anvils[c].owners (s.slotAct c) (s.alen c)).contains p

/-- The port owns a valid entry in the active slot table of some anvil of its instance (11 R400). -/
def State.ownsSlot (s : State) (p : Nat) : Bool := allChans.any (fun c => s.ownsSlotOf p c)

/-- Write an entry of the shadow bank (02 R87). -/
def State.writeShadow (s : State) (c : Chan) (i : Nat) (x : Byte) : State :=
  let b := !s.slotAct c.val
  s.onAnvil c (fun v => v.setSlot b i x)

/-- Every SLW that waits for the commit of this anvil writes the shadow bank and completes (02 R87). -/
def State.slwDone (s : State) (c : Chan) : State :=
  allSmiths.foldl (fun s m =>
    match s.smiths[m].wait with
    | some (.slw c' i x) => if c' = c then (s.writeShadow c i x).smithDone m else s
    | _ => s) s

/-- A commit that waits is cancelled (R412); an SLW that waits for it then has none to wait for. -/
def State.cancelCommit (s : State) (c : Chan) : State :=
  if s.slotPend c.val then (s.setFlag (aSLOT c.val) 30 false).slwDone c else s

end Sys2Proof.Machine
end

