-- ==== Sys2Proof/Machine/Bellows.lean ====
section
/-! DEFINITION. The Bellows: label queues, policing, shaping, windows, latency, heat and release (11). Tokens are
kept in 1/16 B (R379). -/

namespace Sys2Proof.Machine

/-- The tick that a timebase value lies in (11, Rates, bursts and ticks). -/
def tickOf (t : Nat) : Nat := t / Config.tickNs

/-- Credit per tick of a rate code, in 1/16 B (R379). -/
def rateQ (code : Nat) : Nat := (16 + code % 16) * 2 ^ (code / 16 % 16)

/-- Bucket size of a burst code, in 1/16 B (R379). -/
def burstSize (code : Nat) : Nat := 2 ^ (17 + code)

/-- A label number as an index. -/
def labelOf (l : Nat) : Fin 32 := ⟨l % 32, Nat.mod_lt _ (by decide)⟩

/-- The counted length of a request in bytes (R378). -/
def State.counted (s : State) (p : Nat) (r : Req) : Nat :=
  let w1 := aLabel p r.label 1
  64 * (r.len + 1) + 8 * (if isWriteOp r.op then s.fld w1 19 16 else s.fld w1 15 12)

/-- The counted length in 1/16 B. -/
def State.counted16 (s : State) (p : Nat) (r : Req) : Nat := 16 * s.counted p r

/-- Change the running state of a label. -/
def State.onLabel (s : State) (p : PortId) (l : Nat) (f : LabelRun → LabelRun) : State :=
  s.onPort p (fun v => { v with labels := upd v.labels (labelOf l) f })

/-- Pieces of a request from `addr`: cut at every multiple of the grain (R115, R150). -/
def cutPieces (g : Nat) : Nat → Nat → Nat → List (Nat × Nat)
  | 0, _, _ => []
  | fuel + 1, a, n =>
    if n = 0 then []
    else
      let k := min n ((g - a % g) / 64)
      if k = 0 then [] else (a, k) :: cutPieces g fuel (a + 64 * k) (n - k)

/-- The pieces of a request: system address and sectors of each. -/
def State.piecesOf (s : State) (r : Req) : List (Nat × Nat) := cutPieces s.grain 64 (alignAddr r.addr) (r.len + 1)

/-- A request that holds its entry of its label queue (R374, R375). -/
def State.inQueue (s : State) (r : Req) : Bool :=
  r.stage == .queued || (r.stage == .flying && decide (r.sent < (s.piecesOf r).length))

/-- The head of a label queue. -/
def State.head (s : State) (p : PortId) (l : Nat) : Option Req :=
  s.ports[p].reqs.find? (fun r => r.label == l && s.inQueue r)

/-- The shed throttle holds the port (R400). -/
def State.throttled (s : State) (p : Nat) : Bool := decide (5 ≤ s.shed) && !s.ownsSlot p

/-- A label is shaped: SHAPE = 1 (R383). -/
def State.shaped (s : State) (p l : Nat) : Bool := s.flag (aLabel p l 1) 22

/-- Credit per tick of a label's shaper, a quarter of it under the throttle (R383, R400). -/
def State.shapeQ (s : State) (p l : Nat) : Nat :=
  let q := rateQ (s.fld (aLabel p l 0) 31 24)
  if s.throttled p then q / 4 else q

/-- Credit per tick of the port throttle bucket and its size, in 1/16 B: 1,600 B and 8 KiB (R400). -/
def throttleQ : Nat := 25600
def throttleSize : Nat := 131072

/-- The bucket of tick n + k in which a label that lacks `lack` is parked (R384). -/
def parkTick (n lack q : Nat) : Nat := n + min 255 (ceilDiv lack q)

/-- Where an examination in tick `n` leaves a label whose bucket lacks `lack` for its head: a parked label keeps its
bucket (R384). -/
def LabelRun.park (run : LabelRun) (n lack q : Nat) : LabelRun :=
  if run.parked.isSome ∨ lack = 0 then run else { run with parked := some (parkTick n lack q) }

/-- Bytes of the head of a label queue in 1/16 B; 0 with no head. -/
def State.headBytes (s : State) (p : PortId) (l : Nat) : Nat := ((s.head p l).map (fun r => s.counted16 p r)).getD 0

/-- An examination of a shaped label, or of an unshaped one under the throttle: a refill, and the head is eligible
or the label is parked (R383, R384, R400). -/
def State.examine (s : State) (p : PortId) (l : Nat) : State :=
  let n := tickOf s.timebase
  let b := s.headBytes p l
  if s.shaped p l then
    let q := s.shapeQ p l
    let run := s.ports[p].labels[labelOf l]
    let ts := min (burstSize (s.fld (aLabel p l 1) 3 0)) (run.ts + (n - run.nsh) * q)
    s.onLabel p l (fun run => { run with ts := ts, nsh := n }.park n (b - ts) q)
  else if s.throttled p then
    let v := s.ports[p]
    let ts := min (throttleSize : Int) (v.throttle + ((n - v.nthr) * throttleQ : Nat))
    (s.onPort p (fun v => { v with throttle := ts, nthr := n })).onLabel p l
      (fun run => run.park n (if b = 0 then 0 else ((b : Int) - ts).toNat) throttleQ)
  else s

/-- A request becomes the head of its label queue: the label is examined (R384, R400). -/
def State.newHead (s : State) (p : PortId) (l : Nat) : State := s.examine p l

/-- The colours of a policed request (R113, R380). -/
inductive Colour where
  | green | yellow | red
deriving DecidableEq, Repr

/-- A colour code; 0b11 counts as red (R113). -/
def Colour.ofBits (c : BitVec 2) : Colour :=
  match c.toNat with
  | 0 => .green
  | 1 => .yellow
  | _ => .red

/-- The code of a colour. -/
def Colour.toBits : Colour → BitVec 2
  | .green => 0
  | .yellow => 1
  | .red => 2

/-- Policing at acceptance (R380): the new running state and the colour. -/
def State.police (s : State) (p : Nat) (r : Req) (run : LabelRun) : LabelRun × Colour :=
  let w0 := aLabel p r.label 0
  match s.fld (aLabel p r.label 1) 21 20 with
  | 0 => (run, .green)
  | mode =>
    let n := tickOf s.timebase
    let b := s.counted16 p r
    let tc := min (burstSize (s.fld w0 19 16)) (run.tc + (n - run.npol) * rateQ (s.fld w0 7 0))
    let tp := min (burstSize (s.fld w0 23 20)) (run.tp + (n - run.npol) * rateQ (s.fld w0 15 8))
    let run := { run with tc := tc, tp := tp, npol := n }
    let pre := if mode = 2 then Colour.ofBits r.colour else .green
    if pre = .red ∨ tp < b then (run, .red)
    else if pre = .yellow ∨ tc < b then ({ run with tp := tp - b }, .yellow)
    else ({ run with tp := tp - b, tc := tc - b }, .green)

/-- The budget of a port in bytes; 0 for no budget (R391). -/
def State.budget (s : State) (p : Nat) : Nat := 16384 * s.fld (aBLW_CFG p) 29 16

/-- BLW_CFG.OVER (R391). -/
def State.overNow (s : State) (p : PortId) : Bool :=
  s.budget p != 0 && decide (s.budget p < s.ports[p].count)

/-- The request that crosses next: requests cross in the order of their transfer, a write whether or not its beats
are in (01 R21, R22, 03 Table 3.4a; DEDUCED, log entry 10). -/
def nextCrossing (reqs : List Req) : Option Req := reqs.find? (fun r => r.stage == .crossing)

/-- Acceptance of a crossed request (R377 steps 2 to 6). -/
def State.accept (s : State) (p : PortId) (r : Req) : State :=
  if s.flag (aHALT p) r.label then s.refuse p r .halted
  else
    let b := s.counted p r
    let count := s.ports[p].count + b
    let marked := s.budget p != 0 && decide (s.budget p < count)
    let pol := s.police p r (s.ports[p].labels[labelOf r.label])
    let first := (s.head p r.label).isNone
    let s := (s.onPort p (fun v =>
      { (v.onReq r.id (fun r => { r with epoch := v.epoch, booked := b })) with count := count })).onLabel p r.label (fun _ => pol.1)
    if pol.2 = .red ∧ (r.op = 4 ∨ bit r.attr.toNat 3) then s.refuse p r .dropped
    else
      let s := s.onPort p (fun v => v.onReq r.id (fun r =>
        { r with stage := .queued, time := s.timebase, colour := pol.2.toBits, overBud := marked }))
      if first then s.newHead p r.label else s

/-- REQUEST_ACCEPT (R377). An acceptance later than a window boundary comes after it (R392). -/
def execRequestAccept (p : PortId) (now : Nat) (s : State) : Out :=
  .next (timed now (fun s => decide (s.timebase ≤ s.ports[p].boundary) && (nextCrossing s.ports[p].reqs).isSome)
    (fun s => match nextCrossing s.ports[p].reqs with
      | none => s
      | some r => s.accept p r) s)

/-- A label whose wheel bucket has come due (R384). -/
def LabelRun.due (run : LabelRun) (n : Nat) : Bool := run.parked.any (fun k => decide (k ≤ n))

/-- SHAPER_WHEEL_DUE (R384, R400): each label that is due leaves the wheel and is examined. -/
def execShaperWheelDue (p : PortId) (now : Nat) (s : State) : Out :=
  let s := s.at now
  let n := tickOf s.timebase
  .next (((List.range 32).filter (fun l => (s.ports[p].labels[labelOf l]).due n)).foldl
    (fun s l => (s.onLabel p l (fun run => { run with parked := none })).examine p l) s)

/-- WINDOW_BOUNDARY (R390, R393). -/
def execWindowBoundary (p : PortId) (now : Nat) (s : State) : Out :=
  .next (timed now (fun s => decide (s.ports[p].boundary ≤ s.timebase))
    (fun s =>
      let w := s.fld (aBLW_CFG p) 15 6 + 1
      s.onPort p (fun v =>
        { v with epoch := v.epoch + 1, count := 0, window := w, boundary := v.boundary + 1000 * w })) s)

/-- Every window boundary up to the present has passed, at the length that BLW_CFG.WINDOW has held since the last write of it
(R390, R393). -/
def State.passBoundaries (s : State) (p : PortId) : State :=
  let w := s.fld (aBLW_CFG p) 15 6 + 1
  s.onPort p (fun v =>
    if s.timebase < v.boundary then v
    else
      let k := (s.timebase - v.boundary) / (1000 * w) + 1
      { v with window := w, boundary := v.boundary + k * (1000 * w), epoch := v.epoch + k, count := 0 })

/-! ### Selection and release -/

/-- STRICT (R387). -/
def State.strict (s : State) (p : Nat) : Nat := s.fld (aBLW_CFG p) 2 0

/-- WEIGHT of a label. -/
def State.weight (s : State) (p l : Nat) : Nat := s.fld (aLabel p l 1) 11 4

/-- The eligible head of a label queue: the label is not parked, and the beats of a write are all in (R387). -/
def State.eligible (s : State) (p : PortId) (l : Nat) : Option Req :=
  if (s.ports[p].labels[labelOf l]).parked.isSome then none
  else match s.head p l with
    | some r => if r.lacksBeats then none else some r
    | none => none

/-- The next label after `cur` in `strict`..31, wrapping, whose head is eligible (R388). -/
def State.nextLabel (s : State) (p : PortId) (cur strict : Nat) : Nat :=
  (((List.range 32).map (fun k => (cur + 1 + k) % 32)).find? (fun l =>
    decide (strict ≤ l) && (s.eligible p l).isSome)).getD cur

/-- The weighted selection of R388; a quantum of at least 256 B and a counted length of at most 4,216 B bound the
visits to a label. -/
def State.weighted (s : State) (p : PortId) (strict : Nat) : Nat → State × Option Req
  | 0 => (s, none)
  | fuel + 1 =>
    let v := s.ports[p]
    let l := v.cur
    match (if strict ≤ l then s.eligible p l else none) with
    | some r =>
      if s.counted p r ≤ (v.labels[labelOf l]).deficit then (s, some r)
      else
        let n := s.nextLabel p l strict
        State.weighted ((s.onPort p (fun v => { v with cur := n })).onLabel p n
          (fun run => { run with deficit := run.deficit + 256 * s.weight p n })) p strict fuel
    | none =>
      let n := s.nextLabel p l strict
      State.weighted ((s.onPort p (fun v => { v with cur := n })).onLabel p n
        (fun run => { run with deficit := run.deficit + 256 * s.weight p n })) p strict fuel

/-- The selection of R388. -/
def State.selectLabel (s : State) (p : PortId) : State × Option Req :=
  let strict := s.strict p
  match (List.range strict).findSome? (fun l => s.eligible p l) with
  | some r => (s, some r)
  | none =>
    if (List.range 32).any (fun l => decide (strict ≤ l) && (s.eligible p l).isSome) then
      s.weighted p strict 1024
    else (s, none)

/-- The measured latency of a label against its target: the escalation e (R396). -/
def State.escalation (s : State) (p : PortId) (r : Req) : Nat :=
  let t := 64 * s.fld (aLabel p r.label 1) 31 24
  if t = 0 ∨ r.colour ≠ 0 then 0
  else
    let lm := max (s.ports[p].labels[labelOf r.label]).avg (s.timebase - r.time)
    b2n (decide (t ≤ 2 * lm)) + b2n (decide (3 * t ≤ 4 * lm)) + b2n (decide (9 * t ≤ 10 * lm))

/-- The heat of a request at its release (R398, R399, R127). -/
def State.heatOf (s : State) (p : PortId) (r : Req) : Nat :=
  let rt := s.staticHeat p
  let h := if s.flag (aLabel p r.label 1) 23 then 2 else 1
  let h := max h (rt.getD 0)
  let h := min (h + s.escalation p r) 4
  let h := if r.overBud then h - s.fld (aBLW_CFG p) 5 4 else h
  let h :=
    if rt.isSome then
      match s.ports[p].panic.toNat with
      | 0 => h
      | 1 => max h 4
      | _ => max h 5
    else h
  if r.colour = 2 ∨ r.op = 4 then 0 else h

/-- The lowest internal tag that is free (01 R24, R27). -/
def State.freeTag (s : State) : Option Nat :=
  (List.range 8192).find? (fun t => !s.pieces.any (fun x => x.tag == t))

/-- The output of the Tongs' request network that a piece leaves by: its slice, or the link to its owner
(01 Tongs arbitration, 17 Remote requests). -/
def State.outputOf (s : State) (addr : Nat) : Nat :=
  let ia := s.gangMap addr
  if ia.1 = s.gid then (s.spot ia.2).chan else 24 + (s.linkTo ia.1).val

/-- The tokens that stand first at their input. DESIGN CHOICE (log entry 80): an input presents only its oldest
token, whichever output that one waits for; 01 R29 does not say. -/
def presented : List Waiting → List Nat → List Waiting
  | [], _ => []
  | w :: rest, seen => if seen.contains w.input then presented rest seen else w :: presented rest (w.input :: seen)

/-- An output waits since `now` where it begins to, and no longer where it has no waiting input (R32). -/
def Tongs.settle (t : Tongs) (now : Nat) : Tongs :=
  let busy := (presented t.reqNet []).map (fun w => (false, w.output)) ++
    (presented t.retNet []).map (fun w => (true, w.output))
  let kept := t.since.filter (fun e => busy.contains e.1)
  let fresh := (busy.dedup.filter (fun o => !kept.any (fun e => e.1 == o))).map (fun o => (o, now))
  { t with since := kept ++ fresh }

/-- A token joins a network of the Tongs; an output without a waiting input starts to wait where the token is
presented to it (01 R29, R32). -/
def Tongs.push (t : Tongs) (ret : Bool) (w : Waiting) (now : Nat) : Tongs :=
  (if ret then { t with retNet := t.retNet ++ [w] } else { t with reqNet := t.reqNet ++ [w] }).settle now

/-- Place of a port in the round-robin order of tags at a heat: after the port that took the last one (R27, R29). -/
def Tongs.tagPlace (t : Tongs) (heat p : Nat) : Nat :=
  match t.tagTurn.lookup heat with
  | some i => (p + 131 - i - 1) % 131
  | none => p

/-- Port `p` has taken a tag at a heat (R27). -/
def Tongs.tookTag (t : Tongs) (heat p : Nat) : Tongs :=
  { t with tagTurn := (heat, p) :: t.tagTurn.filter (fun e => e.1 != heat) }

/-- A token joins a network. -/
def State.tongsPush (s : State) (ret : Bool) (w : Waiting) : State :=
  { s with tongs := s.tongs.push ret w s.timebase }

/-- Response-queue beats that a piece of a READ reserves (01 R24, R25). -/
def pieceBeats (r : Req) (sectors : Nat) : Nat := if r.op = 0 then sectors else 0

/-- Tokens that the release of a request takes, and its deficit (R385, R388, R400). -/
def State.spend (s : State) (p : PortId) (r : Req) : State :=
  let b := s.counted16 p r
  let s :=
    if s.shaped p r.label then s.onLabel p r.label (fun run => { run with ts := run.ts - b })
    else if s.throttled p then s.onPort p (fun v => { v with throttle := v.throttle - b })
    else s
  if s.strict p ≤ r.label then
    s.onLabel p r.label (fun run => { run with deficit := run.deficit - s.counted p r })
  else s

/-- Request `r` has left the head of its label queue: the next one becomes the head, and a selection of `r` ends (R384,
R388, R389). -/
def State.leaveQueue (s : State) (p : PortId) (r : Req) : State :=
  let l := r.label
  let s := s.onPort p (fun v => { v with selected := if v.selected = some r.id then none else v.selected })
  match s.head p l with
  | some _ => s.newHead p l
  | none => s.onLabel p l (fun run => { run with deficit := 0 })

/-- The heat of a request's next piece: the request's own after its first piece (R375, R398). -/
def State.pieceHeat (s : State) (p : PortId) (r : Req) : Nat := if r.sent = 0 then s.heatOf p r else r.heat

/-- A piece by its internal tag. -/
def State.piece (s : State) (tag : Nat) : Option Piece := s.pieces.find? (fun x => x.tag == tag)

/-- Change a piece. -/
def State.onPiece (s : State) (tag : Nat) (f : Piece → Piece) : State :=
  { s with pieces := s.pieces.map (fun x => if x.tag = tag then f x else x) }

/-- A tag is freed (R27). -/
def State.freePiece (s : State) (tag : Nat) : State :=
  { s with pieces := s.pieces.filter (fun x => x.tag != tag) }

/-- The answer of a piece reaches its port's response queue: the part of its request (R115). -/
def State.deliver (s : State) (x : Piece) : State :=
  match x.origin with
  | .port p req idx =>
    s.onPort p (fun v => v.onReq req (fun r =>
      { r with parts := r.parts ++ [(idx, x.answer, x.results.map Prod.snd)], flip := r.flip.xor x.flip }))
  | .link _ _ => s

/-- The address belongs to a peer that is not a joined member (04 R146, 17 R547). -/
def State.peerLost (s : State) (a : Nat) : Bool :=
  let i := (s.gangMap a).1
  i != s.gid && !s.joined ⟨i % 4, Nat.mod_lt _ (by decide)⟩

/-- A piece of a peer that has departed is answered UNMAPPED (17 R547 step 2). -/
def State.answerLost (s : State) (x : Piece) : State :=
  (s.onPiece x.tag (fun y => { y with status := some .unmapped })).deliver { x with status := some .unmapped }

/-- The next piece of the selected request is released where R24 allows it (R375, R389). DESIGN CHOICE (log entry 96):
a request accepted before its peer departed is answered UNMAPPED at its release; 17 R547 speaks of requests already sent
and 04 R146 of new ones. -/
def State.releasePiece (s : State) (p : PortId) (r : Req) : State :=
  let all := s.piecesOf r
  match all[r.sent]?, s.freeTag with
  | some (a, n), some tag =>
    if 128 < s.ports[p].reserved + pieceBeats r n then s
    else
      let heat := s.pieceHeat p r
      let skip := ((all.take r.sent).map Prod.snd).sum
      let x : Piece :=
        { tag := tag, origin := .port p r.id r.sent, op := r.op, port := p.val, addr := a, sectors := n,
          label := r.label, attr := r.attr, heat := heat, beats := (r.beats.drop skip).take n, accept := r.time,
          judged := false, next := 0, results := [], status := none, flip := Flip.none, erased := [] }
      let s := if r.sent = 0 then s.spend p r else s
      let last := decide (r.sent + 1 = all.length)
      let s := { s with pieces := s.pieces ++ [x], tongs := s.tongs.tookTag heat p.val }
      let s := s.onPort p (fun v =>
        { v with reserved := v.reserved + pieceBeats r n
                 reqs := (v.onReq r.id (fun r =>
                   { r with stage := .flying, heat := heat, sent := r.sent + 1,
                            beats := if last then [] else r.beats })).reqs })
      let s := if s.peerLost a then s.answerLost x else s.tongsPush false { output := s.outputOf a, input := p.val, heat := heat, tag := tag }
      if last then s.leaveQueue p r else s
  | _, _ => s

/-- The request that the Bellows of port `p` has selected, or selects now (R388, R389). -/
def State.chosen (s : State) (p : PortId) : State × Option Req :=
  match s.ports[p].selected.bind (fun id => s.ports[p].reqs.find? (fun r => r.id == id && s.inQueue r)) with
  | some r => (s, some r)
  | none =>
    let sel := s.selectLabel p
    match sel.2 with
    | none => sel
    | some r => (sel.1.onPort p (fun v => { v with selected := some r.id }), some r)

/-- The heat at which the Bellows of port `p` asks for an internal tag: it has a piece to release, and room in the
response queue (01 R24, R27). -/
def State.asks (s : State) (p : PortId) : Option Nat :=
  if s.ports[p].reqs.any (fun r => s.inQueue r) then
    let c := s.chosen p
    match c.2 with
    | none => none
    | some r =>
      match (s.piecesOf r)[r.sent]? with
      | none => none
      | some (_, n) => if 128 < s.ports[p].reserved + pieceBeats r n then none else some (c.1.pieceHeat p r)
  else none

/-- Port `p` takes the next free tag: no other Bellows that asks is hotter, or comes before it in round-robin order
at the same heat (01 R27, R29). -/
def State.tagFirst (s : State) (p : PortId) : Bool :=
  match s.asks p with
  | none => true
  | some h =>
    allPorts.all (fun q => q == p ||
      match s.asks q with
      | none => true
      | some k => decide (k < h) || (k == h && decide (s.tongs.tagPlace h p.val < s.tongs.tagPlace h q.val)))

/-- RELEASE: the Bellows selects a request where none is selected, and releases its next piece (R375, R388, R389),
in the order in which the Tongs hand out tags (01 R27); while another Bellows comes first the selection stands (R389). After a watchdog bite nothing moves (01 R34). -/
def execRelease (p : PortId) (now : Nat) (s : State) : Out :=
  .next (timed now (fun s => s.tongs.bitten.isNone)
    (fun s =>
      let c := s.chosen p
      match c.2 with
      | none => c.1
      | some r => if s.tagFirst p then c.1.releasePiece p r else c.1) s)

/-- The average after a sample (R394, R395): division truncates towards zero, and the average saturates. -/
def avgAfter (avg sample : Nat) : Nat :=
  sat 1048575 ((avg : Int) + ((sample : Int) - (avg : Int)).tdiv 8).toNat

/-- A latency sample of a completed request (R395). -/
def State.sample (s : State) (p : PortId) (r : Req) : State :=
  s.onLabel p r.label (fun run => { run with avg := avgAfter run.avg (s.timebase - r.time) })

/-- A label is halted: every request on it that has not been released is answered HALTED (03 R129, R130). -/
def State.haltLabelNow (s : State) (p : PortId) (l : Nat) : State :=
  let s := s.setFlag (aHALT p) l true
  let held := s.ports[p].reqs.filter (fun r => r.label == l && r.stage == .queued)
  let s := held.foldl (fun s r => (s.uncount p r).refuse p r .halted) s
  let s := s.onPort p (fun v =>
    { v with selected := if held.any (fun r => v.selected == some r.id) then none else v.selected })
  if (s.head p l).isNone then s.onLabel p l (fun run => { run with deficit := 0 }) else s

/-- A queued write whose last beat has come with a misplaced WLAST is a protocol error: it leaves its queue
(03 R119, R120). -/
def State.settleQueued (s : State) (p : PortId) : State :=
  (s.ports[p].reqs.filter (fun r => r.stage == .queued && isWriteOp r.op && !r.lacksBeats && !lastGood r.beats)).foldl
    (fun s r =>
      let first := ((s.head p r.label).map Req.id) == some r.id
      let s := s.protocolError p r 3
      if first then s.leaveQueue p r else s) s

/-- WRITE_BEAT (03 R105, R109, R120). -/
def execWriteBeat (p : PortId) (data : Sector) (be : BitVec 64) (wpoison wlast : Bool) (s : State) : Out :=
  .next (occur (s.wReady p) s
    (((s.onPort p (fun v => v.takeBeat { data := data, be := be, wpoison := wpoison, wlast := wlast })).settlePort
      p).settleQueued p))

/-- The running state of every Bellows takes its reset values (R402). -/
def Port.clearBellows (v : Port) : Port :=
  { v with labels := Vector.replicate 32 LabelRun.reset, cur := 0, count := 0, throttle := 2 ^ 17, nthr := 0 }

end Sys2Proof.Machine
end

