-- ==== Sys2Proof/Machine/Tongs.lean ====
section
/-! DEFINITION. The Tongs: grants, the watchdog, and the entry of responses into the response queues (01, 03). -/

namespace Sys2Proof.Machine

/-- The tokens of a network. -/
def Tongs.net (t : Tongs) (ret : Bool) : List Waiting := if ret then t.retNet else t.reqNet

/-- The tokens that wait at an output. -/
def Tongs.at (t : Tongs) (ret : Bool) (o : Nat) : List Waiting :=
  (presented (t.net ret) []).filter (fun w => w.output == o)

/-- Inputs of a network (01 Tongs arbitration). -/
def netInputs (ret : Bool) : Nat := if ret then 27 else 131

/-- Outputs of a network. -/
def netOutputs (ret : Bool) : Nat := if ret then 131 else 27

/-- Distance of an input in round-robin order from the input last granted at the same heat (R29). -/
def Tongs.turn (t : Tongs) (ret : Bool) (o : Nat) (w : Waiting) : Nat :=
  match t.last.lookup (ret, o, w.heat) with
  | some i => (w.input + netInputs ret - i - 1) % netInputs ret
  | none => w.input

/-- `a` is granted before `b`: higher heat, then round-robin (R29). -/
def Tongs.before (t : Tongs) (ret : Bool) (o : Nat) (a b : Waiting) : Bool :=
  decide (b.heat < a.heat) || (a.heat == b.heat && decide (t.turn ret o a < t.turn ret o b))

/-- The token an output grants (R29). -/
def Tongs.pick (t : Tongs) (ret : Bool) (o : Nat) : Option Waiting :=
  match t.at ret o with
  | [] => none
  | w :: rest => some (rest.foldl (fun best x => if t.before ret o x best then x else best) w)

/-- A grant: the token leaves the network, and the output's wait starts again (R29, R32). -/
def Tongs.take (t : Tongs) (ret : Bool) (o : Nat) (w : Waiting) (now : Nat) : Tongs :=
  let t := if ret then { t with retNet := t.retNet.erase w } else { t with reqNet := t.reqNet.erase w }
  let t := { t with last := ((ret, o, w.heat), w.input) :: t.last.filter (fun e => e.1 != (ret, o, w.heat))
                    since := t.since.filter (fun e => e.1 != (ret, o)) }
  t.settle now

/-- What a granted token does: it enters its slice, its response queue or its link (01 Tongs; 17 R536, R539). The
response to a peer that has departed is discarded (17 R547). -/
def State.arriveAt (s : State) (ret : Bool) (o : Nat) (x : Piece) : State :=
  if ret then
    if o < 128 then s.deliver x
    else
      match x.origin with
      | .link k stag => (occur (s.member (s.linkPeer k)) s (s.linkReply k stag x)).freePiece x.tag
      | .port _ _ _ => s
  else if o < 24 then s.onSlice (chanOf o) (fun l => { l with inq := l.inq ++ [x.tag] })
  else s.linkSend ⟨(o - 24) % 3, Nat.mod_lt _ (by decide)⟩ x

/-- A token can leave by its output: over a link a request needs its credits, and either needs the link UP
(17 R536). -/
def State.canLeave (s : State) (ret : Bool) (o : Nat) (x : Piece) : Bool :=
  if ret then
    let k : Fin 3 := ⟨(o - 128) % 3, Nat.mod_lt _ (by decide)⟩
    if o < 128 then true else s.linkUp k || !s.joined (s.linkPeer k)
  else if o < 24 then true
  else
    let k : Fin 3 := ⟨(o - 24) % 3, Nat.mod_lt _ (by decide)⟩
    s.linkUp k && s.creditsFor k x

/-- TONGS_GRANT (R29, R30): an output grants its best waiting input. After a bite no output grants (R34). -/
def execTongsGrant (ret : Bool) (output : Fin 131) (now : Nat) (s : State) : Out :=
  .next (timed now (fun s => s.tongs.bitten.isNone && decide (output.val < netOutputs ret))
    (fun s =>
      match s.tongs.pick ret output.val with
      | none => s
      | some w =>
        match s.piece w.tag with
        | none => { s with tongs := s.tongs.take ret output.val w s.timebase }
        | some x =>
          occur (s.canLeave ret output.val x) s
            (({ s with tongs := s.tongs.take ret output.val w s.timebase }).arriveAt ret output.val x)) s)

/-- TNG_WDOG_NS.LIMIT. -/
def State.wdogLimit (s : State) : Nat := (s.rd aWDOG).toNat

/-- The moment at which an output reaches the watchdog limit (R32): not before LIMIT took its value. After the first
bite the limit of that bite stands, so that only simultaneous bites follow (R36). -/
def State.biteTime (s : State) (ret : Bool) (o : Nat) : Option Nat :=
  let limit := if s.tongs.bitten.isSome then s.tongs.biteLimit else s.wdogLimit
  (s.tongs.since.lookup (ret, o)).map (fun t => max (t + limit) s.tongs.limitFrom)

/-- The highest heat waiting at an output. -/
def Tongs.hottest (t : Tongs) (ret : Bool) (o : Nat) : Nat := ((t.at ret o).map Waiting.heat).foldl max 0

/-- A bite: fault 0x0B, and TNG_HANG where it is the first (R33, R36, Table 1.5). Where another bite of the same
moment is accepted first by the fault unit, TNG_HANG takes that one (`State.noteHang`). -/
def State.bite (s : State) (ret : Bool) (o at_ : Nat) : State :=
  let heat := s.tongs.hottest ret o
  let limit := if s.tongs.bitten.isSome then s.tongs.biteLimit else s.wdogLimit
  let s := if s.tongs.bitten.isNone then s.setHang (o + b2n ret * 2 ^ 8) heat else s
  let s := s.send 0x40 0x0B sevFatal 0 (o + b2n ret * 2 ^ 8)
  { s with tongs := { s.tongs with
      bitten := some at_, biteLimit := limit, bites := s.tongs.bites ++ [(o + b2n ret * 2 ^ 8, heat)]
      since := s.tongs.since.filter (fun e => e.1 != (ret, o)) } }

/-- TONGS_WATCHDOG_BITE (R32 to R36): an output has waited for the limit; after the first bite only outputs that
reached it at the same moment. -/
def execTongsWatchdogBite (ret : Bool) (output : Fin 131) (now : Nat) (s : State) : Out :=
  .next (timed now
    (fun s => match s.biteTime ret output.val with
      | none => false
      | some t => decide (t ≤ s.timebase) && s.tongs.bitten.all (fun b => b == t))
    (fun s => s.bite ret output.val ((s.biteTime ret output.val).getD 0)) s)

/-! ### Responses -/

/-- Statuses of refusal, in the order in which one of them stands for a whole request (01 R41, 03 R123). -/
def refusals : List Status := [.denied, .unmapped, .keyAbsent, .dropped]

/-- The sector results of a request in address order. -/
def Req.sectors (r : Req) : List SecRes :=
  (List.range r.parts.length).flatMap (fun i => ((r.parts.find? (fun e => e.1 == i)).map (fun e => e.2.2)).getD [])

/-- A READ that would be answered with this status is a halting read (R129). -/
def haltingStatus (st : Status) : Bool := st == .poison || st == .addressFault || st == .cmdError

/-- The beat of a sector under the response's status (R124). -/
def dataBeat (st : Status) (r : SecRes) : Sector × Bool :=
  let bad := r.poisoned || r.status == .addressFault || r.status == .cmdError
  (if bad && (st == .fetchUe || st == .addressFault || st == .cmdError) then 0 else r.data, bad)

/-- The response of a request whose last part has come (R122 to R130). -/
def State.conclude (s : State) (p : PortId) (r : Req) : State :=
  let s := s.sample p r
  let free := if r.op = 0 then r.len + 1 else 0
  match refusals.find? (fun st => r.parts.any (fun e => e.2.1 == st)) with
  | some st => (s.onPort p (fun v => { v with reserved := v.reserved - free })).answer p r.id st
  | none =>
    if r.op ≠ 0 then s.answer p r.id .ok
    else
      let secs := r.sectors
      let st := worstData (r.parts.map (fun e => e.2.1))
      if s.haltingClass p && haltingStatus st then
        ((s.onPort p (fun v => { v with reserved := v.reserved - free })).answer p r.id .halted).haltLabelNow p r.label
      else
        let st := if st == .poison && (s.fetchClass p || bit r.attr.toNat 1) && !s.haltingClass p then .fetchUe else st
        s.respond p r.id st true (secs.map (dataBeat st))

/-- A delivered part whose tag has not been freed: the piece, oldest first. -/
def State.enterable (s : State) (p : PortId) : Option Piece :=
  s.pieces.find? (fun x =>
    match x.origin with
    | .port q req idx =>
      q == p && s.ports[p].reqs.any (fun r => r.id == req && r.parts.any (fun e => e.1 == idx))
    | .link _ _ => false)

/-- Some piece of a request still holds its tag. -/
def State.pieceOpen (s : State) (p : PortId) (req : Nat) : Bool :=
  s.pieces.any (fun y =>
    match y.origin with
    | .port q id _ => q == p && id == req
    | .link _ _ => false)

/-- Every piece of a request has been released and has entered. -/
def State.complete (s : State) (p : PortId) (r : Req) : Bool :=
  r.stage == .flying && r.sent == (s.piecesOf r).length && r.parts.length == r.sent && !s.pieceOpen p r.id

/-- RESPONSE_ENTER (R27, R38, 03 R110): the last beat of a piece's answer enters the response queue and frees its tag;
with the last piece the response of the request stands there. DESIGN CHOICE (log entry 80): an answer that the return
network granted before a watchdog bite still enters after it; R34 speaks of responses inside the return network and
of those that entered, not of one on its way between them. -/
def execResponseEnter (p : PortId) (now : Nat) (s : State) : Out :=
  .next (timed now (fun s => (s.enterable p).isSome)
    (fun s =>
      match s.enterable p with
      | none => s
      | some x =>
        let s := s.freePiece x.tag
        match x.origin with
        | .port _ req _ =>
          match s.ports[p].reqs.find? (fun r => r.id == req) with
          | some r =>
            if s.complete p r then s.conclude p r else s
          | none => s
        | .link _ _ => s) s)

end Sys2Proof.Machine
end

