-- ==== Sys2Proof/Machine/Gang.lean ====
section
/-! DEFINITION. Gangs of instances (17): link words, membership, heartbeats, departures and Smith messages. -/

namespace Sys2Proof.Machine

/-! ### The configuration digest (R541) -/

/-- Fuse words 1-90 and 115-126, as Hedge takes them. -/
def State.digestFuses (s : State) : List Word :=
  ((List.range 90).map (· + 1) ++ (List.range 12).map (· + 115)).map
    (fun w => s.fuseWord ⟨w % 128, Nat.mod_lt _ (by decide)⟩)

/-- GNG_DIGEST (R541). -/
def State.digest (s : State) : Nat :=
  let words := s.digestFuses ++
    [putBits (s.rd aGANG) 5 4 0, s.rd aFURROW, s.rd (aCHMAP 0), s.rd (aCHMAP 1), s.rd (aCHMAP 2), s.rd (aCHMAP 3),
     putBits (putBits (s.rd aCAP) 31 31 0) 29 27 0] ++
    s.named.map (fun c => BitVec.ofNat 32 (s.fld (aMAP c) 12 0)) ++ [s.rd aVER_MS, s.rd aVER_AS]
  crc32c (words.flatMap (fun w => toBytes 4 w.toNat))

/-! ### Control messages (Table 17.3) -/

/-- Bits `[hi:lo]` of a control message. -/
def cbits (m : BitVec 128) (hi lo : Nat) : Nat := bits m.toNat hi lo

/-- The credentials this instance sends. -/
def State.credentialsMsg (s : State) : BitVec 128 :=
  BitVec.ofNat 128 (1 + Config.gangVersion.toNat * 2 ^ 4 + s.digest * 2 ^ 20 + s.timebase % 2 ^ 64 * 2 ^ 52 +
    s.lifecycle * 2 ^ 116 + s.fld aGANG 1 0 * 2 ^ 119 + s.gid * 2 ^ 121)

/-- The view: every peer in STARTING or ON (R544); empty after a watchdog bite (R546). -/
def State.view (s : State) : Nat :=
  if s.tongs.bitten.isSome then 0
  else ((List.finRange 4).map (fun i =>
    if s.gang.peers[i].fn.state == .starting || s.gang.peers[i].fn.state == .on then 2 ^ i.val else 0)).sum

/-- A heartbeat that shows mode `mode`. -/
def State.heartbeatMsg (s : State) (mode : Nat) : BitVec 128 :=
  BitVec.ofNat 128 (2 + mode % 8 * 2 ^ 4 + s.shed * 2 ^ 7 + s.view * 2 ^ 10 + s.digest * 2 ^ 20 +
    s.timebase % 2 ^ 64 * 2 ^ 52 + s.gid * 2 ^ 121)

/-- A control message is sent on link `k`. -/
def State.sendCtrl (s : State) (k : Fin 3) (m : BitVec 128) : State :=
  s.onLink k (fun l => { l with txCtrl := m :: l.txCtrl })

/-- The links of an instance. -/
def allLinks : List (Fin 3) := List.finRange 3

/-- A heartbeat goes out on every UP link (R545, R546). -/
def State.sendHeartbeats (s : State) (mode : Nat) : State :=
  (allLinks.filter s.linkUp).foldl (fun s k => s.sendCtrl k (s.heartbeatMsg mode)) s

/-! ### Range invalidations (10 R369) -/

/-- The invalidation queue of a slice has a free place (10 R369). -/
def Slice.rangeRoom (l : Slice) : Bool := decide (l.ranges.length < 4) && l.waiting.isEmpty

/-- A range enters the queue of a slice; while the queue is full it waits at its source (10 R369). -/
def Slice.queueRange (l : Slice) (r : Range) : Slice :=
  if l.rangeRoom then { l with ranges := l.ranges ++ [r] } else { l with waiting := l.waiting ++ [r] }

/-- The front of the queue has become a sweep; the range that has waited longest takes the free place (10 R369). -/
def Slice.popRange (l : Slice) : Slice :=
  { l with ranges := l.ranges.tail ++ l.waiting.take 1, waiting := l.waiting.drop 1 }

/-- A range invalidation that a slice has not begun. -/
def Slice.rangesLeft (l : Slice) : List Range := l.ranges ++ l.waiting

/-- A range invalidation for every populated slice (10 R369). -/
def State.queueRange (s : State) (r : Range) : State :=
  s.popChans.foldl (fun s c => s.onSlice c (fun l => l.queueRange r)) s

/-- The range that covers the whole local user space (R547 step 4). -/
def State.wholeRange (s : State) : Range := { base := 0, size := s.gangCap, key := false, full := false }

/-! ### Departure (R545 to R547) -/

/-- A piece that belongs to instance `i` and that has no answer yet. -/
def State.sentTo (s : State) (i : Nat) (x : Piece) : Bool :=
  (match x.origin with
    | .port _ _ _ => true
    | .link _ _ => false) &&
  (s.gangMap x.addr).1 == i && x.status.isNone && x.results.isEmpty

/-- A piece's token waits in the request network. -/
def State.inReqNet (s : State) (x : Piece) : Bool := s.tongs.reqNet.any (fun w => w.tag == x.tag)

/-- Beats that a READ's data result owns on a link; 0 for another operation (R535). -/
def Piece.readBeats (x : Piece) : Nat := if x.op = 0 then x.sectors else 0

/-- Bits `[hi:lo]` of a header. -/
def hbits (h : BitVec 160) (hi lo : Nat) : Nat := bits h.toNat hi lo

/-- A response header of the link has come for internal tag `tag`. -/
def Link.hasResponse (l : Link) (tag : Nat) : Bool :=
  l.items.any (fun it => hbits it.hdr 3 0 == 2 && hbits it.hdr 16 4 == tag)

/-- Steps 2 to 4 of STOPPING (R547): requests to the peer are answered UNMAPPED, requests from it that have not
entered the Tongs are discarded, and every slice queues a sweep. The link keeps the tags whose response has not come,
since it is discarded when it does. After a watchdog bite a request inside the Tongs stays there (01 R34). -/
def State.stopPeer (s : State) (i : Fin 4) : State :=
  let k := s.linkTo i.val
  let out := s.pieces.filter (fun x => s.sentTo i.val x && !(s.tongs.bitten.isSome && s.inReqNet x))
  let gone := out.filter (fun x => !s.inReqNet x && !s.gang.links[k].hasResponse x.tag)
  let s := { s with tongs := { s.tongs with
    reqNet := s.tongs.reqNet.filter (fun w => !out.any (fun x => x.tag == w.tag)) } }
  let s := { s with tongs := s.tongs.settle s.timebase }
  let s := out.foldl (fun s x => s.answerLost x) s
  let s := s.onLink k (fun l =>
    { l with items := l.items.map (fun it => { it with drop := true })
             late := l.late ++ gone.map (fun x => (x.tag, x.readBeats)) })
  s.queueRange s.wholeRange

/-- The peers of this instance. -/
def State.peerIds (s : State) : List (Fin 4) :=
  (List.finRange 4).filter (fun i => i.val != s.gid && decide (i.val < s.gangSize))

/-- The joined peers. -/
def State.joinedPeers (s : State) : List (Fin 4) := s.peerIds.filter s.joined

/-- The reference: the lowest-numbered instance among this one and its joined peers (R550). -/
def State.reference (s : State) : Nat := ((s.joinedPeers.map Fin.val)).foldl min s.gid

/-- A departure (R545): the request goes OFF, event 9, the fault and the cause of Table 17.5. -/
def State.depart (s : State) (i : Fin 4) (cause : Nat) : State :=
  let on := s.gang.peers[i].fn.state == .on
  let s := s.onPeer i (fun p => { p with fn := p.fn.request false })
  let s := if s.reference = s.gid then { s with clock := { s.clock with owed := 0 } } else s
  let s := s.setFld aPEER (8 * i.val + 4) (8 * i.val + 2) cause
  let s := (s.eventMS 9).send 0x53 (if cause = 4 ∨ cause = 5 then 0x14 else 0x12) sevUncorrected 0
    (i.val + cause * 2 ^ 2)
  if on then s.stopPeer i else s

/-- This instance leaves FORGE or LOWFIRE for `m`: a heartbeat at once, and every peer departs (R546). -/
def State.leaveGang (s : State) (m : Mode) : State :=
  let s := s.sendHeartbeats m.code
  (s.peerIds.filter (fun i => s.gang.peers[i].fn.want)).foldl (fun s i => s.depart i 6) s

/-! ### Link words (R534 to R538) -/

/-- Bits `[hi:lo]` of a link word. -/
def lbits (w : BitVec 1024) (hi lo : Nat) : Nat := bits w.toNat hi lo

/-- The CRC of a link word is right (Table 17.1). -/
def linkCrcGood (w : BitVec 1024) : Bool := crc32c (toBytes 124 (w.toNat % 2 ^ 992)) == lbits w 1023 992

/-- The piece that a response header on link `k` names: one that has been sent over it and has no answer yet. -/
def State.answered (s : State) (k : Fin 3) (h : BitVec 160) : Option Piece :=
  s.pieces.find? (fun x => x.tag == hbits h 16 4 && s.sentTo (s.linkPeer k).val x && !s.inReqNet x)

/-- A response header carries a data result: a status of 03 R123 that has data (R535). -/
def dataStatus (h : BitVec 160) : Bool := decide (hbits h 20 17 ≤ 6) && hbits h 20 17 != 4

/-- The item that a header of link `k` begins (R535): a write request owns LEN + 1 beats, a READ's data result those of
its request. A response to a request that a departure has answered already is to be discarded (R547). -/
def State.newItem (s : State) (k : Fin 3) (h : BitVec 160) : LinkItem :=
  match hbits h 3 0 with
  | 1 => { hdr := h, beats := [], want := if hbits h 7 4 = 1 ∨ hbits h 7 4 = 2 then hbits h 54 49 + 1 else 0, drop := false }
  | 2 =>
    let own := fun n : Nat => if dataStatus h then n else 0
    match s.gang.links[k].late.lookup (hbits h 16 4) with
    | some n => { hdr := h, beats := [], want := own n, drop := true }
    | none => { hdr := h, beats := [], want := own (((s.answered k h).map Piece.readBeats).getD 0), drop := false }
  | _ => { hdr := h, beats := [], want := 0, drop := false }

/-- A header of a good word is taken. -/
def State.addHeader (s : State) (k : Fin 3) (h : BitVec 160) : State :=
  let it := s.newItem k h
  s.onLink k (fun l =>
    { l with items := l.items ++ [it]
             late := if hbits h 3 0 = 2 then l.late.eraseP (fun e => e.1 == hbits h 16 4) else l.late })

/-- A beat goes to the first header that still lacks one. -/
def feedBeat (b : Sector × Bool) : List LinkItem → List LinkItem
  | [] => []
  | it :: rest =>
    if it.beats.length < it.want then { it with beats := it.beats ++ [b] } :: rest else it :: feedBeat b rest

/-- Internal key of a request that came over a link: its STAG, kept apart from this instance's own tags. -/
def linkTag (k : Fin 3) (stag : Nat) : Nat := 8192 * (k.val + 1) + stag

/-- A request from a peer enters the Tongs (R538, 11 R376). -/
def State.enterRequest (s : State) (k : Fin 3) (it : LinkItem) : State :=
  let h := it.hdr
  let op := BitVec.ofNat 4 (hbits h 7 4)
  let free := s.gang.free
  let beats := it.beats.zipIdx.map (fun e =>
    ({ data := e.1.1, be := if op = 2 then Config.freeEnables (free + e.2) else BitVec.allOnes 64, wpoison := e.1.2,
       wlast := e.2 + 1 == it.want } : Beat))
  let x : Piece :=
    { tag := linkTag k (hbits h 67 55), origin := .link k (hbits h 67 55), op := op, port := hbits h 74 68,
      addr := alignAddr (hbits h 48 8), sectors := hbits h 54 49 + 1, label := hbits h 79 75,
      attr := BitVec.ofNat 4 (hbits h 86 83), heat := hbits h 82 80, beats := beats, accept := s.timebase,
      judged := false, next := 0, results := [], status := none, flip := Flip.none, erased := [] }
  let s := s.onGang (fun g => { g with free := g.free + (if op = 2 then it.beats.length else 0) })
  let s := { s with pieces := s.pieces ++ [x] }
  s.tongsPush false { output := s.outputOf x.addr, input := 128 + k.val, heat := x.heat, tag := x.tag }

/-- The sectors of a READ's response: DPOIS is RPOISON, and marks those that carry the response's bad status (R539). -/
def linkSectors (st : Status) (beats : List (Sector × Bool)) : List (Nat × SecRes) :=
  beats.zipIdx.map (fun e =>
    let good := if st = .okCorrected then Status.okCorrected else .ok
    (e.2, { status := if e.1.2 then st else good, data := e.1.1, poisoned := e.1.2 }))

/-- The response of a peer enters the return network with its STATUS (R539); for a request that a link injection of the
peer has discarded the internal tag is freed, and no response placed (15 Table 15.6). -/
def State.enterResponse (s : State) (k : Fin 3) (it : LinkItem) (flip : Flip) : State :=
  match s.answered k it.hdr with
  | none => s
  | some x =>
    if hbits it.hdr 20 17 = droppedCode then s.freePiece x.tag else
    let st := Status.ofCode (hbits it.hdr 20 17)
    let s := s.onPiece x.tag (fun y =>
      { y with status := some st, flip := flip, results := if 0 < it.want then linkSectors st it.beats else [] })
    s.tongsPush true { output := x.port, input := 24 + k.val, heat := x.heat, tag := x.tag }

/-- A response item with one bit of its first beat inverted by mode 0b10, and what is inverted beside its beats (15 R505):
STATUS, or RDATA and RPOISON of a response without a data beat. -/
def corruptItem (it : LinkItem) (i : Nat) : LinkItem × Flip :=
  let bitI : Sector := BitVec.ofNat 512 (2 ^ i)
  if i ≤ 512 then
    match it.beats with
    | [] => (it, if i < 512 then { Flip.none with data := bitI } else { Flip.none with rpoison := true })
    | b :: rest =>
      ({ it with beats := (if i < 512 then (b.1 ^^^ bitI, b.2) else (b.1, !b.2)) :: rest }, Flip.none)
  else if i ≤ 516 then (it, { Flip.none with status := BitVec.ofNat 4 (2 ^ (i - 513)) })
  else ({ it with hdr := it.hdr ^^^ BitVec.ofNat 160 (2 ^ (4 + (i - 517))) }, Flip.none)

/-- A header with another STAG. -/
def withStag (h : BitVec 160) (stag : Nat) : BitVec 160 :=
  BitVec.ofNat 160 (h.toNat - hbits h 16 4 * 2 ^ 4 + stag * 2 ^ 4)

/-- Mode 0b11: the first two responses of a list exchange their tags (15 Table 15.6). -/
def swapItems (l : List LinkItem) : Option (List LinkItem) :=
  match (l.zipIdx.filter (fun e => hbits e.1.hdr 3 0 == 2 && !e.1.drop)) with
  | a :: b :: _ =>
    some (l.zipIdx.map (fun e =>
      if e.2 = a.2 then { e.1 with hdr := withStag e.1.hdr (hbits b.1.hdr 16 4) }
      else if e.2 = b.2 then { e.1 with hdr := withStag e.1.hdr (hbits a.1.hdr 16 4) }
      else e.1))
  | _ => none

/-- The entry and the beats of a request leave this instance's receiver: they are to be returned to the peer (R536). -/
def State.returnCredits (s : State) (k : Fin 3) (it : LinkItem) : State :=
  if hbits it.hdr 3 0 = 1 then s.onLink k (fun l => { l with reqBack := l.reqBack + 1, datBack := l.datBack + it.want }) else s

/-- A complete item takes effect, with link fault injection on a joined link (15 R504, R505). -/
def State.takeItem (s : State) (k : Fin 3) (it : LinkItem) : State :=
  let live := s.joined (s.linkPeer k)
  let s := s.returnCredits k it
  if it.drop then s
  else if hbits it.hdr 3 0 = 1 then
    if live && s.armed true k.val 1 then (s.fire true k.val 1 (hbits it.hdr 48 8)).linkDropped k (hbits it.hdr 67 55)
    else occur (s.member (s.linkPeer k)) s (s.enterRequest k it)
  else if live && s.armed true k.val 2 then
    let c := corruptItem it (s.fld aLINKINJ 27 18)
    (s.enterResponse k c.1 c.2).fire true k.val 2 0
  else s.enterResponse k it Flip.none

/-- Items of a link in order, as far as their beats have come; after a Tongs bite no request is taken (01 R34). An armed
swap holds the first response until the second stands behind it. -/
def State.drainItems (s : State) (k : Fin 3) : Nat → State
  | 0 => s
  | fuel + 1 =>
    match s.gang.links[k].items with
    | [] => s
    | it :: rest =>
      if it.beats.length < it.want ∨ (hbits it.hdr 3 0 = 1 ∧ s.tongs.bitten.isSome = true) then s
      else if hbits it.hdr 3 0 = 2 ∧ it.drop = false ∧ (s.joined (s.linkPeer k) && s.armed true k.val 3) = true then
        match swapItems (it :: rest) with
        | none => s
        | some l => State.drainItems ((s.onLink k (fun x => { x with items := l })).fire true k.val 3 0) k fuel
      else State.drainItems ((s.onLink k (fun x => { x with items := rest })).takeItem k it) k fuel

/-- The link goes DOWN (R537). -/
def State.linkDown (s : State) (k : Fin 3) : State :=
  (s.setFld (aLINK k.val) 31 30 3).onLink k (fun l =>
    { l with started := false, nak := false, replays := 0, replay := [], tries := 0 })

/-- The words of the store from SEQ `first` on, in the order in which they were sent (R537). -/
def Link.since (l : Link) (first : BitVec 8) : List (BitVec 1024) :=
  l.store.reverse.dropWhile (fun w => BitVec.ofNat 8 (lbits w 991 984) != first)

/-- The peer asks for the words after `ack` (R537): they are replayed, unless a replay still runs. The sixteenth replay of
one word that it asks for again takes the link DOWN. -/
def State.takeNak (s : State) (k : Fin 3) (ack : BitVec 8) : State :=
  let l := s.gang.links[k]
  let first := ack + 1
  if l.replay ≠ [] then s
  else if l.asked = first ∧ 16 ≤ l.tries then s.linkDown k
  else (s.count (aLINK k.val) 23 16).onLink k (fun l =>
    { l with replay := l.since first, asked := first, tries := if l.asked = first then l.tries + 1 else 1 })

/-- A good word is taken: credits, ACK and NAK, control message, headers and a beat (Table 17.1). A sender never holds more
than the credits of link start (R536). -/
def State.takeWord (s : State) (k : Fin 3) (w : BitVec 1024) : State :=
  let ctrl := BitVec.ofNat 128 (lbits w 959 832)
  let hdrs := ([lbits w 831 672, lbits w 671 512].map (BitVec.ofNat 160)).filter (fun h => hbits h 3 0 != 0)
  let s := hdrs.foldl (fun s h => s.addHeader k h) s
  let s := s.onLink k (fun l =>
    { l with rxSeq := BitVec.ofNat 8 (lbits w 991 984), started := true, nak := false, replays := 0,
             reqCr := min 256 (l.reqCr + lbits w 971 968), datCr := min 512 (l.datCr + lbits w 967 960),
             ctrl := if ctrl = 0 then l.ctrl else l.ctrl ++ [ctrl],
             tries := if bit w.toNat 975 then l.tries else 0,
             items := if bit w.toNat 974 then feedBeat (BitVec.ofNat 512 (lbits w 511 0), bit w.toNat 973) l.items
                      else l.items })
  let s := if bit w.toNat 975 then s.takeNak k (BitVec.ofNat 8 (lbits w 983 976)) else s
  s.drainItems k 1024

/-! ### Words sent (R534 to R537) -/

/-- A word's CRC goes into its top bits (Table 17.1). -/
def withLinkCrc (w : Nat) : BitVec 1024 := BitVec.ofNat 1024 (w + crc32c (toBytes 124 w) * 2 ^ 992)

/-- The next new word of a link, without its CRC: what stands first in its queues, an answer to the peer's words, and the
credits that are to be returned. A beat goes out only behind the header that owns it (R535). -/
def Link.nextWord (l : Link) : Nat :=
  let hdr := fun i : Nat => ((l.txHdr[i]?).map (fun e => e.1.toNat)).getD 0
  let owed := l.owed + ((l.txHdr.take 2).map Prod.snd).sum
  let beat := if owed = 0 then none else l.txData.head?
  l.txSeq.toNat * 2 ^ 984 + l.rxSeq.toNat * 2 ^ 976 + b2n l.nak * 2 ^ 975 + b2n beat.isSome * 2 ^ 974 +
    b2n (beat.any Prod.snd) * 2 ^ 973 + min 15 l.reqBack * 2 ^ 968 + min 255 l.datBack * 2 ^ 960 +
    ((l.txCtrl.getLast?.map BitVec.toNat).getD 0) * 2 ^ 832 + hdr 0 * 2 ^ 672 + hdr 1 * 2 ^ 512 +
    ((beat.map (fun b => b.1.toNat)).getD 0)

/-- A link sends a word: the next word of a replay, or a new one, which joins the last 128 (R537). -/
def Link.sendWord (l : Link) : Link :=
  match l.replay with
  | w :: rest => { l with replay := rest, out := some w }
  | [] =>
    let w := withLinkCrc l.nextWord
    let owed := l.owed + ((l.txHdr.take 2).map Prod.snd).sum
    { l with out := some w, txSeq := l.txSeq + 1, store := (w :: l.store).take 128, txCtrl := l.txCtrl.dropLast,
             txHdr := l.txHdr.drop 2, owed := owed - (if owed = 0 then 0 else l.txData.length - l.txData.tail.length)
             txData := if owed = 0 then l.txData else l.txData.tail, reqBack := l.reqBack - 15, datBack := l.datBack - 255 }

/-- A word that fails its CRC (R537): a replay is asked for; the sixteenth replay that fails takes the link DOWN. -/
def State.badWord (s : State) (k : Fin 3) (seq : BitVec 8) : State :=
  let l := s.gang.links[k]
  if l.nak && seq != l.rxSeq + 1 then s
  else if 16 ≤ l.replays then s.linkDown k
  else (s.count (aLINK k.val) 23 16).onLink k (fun l => { l with nak := true, replays := l.replays + 1 })

/-- LINK_WORD_RECEIVE (R534, R537): out of sequence a good word is dropped. One word crosses each way per word clock, so
the link sends one too (DESIGN CHOICE, log entry 52: no row of the table names a word sent). -/
def execLinkWordReceive (k : Fin 3) (word : BitVec 1024) (s : State) : Out :=
  let l := s.gang.links[k]
  let seq := BitVec.ofNat 8 (lbits word 991 984)
  .next (occur (s.linkUp k) s
    (let t := if linkCrcGood word then
        (if !l.started || seq == l.rxSeq + 1 then s.takeWord k word else s)
      else s.badWord k seq
    if t.linkUp k then t.onLink k Link.sendWord else t))

/-- LINK_TRAINED (R536 to R538): a training or DOWN link comes UP with its delay and full credits. Beats of
headers that were sent before it went DOWN are lost at both ends (DESIGN CHOICE, log entry 52). -/
def execLinkTrained (k : Fin 3) (delay : BitVec 16) (s : State) : Out :=
  .next (occur (s.wired k && s.flag aGNG_CTL 31 && (s.linkState k == 1 || s.linkState k == 3)) s
    (((s.setFld (aLINK k.val) 31 30 2).setFld (aLINK k.val) 15 0 delay.toNat).onLink k (fun l =>
      { Link.reset with
          ctrl := l.ctrl, txCtrl := l.txCtrl, txHdr := l.txHdr, txData := l.txData.drop l.owed, late := l.late
          items := l.items.filter (fun it => it.beats.length == it.want) })))

/-- GNG_CTL.EN changes: wired links train, or every link is held in reset (R533, Table 17.7). -/
def State.linksEnable (s : State) (on : Bool) : State :=
  allLinks.foldl (fun s k =>
    if on then (if s.wired k ∧ s.linkState k = 0 then s.setFld (aLINK k.val) 31 30 1 else s)
    else (s.setFld (aLINK k.val) 31 30 0).onLink k (fun _ => Link.reset)) s

/-! ### Membership (R542 to R544) -/

/-- A write of 1 to GNG_CTL.XCHG (R543). -/
def State.exchange (s : State) : State :=
  if s.modes.mode == .kindle || s.inService then
    let s := s.onGang (fun g => { g with differs := 0 })
    (allLinks.filter (fun k => s.linkUp k && s.gang.peers[s.linkPeer k].fn.state == .off)).foldl
      (fun s k => s.sendCtrl k s.credentialsMsg) s
  else s

/-- The first control message of a type that waits on link `k`. -/
def State.ctrlMsg (s : State) (k : Fin 3) (type : Nat) : Option (BitVec 128) :=
  s.gang.links[k].ctrl.find? (fun m => cbits m 3 0 == type)

/-- The message has been handled. -/
def State.popCtrl (s : State) (k : Fin 3) (m : BitVec 128) : State :=
  s.onLink k (fun l => { l with ctrl := l.ctrl.erase m })

/-- The cause for which credentials do not agree, or 0 (R543, Table 17.5). -/
def State.credentialCause (s : State) (k : Fin 3) (m : BitVec 128) : Nat :=
  if cbits m 19 4 ≠ Config.gangVersion.toNat then 1
  else if cbits m 51 20 ≠ s.digest then 2
  else if cbits m 118 116 ≠ s.lifecycle ∨ cbits m 122 121 ≠ (s.linkPeer k).val ∨ cbits m 120 119 ≠ s.fld aGANG 1 0 then 3
  else 0

/-- GNG_LINKk.DELAY. -/
def State.linkDelay (s : State) (k : Fin 3) : Nat := s.fld (aLINK k.val) 15 0

/-- The timebase steps to `t`; the 10 µs and 35 µs that the gang unit counts go on where they stand (R544, R545). -/
def State.stepTimebase (s : State) (t : Nat) : State :=
  let old := s.timebase
  let shift := fun x : Nat => x + t - old
  ({ s with timebase := t } : State).onGang (fun g =>
    { g with hbSent := shift g.hbSent, peers := g.peers.map (fun p => { p with hbAt := shift p.hbAt, since := shift p.since }) })

/-- Credentials that agree: the request goes ON; in KINDLE an instance above the peer takes its timebase
(R542 to R544). -/
def State.admitPeer (s : State) (k : Fin 3) (m : BitVec 128) : State :=
  let i := s.linkPeer k
  let off := s.gang.peers[i].fn.state == .off
  let s := if off && s.modes.mode == .kindle && decide (i.val < s.gid) then
    s.stepTimebase ((cbits m 115 52 + s.linkDelay k) % 2 ^ 64) else s
  let s := s.onLink k (fun l => { l with late := if off then [] else l.late })
  (s.onPeer i (fun p =>
    let p := { p with fn := p.fn.request true }
    if off then { p with since := s.timebase, hbAt := s.timebase, calm := 0, view := 0 } else p)).eventMS 9

/-- Credentials that wait on a link are judged (R543). -/
def State.takeCredentials (s : State) (k : Fin 3) : State :=
  match s.ctrlMsg k 1 with
  | none => s
  | some m =>
    let s := s.popCtrl k m
    match s.credentialCause k m with
    | 0 => s.admitPeer k m
    | cause =>
      let new : BitVec 4 := if cause ≤ 2 then BitVec.ofNat 4 (2 ^ (s.linkPeer k).val) else 0
      (s.onGang (fun g => { g with differs := g.differs ||| new })).depart (s.linkPeer k) cause

/-- CREDENTIALS (R543). -/
def execCredentials (k : Fin 3) (now : Nat) (s : State) : Out :=
  .next (timed now (fun s => s.linkUp k && (s.ctrlMsg k 1).isSome) (fun s => s.takeCredentials k) s)

/-- HEARTBEAT_SEND (R545): every 10 µs of timebase. -/
def execHeartbeatSend (now : Nat) (s : State) : Out :=
  .next (timed now (fun s => decide (s.gang.hbSent + 10000 ≤ s.timebase))
    (fun s => (s.sendHeartbeats s.modes.mode.code).onGang (fun g => { g with hbSent := s.timebase })) s)

/-- The cause of departure that a heartbeat gives, or 0 (Table 17.5). -/
def State.heartbeatCause (s : State) (k : Fin 3) (m : BitVec 128) : Nat :=
  let i := s.linkPeer k
  if cbits m 51 20 ≠ s.digest then 2
  else if cbits m 122 121 ≠ i.val then 3
  else if s.gang.peers[i].fn.state = .on ∧ bit (cbits m 13 10) s.gid = false then 5
  else if 4 ≤ cbits m 6 4 then 6
  else 0

/-- The skew magnitude of a peer. -/
def Peer.magnitude (p : Peer) : Nat := p.skew.natAbs

/-- GNG_SKEW after a heartbeat of peer `i` (R551): MAX_NS, and SUSP with its fault and its clearing. -/
def State.skewStatus (s : State) (i : Fin 4) : State :=
  let mag := s.gang.peers[i].magnitude
  let worst := (s.joinedPeers.map (fun j => s.gang.peers[j].magnitude)).foldl max 0
  let s := s.setFld aSKEW 15 0 (sat 65535 worst)
  if 200 < mag ∧ s.flag aSKEW 31 = false then
    ((s.setFlag aSKEW 31 true).eventMS 9).send 0x53 0x13 sevInfo 0 (i.val + sat 32767 mag * 2 ^ 8)
  else if s.flag aSKEW 31 ∧ s.joinedPeers.all (fun j => decide (3 ≤ s.gang.peers[j].calm)) then
    (s.setFlag aSKEW 31 false).eventMS 9
  else s

/-- The error of a computed skew: a free value within 8 ns (R550, log entry 87). -/
def skewError (n : Nat) : Int := ((Config.freeSkew n % 17 : Nat) : Int) - 8

/-- A valid heartbeat is recorded, and its skew computed while the peer is joined (R544, R550). -/
def State.recordHeartbeat (s : State) (k : Fin 3) (m : BitVec 128) : State :=
  let i := s.linkPeer k
  let p := s.gang.peers[i]
  let skew : Int := (cbits m 115 52 : Int) + (s.linkDelay k : Int) - (s.timebase : Int) + skewError s.gang.free
  let q : Peer :=
    { p with hbAt := s.timebase, mode := BitVec.ofNat 3 (cbits m 6 4), shed := BitVec.ofNat 3 (cbits m 9 7),
             view := BitVec.ofNat 4 (cbits m 13 10), skew := skew, calm := if skew.natAbs ≤ 50 then p.calm + 1 else 0 }
  let news := p.mode != q.mode || p.shed != q.shed || p.view != q.view
  let s := (s.onPeer i (fun _ => q)).onGang (fun g => { g with free := g.free + 1 })
  let s := if news then s.eventMS 9 else s
  if s.joined i then
    let s := if s.reference = i.val then { s with clock := { s.clock with owed := skew } } else s
    s.skewStatus i
  else s

/-- What a heartbeat of a peer that departs by it shows: its mode and shed level, since a level of 7 in any joined instance
brings every joined one to BANKED (R548). -/
def State.lastWords (s : State) (k : Fin 3) (m : BitVec 128) : State :=
  s.onPeer (s.linkPeer k) (fun p => { p with mode := BitVec.ofNat 3 (cbits m 6 4), shed := BitVec.ofNat 3 (cbits m 9 7) })

/-- A heartbeat that waits on a link is judged (R545). -/
def State.takeHeartbeat (s : State) (k : Fin 3) : State :=
  match s.ctrlMsg k 2 with
  | none => s
  | some m =>
    let s := s.popCtrl k m
    if s.gang.peers[s.linkPeer k].fn.want then
      match s.heartbeatCause k m with
      | 0 => s.recordHeartbeat k m
      | 6 => (s.lastWords k m).depart (s.linkPeer k) 6
      | cause => s.depart (s.linkPeer k) cause
    else s

/-- HEARTBEAT (R545, R550, R551). -/
def execHeartbeat (k : Fin 3) (now : Nat) (s : State) : Out :=
  .next (timed now (fun s => s.linkUp k && (s.ctrlMsg k 2).isSome) (fun s => s.takeHeartbeat k) s)

/-- HEARTBEAT_TIMEOUT (R545 cause 4): 35 µs with no valid heartbeat of a joined peer. -/
def execHeartbeatTimeout (i : Fin 4) (now : Nat) (s : State) : Out :=
  .next (timed now (fun s => s.joined i && decide (s.gang.peers[i].hbAt + 35000 ≤ s.timebase)) (fun s => s.depart i 4) s)

/-- The first heartbeat whose view includes this instance has come (R544). -/
def State.seenBy (s : State) (i : Fin 4) : Bool := bit s.gang.peers[i].view.toNat s.gid

/-- STARTING of a peer ends, with a departure of cause 4 where no such heartbeat has come (R544). -/
def State.endStarting (s : State) (i : Fin 4) : State :=
  let seen := s.seenBy i
  let s := (s.onPeer i (fun p => { p with fn := p.fn.started })).eventMS 9
  if s.gang.peers[i].fn.state = .stopping then s.stopPeer i
  else if seen then s
  else s.depart i 4

/-- PEER_STARTING_END (R544): at such a heartbeat, or after 35 µs with a departure of cause 4. -/
def execPeerStartingEnd (i : Fin 4) (now : Nat) (s : State) : Out :=
  .next (timed now
    (fun s => s.gang.peers[i].fn.state == .starting &&
      (s.seenBy i || decide (s.gang.peers[i].since + 35000 ≤ s.timebase)))
    (fun s => s.endStarting i) s)

/-- A peer in STARTING that has been seen is joined. -/
def State.peerSeen (s : State) (i : Fin 4) : State :=
  if s.gang.peers[i].fn.state == .starting && s.seenBy i then s.endStarting i else s

/-- No slice has the sweep of R547 step 4 to do, and no request of the peer is inside. -/
def State.peerGone (s : State) (i : Fin 4) : Bool :=
  allChans.all (fun c =>
    !s.slices[c].rangesLeft.contains s.wholeRange && s.slices[c].sweep != some s.wholeRange) &&
  !s.pieces.any (fun x => match x.origin with
    | .link k _ => s.linkPeer k == i
    | .port _ _ _ => false)

/-- PEER_STOPPING_END (R547 step 5). -/
def execPeerStoppingEnd (i : Fin 4) (s : State) : Out :=
  .next (occur (s.gang.peers[i].fn.state == .stopping && s.peerGone i) s
    ((s.onPeer i (fun p => { p with fn := p.fn.stopped, since := s.timebase, hbAt := s.timebase, view := 0 })).eventMS 9))

/-! ### Smith messages (R552) -/

/-- A write of GNG_SMSG_TX_HI by the Master Smith. -/
def State.sendSmith (s : State) (hi : Word) : State :=
  let m := BitVec.ofNat 128 (3 + (s.gang.txLo.toNat + hi.toNat * 2 ^ 32) * 2 ^ 52 + s.gid * 2 ^ 121)
  (s.joinedPeers.filter (fun i => s.flag aGNG_CTL i.val)).foldl (fun s i => s.sendCtrl (s.linkTo i.val) m) s

/-- SMITH_MESSAGE (R552): into the FIFO of eight, with event 9, or discarded. -/
def execSmithMessage (k : Fin 3) (s : State) : Out :=
  .next (occur (s.linkUp k) s
    (match s.ctrlMsg k 3 with
    | none => s
    | some m =>
      let s := s.popCtrl k m
      if s.gang.fifo.length < 8 then
        (s.onGang (fun g => { g with fifo := g.fifo ++
          [(BitVec.ofNat 64 (cbits m 115 52), BitVec.ofNat 2 (cbits m 122 121))] })).eventMS 9
      else s.setFlag aGNG_STAT 15 true))

/-! ### Status words -/

/-- GNG_STAT as it reads. -/
def State.gngStat (s : State) : Word :=
  let joined := ((List.finRange 4).map (fun i => if s.gang.peers[i].fn.state == .on then 2 ^ i.val else 0)).sum
  let expect := (s.peerIds.map (fun i => 2 ^ i.val)).sum
  putBits (putBits (putBits (s.rd aGNG_STAT) 11 8 s.gang.fifo.length) 7 4 joined) 3 0 expect

/-- GNG_PEER as it reads. -/
def State.gngPeer (s : State) : Word :=
  (List.finRange 4).foldl (fun w i =>
    let f := s.gang.peers[i].fn
    putBits w (8 * i.val + 7) (8 * i.val + 5) (f.state.code * 2 + b2n f.pend)) (s.rd aPEER)

end Sys2Proof.Machine
end

