-- ==== Sys2Proof/Machine/LoftBase.lean ====
section
/-! DEFINITION. The Loft's lines, ways, replacement tree, functions and merge buffer as the other blocks use them
(10). -/

namespace Sys2Proof.Machine

/-- Loft function indices: way groups 0 to 3, the rick, prefetch. -/
def fnRick : Fin 6 := 4
def fnPf : Fin 6 := 5

/-- The index of a Loft function. -/
def LoftFn.index : LoftFn → Fin 6
  | .wg0 => 0 | .wg1 => 1 | .wg2 => 2 | .wg3 => 3 | .rick => 4 | .prefetch => 5

/-- The set of a line (R333). -/
def lineSet (l : Nat) : Nat := (l % 1024) ^^^ (l / 1024 % 1024) ^^^ (l / 1048576 % 128)

/-- The system address of a line of channel `c` (R333, 04 R168). -/
def State.lineAddr (s : State) (c : Chan) (l : Nat) : Nat := s.sysAddr c.val (128 * l)

/-- Group of a way. -/
def wayGroup (w : Nat) : Fin 6 := ⟨w / 4 % 4, by omega⟩

/-- The state of a Loft function. -/
def State.loftState (s : State) (k : Fin 6) : FnState := s.loftFns[k].state

/-- A lookup searches a way: its group is ON or STOPPING (R361). -/
def State.waySearched (s : State) (w : Nat) : Bool :=
  s.loftState (wayGroup w) == .on || s.loftState (wayGroup w) == .stopping

/-- The line in a way. -/
def State.findWay (s : State) (c : Chan) (l : Nat) : Option Line :=
  s.slices[c].ways.find? (fun x => x.line == l && s.waySearched x.way)

/-- The line in the rick, searched only while the rick is ON (R362). -/
def State.findRick (s : State) (c : Chan) (l : Nat) : Option Line :=
  if s.loftState fnRick = .on then s.slices[c].rick.find? (fun x => x.line == l) else none

/-- Blocking mode (R346). -/
def State.blocking (s : State) (c : Chan) : Bool :=
  s.modes.mode == .kindle || s.modes.mode == .assay || s.slices[c].settle.isSome ||
  [(0 : Fin 6), 1, 2, 3].any (fun k => s.loftState k == .starting)

/-! ### Replacement (R334, R335) -/

/-- The node bits of a set; they start at 0 (log entry 12). -/
def Slice.tree (l : Slice) (set : Nat) : BitVec 16 := SMap.get (fun _ => 0) l.plru set

/-- Write the node bits of a set. -/
def Slice.setTree (l : Slice) (set : Nat) (b : BitVec 16) : Slice :=
  { l with plru := SMap.set (fun _ => 0) l.plru set b }

/-- Nodes on the path to way `w` with the half that `w` lies in: true for the upper half. -/
def wayPath (w : Nat) : List (Nat × Bool) :=
  [(1, bit w 3), (2 + w / 8 % 2, bit w 2), (4 + w / 4 % 4, bit w 1), (8 + w / 2 % 8, bit w 0)]

/-- Every node on the path points away from the way (R334). -/
def touchTree (b : BitVec 16) (w : Nat) : BitVec 16 :=
  (wayPath w).foldl (fun b e =>
    if e.2 then b &&& ~~~ BitVec.ofNat 16 (2 ^ e.1) else b ||| BitVec.ofNat 16 (2 ^ e.1)) b

/-- A hit, fill or recall into way `w` of a set. -/
def Slice.touch (l : Slice) (set w : Nat) : Slice := l.setTree set (touchTree (l.tree set) w)

/-- Ways below node `n` of level with `size` ways (16 at the root). -/
def underNode (n size w : Nat) : Bool := w / size + 16 / size == n

/-- The descent of R335 from node `n`. -/
def descend (b : BitVec 16) (e : List Nat) : Nat → Nat → Nat
  | 0, n => n
  | fuel + 1, n =>
    let size := 16 / 2 ^ (4 - fuel)
    let h := 2 * n + b2n (bit b.toNat n)
    let other := 2 * n + b2n (!bit b.toNat n)
    descend b e fuel (if e.any (underNode h size) then h else other)

/-- The victim way (R335): the lowest invalid eligible way, else the tree's choice. -/
def Slice.victim (l : Slice) (set : Nat) (e : List Nat) : Nat :=
  match e.find? (fun w => !l.ways.any (fun x => x.way == w && lineSet x.line == set)) with
  | some w => w
  | none => descend (l.tree set) e 4 1 - 16

/-- LFT_LOCK.LOCKG. -/
def State.lockg (s : State) (c : Chan) (k : Nat) : Bool := s.flag (aLOCK c.val) k

/-- The eligible ways of an installation (R336). -/
def State.eligibleWays (s : State) (c : Chan) (pin : Bool) : List Nat :=
  let on := fun (k : Nat) => s.loftState (wayGroup (4 * k)) == .on
  let locked := pin && (List.range 4).any (fun k => on k && s.lockg c k)
  (List.range 16).filter (fun w => on (w / 4) && s.lockg c (w / 4) == locked)

/-! ### Merge buffer (R349) -/

/-- The flush of merge entries begins. -/
def Slice.flushIf (l : Slice) (f : Merge → Bool) : Slice :=
  { l with merge := l.merge.map (fun m => if f m then { m with flush := true } else m) }

/-- Every merge entry of every slice is flushed (R349). -/
def State.flushAll (s : State) : State := { s with slices := s.slices.map (fun l => l.flushIf (fun _ => true)) }

/-! ### The functions and their requests (R358, R359, R364) -/

/-- The request of a Loft function (Table 10.5). -/
def State.loftWant (s : State) (k : Fin 6) : Bool :=
  match k.val with
  | 0 => s.flag aLOFT_CTL 0
  | 4 => s.flag aLOFT_CTL 4 && decide (s.shed < 3)
  | 5 => s.flag aLOFT_CTL 5 && decide (s.shed < 1)
  | n => s.flag aLOFT_CTL n && decide (s.shed < 4)

/-- The start of cleaning in a slice (R364 steps 1 to 3): merge entries whose line a way of the group holds are
flushed, and the open misses are noted. -/
def Slice.clean (l : Slice) (k : Nat) : Slice :=
  let held := fun (m : Merge) => l.ways.any (fun x => x.line == m.line && x.way / 4 == k)
  let ids := l.miss.map Miss.id ++ (l.merge.filter held).map Merge.id
  { l.flushIf held with cleaning := (k, ids) :: l.cleaning.filter (fun e => e.1 != k) }

/-- What the start of STOPPING does at once (Table 10.6). -/
def State.loftStopping (s : State) (k : Fin 6) : State :=
  if k.val < 4 then { s with slices := s.slices.map (fun l => l.clean k.val) }
  else if k = fnPf then { s with slices := s.slices.map (fun l => { l with pfq := [] }) }
  else { s with slices := s.slices.map (fun l => { l with rick := [] }) }

/-- A request to a Loft function under the start/stop rule (R358, 13 R455). -/
def State.loftRequest (s : State) (k : Fin 6) : State :=
  let was := s.loftState k
  let s := { s with loftFns := upd s.loftFns k (fun f => f.request (s.loftWant k)) }
  if was == .on && s.loftState k == .stopping then s.loftStopping k else s

/-- Every Loft function sees its request. -/
def State.loftRequests (s : State) : State := (List.finRange 6).foldl (fun s k => s.loftRequest k) s

/-- GLB_LOFT_STAT as it reads (Table 10.9). -/
def State.loftStat (s : State) : Word :=
  let busy := putBits 0 31 31 (b2n (!s.fullInv.isEmpty))
  (List.finRange 6).foldl (fun w k =>
    let f := s.loftFns[k]
    putBits w (3 * k.val + 2) (3 * k.val) (f.state.code * 2 + b2n f.pend)) busy

/-- Merge entries in use (Table 10.13). -/
def Slice.mergeCount (l : Slice) : Nat := (l.merge.filter (fun m => !m.split)).length

/-- LFT_STAT of a slice as it reads (Table 10.13). -/
def State.lftStat (s : State) (c : Chan) : Word :=
  let l := s.slices[c]
  let w := putBits (s.rd (aLSTAT c.val)) 31 31 (b2n (s.blocking c))
  let w := putBits w 30 24 l.miss.length
  let w := putBits w 23 18 l.mergeCount
  putBits w 16 10 l.rick.length

end Sys2Proof.Machine
end

