-- ==== Sys2Proof/Machine/Shed.lean ====
section
/-! DEFINITION. Shed levels, the modes of service and the start of a BANKED transition (13 R435 to R449). -/

namespace Sys2Proof.Machine

/-- Change the mode control. -/
def State.onModes (s : State) (f : ModeCtl → ModeCtl) : State := { s with modes := f s.modes }

/-- GLB_MODE.BUSY. -/
def State.busy (s : State) : Bool := s.flag aMODE 29

/-- The mode that GLB_MODE shows in service (R438). -/
def State.serviceMode (s : State) : Mode := if s.shed = 0 then .forge else .lowfire

/-- A commit that waits is cancelled at BANKED entry (12 R412). -/
def State.cancelCommits (s : State) : State := allChans.foldl (fun s c => s.cancelCommit c) s

/-- BANKED entry begins (R441 steps 1 and 2, 17 R546): peers depart, REQ_READY falls, merge entries are flushed. -/
def State.beginBanked (s : State) (host : Bool) : State :=
  let s := s.leaveGang .banked
  let s := ((s.setFlag aMODE 29 true).setFld aMODE 10 8 Mode.banked.code).eventMS 3
  let s := s.onModes (fun m => { m with step := .draining, hostBank := host })
  s.cancelCommits.flushAll

/-- The throttle of a port that `before` did not throttle begins with a full bucket: at L5, or at a table switch that
takes the port's last slot (11 R400). -/
def State.throttleEdge (s before : State) : State :=
  { s with ports := Vector.ofFn (fun p : PortId =>
      if !before.throttled p && s.throttled p then { s.ports[p] with throttle := throttleSize } else s.ports[p]) }

/-- LEVEL reaches 7: a BANKED transition is accepted, or recorded during another one (R449); none after a Tongs bite (R432). -/
def State.shedBank (s : State) : State :=
  if s.tongs.bitten.isSome then s
  else if !s.busy then s.beginBanked false
  else if s.fld aMODE 10 8 = Mode.banked.code then s
  else (s.setFlag aMODE_REQ 31 true).onModes (fun m =>
    { m with recorded := some .banked, recHost := m.recHost && m.recorded == some .banked })

/-- A change of GLB_SHED.LEVEL (R446, R448, R449): the fault, the mode of service, the functions, and L7. -/
def State.setShed (s : State) (level : Nat) : State :=
  let old := s.shed
  if old = level then s
  else
    let before := s
    let s := s.setFld aSHED 2 0 level
    let s := s.send 0x50 0x1A sevInfo 0 (level + old * 2 ^ 3 + b2n (s.flag aSHED 31) * 2 ^ 6)
    let s := s.onModes (fun m => { m with shedFrom := s.timebase, shedLow := s.timebase })
    let s := if s.inService then s.setMode s.serviceMode else s
    let s := (s.throttleEdge before).loftRequests
    if level = 7 ∧ s.inService then s.shedBank else s

/-- An anvil holds a thermal request (R445). -/
def State.thermal (s : State) : Bool := allChans.any (fun c => s.anvils[c].thermReq)

/-- The thermal floor in service (R445, 06 R225): THERM, and LEVEL at 5 or above. -/
def State.thermalFloor (s : State) : State :=
  let hot := s.thermal && s.inService
  let s := s.setFlag aSHED 31 hot
  if hot && decide (s.shed < 5) then s.setShed 5 else s

/-- The Master Smith sets LEVEL (R445). -/
def State.shedWrite (s : State) (level : Nat) : State :=
  if s.inService then
    s.setShed (if s.flag aSHED 31 ∧ level < 5 then 5 else level)
  else s

/-! ### The sag levels that TMP_SAG shows (R450) -/

/-- Change Temper. -/
def State.onTemper (s : State) (f : Temper → Temper) : State := { s with temper := f s.temper }

/-- The highest level set in a bit set of levels; bit 0 is no level. -/
def topLevel (b : BitVec 8) : Nat := ((List.range 8).filter (fun n => 0 < n && bit b.toNat n)).foldl max 0

/-- TMP_SAG shows the three levels and their maximum; a change of LEVEL sets event 4 (R450). -/
def State.showSag (s : State) : State :=
  let v := topLevel s.temper.vset
  let r := topLevel s.temper.rset
  let old := s.fld aSAG 2 0
  let new := max (max v r) (s.fld aSAG 14 12)
  let s := ((s.setFld aSAG 6 4 v).setFld aSAG 10 8 r).setFld aSAG 2 0 new
  if old = new then s else (s.eventMS 4).onModes (fun m => { m with shedFrom := s.timebase })

/-- The sag input of the power-management port is sampled (R450). -/
def State.samplePm (s : State) : State := (s.setFld aSAG 14 12 s.temper.pmPin.toNat).showSag

/-- A function of the Gleaner of channel `c` sees its request (09 R321). -/
def State.glnRequest (s : State) (c : Chan) : State :=
  s.onAnvil c (fun v => { v with gln := v.gln.request (s.flag (aGLN_CTL c.val) 31) })

end Sys2Proof.Machine
end

