-- ==== Sys2Proof/Machine/HedgeBase.lean ====
section
/-! DEFINITION. Hedge's regions, keys and verdicts as the other blocks use them (14). -/

namespace Sys2Proof.Machine

/-- Change Hedge. -/
def State.onHedge (s : State) (f : Hedge → Hedge) : State := { s with hedge := f s.hedge }

/-- Change region `r`. -/
def State.onRegion (s : State) (r : RegionId) (f : Region → Region) : State :=
  s.onHedge (fun h => { h with regions := upd h.regions r f })

/-- Every region. -/
def allRegions : List RegionId := List.finRange 8

/-- Region descriptor `r` (Table 14.3). -/
def State.descr (s : State) (r : RegionId) : Word := s.fuseWord ⟨2 + r.val, by omega⟩

/-- Size of a descriptor in GiB. -/
def descrSize (d : Word) : Nat := wbits d 26 16

/-- Base of a descriptor in GiB. -/
def descrBase (d : Word) : Nat := wbits d 10 0

/-- A VALID descriptor that is ignored (R467). -/
def descrBad (d : Word) : Bool := wbit d 31 && (descrSize d == 0 || decide (2048 < descrBase d + descrSize d))

/-- A descriptor in use. -/
def State.inUse (s : State) (r : RegionId) : Bool := wbit (s.descr r) 31 && !descrBad (s.descr r)

/-- Region `r` is encrypted: in use with XTS = 1. -/
def State.xts (s : State) (r : RegionId) : Bool := s.inUse r && wbit (s.descr r) 30

/-- First system address of a region and its size in bytes (R468). -/
def State.regionSpan (s : State) (r : RegionId) : Nat × Nat :=
  (descrBase (s.descr r) * 2 ^ 30, descrSize (s.descr r) * 2 ^ 30)

/-- A region covers a system address (R468). -/
def State.covers (s : State) (r : RegionId) (a : Nat) : Bool :=
  let sp := s.regionSpan r
  s.inUse r && decide (sp.1 ≤ a ∧ a < sp.1 + sp.2)

/-- The lowest-numbered region in use that covers an address (R468). -/
def State.regionOf (s : State) (a : Nat) : Option RegionId := allRegions.find? (fun r => s.covers r a)

/-- A region counts as ON only while its state and its request are ON (R476). -/
def State.regionOn (s : State) (r : RegionId) : Bool :=
  s.hedge.regions[r].fn.state == .on && s.hedge.regions[r].fn.want

/-- The encrypted region that covers an address, if any. -/
def State.xtsRegion (s : State) (a : Nat) : Option RegionId := (s.regionOf a).bind (fun r => if s.xts r then some r else none)

/-- The engine keys for an address of an encrypted region, while they are held. -/
def State.engineKeys (s : State) (a : Nat) : Option (BitVec 256 × BitVec 256) :=
  (s.xtsRegion a).bind (fun r => s.hedge.regions[r].engine)

/-- Port `p` may read region `r`. -/
def State.mayRead (s : State) (r : RegionId) (p : Nat) : Bool := s.fuseBit (10 + 4 * r.val) p

/-- Port `p` may write region `r`. -/
def State.mayWrite (s : State) (r : RegionId) (p : Nat) : Bool := s.fuseBit (42 + 4 * r.val) p

/-- A violation type is of class A (Table 14.5). -/
def State.classA (s : State) (t : Nat) : Bool := t == 8 || s.fuseBit 90 t

/-- What Hedge answers on a piece: permitted, or a refusal with its violation type where it is one (R469). -/
inductive Verdict where
  | permit
  | refuse (st : Status) (violation : Option Nat)
deriving DecidableEq, Repr

/-- Hedge's verdict on an access of operation `op` by port `p` to system address `a`, which this instance serves
(R469). -/
def State.verdict (s : State) (op : BitVec 4) (p a : Nat) : Verdict :=
  if s.banking (s.spot (s.gangMap a).2).la then .refuse .denied (some 2)
  else
    match s.regionOf a with
    | none => .permit
    | some r =>
      if isWriteOp op then
        if !s.mayWrite r p then .refuse .denied (some 1)
        else if s.xts r && !s.regionOn r then .refuse .denied (some 3)
        else .permit
      else if !s.mayRead r p then .refuse .denied (some 0)
      else if s.xts r && !s.regionOn r then .refuse (if op = 4 then .dropped else .keyAbsent) none
      else .permit

/-- HDG_VIOL bits [15:0] of a violation (R486, Table 14.11). -/
def violDetail (region : Option RegionId) (type : Nat) (write : Bool) (port : Nat) : Nat :=
  port % 128 + b2n write * 2 ^ 7 + type % 16 * 2 ^ 8 +
  (match region with
    | some r => r.val * 2 ^ 12 + 2 ^ 15
    | none => 0)

/-- A key-erasure sweep of a region (R477, R487): range invalidations for every populated slice. -/
def State.keySweep (s : State) (r : RegionId) : State :=
  let sp := s.regionSpan r
  s.queueRange { base := sp.1, size := sp.2, key := true, full := false }

/-- HDG_KEYSTAT as it reads (Table 14.8). -/
def State.keystat (s : State) : Word :=
  allRegions.foldl (fun w r =>
    let f := s.hedge.regions[r].fn
    putBits w (3 * r.val + 2) (3 * r.val) (f.state.code + b2n f.pend * 4)) 0

/-- HDG_KEYHELD as it reads (Table 14.9). -/
def State.keyheld (s : State) : Word :=
  allRegions.foldl (fun w r =>
    let k := s.hedge.regions[r]
    putBits (putBits w (8 + r.val) (8 + r.val) (b2n k.k2.isSome)) r.val r.val (b2n k.k1.isSome)) (s.rd aKEYHELD)

end Sys2Proof.Machine
end

