-- ==== Sys2Proof/Machine/Timing.lean ====
section
/-! DEFINITION. The command stage's timing rules (05 Table 5.5) and the CK of a channel (07 Table 7.2). -/

namespace Sys2Proof.Machine

/-- The hearth of a channel (00 R12). -/
def hearthOf (c : Chan) : HearthId := ⟨c.val / 6, by omega⟩

/-- The channels of a hearth. -/
def hearthChans (h : HearthId) : List Chan := allChans.filter (fun c => hearthOf c == h)

/-- tCK in units of 1/2,640 ns by rate code (07 Table 7.2). -/
def tckUnits (code : Nat) : Nat := [6600, 4950, 3840, 3300, 2816, 2475].getD code 2475

/-- The rate code of the set point in use, HTH_PLL.RATE. -/
def State.rateCode (s : State) (c : Chan) : Nat := s.fld (aPLL c) 2 0

/-- tCK of a channel in units of 1/2,640 ns. -/
def State.tck (s : State) (c : Chan) : Nat := tckUnits (s.rateCode c)

/-- Bank-group mode (07 Table 7.2). -/
def State.bgMode (s : State) (c : Chan) : Bool := s.rateCode c != 0

/-- Field `[hi:lo]` of timing register `n` as the command stage holds it; register 8 is ANV_DERATE (05 R210). -/
def Anvil.tf (v : Anvil) (n : Fin 9) (hi lo : Nat) : Nat := wbits v.tim[n] hi lo

/-- RL. -/
def Anvil.rl (v : Anvil) : Nat := v.tf 2 6 0

/-- WL. -/
def Anvil.wl (v : Anvil) : Nat := v.tf 2 14 8

/-- TRCD with its derate (R209). -/
def Anvil.trcd (v : Anvil) : Nat := v.tf 0 6 0 + v.tf 8 3 0

/-- TRAS. -/
def Anvil.tras (v : Anvil) : Nat := v.tf 0 30 24

/-- TRPPB. -/
def Anvil.trppb (v : Anvil) : Nat := v.tf 0 14 8

/-- TRTW with its derate (R209). -/
def Anvil.trtw (v : Anvil) : Nat := v.tf 2 21 16 + v.tf 8 11 8

/-- WL + 4 + tWTR, short or long (Table 5.5, R209). -/
def Anvil.wtr (v : Anvil) (long : Bool) : Nat :=
  v.wl + 4 + (if long then v.tf 3 21 16 else v.tf 3 13 8) + v.tf 8 7 4

/-- WL + 4 + TWR. -/
def Anvil.twr (v : Anvil) : Nat := v.wl + 4 + v.tf 1 30 24

/-- Latency from a RD or WR to its data. -/
def Anvil.lat (v : Anvil) (code : Code) : Nat := if code = .wr then v.wl else v.rl

/-- Two banks in the same pair of REFpb or RFM (06 R213). -/
def samePair (a b : Nat) : Bool := a % 8 == b % 8

/-- The least distance in CK that the rules put between an earlier command and a later one (Table 5.5). A PREA
counts as a PRE of every bank of its rank (DEDUCED, log entry 8). -/
def Anvil.gap (v : Anvil) (bg : Bool) (e : Issued) (l : Cmd) : Nat :=
  let rank := e.rank == l.rank
  let bank := rank && e.bank == l.bank
  let long := bg && e.bank / 4 == l.bank / 4
  let hit (c : Bool) (n : Nat) : Nat := if c then n else 0
  let ca := if e.mark && e.code == .pre then 0 else if e.code = .act then 2 else 1
  let rules : List Nat :=
    match e.code with
    | .act =>
      [hit (bank && (l.code == .rd || l.code == .wr)) v.trcd,
       hit ((bank && l.code == .pre) || (rank && l.code == .prea)) v.tras,
       hit (bank && l.code == .act) (v.tras + v.trppb),
       hit (rank && !bank && l.code == .act) (v.tf 1 4 0)]
    | .pre =>
      [hit (bank && l.code == .act) v.trppb,
       hit (rank && !e.mark && (l.code == .pre || l.code == .prea)) (v.tf 2 27 24)]
    | .prea =>
      [hit (rank && (l.code == .act || l.code == .refab)) (v.tf 0 22 16),
       hit (rank && (l.code == .pre || l.code == .prea)) (v.tf 2 27 24)]
    | .rd =>
      [hit ((bank && l.code == .pre) || (rank && l.code == .prea)) (v.tf 1 20 16),
       hit (l.code == .wr) v.trtw,
       hit (rank && l.code == .rd) (if long then v.tf 3 7 4 else v.tf 3 3 0)]
    | .wr =>
      [hit ((bank && l.code == .pre) || (rank && l.code == .prea)) v.twr,
       hit (rank && l.code == .wr) (if long then v.tf 3 7 4 else v.tf 3 3 0),
       hit (rank && l.code == .rd) (v.wtr long)]
    | .mrr => [v.tf 4 4 0]
    | .mrw => [if l.code = .mrw then v.tf 4 12 8 else v.tf 4 20 16]
    | .pdx => [hit rank (v.tf 4 28 24)]
    | .refab => [hit rank (v.tf 5 9 0)]
    | .refpb =>
      [hit (rank && samePair e.bank l.bank && l.code == .act) (v.tf 5 25 16),
       hit (rank && l.code == .refpb) (v.tf 6 7 0),
       hit (rank && !samePair e.bank l.bank && l.code == .act) (v.tf 6 15 8)]
    | .rfm => [hit (rank && samePair e.bank l.bank && l.code == .act) (v.tf 5 25 16)]
    | .srx => [hit rank (v.tf 6 25 16)]
    | .sre => [hit (rank && l.code == .srx) (v.tf 7 7 0)]
    | .mpc => [hit (rank && e.mark) (v.tf 7 15 8)]
    | .pde => []
  rules.foldl max ca

/-- CK of DQ that a command's burst occupies (R207, 02 R74). -/
def Cmd.dq (l : Cmd) : Nat :=
  match l.code with
  | .rd | .wr => if l.bl16 then 2 else 4
  | .mrr => 2
  | _ => 0

/-- The data bursts of two commands keep clear of each other on DQ: TRTRS between ranks, no overlap within one
(R207, Table 5.5). -/
def Anvil.dqClear (v : Anvil) (e : Issued) (l : Cmd) (ck : Nat) : Bool :=
  if e.dq = 0 ∨ l.dq = 0 then true
  else decide (e.ck + v.lat e.code + e.dq + (if e.rank = l.rank then 0 else v.tf 3 27 24) ≤ ck + v.lat l.code)

/-- tFAW: an ACT and the fifth following ACT of its rank (Table 5.5, log entry 9). -/
def Anvil.fawClear (v : Anvil) (l : Cmd) (ck : Nat) : Bool :=
  if l.code = .act then
    match ((v.hist.filter (fun e => e.code == .act && e.rank == l.rank)).drop 4).head? with
    | some e => decide (e.ck + v.tf 1 13 8 ≤ ck)
    | none => true
  else true

/-- An earlier command bounds a later one. The precharge that AP makes is no command on CA, and may lie ahead: of the rules it
bounds only the ACT of its own bank (Table 5.5, R184). -/
def Issued.bounds (e : Issued) (l : Cmd) : Bool :=
  !(e.mark && e.code == .pre) || (l.code == .act && e.rank == l.rank && e.bank == l.bank)

/-- Every rule of Table 5.5 allows the command at this edge (R206), and its own first edge is reached (02 R84). -/
def Anvil.allowed (v : Anvil) (bg : Bool) (l : Cmd) (ck : Nat) : Bool :=
  decide (l.due ≤ ck) &&
  v.hist.all (fun e => (!e.bounds l || decide (e.ck + v.gap bg e l ≤ ck)) && v.dqClear e l ck) && v.fawClear l ck

/-- The earliest edge at or after `ck` at which the rules allow a command, up to `fuel` edges on. -/
def Anvil.earliest (v : Anvil) (bg : Bool) (l : Cmd) : Nat → Nat → Nat
  | 0, ck => ck
  | fuel + 1, ck => if v.allowed bg l ck then ck else Anvil.earliest v bg l fuel (ck + 1)

/-- Commands older than this no longer bound anything: the largest rule is below it. -/
def histSpan : Nat := 2048

/-- The command issues at an edge: it joins the history. A RD or WR with AP also leaves the precharge that it
makes, at the first edge at which tRTP or tWR and tRAS allow it (R184). -/
def Anvil.note (v : Anvil) (l : Cmd) (ck : Nat) : Anvil :=
  let e : Issued := { ck := ck, code := l.code, rank := l.rank, bank := l.bank, dq := l.dq,
                      mark := l.code == .mpc && l.op == Config.zqLatchOp }
  let opened := ((v.hist.find? (fun x => x.code == .act && x.rank == l.rank && x.bank == l.bank)).map
    (fun x => x.ck + v.tras)).getD 0
  let after := ck + (if l.code = .wr then v.twr else v.tf 1 20 16)
  let auto : List Issued :=
    if l.ap && (l.code == .rd || l.code == .wr) then
      [{ ck := max after opened, code := .pre, rank := l.rank, bank := l.bank, dq := 0, mark := true }]
    else []
  { v with ck := ck, hist := auto ++ e :: v.hist.filter (fun x => decide (ck < x.ck + histSpan)) }

end Sys2Proof.Machine
end

