-- ==== Sys2Proof/Machine/Checks.lean ====
section
/-! DEFINITION. The check sectors of a row visit: their positions, the cache that holds them, and what a read entry has
still to read (04 R160, R161, 05 Table 5.1, 09 R300 to R302). -/

namespace Sys2Proof.Machine

/-! ### Sectors of a row -/

/-- Channel-local address of data sector `n` of a row (04 R153). -/
def State.secLa (s : State) (c : Chan) (q : Place) (n : Nat) : Nat := (s.rowIndex c.val q * s.rowSectors + n) * 64

/-- The plot that data sector `n` of a row lies in. -/
def State.secPlot (s : State) (c : Chan) (q : Place) (n : Nat) : Nat := plotOf (s.secLa c q n)

/-- A data sector lies in a written plot. -/
def State.secWritten (s : State) (c : Chan) (q : Place) (n : Nat) : Bool := (s.anvils[c]).written (s.secPlot c q n)

/-- A position of a row is a check sector. -/
def State.isCheck (s : State) (pos : Nat) : Bool := decide (s.rowSectors ≤ pos)

/-! ### Check positions -/

/-- Data sectors of a row. -/
def State.rowNs (s : State) : List Nat := List.range s.rowSectors

/-- A row that holds no sector of a written plot: a plot fill builds its check sectors anew. -/
def State.freshRow (s : State) (c : Chan) (q : Place) : Bool := s.rowNs.all (fun n => !s.secWritten c q n)

/-- Positions of the check sectors of data sectors (04 R160, R161). -/
def State.checkPositions (s : State) (ns : List Nat) : List Nat :=
  if ns.isEmpty then [] else if s.swath then [31] else (ns.map (fun n => (abCheckAt n).1)).dedup

/-- Check positions that a write of data sectors merges into; under the address-bound code also the poison bitmap of
sector 31, against which a change of the poison mark is judged (R298; DEDUCED, log entry 13). -/
def State.writeChecks (s : State) (ns : List Nat) : List Nat :=
  if s.swath then [31] else (s.checkPositions ns ++ [31]).dedup

/-- A write entry that encodes its sectors: every one but the scrub's and the poisonings. -/
def WriteKind.encodes : WriteKind → Bool
  | .data | .save => true
  | .mend | .poison | .bitmap _ => false

/-- The check sectors that a write entry merges into: it needs them held (Table 5.2). -/
def State.entryChecks (s : State) (c : Chan) (w : WriteEnt) : List Nat :=
  let ns := w.secs.map WSec.pos
  match w.kind with
  | .data | .save => if w.fill && s.freshRow c w.place then [] else s.writeChecks ns
  | .mend => s.checkPositions ns
  | .poison => s.writeChecks ns
  | .bitmap _ => [31]

/-! ### The check-sector cache (R300 to R302) -/

/-- The held check sector of a place and position. -/
def Anvil.held (v : Anvil) (q : Place) (pos : Nat) : Option Sector :=
  (v.cache.find? (fun e => e.place == q && e.pos == pos)).map Check.data

/-- A write of the queue merges its check bytes into this check sector (R302). -/
def Anvil.checkPending (v : Anvil) (swath : Bool) (e : Check) : Bool :=
  v.writes.any (fun w => w.place == e.place && (swath || e.pos == 31 || w.secs.any (fun x => (abCheckAt x.pos).1 == e.pos)))

/-- The cache without its least recently used entry that has no write pending; none where every entry has one
(R300, R302). -/
def dropLast (l : List Check) (keep : Check → Bool) : Option (List Check) :=
  (l.reverse.find? (fun e => !keep e)).map l.erase

/-- A check sector enters the cache, or is used in it. With 256 entries that all have a write pending it is not held
(R302). -/
def Anvil.hold (v : Anvil) (swath : Bool) (q : Place) (pos : Nat) (d : Sector) : Anvil :=
  let rest := v.cache.filter (fun e => !(e.place == q && e.pos == pos))
  let room := if 256 ≤ rest.length then dropLast rest (v.checkPending swath) else some rest
  match room with
  | some l => { v with cache := { place := q, pos := pos, data := d } :: l }
  | none => v

/-- A row is closed: under the swath code its check sector leaves the cache (R301). -/
def Anvil.dropChecks (v : Anvil) (q : Place) : Anvil := { v with cache := v.cache.filter (fun e => e.place != q) }

/-- A held check sector leaves the cache (R300). -/
def Anvil.dropCheck (v : Anvil) (q : Place) (pos : Nat) : Anvil :=
  { v with cache := v.cache.filter (fun e => !(e.place == q && e.pos == pos)) }

/-! ### What a read entry has still to read (05 Table 5.1) -/

/-- The check sectors that a read entry needs besides its own positions. -/
def State.readChecks (s : State) (c : Chan) (e : ReadEnt) : List Nat :=
  match e.kind with
  | .scrub => []
  | .preread w =>
    match s.anvils[c].writes.find? (fun x => x.seq == w) with
    | some x => s.entryChecks c x
    | none => []
  | .demand _ _ => s.checkPositions (e.secs.filter (s.secWritten c e.place))
  | .patrol _ _ => s.checkPositions e.secs

/-- Check sectors that a read entry has still to read: neither read, nor on their way, nor held (Table 5.1). -/
def State.checksLeft (s : State) (c : Chan) (e : ReadEnt) : List Nat :=
  (s.readChecks c e).filter (fun p =>
    (e.got.lookup p).isNone && !e.flying.contains p && ((s.anvils[c]).held e.place p).isNone)

/-- A write has not reached the DRAM: it is queued, or waits for a write entry. -/
def Anvil.entryLive (v : Anvil) (seq : Nat) : Bool :=
  v.writes.any (fun w => w.seq == seq) || v.feed.any (fun x => x.seq == seq)

/-- A write or plot fill has not reached the DRAM. -/
def Anvil.writeLive (v : Anvil) (seq : Nat) : Bool := v.entryLive seq || v.fills.any (fun f => f.seq == seq)

/-- A read blocked by a hazard (05 R192, R193). -/
def State.readBlocked (s : State) (c : Chan) (e : ReadEnt) : Bool :=
  e.waits.any s.anvils[c].writeLive || e.waitsM.any (fun id => s.slices[c].merge.any (fun m => m.id == id))

/-- The positions that an entry has still to read. A demand read makes no DRAM access for a sector of an unwritten
plot (09 R316), but for a locate read, which reads the whole swath (R307). -/
def State.todoNow (s : State) (c : Chan) (e : ReadEnt) : List Nat :=
  match e.kind with
  | .demand _ _ => if e.locate then e.todo else e.todo.filter (fun p => s.isCheck p || s.secWritten c e.place p)
  | _ => e.todo

/-- A read entry that no hazard blocks has RDs to issue. -/
def State.rdsNow (s : State) (c : Chan) (e : ReadEnt) : Bool := !(s.todoNow c e).isEmpty || !(s.checksLeft c e).isEmpty

/-- A read entry is queued: it waits, or has RDs still to issue (the timeline of Table 5.16). -/
def State.rdsLeft (s : State) (c : Chan) (e : ReadEnt) : Bool := s.readBlocked c e || s.rdsNow c e

/-- A queued read or a write entry targets a bank of a rank. -/
def State.queued (s : State) (c : Chan) (rank bank : Nat) : Bool :=
  let v := s.anvils[c]
  v.reads.any (fun e => e.place.rank == rank && e.place.bank == bank && s.rdsLeft c e) ||
  v.writes.any (fun e => e.place.rank == rank && e.place.bank == bank)

/-- A read of the read queue is queued; a pre-read belongs to its write (05 R173, R186). -/
def State.readsQueued (s : State) (c : Chan) : Bool :=
  s.anvils[c].reads.any (fun e => match e.kind with
    | .preread _ => false
    | _ => s.rdsLeft c e)

end Sys2Proof.Machine
end

