-- ==== Sys2Proof/Machine/Refresh.lean ====
section
/-! DEFINITION. Refresh debt, MR4 polling, activate tallies, neighbour refresh and refresh management (06). -/

namespace Sys2Proof.Machine

/-- A command with no operands beyond its rank, bank and row. -/
def plainCmd (code : Code) (rank bank row : Nat) (src : CmdSrc) : Cmd :=
  { code := code, rank := rank, bank := bank, row := row, ap := false, bl16 := false, col := 0, ma := 0, op := 0,
    src := src, due := 0, bound := false, seen := false }

/-- Heat-7 work becomes waiting (05 R181); it is marked where a pause is granted then (07 R266). -/
def Anvil.push7 (v : Anvil) (l : Cmd) : Anvil := { v with heat7 := v.heat7 ++ [(l, !v.granted.isEmpty)] }

/-- The next command of heat-7 work in progress keeps the place of the one before it. -/
def Anvil.next7 (v : Anvil) (l : Cmd) : Anvil := { v with heat7 := (l, false) :: v.heat7 }

/-- ANV_STAT.KEPTOFF (09 R320). -/
def State.keptOff (s : State) (c : Nat) : Bool := s.flag (aSTAT c) 28

/-- The modes in which an anvil refreshes and polls (Table 6.1, R222). -/
def Mode.refreshes : Mode → Bool
  | .kindle | .assay | .forge | .lowfire => true
  | _ => false

/-- ANV_REFRESH.EN with a mode of Table 6.1, in a populated anvil. -/
def State.refreshing (s : State) (c : Chan) : Bool :=
  s.modes.mode.refreshes && s.flag (aREFRESH c.val) 31 && s.populated c.val && !s.keptOff c.val

/-- The refresh multiplier M (R217). -/
def Anvil.m (v : Anvil) : Nat := 2 ^ v.mult

/-- T/(8M) ns in 1/32 ns (R217). -/
def State.debtPeriod (s : State) (c : Chan) : Nat := 4 * s.fld (aREFRESH c.val) 11 0 / s.anvils[c].m

/-- The ranks behind a channel. -/
def State.ranksOf (s : State) (c : Chan) : List (Fin 2) := if s.twoRanks c.val then [0, 1] else [0]

/-- Change the refresh state of rank `k`. -/
def Anvil.onRank (v : Anvil) (k : Fin 2) (f : RankRefresh → RankRefresh) : Anvil := { v with ranks := upd v.ranks k f }

/-- Change the first entry of a list that `p` names. -/
def onFirst {α : Type} (p : α → Bool) (f : α → α) : List α → List α
  | [] => []
  | x :: l => if p x then f x :: l else x :: onFirst p f l

/-- The debt of each rank is 0 (R215). -/
def State.clearDebt (s : State) (c : Chan) : State :=
  let next := 32 * s.timebase + s.debtPeriod c
  s.onAnvil c (fun v => { v with ranks := v.ranks.map (fun r => { r with debt := 0, overdue := false, next := next }) })

/-- The populated ranks of a channel, none of an unpopulated one. -/
def State.liveRanks (s : State) (c : Chan) : List (Fin 2) := if s.populated c.val then s.ranksOf c else []

/-- A rank that becomes populated begins its debt at 0 and counts from then on (R217): those of `before` go on. -/
def State.clearNew (s : State) (c : Chan) (before : List (Fin 2)) : State :=
  let next := 32 * s.timebase + s.debtPeriod c
  ((s.liveRanks c).filter (fun k => !before.contains k)).foldl (fun s k =>
    s.onAnvil c (fun v => v.onRank k (fun r => { r with debt := 0, overdue := false, next := next }))) s

/-- The debt of each rank is 0 and a new round starts (R216). -/
def State.newRound (s : State) (c : Chan) : State :=
  (s.clearDebt c).onAnvil c (fun v => { v with ranks := v.ranks.map (fun r => { r with marks := 0 }) })

/-- A command of the anvil's own refresh or MR4 polling. -/
def Cmd.refreshWork (l : Cmd) : Bool := l.src == .refresh || l.src == .mr4

/-- The polls of MR4 in progress are given up: their results are no poll's any more (R227). -/
def Anvil.dropPolls (v : Anvil) : Anvil :=
  { v with slot := v.slot.filter (fun l => l.src != .mr4), heat7 := v.heat7.filter (fun e => e.1.src != .mr4),
           bursts := v.bursts.filter (fun b => b.cmd.src != .mr4), mr4Due := none }

/-- No refresh is issued and no debt is kept: what was released and has not issued is dropped (R212, R215). -/
def State.stopRefresh (s : State) (c : Chan) : State :=
  (s.clearDebt c).onAnvil c (fun v =>
    { v.dropPolls with slot := v.dropPolls.slot.filter (fun l => !l.refreshWork),
                       heat7 := v.dropPolls.heat7.filter (fun e => !e.1.refreshWork) })

/-- Polling begins: the first poll falls due at once (R222). -/
def State.startPoll (s : State) (c : Chan) : State := s.onAnvil c (fun v => { v with mr4Due := some s.timebase })

/-- M is 1, MR4 is 0 and the anvil is not critical until the first poll (R227); a change of them sets event 5 (R223). -/
def State.forgetMr4 (s : State) (c : Chan) : State :=
  let quiet := s.anvils[c].mult == 0 && s.fld (aRFSTAT c.val) 12 8 == 0
  let s := ((s.onAnvil c (fun v => { v.dropPolls with mult := 0, mr4Lower := [], thermReq := false })).setFld
    (aRFSTAT c.val) 12 8 0).thermalFloor
  if quiet then s else s.eventBoth c 5

/-- No queued entry targets banks b or b + 8 of the rank (R217, R237). -/
def State.idlePair (s : State) (c : Chan) (rank b : Nat) : Bool := !s.queued c rank b && !s.queued c rank (b + 8)

/-- ANV_REFRESH.URGENT. -/
def State.urgent (s : State) (c : Chan) : Nat := s.fld (aREFRESH c.val) 15 12

/-- The end of a round (R217). -/
def Anvil.endRound (v : Anvil) (k : Fin 2) : Anvil :=
  let r := v.ranks[k]
  let full := decide (r.rounds + 1 = 8192)
  { v.onRank k (fun r => { r with marks := 0, rounds := if full then 0 else r.rounds + 1 }) with
           tally := if full then v.tally.filter (fun e => e.1 / 16 != k.val) else v.tally }

/-- The pair that the release decision picks in service (R217). -/
def State.refreshPair (s : State) (c : Chan) (k : Fin 2) : Option Nat :=
  let v := s.anvils[c]
  let r := v.ranks[k]
  let pending := (List.range 8).filter (fun b => !bit r.marks.toNat b)
  let idle := pending.filter (s.idlePair c k.val)
  if (s.urgent c : Int) ≤ r.debt then pending.head?
  else if 1 ≤ r.debt ∨ (-8 < r.debt ∧ s.readsQueued c = false ∧ v.writes.isEmpty = true) then idle.head?
  else none

/-- The debt of a rank falls at a release; an overdue episode ends below URGENT (R221). -/
def RankRefresh.pay (r : RankRefresh) (n : Nat) (urgent : Nat) : RankRefresh :=
  let debt := r.debt - n
  { r with debt := debt, overdue := r.overdue && decide ((urgent : Int) ≤ debt) }

/-- The command slot has room. -/
def Anvil.room (v : Anvil) : Bool := decide (v.slot.length < 2)

/-- The release decision for one rank: at most one release (R217, R219). A rank in self-refresh gets no refresh, keeps no
debt and is not polled (DEDUCED, log entry 25); while the command stage is in reset, nothing is released (19 R581). -/
def State.releaseRefresh (s : State) (c : Chan) (k : Fin 2) : State :=
  let v := s.anvils[c]
  if !(s.refreshing c && v.room && v.granted.isEmpty && !v.selfRef[k] && v.fn.state == .on) then s
  else if s.inService then
    match s.refreshPair c k with
    | none => s
    | some b =>
      s.onAnvil c (fun v =>
        let r : RankRefresh := v.ranks[k].pay 1 (s.urgent c)
        let r := { r with marks := r.marks ||| BitVec.ofNat 8 (2 ^ b) }
        let v := v.onRank k (fun _ => r)
        let v := if r.marks == (0xFF : BitVec 8) then v.endRound k else v
        v.push7 (plainCmd .refpb k.val b 0 .refresh))
  else if 8 ≤ v.ranks[k].debt then
    s.onAnvil c (fun v =>
      ((v.onRank k (fun r => r.pay 8 (s.urgent c))).endRound k).push7
        (plainCmd .refab k.val 0 0 .refresh))
  else s

/-- The release decision for every rank of a channel. -/
def State.releaseAll (s : State) (c : Chan) : State := (s.ranksOf c).foldl (fun s k => s.releaseRefresh c k) s

/-- Debt as a fault detail shows it, saturated at 255 (R221). -/
def debtDetail (d : Int) : Nat := sat 255 d.toNat

/-- The debt of a rank rises by 1; at 64 the refresh is overdue (R217, R221). -/
def State.raiseDebt (s : State) (c : Chan) (k : Fin 2) : State :=
  let s := s.onAnvil c (fun v => v.onRank k (fun r => { r with debt := r.debt + 1, next := r.next + s.debtPeriod c }))
  let r := s.anvils[c].ranks[k]
  if 64 ≤ r.debt ∧ ¬ r.overdue then
    let s := s.onAnvil c (fun v => v.onRank k (fun r => { r with overdue := true }))
    ((s.setFlag (aRFSTAT c.val) 31 true).eventBoth c 12).send c.val 0x09 sevUncorrected 0
      (k.val * 2 ^ 4 + debtDetail r.debt * 2 ^ 8)
  else s

/-- REFRESH_DEBT_TICK (R217, R220, R221). -/
def execRefreshDebtTick (c : Chan) (rank : Fin 2) (now : Nat) (s : State) : Out :=
  .next (timed now
    (fun s => s.refreshing c && (s.ranksOf c).contains rank && !s.anvils[c].selfRef[rank] && decide (s.anvils[c].ranks[rank].next ≤ 32 * s.timebase))
    (fun s => (s.raiseDebt c rank).releaseRefresh c rank) s)

/-! ### MR4 (R222 to R227) -/

/-- MR4_POLL: an MRR of MR4 to each populated rank becomes waiting, for the next slot boundary (R222). -/
def execMr4Poll (c : Chan) (now : Nat) (s : State) : Out :=
  .next (timed now
    (fun s => s.refreshing c && s.anvils[c].fn.state == .on && (s.anvils[c].mr4Due).any (fun t => decide (t ≤ s.timebase)))
    (fun s => s.onAnvil c (fun v =>
      let v := ((s.ranksOf c).filter (fun k => !v.selfRef[k])).foldl (fun v k => v.push7 { plainCmd .mrr k.val 0 0 .mr4 with ma := 4, bound := true }) v
      { v with mr4Due := v.mr4Due.map (· + 16000) })) s)

/-- The state that a held value shows: 0 for M = 1, 1 for M = 2, 2 for critical (R224). -/
def State.mr4State (s : State) (c : Chan) (v : Nat) : Nat :=
  if s.fld (aREFRESH c.val) 25 21 ≤ v then 2 else if s.fld (aREFRESH c.val) 20 16 ≤ v then 1 else 0

/-- The multiplier state and the lower polls after a poll that shows `x` (R224). -/
def mr4Next (cur : Nat) (lower : List Nat) (x : Nat) : Nat × List Nat :=
  if cur < x then (x, [])
  else if cur = x then (cur, [])
  else if 3 ≤ lower.length then ((lower ++ [x]).foldl max 0, [])
  else (cur, lower ++ [x])

/-- The multiplier state changes: event 5, and the thermal request at an entry or end of critical (R223 to R225). -/
def State.setMult (s : State) (c : Chan) (old new v : Nat) : State :=
  if old = new then s
  else
    let s := (s.onAnvil c (fun a => { a with mult := new })).eventBoth c 5
    if new = 2 then
      ((s.send c.val 0x0A sevCorrected 0 v).onAnvil c (fun a => { a with thermReq := true })).thermalFloor
    else if old = 2 then (s.onAnvil c (fun a => { a with thermReq := false })).thermalFloor
    else s

/-- A poll has returned the value `v` (R223, R224). -/
def State.takeMr4 (s : State) (c : Chan) (v : Nat) : State :=
  let s := if s.fld (aRFSTAT c.val) 12 8 = v then s else (s.setFld (aRFSTAT c.val) 12 8 v).eventBoth c 5
  let a := s.anvils[c]
  let n := mr4Next a.mult a.mr4Lower (s.mr4State c v)
  (s.onAnvil c (fun a => { a with mr4Lower := n.2 })).setMult c a.mult n.1 v

/-- Every MRR of the poll has issued, and its results cross back. -/
def Anvil.mr4Back (v : Anvil) : Bool :=
  v.bursts.any (fun b => b.cmd.src == .mr4) && !v.slot.any (fun l => l.src == .mr4) &&
  !v.heat7.any (fun e => e.1.src == .mr4)

/-- The largest value over the dies of the populated ranks (R223). -/
def State.mr4Value (s : State) (c : Chan) (rank0 rank1 : List (BitVec 5)) : Nat :=
  ((rank0 ++ (if s.twoRanks c.val then rank1 else [])).map BitVec.toNat).foldl max 0

/-- MR4_RESULT (R222 to R225). -/
def execMr4Result (c : Chan) (rank0 rank1 : List (BitVec 5)) (s : State) : Out :=
  .next (occur (s.anvils[c].mr4Back) s
    ((s.onAnvil c (fun v => { v with bursts := v.bursts.filter (fun b => b.cmd.src != .mr4) })).takeMr4 c
      (s.mr4Value c rank0 rank1)))

/-! ### Tallies and neighbour refresh (R228 to R235) -/

/-- The table of a bank. -/
def Anvil.table (v : Anvil) (rank bank : Nat) : List (Nat × Nat) := (v.tally.lookup (16 * rank + bank)).getD []

/-- Write the table of a bank. -/
def Anvil.setTable (v : Anvil) (rank bank : Nat) (t : List (Nat × Nat)) : Anvil :=
  { v with tally := SMap.insert v.tally (16 * rank + bank) t }

/-- The index of the smallest count, the lowest among equals. -/
def smallest (t : List (Nat × Nat)) : Nat :=
  let m := (t.map Prod.snd).foldl min ((t.headD (0, 0)).2)
  (t.map Prod.snd).idxOf m

/-- The update of a table at an ACT of `row` (R228). -/
def tallyAct (t : List (Nat × Nat)) (row : Nat) : List (Nat × Nat) :=
  if t.any (fun e => e.1 == row) then t.map (fun e => if e.1 = row then (e.1, e.2 + 1) else e)
  else if t.length < 16 then t ++ [(row, 1)]
  else
    let i := smallest t
    t.set i (row, (t.getD i (0, 0)).2 + 1)

/-- ADJn (R234). -/
def State.adj (s : State) (n : Nat) : Nat := if s.flag aRFM 31 then 0 else s.fld (aADJ (n / 8)) (4 * (n % 8) + 3) (4 * (n % 8))

/-- The 16 values n xor ADJn of two registers are all distinct (R235). -/
def adjGood (a0 a1 : Word) : Bool :=
  let l := (List.range 16).map (fun n =>
    n ^^^ wbits (if n < 8 then a0 else a1) (4 * (n % 8) + 3) (4 * (n % 8)))
  l.dedup.length == 16

/-- The physical row of a logical row (R234). -/
def State.physRow (s : State) (r : Nat) : Nat := r / 16 * 16 + ((r % 16) ^^^ s.adj (r % 16))

/-- The logical row of a physical row, within the same group of 16 (R234). -/
def State.logicalRow (s : State) (p : Nat) : Nat :=
  p / 16 * 16 + ((List.range 16).find? (fun n => n ^^^ s.adj n == p % 16)).getD (p % 16)

/-- The victims of an aggressor row: physical distance 1, and 2 with WIDE; skipped outside the bank (R230). -/
def State.victims (s : State) (c : Chan) (row : Nat) : List Nat :=
  let p := s.physRow row
  let far := if s.flag (aHAMMER c.val) 12 then [(2 : Nat)] else []
  ((1 :: far).flatMap (fun d => (if d ≤ p then [p - d] else []) ++ [p + d])).filter
    (fun x => decide (x < s.bankRows c.val)) |>.map s.logicalRow

/-- A neighbour refresh of an aggressor is released (R230, R231). -/
def State.pushNeighbour (s : State) (c : Chan) (q : Place) : State :=
  match s.victims c q.row with
  | [] => s
  | x :: rest =>
    s.onAnvil c (fun v =>
      ({ v with neighbour := v.neighbour ++ [(q, x :: rest, false)] }).push7
        (plainCmd .act q.rank q.bank x (.neighbour q)))

/-- ANV_HAMMER.THRESH. -/
def State.thresh (s : State) (c : Chan) : Nat := s.fld (aHAMMER c.val) 11 0

/-- A counted ACT: the tally, and the neighbour refresh at THRESH (R228, R230). -/
def State.tallyRow (s : State) (c : Chan) (q : Place) : State :=
  let t := tallyAct (s.anvils[c].table q.rank q.bank) q.row
  if t.any (fun e => e.1 == q.row && decide (s.thresh c ≤ e.2)) then
    (s.onAnvil c (fun v => v.setTable q.rank q.bank
      (t.map (fun e => if e.1 = q.row then (e.1, 0) else e)))).pushNeighbour c q
  else s.onAnvil c (fun v => v.setTable q.rank q.bank t)

/-- A slot of BUDGET is used; beyond it HOVER counts (R240). Answers whether the use is beyond BUDGET. With no active
table there is no slot-table period and no use is beyond (DEDUCED, log entry 18). -/
def State.useBudget (s : State) (c : Chan) : State × Bool :=
  let beyond := decide (0 < s.fld (aSLOT c.val) 21 11) && decide (s.fld (aHAMMER c.val) 20 16 ≤ s.anvils[c].hammer)
  let s := s.onAnvil c (fun v => { v with hammer := v.hammer + 1 })
  (if beyond then s.count (aRFSTAT c.val) 23 16 else s, beyond)

/-- The ACT of a neighbour refresh has issued: its PRE follows (R230, R240). -/
def State.neighbourAct (s : State) (c : Chan) (q : Place) : State :=
  let b := s.useBudget c
  b.1.onAnvil c (fun v =>
    ({ v with neighbour := onFirst (fun e => e.1 == q) (fun e => (e.1, e.2.1, e.2.2 || b.2)) v.neighbour }).next7
      (plainCmd .pre q.rank q.bank 0 (.neighbour q)))

/-- Four neighbour refreshes are pending (R231). -/
def Anvil.hammerFull (v : Anvil) : Bool := decide (4 ≤ v.neighbour.length)

/-- The neighbour refreshes of a sweep are released in turn, as far as fewer than four are pending (R231, R232). -/
def State.sweepOn (s : State) (c : Chan) : List Place → State
  | [] => s.onAnvil c (fun v => { v with sweep := [] })
  | q :: l =>
    if s.anvils[c].hammerFull then s.onAnvil c (fun v => { v with sweep := q :: l })
    else State.sweepOn (s.pushNeighbour c q) c l

/-- A command of the slot was barred by something other than the rules of Table 5.5: its first edge is open again
(05 R182). -/
def Anvil.unsee (v : Anvil) : Anvil := { v with slot := v.slot.map (fun l => { l with seen := false }) }

/-- Fault 0x06 of a completed neighbour refresh (R233); the next one of a sweep takes its place. -/
def State.neighbourDone (s : State) (c : Chan) (q : Place) (beyond : Bool) : State :=
  let la := s.rowIndex c.val q * s.rowSectors * 64
  let s := (s.onAnvil c (fun v => { v.unsee with neighbour := v.neighbour.eraseP (fun e => e.1 == q) })).send c.val 0x06
    sevInfo (s.sysAddr c.val la)
    (q.rank * 2 ^ 4 + q.bank * 2 ^ 5 + b2n (s.flag (aHAMMER c.val) 12) * 2 ^ 9 + b2n beyond * 2 ^ 10)
  s.sweepOn c s.anvils[c].sweep

/-- The PRE of a neighbour refresh has issued: the next victim, or the end (R230, R233). -/
def State.neighbourPre (s : State) (c : Chan) (q : Place) : State :=
  match s.anvils[c].neighbour.find? (fun e => e.1 == q) with
  | none => s
  | some (_, victims, beyond) =>
    match victims.tail with
    | [] => s.neighbourDone c q beyond
    | x :: rest =>
      s.onAnvil c (fun v =>
        ({ v with neighbour := onFirst (fun e => e.1 == q) (fun e => (e.1, x :: rest, e.2.2)) v.neighbour }).next7
          (plainCmd .act q.rank q.bank x (.neighbour q)))

/-- Before SRE at entry to BANKED and QUENCH: a neighbour refresh for every entry at THRESH / 2 or more, and the
tables are cleared (R232). -/
def State.hammerSweep (s : State) (c : Chan) : State :=
  let hot := s.anvils[c].tally.flatMap (fun e =>
    (e.2.filter (fun x => decide (s.thresh c ≤ 2 * x.2 ∧ 0 < x.2))).map (fun x =>
      ({ rank := e.1 / 16, bank := e.1 % 16, row := x.1 } : Place)))
  (s.onAnvil c (fun v => { v with tally := [] })).sweepOn c (s.anvils[c].sweep ++ hot)

/-- A neighbour refresh is pending or waits for its place. -/
def Anvil.hammering (v : Anvil) : Bool := !v.neighbour.isEmpty || !v.sweep.isEmpty

/-- Self-refresh for every populated rank that is not in it, rows closed first. -/
def State.pushSre (s : State) (c : Chan) (src : CmdSrc) : State :=
  (s.ranksOf c).foldl (fun s k =>
    if s.anvils[c].selfRef[k] then s
    else s.onAnvil c (fun v => v.push7 (plainCmd .sre k.val 0 0 src))) s

/-- Rows of a channel are closed by PREA. -/
def State.pushPrea (s : State) (c : Chan) : State :=
  (s.ranksOf c).foldl (fun s k => s.onAnvil c (fun v => v.push7 (plainCmd .prea k.val 0 0 .close))) s

/-! ### Refresh management (R236 to R238) -/

/-- RAA of a bank. -/
def Anvil.raaOf (v : Anvil) (rank bank : Nat) : Nat := v.raa.toList.getD (16 * rank + bank) 0

/-- Change the RAA of every bank that `f` covers. -/
def Anvil.mapRaa (v : Anvil) (f : Nat → Nat → Nat) : Anvil := { v with raa := v.raa.mapIdx f }

/-- An ACT counts (R236). -/
def State.raaAct (s : State) (c : Chan) (rank bank : Nat) : State :=
  if s.flag aRFM 30 then s.onAnvil c (fun v => v.mapRaa (fun i n => if i = 16 * rank + bank then n + 1 else n)) else s

/-- REFpb, REFab and RFM subtract, with a floor of 0 (R236). -/
def State.raaRefresh (s : State) (c : Chan) (covered : Nat → Nat → Bool) (n : Nat) : State :=
  if s.flag aRFM 30 then
    s.onAnvil c (fun v => v.mapRaa (fun i x => if covered (i / 16) (i % 16) then x - n else x))
  else s

/-- RAAIMT. -/
def State.raaimt (s : State) : Nat := s.fld aRFM 7 0

/-- RAAMMT. -/
def State.raammt (s : State) : Nat := s.fld aRFM 17 8

/-- RFMDEC. -/
def State.rfmdec (s : State) : Nat := s.fld aRFM 25 18

/-- An RFM of the pair waits or stands in the slot. -/
def Anvil.rfmWaits (v : Anvil) (rank b : Nat) : Bool :=
  let here := fun (l : Cmd) => l.code == .rfm && l.src == .rfm && l.rank == rank && l.bank == b
  v.slot.any here || v.heat7.any (fun e => here e.1)

/-- The RFM of the pair of a bank goes ahead of every other heat-7 work, because an ACT of that work waits for it
(R237). -/
def State.rfmFirst (s : State) (c : Chan) (rank bank : Nat) : State :=
  let l := plainCmd .rfm rank (bank % 8) 0 .rfm
  if s.anvils[c].slot.any (fun x => x.code == .rfm && x.src == .rfm && x.rank == rank && x.bank == bank % 8) then s
  else s.onAnvil c (fun v =>
    { v with heat7 := (l, false) :: v.heat7.filter (fun e =>
        !(e.1.code == .rfm && e.1.src == .rfm && e.1.rank == rank && e.1.bank == bank % 8)) })

/-- An RFM of the pair of a bank is released, where none waits (R237). -/
def State.pushRfm (s : State) (c : Chan) (rank bank : Nat) : State :=
  if s.anvils[c].rfmWaits rank (bank % 8) then s
  else s.onAnvil c (fun v => v.push7 (plainCmd .rfm rank (bank % 8) 0 .rfm))

/-- RFMs that are due and whose pair no queued entry targets (R237). -/
def State.releaseRfm (s : State) (c : Chan) : State :=
  if !s.flag aRFM 30 then s
  else
    ((s.ranksOf c).flatMap (fun k => (List.range 8).map (fun b => (k.val, b)))).foldl (fun s e =>
      let v := s.anvils[c]
      if (decide (s.raaimt ≤ v.raaOf e.1 e.2) || decide (s.raaimt ≤ v.raaOf e.1 (e.2 + 8))) && s.idlePair c e.1 e.2 then
        s.pushRfm c e.1 e.2
      else s) s

/-- An ACT to the bank would raise its RAA above RAAMMT (R237). -/
def State.raaBlocks (s : State) (c : Chan) (rank bank : Nat) : Bool :=
  s.flag aRFM 30 && decide (s.raammt < s.anvils[c].raaOf rank bank + 1)

/-- ANV_RFSTAT as it reads (Table 6.4). -/
def State.rfstat (s : State) (c : Chan) : Word :=
  let v := s.anvils[c]
  let d := if s.twoRanks c.val then max v.ranks[0].debt v.ranks[1].debt else v.ranks[0].debt
  let w := putBits (s.rd (aRFSTAT c.val)) 30 30 (b2n (v.mult == 2))
  let w := putBits w 29 28 v.mult
  putBits w 7 0 (BitVec.ofInt 8 (min d 127)).toNat

end Sys2Proof.Machine
end

