-- ==== Sys2Proof/Machine/AnvilData.lean ====
section
/-! DEFINITION. The data path of an anvil: DRAM cells, encryption, and decoding of what a row visit has read
(09, 14 R471 to R473). -/

namespace Sys2Proof.Machine

/-! ### DRAM cells -/

/-- Key of a sector position in the DRAM of a channel. -/
def cellKey (q : Place) (pos : Nat) : Nat := ((16 * q.rank + q.bank) * 2 ^ 18 + q.row) * 32 + pos

/-- A row lies in rows of its rank lost in self-refresh. -/
def inSegment (q : Place) (e : Nat × Nat × Nat) : Bool := e.1 == q.rank && decide (e.2.1 ≤ q.row ∧ q.row < e.2.2)

/-- Times that the contents of a row became undefined: with its rank, or with its segment. -/
def Anvil.lostOf (v : Anvil) (q : Place) : Nat := v.lost.toList.getD q.rank 0 + (v.segLost.filter (inSegment q)).length

/-- What the DRAM holds at a position of a row (log entry 3). -/
def Anvil.cell (v : Anvil) (c : Chan) (q : Place) (pos : Nat) : Sector :=
  SMap.get (Config.dramPowerUp (c.val + 24 * v.lostOf q)) v.dram (cellKey q pos)

/-- The contents of a rank become undefined (02 R585). -/
def Anvil.lose (v : Anvil) (rank : Nat) : Anvil :=
  { v with lost := v.lost.mapIdx (fun i n => if i = rank then n + 1 else n)
           dram := v.dram.filter (fun e => e.1 / 2 ^ 27 != rank) }

/-- The rank and the row of a cell's key. -/
def keyRow (k : Nat) : Nat × Nat := (k / 2 ^ 27, k / 32 % 2 ^ 18)

/-- Rows of a rank from `lo` up to `hi`, excluded, are not retained (07 R270). -/
def Anvil.loseRows (v : Anvil) (rank lo hi : Nat) : Anvil :=
  { v with segLost := (rank, lo, hi) :: v.segLost
           dram := v.dram.filter (fun e => !((keyRow e.1).1 == rank && decide (lo ≤ (keyRow e.1).2 ∧ (keyRow e.1).2 < hi))) }

/-- A burst writes a position of a row. -/
def Anvil.putCell (v : Anvil) (q : Place) (pos : Nat) (d : Sector) : Anvil :=
  { v with dram := SMap.insert v.dram (cellKey q pos) d }

/-! ### Mode registers and data bus inversion (02 R84, 07 R253, R256) -/

/-- A mode register of a rank: the operand of its last MRW, or its value from the DRAM's power-up. -/
def Anvil.mr (v : Anvil) (rank ma : Nat) : Byte := (v.mrs.lookup (rank, ma)).getD (Config.mrDefault ma)

/-- An MRW to a rank. -/
def Anvil.setMr (v : Anvil) (rank ma : Nat) (op : Byte) : Anvil :=
  { v with mrs := ((rank, ma), op) :: v.mrs.filter (fun e => e.1 != (rank, ma)) }

/-- Read DBI is enabled in the DRAM of a rank. -/
def Anvil.dbiRd (v : Anvil) (rank : Nat) : Bool := bit (v.mr rank Config.mrDbi).toNat 6

/-- Write DBI is enabled in the DRAM of a rank. -/
def Anvil.dbiWr (v : Anvil) (rank : Nat) : Bool := bit (v.mr rank Config.mrDbi).toNat 7

/-- The bytes of a burst that hold more than four ones (07 R256); bit `i` of DMI stands for byte `i` (DEDUCED, log entry 85). -/
def dbiBytes (d : Sector) : BitVec 64 :=
  BitVec.ofNat 64 (((List.range 64).filter (fun i => decide (4 < ((List.range 8).filter (fun k => bit d.toNat (8 * i + k))).length))).map
    (2 ^ ·)).sum

/-- The bytes of a burst that a DMI pattern names, all ones. -/
def byteMask (m : BitVec 64) : Sector :=
  BitVec.ofNat 512 (((List.range 64).filter (bit m.toNat)).map (fun i => 255 * 2 ^ (8 * i))).sum

/-- What the DRAM stores of a burst on DQ with these DMI levels. -/
def Anvil.dramIn (v : Anvil) (rank : Nat) (d : Sector) (dmi : BitVec 64) : Sector :=
  if v.dbiWr rank then d ^^^ byteMask dmi else d

/-- What the DRAM drives for stored data: DQ, and DMI where read DBI is enabled. -/
def Anvil.dramOut (v : Anvil) (rank : Nat) (d : Sector) : Sector × Option (BitVec 64) :=
  if v.dbiRd rank then (d ^^^ byteMask (dbiBytes d), some (dbiBytes d)) else (d, none)

/-- What a client burst leaves in the DRAM, through the DBI of the PHY and of the rank. -/
def Anvil.toDram (v : Anvil) (rank : Nat) (d : Sector) : Sector :=
  if v.phyDbi then v.dramIn rank (d ^^^ byteMask (dbiBytes d)) (dbiBytes d) else v.dramIn rank d 0

/-- What a client burst brings from the DRAM; DMI that the rank does not drive is free. -/
def Anvil.fromDram (v : Anvil) (c : Chan) (rank : Nat) (d : Sector) : Sector :=
  let x := v.dramOut rank d
  if v.phyDbi then x.1 ^^^ byteMask (x.2.getD (Config.freeDmi (24 * v.free + c.val))) else x.1

/-- System address of data sector `n` of a row (04 R169). -/
def State.secAddr (s : State) (c : Chan) (q : Place) (n : Nat) : Nat := s.sysAddr c.val (s.secLa c q n)

/-- Place and sector-in-row of a channel-local address (04 R153, R156). -/
def State.secPlace (s : State) (c : Chan) (la : Nat) : Place × Nat :=
  (s.place c.val (la / 64 / s.rowSectors), la / 64 % s.rowSectors)

/-- The check sector that a write merges into: the held one, or what the DRAM holds. -/
def Anvil.checkNow (v : Anvil) (c : Chan) (q : Place) (pos : Nat) : Sector := (v.held q pos).getD (v.cell c q pos)

/-! ### Encryption (14 R471 to R473) -/

/-- The stored bytes of plaintext at a channel-local address. -/
def State.encrypt (s : State) (c : Chan) (la : Nat) (d : Sector) : Sector :=
  match s.engineKeys (s.sysAddr c.val la) with
  | some k => xtsEncrypt k (xtsTweak (la / 64) c.val s.gid) d
  | none => d

/-- The plaintext of stored bytes at a channel-local address. -/
def State.decrypt (s : State) (c : Chan) (la : Nat) (d : Sector) : Sector :=
  match s.engineKeys (s.sysAddr c.val la) with
  | some k => xtsDecrypt k (xtsTweak (la / 64) c.val s.gid) d
  | none => d

/-! ### Decoding -/

/-- What the decoder finds in a sector (Tables 9.2 and 9.3). -/
inductive Found where
  | good | fixed | poisoned | uncorrectable | address | seal | crc
deriving DecidableEq, Repr

/-- A correction: half, PART, POS and VAL of Table 9.6. -/
structure Fix where
  half : Nat
  part : Nat
  pos  : Nat
  val  : Nat
deriving DecidableEq, Repr

/-- A decoded sector: stored bytes with every correction applied, and the finding. -/
structure Decoded where
  data  : Sector
  found : Found
  fixes : List Fix
  at_   : Fix                    -- where an uncorrectable or address finding lies
deriving DecidableEq, Repr

/-- No place. -/
def Fix.zero : Fix := { half := 0, part := 0, pos := 0, val := 0 }

/-- The sector is poisoned, uncorrectable or in address fault: a partial write keeps it poisoned (R197). -/
def Found.bad : Found → Bool
  | .good | .fixed => false
  | _ => true

/-- A read of a row: what it has read of each position. -/
abbrev RowData := List (Nat × Sector)

/-- The sector read at a position. -/
def RowData.sec (r : RowData) (pos : Nat) : Sector := (r.lookup pos).getD 0

/-- The half of an address-bound sector as a fix. -/
def halfFix (h : Nat) : HalfRes → Option Fix
  | .fixed _ j e => some { half := h, part := if j ≤ 3 then 1 else 0, pos := j, val := e }
  | _ => none

/-- The poison flag that a half shows. -/
def halfFlag : HalfRes → Bool
  | .good f => f
  | .fixed f _ _ => f
  | .address f _ _ => f
  | .bad => false

/-- An address finding of a half. -/
def halfAddress (h : Nat) : HalfRes → Option Fix
  | .address _ j e => some { half := h, part := 0, pos := j, val := e }
  | _ => none

/-- The two halves of data sector `n` of a row under the address-bound code. -/
def State.halves (s : State) (c : Chan) (q : Place) (r : RowData) (n : Nat) : HalfRes × HalfRes :=
  let la := s.secLa c q n
  let chk := r.sec (abCheckAt n).1
  (abHalf (r.sec n) chk n la c.val s.gid 0, abHalf (r.sec n) chk n la c.val s.gid 1)

/-- Some half is uncorrectable: the poison bitmap is needed (R296). -/
def State.needsBitmap (s : State) (c : Chan) (q : Place) (r : RowData) (n : Nat) : Bool :=
  let h := s.halves c q r n
  !s.swath && (h.1 == .bad || h.2 == .bad) && (halfAddress 0 h.1).isNone && (halfAddress 1 h.2).isNone &&
  (r.lookup 31).isNone

/-- Table 9.2 for data sector `n`. -/
def State.abSector (s : State) (c : Chan) (q : Place) (r : RowData) (n : Nat) : Decoded :=
  let h := s.halves c q r n
  let d := abFix (abFix (r.sec n) 0 h.1) 1 h.2
  let fixes := (halfFix 0 h.1).toList ++ (halfFix 1 h.2).toList
  let bad (k : Nat) : Fix := { Fix.zero with half := k }
  match (halfAddress 0 h.1).orElse (fun _ => halfAddress 1 h.2) with
  | some a => { data := d, found := .address, fixes := fixes, at_ := a }
  | none =>
    if h.1 = .bad ∨ h.2 = .bad then
      { data := d, found := if bit (abBitmap (r.sec 31)) n then .poisoned else .uncorrectable, fixes := fixes,
        at_ := bad (if h.1 = .bad then 0 else 1) }
    else if halfFlag h.1 || halfFlag h.2 then { data := d, found := .poisoned, fixes := fixes, at_ := Fix.zero }
    else { data := d, found := if fixes.isEmpty then .good else .fixed, fixes := fixes, at_ := Fix.zero }

/-- The swath of sector `n` has been read whole. -/
def swathRead (r : RowData) (n : Nat) : Bool := (swathPositions n).all (fun i => (r.lookup i).isSome)

/-- A word parity of sector `n` mismatches and the row's seal and bitmap are good: a locate read is needed (R306). -/
def State.needsLocate (s : State) (c : Chan) (q : Place) (r : RowData) (n : Nat) : Bool :=
  s.swath && swSealGood (r.sec 31) q c.val s.gid && swCrcGood (r.sec 31) && !swathRead r n &&
  !(swMismatch (r.sec n) (r.sec 31) n).isEmpty

/-- The finding of a swath that has been read whole as it applies to its sector `n` (Table 9.3): the sector's data,
and whether the swath is corrected or must be poisoned. -/
def swSectorFix (r : RowData) (n : Nat) : Sector × Found × List Fix :=
  match swClassify r.sec n with
  | .clean => (r.sec n, .good, [])
  | .parityBit w => (r.sec n, .fixed, [{ half := 0, part := 1, pos := w, val := 0 }])
  | .dataBit w t =>
    let f := (swathOf n).1
    (if w / 8 + f = n then flipBit (r.sec n) (w % 8) t else r.sec n, .fixed, [{ half := 0, part := 0, pos := w, val := t }])
  | .bad => (r.sec n, .uncorrectable, [])

/-- R306, R307 and Table 9.3 for data sector `n`. A sector whose bitmap bit is set is poisoned; after a seal failure
every sector read in the row visit is in address fault. -/
def State.swSector (s : State) (c : Chan) (q : Place) (r : RowData) (n : Nat) : Decoded :=
  let s31 := r.sec 31
  if (s.anvils[c]).sealBad.contains q || !swSealGood s31 q c.val s.gid then { data := r.sec n, found := .seal, fixes := [], at_ := { Fix.zero with part := 3 } }
  else if !swCrcGood s31 then { data := r.sec n, found := .crc, fixes := [], at_ := { Fix.zero with part := 2 } }
  else
    let marked := bit (swBitmap s31) n
    let x := if swathRead r n then swSectorFix r n else (r.sec n, .good, [])
    let found := if x.2.1 = .uncorrectable ∧ (swathPositions n).all (bit (swBitmap s31)) = true then .poisoned
      else if marked ∧ x.2.1 ≠ .uncorrectable then .poisoned else x.2.1
    { data := x.1, found := found, fixes := x.2.2, at_ := Fix.zero }

/-- The decoding of data sector `n` of a row visit. -/
def State.decode (s : State) (c : Chan) (q : Place) (r : RowData) (n : Nat) : Decoded :=
  if s.swath then s.swSector c q r n else s.abSector c q r n

/-- The status of a decoded sector (Table 9.2, R306, R307). -/
def Found.status : Found → Status
  | .good => .ok
  | .fixed => .okCorrected
  | .poisoned | .uncorrectable | .crc => .poison
  | .address | .seal => .addressFault

/-- What a read of data sector `n` delivers: zeros from an unwritten plot (R316), else the decrypted decoding. -/
def State.secResult (s : State) (c : Chan) (q : Place) (n : Nat) (d : Decoded) : SecRes :=
  if !s.secWritten c q n then { status := .ok, data := 0, poisoned := false }
  else
    let st := d.found.status
    { status := st, data := if st = .addressFault then 0 else s.decrypt c (s.secLa c q n) d.data,
      poisoned := st == .poison || st == .addressFault }

/-! ### Reports (R330, R331) -/

/-- The detail of a check-code message (Table 9.6). -/
def State.eccDetail (s : State) (finder rank : Nat) (f : Fix) : Nat :=
  finder + b2n s.swath * 2 ^ 2 + rank * 2 ^ 3 + f.part * 2 ^ 4 + f.half * 2 ^ 6 + f.pos * 2 ^ 7 + f.val * 2 ^ 14

/-- A correction: ECC_CNT.CORR, and fault 0x01 unless one was sent in the last 1,024 ns (R331). -/
def State.corrected (s : State) (c : Chan) (finder : Nat) (q : Place) (addr : Nat) (f : Fix) : State :=
  let s := s.count (aECC_CNT c.val) 15 0
  if (s.anvils[c]).last01.any (fun t => decide (s.timebase < t + 1024)) then s
  else (s.onAnvil c (fun v => { v with last01 := some s.timebase })).send c.val 0x01 sevCorrected addr
    (s.eccDetail finder q.rank f)

/-- A sector found uncorrectable or in address fault is counted (Table 9.8). -/
def State.countBad (s : State) (c : Chan) : State := s.count (aECC_CNT c.val) 31 16

/-- A message of kind 0x02, 0x03 or 0x04. -/
def State.eccFault (s : State) (c : Chan) (kind sev finder : Nat) (q : Place) (addr : Nat) (f : Fix) : State :=
  s.send c.val kind sev addr (s.eccDetail finder q.rank f)

/-! ### Encoding -/

/-- Check sector `pos` of a row after the check bytes of data sector `n` are encoded over stored bytes `d` with poison
flag `p` (R293, R298). Sector 31 also takes the sector's bitmap bit. -/
def State.abMerge (s : State) (c : Chan) (q : Place) (pos : Nat) (old : Sector) (n : Nat) (d : Sector) (p : Bool) : Sector :=
  let at_ := abCheckAt n
  let x := if at_.1 = pos then secPut old at_.2 (abChecks d (s.secLa c q n) c.val s.gid p) else old
  if pos = 31 then abPutBitmap x (putBit (abBitmap x) n p) else x

/-- Sector 31 of a row under the swath code after data sector `n` holds `d` with poison mark `p`; the XOR of its
swath's words changes by `delta` (R309). -/
def State.swMerge (s : State) (c : Chan) (q : Place) (old : Sector) (n : Nat) (d : Sector) (p : Bool) (delta : Nat) :
    Sector :=
  let col := columnAt n
  let x := secPut old n [wordParities d]
  let x := secPut x col (toBytes 8 (ofBytes (secBytes x col 8) ^^^ delta))
  swSeal x (putBit (swBitmap x) n p) q c.val s.gid

/-- The XOR of the words of a swath as the DRAM holds it. -/
def Anvil.swathXor (v : Anvil) (c : Chan) (q : Place) (n : Nat) : Nat :=
  (swathPositions n).foldl (fun acc i => acc ^^^ xorWords (v.cell c q i)) 0

/-- Changes of a swath's words that stand in the DRAM and that the check bursts of their writes have still to merge (R302, R309). -/
def Anvil.pendingXor (v : Anvil) (q : Place) (f : Nat) : Nat :=
  (v.writes.filter (fun w => w.place == q)).foldl (fun acc w =>
    (w.deltas.filter (fun e => (swathOf e.1).1 == f && !w.todo.contains e.1)).foldl (fun acc e => acc ^^^ e.2) acc) 0

/-- The word parities and column parities of the swaths of `ns`, from the stored words (R311). What a write in progress has changed and
will itself merge at its check burst is not counted here too (R302). -/
def State.recodeSwaths (s : State) (c : Chan) (q : Place) (old : Sector) (ns : List Nat) : Sector :=
  let v := s.anvils[c]
  ((ns.map (fun n => (swathOf n).1)).dedup).foldl (fun x f =>
    let x := (swathPositions f).foldl (fun x i => secPut x i [wordParities (v.cell c q i)]) x
    secPut x (columnAt f) (toBytes 8 (v.swathXor c q f ^^^ v.pendingXor q f))) old

/-- The bits of `ns` join the poison bitmap of the swath code (R311). -/
def State.markMore (s : State) (c : Chan) (q : Place) (x : Sector) (ns : List Nat) : Sector :=
  swSeal x (ns.foldl (fun m n => putBit m n true) (swBitmap x)) q c.val s.gid

/-- Check sector `pos` re-encoded over the stored bytes with the marks of `ns` set, and the swaths of `recode` (R311). -/
def State.poisonCheck (s : State) (c : Chan) (q : Place) (pos : Nat) (old : Sector) (recode ns : List Nat) : Sector :=
  if s.swath then s.markMore c q (s.recodeSwaths c q old recode) ns
  else ns.foldl (fun x n => s.abMerge c q pos x n ((s.anvils[c]).cell c q n) true) old

end Sys2Proof.Machine
end

