-- ==== Sys2Proof/Machine/AnvilQueue.lean ====
section
/-! DEFINITION. The read and write entries of an anvil: arrival, hazards, pre-reads, plot fills and what a completed
read does (05 R173 to R200, 09 R296 to R317). -/

namespace Sys2Proof.Machine

/-! ### Hazards (05 R192 to R194) -/

/-- A read covers data sector `n` of its row: the sectors it asks for, and the swath of a locate read (09 R307). -/
def ReadEnt.covers (e : ReadEnt) (n : Nat) : Bool :=
  e.secs.contains n || (e.locate && e.secs.any (fun x => swathOf x == swathOf n))

/-- A write covers data sector `n` of its row. -/
def WriteEnt.covers (w : WriteEnt) (n : Nat) : Bool := w.secs.any (fun x => x.pos == n)

/-- First and last row index that a plot touches. -/
def State.plotRows (s : State) (plot : Nat) : Nat × Nat :=
  (plot * 1024 / s.rowSectors, (plot * 1024 + 1023) / s.rowSectors)

/-- Data sector `n` of a row counts as a sector of a plot fill (R200, 09 R317). -/
def State.fillCovers (s : State) (c : Chan) (f : PlotFill) (q : Place) (n : Nat) : Bool :=
  let ri := s.rowIndex c.val q
  let r := s.plotRows f.plot
  s.secPlot c q n == f.plot || (decide (r.1 ≤ ri ∧ ri ≤ r.2) && !s.secWritten c q n)

/-- Queued writes and plot fills that share a sector (R192, R200), except those of `but`. -/
def State.earlierWrites (s : State) (c : Chan) (q : Place) (ns : List Nat) (but : Nat → Bool) : List Nat :=
  let v := s.anvils[c]
  (v.writes.filter (fun w => !w.fill && w.place == q && !but w.seq && ns.any w.covers)).map WriteEnt.seq ++
  (v.feed.filter (fun x => x.place == q && !but x.seq && x.secs.any (fun y => ns.contains y.pos))).map FeedWrite.seq ++
  (v.fills.filter (fun f => !but f.seq && ns.any (s.fillCovers c f q))).map PlotFill.seq

/-- Reads with RDs still to issue that share a sector, except those of `but`. -/
def State.earlierReads (s : State) (c : Chan) (q : Place) (ns : List Nat) (but : ReadEnt → Bool) : List Nat :=
  (s.anvils[c].reads.filter (fun e => e.place == q && !but e && ns.any e.covers && s.rdsLeft c e)).map ReadEnt.seq

/-- An earlier write that a write waits for has not reached the DRAM (R192). -/
def State.writesAhead (s : State) (c : Chan) (w : WriteEnt) : Bool := w.waitsW.any s.anvils[c].writeLive

/-- A write blocked by a hazard (R192), by its pre-read (R195), or by the row visit that failed its seal (09 R306). -/
def State.writeHeld (s : State) (c : Chan) (w : WriteEnt) : Bool :=
  let v := s.anvils[c]
  !w.ready || s.writesAhead c w || v.sealBad.contains w.place ||
  w.waitsR.any (fun r => v.reads.any (fun e => e.seq == r && s.rdsLeft c e))

/-! ### Entries -/

/-- The age stamp of an arrival (R177). -/
def State.stamp (s : State) : Nat := s.timebase / 64

/-- Lines whose sectors an anvil directs its slice to drop (10 R367). -/
def State.dropLines (s : State) (c : Chan) (q : Place) (ns : List Nat) : State :=
  let lines := (ns.map (fun n => s.secLa c q n / 128)).dedup
  s.onSlice c (fun l => { l with drops := l.drops ++ lines.filter (fun x => !l.drops.contains x) })

/-- A read entry leaves the queue. -/
def State.dropRead (s : State) (c : Chan) (seq : Nat) : State :=
  s.onAnvil c (fun v => { v with reads := v.reads.filter (fun e => e.seq != seq) })

/-- A read entry enters the queue. -/
def State.addRead (s : State) (c : Chan) (kind : ReadKind) (q : Place) (secs todo : List Nat) (heat : Nat)
    (port : Option Nat) (waits waitsM : List Nat) : State :=
  s.onAnvil c (fun v =>
    { v with seq := v.seq + 1, reads := v.reads ++
        [{ seq := v.seq, stamp := s.stamp, kind := kind, place := q, secs := secs, todo := todo, flying := [],
           got := [], heat := heat, port := port, waits := waits, waitsM := waitsM, locate := false }] })

/-- A write to a row arrives: a scrub of the row that has not ended discards its findings (09 R323). -/
def State.touchRow (s : State) (c : Chan) (q : Place) : State :=
  let ri := s.rowIndex c.val q
  s.onAnvil c (fun v =>
    { v with
      visit := v.visit.map (fun x => if x.row = ri then { x with dirty := true } else x)
      reads := v.reads.map (fun e =>
        match e.kind with
        | .patrol again _ => if e.place = q then { e with kind := .patrol again true } else e
        | _ => e) })

/-- A write entry that needs no data pre-read enters the queue: a mend, poison or bitmap write (09 R311, R323, R306). -/
def State.addReady (s : State) (c : Chan) (kind : WriteKind) (q : Place) (secs : List WSec)
    (enc : List (Nat × Sector × Bool)) (todo : List Nat) (heat : Nat) (port : Option Nat) (marks recode : List Nat := []) : State :=
  let ns := secs.map WSec.pos
  let waitsW := s.earlierWrites c q ns (fun _ => false)
  let waitsR := s.earlierReads c q ns (fun _ => false)
  (s.touchRow c q).onAnvil c (fun v =>
    { v with seq := v.seq + 1, writes := v.writes ++
        [{ seq := v.seq, stamp := s.stamp, kind := kind, place := q, secs := secs, heat := heat, port := port,
           ready := true, todo := todo, enc := enc, deltas := [], waitsR := waitsR, waitsW := waitsW, group := none,
           marks := marks, recode := recode, fill := false }] })

/-- A sector that a plot fill or a buffer release writes: zeros with P = 0 (R199, 14 R484). -/
def zeroSec (n : Nat) : WSec := { pos := n, data := 0, mask := BitVec.allOnes 64, pset := false, pclr := true }

/-- A sector of a write entry that carries no data of its own. -/
def bareSec (n : Nat) : WSec := { pos := n, data := 0, mask := 0, pset := false, pclr := false }

/-- Sectors are poisoned: the check sector is rewritten by a write entry that covers them, with the swaths of `recode`, and the slice
drops their lines (09 R311, 10 R367). -/
def State.poisonSecs (s : State) (c : Chan) (q : Place) (ns : List Nat) (heat : Nat) (port : Option Nat) (recode : List Nat := ns) : State :=
  if ns.isEmpty then s
  else (s.addReady c .poison q (ns.map bareSec) [] (s.writeChecks ns) heat port ns recode).dropLines c q ns

/-- The bitmap of a row is rewritten with every bit set after its CRC-8 failed (09 R306). -/
def State.rebuildBitmap (s : State) (c : Chan) (q : Place) (heat : Nat) (port : Option Nat) : State :=
  (s.addReady c (.bitmap (2 ^ 31 - 1)) q (s.rowNs.map bareSec) [] [31] heat port).dropLines c q s.rowNs

/-- The mend list takes a row index (09 R297, R325). -/
def State.addMend (s : State) (c : Chan) (ri : Nat) : State :=
  let v := s.anvils[c]
  if v.mend.contains ri then s
  else if 16 ≤ v.mend.length then s.setFlag (aGLN_CTL c.val) 26 true
  else s.onAnvil c (fun v => { v with mend := v.mend ++ [ri] })

/-! ### Line reads (R173 to R176, R192, R193) -/

/-- Read entries that count against 160: pre-reads belong to their write (R173). -/
def Anvil.rdq (v : Anvil) : Nat :=
  (v.reads.filter (fun e => match e.kind with
    | .preread _ => false
    | _ => true)).length

/-- Write entries in use: a plot fill takes none (R173, R200). -/
def Anvil.wrq (v : Anvil) : Nat := (v.writes.filter (fun w => !w.fill)).length

/-- The parts of a line: a line that straddles two rows is two accesses (04 R154). Each part lists its halves with
their sector-in-row. -/
def State.lineParts (s : State) (c : Chan) (line : Nat) : List (Place × List (Bool × Nat)) :=
  let a := s.secPlace c (128 * line)
  let b := s.secPlace c (128 * line + 64)
  if a.1 = b.1 then [(a.1, [(false, a.2), (true, b.2)])] else [(a.1, [(false, a.2)]), (b.1, [(true, b.2)])]

/-- The result of a half of a line in a fill. -/
def Fill.put (f : Fill) (half : Bool) (r : SecRes) : Fill :=
  { f with res := if half then (f.res.1, some r) else (some r, f.res.2) }

/-- Results of a line read cross to the slice; the parts of one line make one fill. `fresh`: a sector was found
uncorrectable and is not yet poisoned (10 R344). -/
def Slice.pushFill (l : Slice) (miss : Nat) (rs : List (Bool × SecRes)) (fresh : Bool := false) : Slice :=
  let put := fun (f : Fill) => rs.foldl (fun f r => f.put r.1 r.2) { f with fresh := f.fresh || fresh }
  if l.fills.any (fun f => f.miss == miss) then
    { l with fills := l.fills.map (fun f => if f.miss = miss then put f else f) }
  else { l with fills := l.fills ++ [put { miss := miss, res := (none, none), fresh := false }] }

/-- Write entries for `n` more writes (R173). -/
def Anvil.wrRoom (v : Anvil) (n : Nat) : Bool := decide (v.wrq + n ≤ 96)

/-- A sector of an unwritten plot (09 R316). -/
def zeroRes : SecRes := { status := .ok, data := 0, poisoned := false }

/-- Merge entries that share a sector with a part of a line (R192). -/
def Slice.mergesOn (l : Slice) (line : Nat) (halves : List Bool) : List Nat :=
  (l.merge.filter (fun m => m.line == line &&
    halves.any (fun h => if h then m.smask.2 else m.smask.1))).map Merge.id

/-- Merge entries that share a sector with a read of a row (R192): they count as earlier than the read. -/
def State.mergesOver (s : State) (c : Chan) (q : Place) (ns : List Nat) : List Nat :=
  (ns.flatMap (fun n =>
    let la := s.secLa c q n
    s.slices[c].mergesOn (la / 128) [decide (la / 64 % 2 = 1)])).dedup

/-- The slice flushes merge entries that a read waits for (R193). -/
def State.flushFor (s : State) (c : Chan) (merges : List Nat) : State :=
  s.onSlice c (fun l => l.flushIf (fun x => merges.contains x.id))

/-- A read of the Gleaner or of the patrol enters the queue behind every write that shares one of the sectors `ns` (R192, R193). -/
def State.addScrub (s : State) (c : Chan) (kind : ReadKind) (q : Place) (secs todo ns : List Nat) (heat : Nat) : State :=
  let merges := s.mergesOver c q ns
  (s.addRead c kind q secs todo heat none (s.earlierWrites c q ns (fun _ => false)) merges).flushFor c merges

/-! ### A row visit of the Gleaner (09 R322, R323) -/

/-- Positions of a row cut into read entries: two check sectors, or the sectors of one line (R173). -/
def State.scanLines (s : State) (c : Chan) (q : Place) (checks ns : List Nat) : List (List Nat) :=
  let line := fun n => s.secLa c q n / 128
  ((checks.map (· / 2)).dedup.map (fun k => checks.filter (fun p => p / 2 == k))) ++
  ((ns.map line).dedup.map (fun k => ns.filter (fun n => line n == k)))

/-- What a visit reads: every sector of the row, or again the sectors whose finding it confirms. -/
def State.visitLines (s : State) (c : Chan) (q : Place) (again : List Nat) : List (List Nat) :=
  if again.isEmpty then s.scanLines c q ((List.range 32).filter s.isCheck) s.rowNs
  else s.scanLines c q (s.writeChecks again) again

/-- A read entry of the Gleaner. -/
def ReadEnt.gleans (e : ReadEnt) : Bool := e.kind == .scrub

/-- The next lines of the visit in progress become read entries, of which the Gleaner holds at most 4 (R173, R322), behind the writes that
the row has in the queue and the merge buffer (05 R192). -/
def State.feedVisit (s : State) (c : Chan) : Nat → State
  | 0 => s
  | fuel + 1 =>
    let v := s.anvils[c]
    match v.visit with
    | some x =>
      match x.left with
      | l :: more =>
        if decide (v.rdq < 160) && decide ((v.reads.filter ReadEnt.gleans).length < 4) then
          State.feedVisit ((s.addScrub c .scrub (s.place c.val x.row) (l.filter (fun p => !s.isCheck p)) l s.rowNs 0).onAnvil c
            (fun v => { v with visit := some { x with left := more } })) c fuel
        else s
      | [] => s
    | none => s

/-- The read entries of a visit are gone. -/
def Anvil.dropVisit (v : Anvil) : Anvil := { v with reads := v.reads.filter (fun e => !e.gleans) }

/-- A read entry of the visit has been read. -/
def State.finishScrub (s : State) (c : Chan) (e : ReadEnt) : State :=
  ((s.dropRead c e.seq).onAnvil c (fun v => { v with visit := v.visit.map (fun x => { x with got := x.got ++ e.got }) })).feedVisit c 4

/-- One part of a line read is accepted (R173, R192, R193, 09 R316). -/
def State.acceptPart (s : State) (c : Chan) (m : Miss) (part : Place × List (Bool × Nat)) : State :=
  let q := part.1
  let ns := part.2.map Prod.snd
  let merges := s.slices[c].mergesOn m.line (part.2.map Prod.fst)
  let waits := s.earlierWrites c q ns (fun _ => false)
  if waits.isEmpty && merges.isEmpty && !ns.any (s.secWritten c q) then
    s.onSlice c (fun l => l.pushFill m.id (part.2.map (fun e => (e.1, zeroRes))))
  else
    let half := (part.2.any (fun e => !e.1), part.2.any Prod.fst)
    (s.addRead c (.demand m.id half) q ns ns m.heat m.port waits merges).flushFor c merges

/-- An error of a word of the plot bitmap, met by a lookup of `plot` (09 R315). -/
def State.bitmapErr (s : State) (c : Chan) (plot : Nat) (err : BitmapErr) : State :=
  match err with
  | .none => s
  | .single => s.count (aECC_CNT c.val) 15 0
  | .double =>
    (s.onAnvil c (fun v => (List.range 64).foldl (fun v i => v.markPlot (plot / 64 * 64 + i) true) v)).send c.val 0x02
      sevUncorrected 0 (s.eccDetail 0 0 { Fix.zero with part := 2 })

/-- An anvil takes line reads and flushes: it is ON, its self-test is done and it is not kept off (09 R319, R320), and the
Tongs has not bitten (01 R34). -/
def State.anvilOpen (s : State) (c : Chan) : Bool :=
  s.anvils[c].fn.state == .on && !s.keptOff c.val && s.flag (aECC_STAT c.val) 31 && s.modes.mode != .quench &&
  s.tongs.bitten.isNone

/-- LINE_READ_ACCEPT: the anvil takes the oldest UNSENT miss of its slice (R175, 10 R342). A line whose drop waits is
not read before the drop (10 R367). -/
def execLineReadAccept (c : Chan) (err : BitmapErr) (now : Nat) (s : State) : Out :=
  .next (timed now (fun s => s.anvilOpen c)
    (fun s =>
      match s.slices[c].miss.find? (fun m => !m.sent) with
      | none => s
      | some m =>
        let parts := s.lineParts c m.line
        if 160 < s.anvils[c].rdq + parts.length ∨ s.slices[c].drops.contains m.line = true then s
        else
          let s := s.bitmapErr c (plotOf (128 * m.line)) err
          let s := s.onSlice c (fun l =>
            { l with miss := l.miss.map (fun x => if x.id = m.id then { x with sent := true } else x) })
          parts.foldl (fun s p => s.acceptPart c m p) s) s)

/-! ### Pre-reads (R195 to R197) -/

/-- Every sector of the swath of `n` is written by this entry or its group (R195, R198, R309). -/
def WriteEnt.wholeSwath (w : WriteEnt) (n : Nat) : Bool := w.group.isSome || (swathPositions n).all w.covers

/-- A write of every byte with its poison mark given (Table 5.2). -/
def WSec.whole (x : WSec) : Bool := x.mask == BitVec.allOnes 64 && (x.pset || x.pclr)

/-- Data sectors that Table 5.2 has read first. -/
def State.dataPrereads (s : State) (w : WriteEnt) : List Nat :=
  if !w.kind.encodes || w.ready then []
  else if s.swath then (w.secs.map WSec.pos).filter (fun n => !w.wholeSwath n)
  else (w.secs.filter (fun x => !x.whole)).map WSec.pos

/-- Check sectors that Table 5.2 has read first: those the cache does not hold. A write that is ready needs them again once the cache has
lost them (R300, R301). -/
def State.checkPrereads (s : State) (c : Chan) (w : WriteEnt) : List Nat :=
  (s.entryChecks c w).filter (fun p => ((s.anvils[c]).held w.place p).isNone)

/-- Change a write entry. -/
def State.onWrite (s : State) (c : Chan) (seq : Nat) (f : WriteEnt → WriteEnt) : State :=
  s.onAnvil c (fun v => { v with writes := v.writes.map (fun w => if w.seq = seq then f w else w) })

/-- Change a read entry. -/
def State.onRead (s : State) (c : Chan) (seq : Nat) (f : ReadEnt → ReadEnt) : State :=
  s.onAnvil c (fun v => { v with reads := v.reads.map (fun e => if e.seq = seq then f e else e) })

/-- The poison mark that a sector is written with, from its old mark (R195, R197, 10 R348). -/
def WSec.mark (x : WSec) (old : Bool) : Bool := if x.pset then true else if x.pclr then false else old

/-- The old mark of a sector that is not read: the poison bitmap (Table 5.2). -/
def State.bitmapMark (s : State) (c : Chan) (w : WriteEnt) (n : Nat) : Bool :=
  let s31 := (s.anvils[c]).checkNow c w.place 31
  !(w.fill && s.freshRow c w.place) && bit (if s.swath then swBitmap s31 else abBitmap s31) n

/-- The stored bytes of a sector of a write: the save path does not encrypt (14 R473, 16 R517). -/
def State.stored (s : State) (c : Chan) (w : WriteEnt) (la : Nat) (d : Sector) : Sector :=
  if w.kind = .save then d else s.encrypt c la d

/-- One sector of a write as it will be stored, with the XOR of its old and new words (R196, R309, 14 R473). -/
def State.encodeSec (s : State) (c : Chan) (w : WriteEnt) (old : List (Nat × Decoded)) (x : WSec) :
    (Nat × Sector × Bool) × (Nat × Nat) :=
  let la := s.secLa c w.place x.pos
  match old.lookup x.pos with
  | some d =>
    let new := s.stored c w la (mergeBytes (s.decrypt c la d.data) x.data x.mask)
    ((x.pos, new, x.mark d.found.bad), (x.pos, xorWords d.data ^^^ xorWords new))
  | none => ((x.pos, s.stored c w la x.data, x.mark (s.bitmapMark c w x.pos)), (x.pos, 0))

/-- The check sectors that an encoded write bursts after its data sectors; sector 31 only where a poison mark changes
under the address-bound code (R298, R302). Every earlier write of the same sectors has reached the DRAM by then. -/
def State.checkOrder (s : State) (c : Chan) (w : WriteEnt) : List Nat :=
  let changes := w.enc.any (fun e => e.2.2 != s.bitmapMark c w e.1)
  let fresh := w.fill && s.freshRow c w.place
  (s.checkPositions (w.enc.map Prod.fst) ++ (if !s.swath && (changes || fresh) then [31] else [])).dedup

/-- A write entry has what it needs: it becomes a whole-sector write (R196). -/
def State.makeReady (s : State) (c : Chan) (w : WriteEnt) (old : List (Nat × Decoded)) : State :=
  let l := w.secs.map (s.encodeSec c w old)
  let enc := l.map Prod.fst
  s.onWrite c w.seq (fun w =>
    let w := { w with ready := true, enc := enc, deltas := l.map Prod.snd }
    { w with todo := enc.map Prod.fst ++ s.checkOrder c w })

/-- The pre-read that a write entry still needs enters the queue; a write that needs none is ready once every earlier
write of its sectors has reached the DRAM (R195; Table 5.2: the old poison mark comes from the bitmap). A pre-read waits
for the earlier writes of the queue (R194), and for no merge entry: what the buffer merged later is a later write
(DEDUCED, log entry 83). -/
def State.spawn (s : State) (c : Chan) (seq : Nat) : State :=
  match s.anvils[c].writes.find? (fun w => w.seq == seq) with
  | none => s
  | some w =>
    if s.anvils[c].reads.any (fun e => e.kind == .preread seq) then s
    else
      let ns := s.dataPrereads w
      if ns.isEmpty && (s.checkPrereads c w).isEmpty then
        (if w.ready || s.writesAhead c w then s else s.makeReady c w [])
      else
        let own := fun x => decide (w.seq ≤ x) || (w.fill && s.anvils[c].fills.any (fun f => f.seq == x))
        let waits := s.earlierWrites c w.place ns own
        s.addRead c (.preread seq) w.place ns ns w.heat w.port waits []

/-! ### Plot fills (R199, R200, 09 R317) -/

/-- The sectors of a row that a plot fill writes: those of the plot, and those of unwritten plots (09 R317). -/
def State.fillSecs (s : State) (c : Chan) (f : PlotFill) (q : Place) : List Nat :=
  s.rowNs.filter (fun n => s.secPlot c q n == f.plot || !s.secWritten c q n)

/-- The write entry of the next row of the running plot fill, or its end: the plot's valid bit is set (R199). -/
def State.advanceFill (s : State) (c : Chan) : State :=
  match s.anvils[c].fills with
  | [] => s
  | f :: more =>
    if !f.live.isEmpty then s
    else
      match f.rows with
      | [] => s.onAnvil c (fun v => { v.markPlot f.plot true with fills := more })
      | ri :: rows =>
        let q := s.place c.val ri
        let secs := (s.fillSecs c f q).map zeroSec
        let seq := s.anvils[c].seq
        let ns := secs.map WSec.pos
        let waitsW := s.earlierWrites c q ns (fun x => decide (f.seq ≤ x))
        let waitsR := s.earlierReads c q ns (fun e => decide (f.seq < e.seq) || e.waits.contains f.seq)
        let w : WriteEnt :=
          { seq := seq, stamp := s.stamp, kind := .data, place := q, secs := secs, heat := f.heat, port := f.port,
            ready := false, todo := [], enc := [], deltas := [], waitsR := waitsR, waitsW := waitsW, group := none,
            marks := [], recode := [], fill := true }
        ((s.touchRow c q).onAnvil c (fun v =>
          { v with seq := v.seq + 1, writes := v.writes ++ [w],
                   fills := { f with rows := rows, live := [seq] } :: more })).spawn c seq

/-- A plot fill begins; with another one running it waits its turn (R199). -/
def State.startFill (s : State) (c : Chan) (plot heat : Nat) (port : Option Nat) : State :=
  let r := s.plotRows plot
  let rows := (List.range (r.2 + 1 - r.1)).map (· + r.1)
  let first := s.anvils[c].fills.isEmpty
  let s := s.onAnvil c (fun v =>
    { v with seq := v.seq + 1,
             fills := v.fills ++ [{ seq := v.seq, plot := plot, heat := heat, port := port, rows := rows, live := [] }] })
  if first then s.advanceFill c else s

/-- The running fill goes on after one of its entries has reached the DRAM; the next fill starts at its end. -/
def State.fillReached (s : State) (c : Chan) (seq : Nat) : State :=
  let s := s.onAnvil c (fun v =>
    { v with fills := v.fills.map (fun f => { f with live := f.live.filter (· != seq) }) })
  let n := s.anvils[c].fills.length
  let s := s.advanceFill c
  if s.anvils[c].fills.length < n then s.advanceFill c else s

/-! ### Merge flushes (R175, R192 to R199) -/

/-- A sector of a merge entry as a sector of a write entry. -/
def Merge.sec (m : Merge) (half : Bool) (n : Nat) : WSec :=
  if half then { pos := n, data := m.data.2, mask := m.mask.2, pset := m.pset.2, pclr := m.pclr.2 }
  else { pos := n, data := m.data.1, mask := m.mask.1, pset := m.pset.1, pclr := m.pclr.1 }

/-- Parts of a flushed merge entry: its held sectors by row. -/
def State.flushParts (s : State) (c : Chan) (m : Merge) : List (Place × List (Bool × Nat)) :=
  ((s.lineParts c m.line).map (fun p =>
    (p.1, p.2.filter (fun e => if e.1 then m.smask.2 else m.smask.1)))).filter (fun p => !p.2.isEmpty)

/-- A write that encodes its sectors enters the queue under its sequence number. Reads that `found` names count it as earlier (R192),
writes that `but` names as later. -/
def State.enterWrite (s : State) (c : Chan) (kind : WriteKind) (seq : Nat) (q : Place) (secs : List WSec) (heat : Nat)
    (port group : Option Nat) (found : ReadEnt → Bool) (but : Nat → Bool) : State :=
  let ns := secs.map WSec.pos
  let waitsW := s.earlierWrites c q ns but
  let waitsR := s.earlierReads c q ns found
  let w : WriteEnt :=
    { seq := seq, stamp := s.stamp, kind := kind, place := q, secs := secs, heat := heat, port := port,
      ready := false, todo := [], enc := [], deltas := [], waitsR := waitsR, waitsW := waitsW, group := group,
      marks := [], recode := [], fill := false }
  let s := s.onAnvil c (fun v =>
    { v with
      writes := v.writes ++ [w]
      reads := v.reads.map (fun e =>
        if found e && e.place == q && ns.any e.covers && !e.waits.contains seq then { e with waits := e.waits ++ [seq] } else e) })
  (s.touchRow c q).spawn c seq

/-- A write of data arrives at the queue. -/
def State.addWrite (s : State) (c : Chan) (q : Place) (secs : List WSec) (heat : Nat) (port group : Option Nat)
    (found : ReadEnt → Bool) : State :=
  let seq := s.anvils[c].seq
  (s.onAnvil c (fun v => { v with seq := v.seq + 1 })).enterWrite c .data seq q secs heat port group found (fun _ => false)

/-- The anvil's own writes that wait enter the queue while it has room, oldest first: zero-writes at heat 1 (14 R484), saved sectors
at heat 0 (16 R517; DESIGN CHOICE, log entry 68). What arrived later waits for them already. -/
def State.feedIn (s : State) (c : Chan) : List FeedWrite → State
  | [] => s.onAnvil c (fun v => { v with feed := [] })
  | x :: l =>
    if s.anvils[c].wrRoom 1 then
      let s := s.onAnvil c (fun v => { v with feed := l })
      State.feedIn (s.enterWrite c (if x.save then .save else .data) x.seq x.place x.secs (if x.save then 0 else 1) none none
        (fun e => decide (x.seq < e.seq)) (fun n => decide (x.seq ≤ n))) c l
    else s

/-- The anvil's own writes that wait take the write entries that have come free. -/
def State.feedWrites (s : State) (c : Chan) : State := s.feedIn c s.anvils[c].feed

/-- A write of the anvil's own arrives: it enters the queue once there is room (R173). -/
def State.arriveFeed (s : State) (c : Chan) (save : Bool) (q : Place) (secs : List WSec) : State :=
  s.onAnvil c (fun v => { v with seq := v.seq + 1, feed := v.feed ++ [{ seq := v.seq, place := q, secs := secs, save := save }] })

/-- A write entry leaves the queue with its pre-read; a plot fill goes on, and a write that waits takes the place. -/
def State.dropWrite (s : State) (c : Chan) (w : WriteEnt) : State :=
  let s := s.onAnvil c (fun v =>
    { v with writes := v.writes.filter (fun x => x.seq != w.seq)
             reads := v.reads.filter (fun e => e.kind != .preread w.seq) })
  (if w.fill then s.fillReached c w.seq else s).feedWrites c

/-- One part of a flushed entry becomes a write entry; a release that waits for the merge entry waits for it
(14 R484). -/
def State.acceptWrite (s : State) (c : Chan) (m : Merge) (part : Place × List (Bool × Nat)) : State :=
  let plot := plotOf (128 * m.line)
  let s := if s.anvils[c].written plot || s.anvils[c].fills.any (fun f => f.plot == plot) then s
    else s.startFill c plot m.heat m.port
  let seq := s.anvils[c].seq
  let s := s.onHedge (fun h => { h with queue := h.queue.map (fun r =>
    if r.merges.contains (c, m.id) then { r with writes := r.writes ++ [(c, seq)] } else r) })
  s.addWrite c part.1 (part.2.map (fun e => m.sec e.1 e.2)) m.heat m.port m.group (fun e => e.waitsM.contains m.id)

/-- A corrected error of a slice: at most one message in 1,024 ns (10 R373). -/
def State.loftCorrected (s : State) (c : Chan) (line detail : Nat) : State :=
  if (s.slices[c].last01).any (fun t => decide (s.timebase < t + 1024)) then s
  else (s.onSlice c (fun l => { l with last01 := some s.timebase })).send (0x20 + c.val) 0x01 sevCorrected
    (s.lineAddr c line) detail

/-- The detail of 10 R372. -/
def storeDetail (store way set : Nat) : Nat := store + way * 2 ^ 2 + set * 2 ^ 6

/-- The sectors of a merge entry that a double-bit error affects are written poisoned (10 R351). -/
def Merge.spoil (m : Merge) (lo hi : Bool) : Merge :=
  let a := lo && m.smask.1
  let b := hi && m.smask.2
  { m with pset := (m.pset.1 || a, m.pset.2 || b), pclr := (m.pclr.1 && !a, m.pclr.2 && !b) }

/-- An error of the entry's own storage, met as its flush reads it (10 R351, R372): the entry as the anvil takes it. A
sector that it spoils is poisoned as by cause 0x2 of Table 5.3, so the slice drops its line (10 R367). A merge entry has
no tag. -/
def State.mergeErr (s : State) (c : Chan) (m : Merge) (err : StoreErr) : State × Merge :=
  let d := storeDetail 2 0 (lineSet m.line)
  match err with
  | .none => (s, m)
  | .tag _ => (s, m)
  | .single => ((s.count (aLSTAT c.val) 7 0).loftCorrected c m.line d, m)
  | .double lo hi =>
    let bad := (lo && m.smask.1) || (hi && m.smask.2)
    let s := if bad then s.send (0x20 + c.val) 0x02 sevUncorrected (s.lineAddr c m.line) d else s
    (if bad then s.onSlice c (fun l => { l with drops := l.drops ++ [m.line].filter (fun x => !l.drops.contains x) }) else s,
     m.spoil lo hi)

/-- MERGE_FLUSH_ACCEPT: the anvil takes the oldest flushed entry of its slice (R175, R192, R198, R199, 10 R351). -/
def execMergeFlushAccept (c : Chan) (errs : BitmapErr × StoreErr) (now : Nat) (s : State) : Out :=
  .next (timed now (fun s => s.anvilOpen c)
    (fun s =>
      match s.slices[c].merge.find? (fun m => m.flush) with
      | none => s
      | some m =>
        let parts := s.flushParts c m
        if !s.anvils[c].wrRoom parts.length then s
        else
          let s := s.bitmapErr c (plotOf (128 * m.line)) errs.1
          let r := s.mergeErr c m errs.2
          let s := parts.foldl (fun s p => s.acceptWrite c r.2 p) r.1
          let s := s.onSlice c (fun l =>
            { l with merge := l.merge.filter (fun x => x.id != m.id)
                     cleaning := l.cleaning.map (fun e => (e.1, e.2.filter (· != m.id))) })
          s.onAnvil c (fun v => { v with reads := v.reads.map (fun e => { e with waitsM := e.waitsM.filter (· != m.id) }) })) s)

/-! ### What a completed read reports (09 R296, R297, R306, R307, R330) -/

/-- Row-wide findings are reported once; so is, under the swath code, what is found of a swath: its correction, or that
it is uncorrectable. -/
def findKey (swath : Bool) (n : Nat) (d : Decoded) : Nat × Nat :=
  match d.found with
  | .seal => (1, 0)
  | .crc => (2, 0)
  | .uncorrectable => if swath then (3, (swathOf n).1) else (0, n)
  | _ => if swath && !d.fixes.isEmpty then (4, (swathOf n).1) else (0, n)

/-- The first of each finding. -/
def firstOf (swath : Bool) : List (Nat × Decoded) → List (Nat × Nat) → List (Nat × Decoded)
  | [], _ => []
  | (n, d) :: l, seen =>
    let k := findKey swath n d
    if seen.contains k then firstOf swath l seen else (n, d) :: firstOf swath l (k :: seen)

/-- The sectors that a poisoning of data sector `n` covers: the sector, or its swath (Table 9.4). -/
def State.poisonUnit (s : State) (n : Nat) : List Nat := if s.swath then swathPositions n else [n]

/-- The sector that a correction lies in: under the swath code its word counts from the first sector of the swath
(Table 9.6). -/
def State.fixSector (s : State) (n : Nat) (f : Fix) : Nat := if s.swath then (swathOf n).1 + f.pos / 8 else n

/-- Corrections of a demand read or pre-read: counted and reported, and the row is to be mended; under the
address-bound code those of a poisoned sector are only counted (Table 9.2 row 4, R297). -/
def State.reportFixes (s : State) (c : Chan) (finder : Nat) (q : Place) (n : Nat) (d : Decoded) : State :=
  if d.found = .fixed ∨ (d.found = .poisoned ∧ s.swath = true ∧ d.fixes ≠ []) then
    let s := d.fixes.foldl (fun s f => s.corrected c finder q (s.secAddr c q (s.fixSector n f)) f) s
    occur (finder == 0 || d.fixes.any (fun f => f.part == 0 || !s.swath)) s (s.addMend c (s.rowIndex c.val q))
  else if d.found = .poisoned then d.fixes.foldl (fun s _ => s.count (aECC_CNT c.val) 15 0) s
  else s

/-- An uncorrectable, address, seal or bitmap finding of a demand read or pre-read (R296, R306, R197). -/
def State.reportBad (s : State) (c : Chan) (finder : Nat) (q : Place) (n : Nat) (d : Decoded) : State :=
  match d.found with
  | .uncorrectable => s.eccFault c 0x02 sevUncorrected finder q (s.secAddr c q n) d.at_
  | .address => s.eccFault c 0x04 sevUncorrected finder q (s.secAddr c q n) d.at_
  | .seal => s.eccFault c 0x04 sevUncorrected finder q (s.secAddr c q 0) d.at_
  | .crc => s.eccFault c 0x02 sevUncorrected finder q (s.secAddr c q 0) d.at_
  | _ => s

/-- Every decoded sector of a demand read or pre-read is counted and reported; the slice drops the lines of sectors in
address fault. -/
def State.reportAll (s : State) (c : Chan) (finder : Nat) (e : ReadEnt) (ds : List (Nat × Decoded)) : State :=
  let once := firstOf s.swath ds []
  let s := once.foldl (fun s x => s.reportFixes c finder e.place x.1 x.2) s
  let s := once.foldl (fun s x => s.reportBad c finder e.place x.1 x.2) s
  let s := ds.foldl (fun s x =>
    if x.2.found = .uncorrectable ∨ x.2.found = .address ∨ x.2.found = .seal ∨ x.2.found = .crc then s.countBad c else s) s
  s.dropLines c e.place ((ds.filter (fun x => x.2.found.status == .addressFault)).map Prod.fst)

/-- The CRC-8 of the row's bitmap failed. -/
def crcFound (ds : List (Nat × Decoded)) : Bool := ds.any (fun x => x.2.found == .crc)

/-- Sectors that an uncorrectable finding poisons (R311). -/
def State.poisonFound (s : State) (ds : List (Nat × Decoded)) : List Nat :=
  ((ds.filter (fun x => x.2.found == .uncorrectable)).flatMap (fun x => s.poisonUnit x.1)).dedup

/-- The decoded sectors of a read entry; sectors of unwritten plots are not decoded (R316). -/
def State.decodeRead (s : State) (c : Chan) (e : ReadEnt) : List (Nat × Decoded) :=
  (e.secs.filter (s.secWritten c e.place)).map (fun n => (n, s.decode c e.place e.got n))

/-- A demand read is complete: its line results cross to the slice (R296, R297, R311). -/
def State.finishDemand (s : State) (c : Chan) (e : ReadEnt) (miss : Nat) (half : Bool × Bool) : State :=
  let ds := s.decodeRead c e
  let res := e.secs.map (fun n =>
    match ds.lookup n with
    | some d => s.secResult c e.place n d
    | none => zeroRes)
  let halves := (if half.1 then [false] else []) ++ (if half.2 then [true] else [])
  let s := (s.dropRead c e.seq).reportAll c 0 e ds
  let s := if crcFound ds then s.rebuildBitmap c e.place e.heat e.port else s
  let s := s.poisonSecs c e.place (s.poisonFound ds) e.heat e.port
  let fresh := ds.any (fun x => x.2.found == .uncorrectable || x.2.found == .crc)
  s.onSlice c (fun l => l.pushFill miss (halves.zip res) fresh)

/-- A write whose row failed its seal waits until the row has been closed and opened again, and is then retried; on a
failure in that second visit it is discarded (09 R306). Where the visit that failed is over by then, the next one is the second. -/
def State.sealFailure (s : State) (c : Chan) (w : WriteEnt) : State :=
  let q := w.place
  let at_ := { Fix.zero with part := 3 }
  if (s.anvils[c]).sealRetry.contains (q, true) then
    let last := !s.anvils[c].writes.any (fun x => x.place == q && x.seq != w.seq)
    let s := s.onAnvil c (fun v => { v with sealRetry := if last then v.sealRetry.erase (q, true) else v.sealRetry })
    (s.eccFault c 0x04 sevFatal 1 q (s.secAddr c q 0) at_).dropWrite c w
  else if (s.anvils[c]).sealRetry.contains (q, false) then s
  else
    (s.eccFault c 0x04 sevUncorrected 1 q (s.secAddr c q 0) at_).onAnvil c (fun v =>
      { v with sealRetry := (q, !v.sealBad.contains q) :: v.sealRetry })

/-- What a pre-read has found of sectors that its write does not cover: the rest of an uncorrectable swath, or of a row whose bitmap
failed its CRC-8, is poisoned by a write entry of its own (R306, R311). -/
def State.prereadPoisons (s : State) (w : WriteEnt) (ds : List (Nat × Decoded)) : List Nat :=
  (if crcFound ds then s.rowNs else s.poisonFound ds).filter (fun n => !w.covers n)

/-- Sectors of a write that keep the poison a pre-read has found: the slice drops their lines (Table 9.4, 10 R367). -/
def State.keptPoison (s : State) (w : WriteEnt) (ds : List (Nat × Decoded)) : List Nat :=
  s.poisonFound ds ++
  (if crcFound ds then (w.secs.filter (fun x => !x.pset && !x.pclr)).map WSec.pos else [])

/-- A pre-read is complete: the write merges what it found (R196, R197). -/
def State.finishPreread (s : State) (c : Chan) (e : ReadEnt) (seq : Nat) : State :=
  let s := s.dropRead c e.seq
  match s.anvils[c].writes.find? (fun w => w.seq == seq) with
  | none => s
  | some w =>
    let s31 := (e.got.lookup 31).getD ((s.anvils[c]).checkNow c w.place 31)
    if s.swath && (s.anvils[c].sealBad.contains w.place || !swSealGood s31 w.place c.val s.gid) then s.sealFailure c w
    else
      let s := s.onAnvil c (fun v => { v with sealRetry := v.sealRetry.filter (fun r => r.1 != w.place) })
      let ds := e.secs.map (fun n => (n, s.decode c e.place e.got n))
      let s := s.reportAll c 1 e ds
      let other := s.prereadPoisons w ds
      let s := s.poisonSecs c e.place other w.heat w.port (if crcFound ds then [] else other)
      let s := s.dropLines c e.place (s.keptPoison w ds)
      if w.ready then s else s.makeReady c w ds

/-- What a read entry still needs before it is decoded: the whole swath for a locate read (R307), sector 31 for an
uncorrectable half (R296). -/
def State.moreReads (s : State) (c : Chan) (e : ReadEnt) : Option (List Nat × Bool) :=
  let ns := e.secs.filter (s.secWritten c e.place)
  if ns.any (s.needsLocate c e.place e.got) then
    some (((ns.filter (s.needsLocate c e.place e.got)).flatMap swathPositions).dedup, true)
  else if ns.any (s.needsBitmap c e.place e.got) then
    some ([31], false)
  else none

/-- The write that a pre-read belongs to, or the read itself: its place in the order of arrival. -/
def ReadEnt.owner (e : ReadEnt) : Nat :=
  match e.kind with
  | .preread w => w
  | _ => e.seq

/-- The merge entries that a locate read waits for (R192): those of the swath's sectors. A pre-read's wait for none, as the pre-read itself
(DEDUCED, log entry 83): such an entry may share a sector with the write, and then waits for it. -/
def State.locateMerges (s : State) (c : Chan) (e : ReadEnt) (ns : List Nat) : List Nat :=
  match e.kind with
  | .preread _ => []
  | _ => s.mergesOver c e.place ns

/-- A locate read begins: every sector of the swath is read, with the sectors of the entry in other swaths, after every
earlier write to it, the merge buffer's included, and every later write to it waits (R307). -/
def State.startLocate (s : State) (c : Chan) (e : ReadEnt) (ns : List Nat) : State :=
  let waits := s.earlierWrites c e.place ns (fun x => decide (e.owner ≤ x))
  let merges := s.locateMerges c e ns
  (s.onAnvil c (fun v =>
    { v with
      reads := v.reads.map (fun x =>
        if x.seq = e.seq then { x with todo := (e.secs ++ ns).dedup, got := [], locate := true, waits := waits, waitsM := merges } else x)
      writes := v.writes.map (fun w =>
        if w.place == e.place && decide (e.owner < w.seq) && ns.any w.covers then
          { w with waitsR := w.waitsR ++ [e.seq] } else w) })).flushFor c merges

/-- Every RD of an entry has returned. -/
def State.readComplete (s : State) (c : Chan) (e : ReadEnt) : Bool := e.flying.isEmpty && !s.rdsLeft c e

/-- ANV_QSTAT as it reads (Table 5.14). -/
def State.aqstat (s : State) (c : Chan) : Word :=
  let v := s.anvils[c]
  let w := putBits 0 29 24 (v.pages.toList.filter Option.isSome).length
  let w := putBits w 19 19 (b2n v.timPend)
  let w := putBits w 18 18 (b2n (!v.fills.isEmpty))
  let w := putBits w 17 17 (b2n (v.dir == .interrupt))
  let w := putBits w 16 16 (b2n (v.dir == .drain))
  putBits (putBits w 14 8 v.wrq) 7 0 v.rdq

end Sys2Proof.Machine
end

