-- ==== Sys2Proof/Machine/AnvilFinish.lean ====
section
/-! DEFINITION. What the scrubbers do with their findings, and the completion of a read entry whose RDs have returned
(09 R296, R307, R323, R324, R328). -/

namespace Sys2Proof.Machine

/-! ### Findings of the Gleaner and of the patrol (09 R323) -/

/-- A finding that a scrub corrects (Table 9.2 row 5, Table 9.3). -/
def State.mendable (s : State) (d : Decoded) : Bool :=
  if s.swath then !d.fixes.isEmpty && d.found != .uncorrectable else d.found == .fixed

/-- The record of a latent error (R324, 15 Table 15.8). -/
def State.latent (s : State) (c : Chan) (kind addr detail : Nat) : State :=
  s.evqRecord 2 0x01 c.val kind [BitVec.ofNat 64 (addr % 2 ^ 41 + detail * 2 ^ 41)]

/-- The corrected sectors and check sectors are written (R323). -/
def State.mendRow (s : State) (c : Chan) (q : Place) (got : RowData) (ds : List (Nat × Decoded)) : State :=
  let l := ds.filter (fun x => s.mendable x.2)
  if l.isEmpty then s
  else
    let enc := l.map (fun x => (x.1, x.2.data, x.2.found == .poisoned))
    let changed := (l.filter (fun x => x.2.data != got.sec x.1)).map Prod.fst
    s.addReady c .mend q (l.map (fun x => bareSec x.1)) enc (changed ++ s.checkPositions (l.map Prod.fst)) 0 none

/-- A confirmed fault of a sector: message, record and count (R323, R324). -/
def State.scrubFault (s : State) (c : Chan) (kind finder : Nat) (q : Place) (x : Nat × Decoded) : State :=
  let addr := s.secAddr c q x.1
  ((s.countBad c).eccFault c kind sevUncorrected finder q addr x.2.at_).latent c kind addr
    (s.eccDetail finder q.rank x.2.at_)

/-- The poison bitmap that the flags of the decodable sectors give; other bits keep the majority (R323). -/
def State.flagBitmap (s : State) (c : Chan) (q : Place) (got : RowData) (ds : List (Nat × Decoded)) : Nat :=
  ds.foldl (fun m x =>
    let h := s.halves c q got x.1
    if x.2.found = .uncorrectable ∨ x.2.found = .address ∨ h.1 = .bad ∨ h.2 = .bad then m
    else putBit m x.1 (x.2.found == .poisoned)) (abBitmap (got.sec 31))

/-- The bitmap of sector 31, where the visit has read it, is rewritten where its copies differ from the flags of the
sectors read or from each other; `marks` are the sectors that this visit poisons (R299, R323). -/
def State.mendBitmap (s : State) (c : Chan) (finder : Nat) (q : Place) (got : RowData) (ds : List (Nat × Decoded))
    (marks : List Nat) : State :=
  let m := s.flagBitmap c q got ds
  if s.swath || (got.lookup 31).isNone || (m == abBitmap (got.sec 31) && !abBitmapSplit (got.sec 31)) then s
  else
    (s.corrected c finder q (s.secAddr c q 0) { Fix.zero with part := 2 }).addReady c
      (.bitmap (marks.foldl (fun m n => putBit m n true) m)) q (s.rowNs.map bareSec) [] [31] 0 none

/-- The scrub acts on its findings: corrections, latent errors, faults of the sectors `again` that a second visit confirms, and the
bitmap (R323). -/
def State.actFindings (s : State) (c : Chan) (finder : Nat) (q : Place) (got : RowData) (ds : List (Nat × Decoded))
    (again : List Nat) : State :=
  let once := firstOf s.swath ds []
  let pick := fun (f : Found) => once.filter (fun x => x.2.found == f)
  let s := (once.filter (fun x => s.mendable x.2)).foldl (fun s x =>
    x.2.fixes.foldl (fun s f => s.corrected c finder q (s.secAddr c q (s.fixSector x.1 f)) f) s) s
  let s := s.mendRow c q got ds
  let s := (pick .uncorrectable).foldl (fun s x => s.scrubFault c 0x03 finder q x) s
  let sure := fun (f : Found) => (pick f).filter (fun x => again.contains x.1)
  let s := (sure .address).foldl (fun s x => s.scrubFault c 0x04 finder q x) s
  let s := (sure .seal).foldl (fun s x =>
      (s.countBad c).eccFault c 0x04 sevUncorrected finder q (s.secAddr c q 0) x.2.at_) s
  let s := (pick .crc).foldl (fun s x =>
    ((s.countBad c).eccFault c 0x02 sevUncorrected finder q (s.secAddr c q 0) x.2.at_).rebuildBitmap c q 0 none) s
  let marks := s.poisonFound ds ++ (sure .address).map Prod.fst
  let s := s.poisonSecs c q marks 0 none
  s.mendBitmap c finder q got ds marks

/-- The sectors whose finding a second visit has still to confirm: those in address fault, or, after a seal failure, the whole row
(R323). -/
def State.toConfirm (s : State) (ds : List (Nat × Decoded)) (again : List Nat) : List Nat :=
  if ds.any (fun x => x.2.found == .seal) then (if again.isEmpty then s.rowNs else [])
  else (ds.filter (fun x => x.2.found == .address && !again.contains x.1)).map Prod.fst

/-- A row is closed before its second visit (R323); its check sectors stay held but under the swath code (R301). -/
def State.closeRow (s : State) (c : Chan) (q : Place) : State :=
  s.onAnvil c (fun v => (if s.swath then v.dropChecks q else v).push7 (plainCmd .pre q.rank q.bank 0 .close))

/-- The sectors that a patrol reads for a sector: under the swath code its swath (R328). -/
def State.patrolSecs (s : State) (n : Nat) : List Nat := if s.swath then swathPositions n else [n]

/-- The read entry of a patrol for a sector; under the swath code it reads the whole swath in one entry, as a locate read does (R307,
R328). -/
def State.patrolRead (s : State) (c : Chan) (q : Place) (n : Nat) (again : Bool) : State :=
  let seq := s.anvils[c].seq
  (s.addScrub c (.patrol again false) q [n] (s.patrolSecs n) (s.patrolSecs n) 1).onAnvil c (fun v =>
    { v with reads := v.reads.map (fun e => if e.seq = seq then { e with locate := s.swath } else e) })

/-- A patrol's read is complete: it acts with FINDER 3 (R328). -/
def State.finishPatrol (s : State) (c : Chan) (e : ReadEnt) (again dirty : Bool) : State :=
  let s := s.dropRead c e.seq
  let n := e.secs.headD 0
  if dirty then s.patrolRead c e.place n again
  else
    let ns := s.patrolSecs n
    let ds := ns.map (fun n => (n, s.decode c e.place e.got n))
    let sure := if again then ns else []
    let s := s.actFindings c 3 e.place e.got ds sure
    if (s.toConfirm ds sure).isEmpty then s else (s.closeRow c e.place).patrolRead c e.place n true

/-! ### Completion -/

/-- An entry takes check sectors that the cache holds. -/
def State.takes (s : State) (c : Chan) (e : ReadEnt) (ps : List Nat) : ReadEnt :=
  { e with got := e.got ++ (ps.filter (fun p => (e.got.lookup p).isNone)).filterMap (fun p =>
      ((s.anvils[c]).held e.place p).map (fun d => (p, d))) }

/-- The sector 31 that an entry takes where the cache holds it: the poison bitmap of an uncorrectable half (R296), and of a patrol's
read (R323). -/
def State.bitmapWanted (s : State) (c : Chan) (e : ReadEnt) : List Nat :=
  match e.kind with
  | .patrol _ _ => [31]
  | _ => if (e.secs.filter (s.secWritten c e.place)).any (s.needsBitmap c e.place e.got) then [31] else []

/-- An entry with what the check-sector cache holds for it. -/
def State.withHeld (s : State) (c : Chan) (e : ReadEnt) : ReadEnt :=
  let e := s.takes c e (s.readChecks c e)
  s.takes c e (s.bitmapWanted c e)

/-- The check sectors that an entry takes from the cache are in use: they are replaced last (R300). -/
def State.useHeld (s : State) (c : Chan) (e : ReadEnt) : State :=
  (((s.withHeld c e).got.drop e.got.length)).foldl (fun s x => s.onAnvil c (fun v => v.hold s.swath e.place x.1 x.2)) s

/-- Write entries that acting on a completed read may take: for a poisoning, a mend and a bitmap. -/
def findWrites : Nat := 3

/-- A completed read waits for write entries: a demand read that has found an uncorrectable sector or a bad CRC-8, a pre-read that has
found sectors beside its write's, and a patrol's read (05 R173; DEDUCED, log entry 83). -/
def State.waitsRoom (s : State) (c : Chan) (e : ReadEnt) : Bool :=
  !s.anvils[c].wrRoom findWrites &&
  (match e.kind with
    | .demand _ _ => (s.decodeRead c e).any (fun x => x.2.found == .uncorrectable || x.2.found == .crc)
    | .patrol _ _ => true
    | .preread seq => s.anvils[c].writes.any (fun w => w.seq == seq &&
        !(s.prereadPoisons w (e.secs.map (fun n => (n, s.decode c e.place e.got n)))).isEmpty)
    | .scrub => false)

/-- Every RD of an entry has returned (R296, R307): it reads on, or it is decoded and delivered. The findings of a row visit of the
Gleaner wait for GLEANER_VISIT_END. -/
def State.completeRead (s : State) (c : Chan) (e : ReadEnt) : State :=
  let was := e
  let e := s.withHeld c e
  let s := s.useHeld c was
  match e.kind with
  | .scrub => s.finishScrub c e
  | kind =>
    match s.moreReads c e with
    | some (ns, true) => s.startLocate c e ns
    | some (ns, false) => s.onRead c e.seq (fun _ => { e with todo := ns })
    | none =>
      if s.waitsRoom c e then s.onRead c e.seq (fun _ => e)
      else
      match kind with
      | .demand miss half => s.finishDemand c e miss half
      | .preread w => s.finishPreread c e w
      | .patrol again dirty => s.finishPatrol c e again dirty
      | .scrub => s

/-- A read entry that is complete and that its own last burst has not ended: its check sector has come to be held, a
plot fill left nothing for it to read, or it waited for write entries (R196, R316). -/
def State.settled (s : State) (c : Chan) (e : ReadEnt) : Bool :=
  s.readComplete c e && !s.waitsRoom c (s.withHeld c e)

/-- Complete entries are delivered, oldest first. -/
def State.settleReads (s : State) (c : Chan) : Nat → State
  | 0 => s
  | fuel + 1 =>
    match s.anvils[c].reads.find? (s.settled c) with
    | some e => State.settleReads (s.completeRead c e) c fuel
    | none => s

/-- Every entry that can be delivered is. -/
def State.settle (s : State) (c : Chan) : State :=
  if s.tongs.bitten.isSome then s else s.settleReads c (s.anvils[c].reads.length + 1)

end Sys2Proof.Machine
end

