-- ==== Sys2Proof/Machine/AnvilSelect.lean ====
section
/-! DEFINITION. Selection of the next command of an anvil: effective heat, direction, ranking and command errors
(05 R178 to R188, R202 to R205). -/

namespace Sys2Proof.Machine

/-- The port that holds the slot grant of an anvil (12 R414). -/
def Grant.port : Grant → Option Nat
  | .none => Option.none
  | .owner p => some p
  | .background p _ => some p
  | .carried p _ _ => some p

/-! ### Effective heat (R178) -/

/-- Entries that wait on an entry: (seq, own heat where it is a read). A write of a plot fill stands for its fill. -/
def Anvil.waiters (v : Anvil) (seq : Nat) : List (Nat × Option Nat) :=
  let fillOf := (v.fills.filter (fun f => f.live.contains seq)).map PlotFill.seq
  let names := seq :: fillOf
  (v.reads.filter (fun e => e.waits.any names.contains)).map (fun e => (e.seq, some e.heat)) ++
  (v.writes.filter (fun w => w.waitsW.any names.contains || w.waitsR.any names.contains ||
    v.reads.any (fun e => e.seq == seq && e.kind == .preread w.seq))).map (fun w => (w.seq, none))

/-- The highest heat of a read that waits on an entry, directly or through entries that wait for it; none where no
read does. -/
def Anvil.heatOn (v : Anvil) : Nat → Nat → Option Nat
  | 0, _ => none
  | fuel + 1, seq =>
    (v.waiters seq).foldl (fun best w =>
      let h := match w.2, Anvil.heatOn v fuel w.1 with
        | some a, some b => some (max a b)
        | some a, none => some a
        | none, r => r
      match best, h with
      | some a, some b => some (max a b)
      | some a, none => some a
      | none, r => r) none

/-- How deep a chain of waiting entries can be. -/
def Anvil.depth (v : Anvil) : Nat := v.reads.length + v.writes.length + 1

/-- The highest heat of the reads that wait on an entry. -/
def Anvil.boost (v : Anvil) (seq : Nat) : Option Nat := v.heatOn v.depth seq

/-- The grant is in use at the latest edge of the channel: one carried over a switch ends at its own edge (12 R420). -/
def Anvil.grantRuns (v : Anvil) : Bool :=
  match v.grant with
  | .carried _ u _ => decide (v.ck < u)
  | _ => true

/-- 6 while the entry's port holds the slot grant. -/
def Anvil.grantHeat (v : Anvil) (port : Option Nat) : Nat :=
  if port.isSome && port == v.grant.port && v.grantRuns then 6 else 0

/-- The effective heat of a write entry. -/
def Anvil.effW (v : Anvil) (w : WriteEnt) : Nat := max w.heat (max (v.grantHeat w.port) ((v.boost w.seq).getD 0))

/-- The effective heat of a read entry; a pre-read has its write's (R196). -/
def Anvil.effR (v : Anvil) (e : ReadEnt) : Nat :=
  let own := max e.heat (max (v.grantHeat e.port) ((v.boost e.seq).getD 0))
  match e.kind with
  | .preread seq => max own (((v.writes.find? (fun w => w.seq == seq)).map v.effW).getD 0)
  | _ => own

/-! ### Direction (R181, R186 to R188) -/

/-- A read that can be served now, but for the direction. -/
def State.readFree (s : State) (c : Chan) (e : ReadEnt) : Bool := s.rdsNow c e && !s.readBlocked c e

/-- A pre-read waits for the end of a row visit that failed its seal (09 R306). -/
def ReadEnt.sealed (e : ReadEnt) (v : Anvil) : Bool :=
  match e.kind with
  | .preread _ => v.sealBad.contains e.place
  | _ => false

/-- A read of effective heat 5 or above that can be served: it is eligible in INTERRUPT (R181, R188). -/
def State.hotEligible (s : State) (c : Chan) (e : ReadEnt) : Bool :=
  s.readFree c e && !e.sealed s.anvils[c] && decide (5 ≤ s.anvils[c].effR e)

/-- A read of effective heat 5 or above is eligible (R188). -/
def State.hotRead (s : State) (c : Chan) : Bool := s.anvils[c].reads.any (s.hotEligible c)

/-- The conditions of R187 for leaving DRAIN; a plot fill is served in DRAIN (R200). -/
def State.leaveDrain (s : State) (c : Chan) : Bool :=
  let v := s.anvils[c]
  v.fills.isEmpty && ((s.readsQueued c && decide (v.wrq ≤ s.fld (aWM c.val) 14 8)) || v.wrq == 0)

/-- The conditions of R186 for entering DRAIN. -/
def State.enterDrain (s : State) (c : Chan) : Bool :=
  let v := s.anvils[c]
  !v.fills.isEmpty || (decide (0 < v.wrq) && (decide (s.fld (aWM c.val) 6 0 ≤ v.wrq) || !s.readsQueued c))

/-- The direction that follows from the queues. -/
def State.nextDir (s : State) (c : Chan) : Dir :=
  match s.anvils[c].dir with
  | .read => if s.enterDrain c then .drain else .read
  | .drain => if s.hotRead c then .interrupt else if s.leaveDrain c then .read else .drain
  | .interrupt => if s.hotRead c then .interrupt else if s.leaveDrain c then .read else .drain

/-- A client WR in the slot. -/
def Cmd.clientWr (l : Cmd) : Bool :=
  match l.src with
  | .writeEnt _ _ => l.code == .wr
  | _ => false

/-- The direction is brought up to date; in INTERRUPT no further WR issues (R188). -/
def State.turn (s : State) (c : Chan) : State :=
  let d := s.nextDir c
  s.onAnvil c (fun v =>
    { v with dir := d, slot := if d = .interrupt then v.slot.filter (fun l => !l.clientWr) else v.slot })

/-! ### Ranking (R179, R180) -/

/-- A candidate for selection. -/
structure Cand where
  read  : Bool
  seq   : Nat
  place : Place
  pos   : Nat
  eff   : Nat
  stamp : Nat
  last  : Bool                   -- its data bursts have issued and its check bursts follow, or its group runs
  cont  : Bool                   -- a burst of a group, which no other entry's burst stands between
deriving DecidableEq, Repr

/-- The open row of a bank. -/
def Anvil.page (v : Anvil) (rank bank : Nat) : Option Nat := (v.pages.toList.getD (16 * rank + bank) none)

/-- Write the page register of a bank. -/
def Anvil.setPage (v : Anvil) (rank bank : Nat) (row : Option Nat) : Anvil :=
  { v with pages := v.pages.mapIdx (fun i r => if i = 16 * rank + bank then row else r) }

/-- A page hit (R179). -/
def Anvil.isHit (v : Anvil) (q : Place) : Bool := v.page q.rank q.bank == some q.row

/-- Positions of an entry that stand in the slot. -/
def Anvil.inSlot (v : Anvil) (read : Bool) (seq : Nat) : List Nat :=
  v.slot.filterMap (fun l =>
    match l.src with
    | .readEnt s p => if read && s == seq && l.code == .rd then some p else none
    | .writeEnt s p => if !read && s == seq && l.code == .wr then some p else none
    | _ => none)

/-- The next position that a read entry bursts. -/
def State.nextRd (s : State) (c : Chan) (e : ReadEnt) : Option Nat :=
  let here := (s.anvils[c]).inSlot true e.seq
  match (s.todoNow c e).filter (fun p => !here.contains p) with
  | p :: _ => some p
  | [] => ((s.checksLeft c e).filter (fun p => !here.contains p)).head?

/-- The data bursts of a read entry have issued and its check bursts follow them directly (Table 5.1). -/
def State.checksFollow (s : State) (c : Chan) (e : ReadEnt) : Bool :=
  (s.todoNow c e).isEmpty && !(e.got.isEmpty && e.flying.isEmpty)

/-- Eligibility of a read by direction (R181, R196), and of a Gleaner read (09 R322). A queued write that waits for the
read makes it eligible in DRAIN; the check bursts of a read follow its data bursts in every direction (Table 5.1). A Gleaner read on
which a hotter read waits through a write is served in READ as any other, so that R322 does not hold that read for ever (DEDUCED, log
entry 83). -/
def State.readEligible (s : State) (c : Chan) (e : ReadEnt) : Bool :=
  let v := s.anvils[c]
  let waited := v.writes.any (fun w => w.waitsR.contains e.seq)
  let idle := !v.reads.any (fun x => s.rdsLeft c x && decide (2 ≤ v.effR x)) && !v.writes.any (fun w => decide (2 ≤ v.effW w))
  s.readFree c e && (s.checksFollow c e || (!e.sealed v &&
  (match e.kind, v.dir with
    | .scrub, .read => idle || (v.boost e.seq).isSome
    | .preread _, .read | .preread _, .drain => true
    | _, .read => true
    | _, .interrupt => s.hotEligible c e
    | _, .drain => waited)))

/-- A write with nothing left to wait for but its direction and its swath group. -/
def State.writeFree (s : State) (c : Chan) (w : WriteEnt) : Bool := !s.writeHeld c w && (s.checkPrereads c w).isEmpty

/-- A swath group is held until all of its entries have arrived and every one can issue (R198). -/
def State.groupHeld (s : State) (c : Chan) (w : WriteEnt) : Bool :=
  match w.group with
  | some g => s.slices[c].merge.any (fun m => m.group == some g) ||
      s.anvils[c].writes.any (fun x => x.group == some g && !s.writeFree c x)
  | none => false

/-- A write blocked by a hazard (R192), by a pre-read (R195), by its row's seal (09 R306) or by its swath group (R198). -/
def State.writeBlocked (s : State) (c : Chan) (w : WriteEnt) : Bool := !s.writeFree c w || s.groupHeld c w

/-- The entries that issue together with a write: its swath group (R198), or itself. -/
def Anvil.together (v : Anvil) (w : WriteEnt) : List WriteEnt :=
  match w.group with
  | some g => v.writes.filter (fun x => x.group == some g)
  | none => [w]

/-- Eligibility of a write (R181, R200): a swath group is judged as a whole, by its hottest member (R198). -/
def State.writeEligible (s : State) (c : Chan) (w : WriteEnt) : Bool :=
  let v := s.anvils[c]
  !s.writeBlocked c w && !w.todo.isEmpty &&
  (match v.dir with
    | .drain => true
    | .interrupt => false
    | .read => !w.fill && (v.together w).any (fun x => decide (6 ≤ v.effW x) || (v.boost x.seq).isSome))

/-- A read entry as a candidate. -/
def State.candR (s : State) (c : Chan) (e : ReadEnt) : Option Cand :=
  if s.readEligible c e then
    (s.nextRd c e).map (fun p =>
      { read := true, seq := e.seq, place := e.place, pos := p, eff := (s.anvils[c]).effR e, stamp := e.stamp,
        last := s.checksFollow c e, cont := false })
  else none

/-- A WR of a member of the group stands in the slot. -/
def Anvil.groupInSlot (v : Anvil) (g : Nat) : Bool :=
  v.writes.any (fun w => w.group == some g && !(v.inSlot false w.seq).isEmpty)

/-- The check bursts of a write entry follow, or its group runs: its burst stands before those of other entries (Table 5.1, R198). -/
def Anvil.runs (v : Anvil) (w : WriteEnt) : Bool :=
  (w.kind.encodes && w.todo.all (fun p => !w.covers p)) || w.group.any (fun g => v.groupRun == some g || v.groupInSlot g)

/-- A write entry as a candidate. -/
def State.candW (s : State) (c : Chan) (w : WriteEnt) : Option Cand :=
  if s.writeEligible c w then
    ((w.todo.filter (fun p => !((s.anvils[c]).inSlot false w.seq).contains p)).head?).map (fun p =>
      { read := false, seq := w.seq, place := w.place, pos := p, eff := (s.anvils[c]).effW w, stamp := w.stamp,
        last := (s.anvils[c]).runs w
        cont := w.group.isSome })
  else none

/-- Every candidate of an anvil. -/
def State.cands (s : State) (c : Chan) : List Cand :=
  s.anvils[c].reads.filterMap (s.candR c) ++ s.anvils[c].writes.filterMap (s.candW c)

/-- The rank of a candidate under R179, the least first. -/
def Anvil.rankKey (v : Anvil) (x : Cand) : List Nat :=
  [7 - x.eff, b2n (!v.isHit x.place), x.stamp, b2n (!x.read), x.seq]

/-- Lexicographic order. -/
def lexLt : List Nat → List Nat → Bool
  | a :: l, b :: m => decide (a < b) || (a == b && lexLt l m)
  | _, _ => false

/-- ANV_WM.HITCAP. -/
def State.hitcap (s : State) (c : Chan) : Nat := s.fld (aWM c.val) 20 16

/-- The first of a list of candidates under R179. -/
def Anvil.first (v : Anvil) : List Cand → Option Cand
  | [] => none
  | x :: l => some (l.foldl (fun b y => if lexLt (v.rankKey y) (v.rankKey b) then y else b) x)

/-- A miss that waited while its bank queue served `cap` page hits in a row, each of equal or lower effective heat and
with a younger age stamp (R180). -/
def Anvil.starved (v : Anvil) (cap : Nat) (m : Cand) : Bool :=
  let l := (v.hits.toList.getD m.place.bank []).take cap
  !v.isHit m.place && decide (0 < cap) && l.length == cap && l.all (fun h => decide (h.1 ≤ m.eff ∧ m.stamp < h.2))

/-- The first of a list of candidates under R179 after the cap of R180: a miss that the cap protects ranks before every
page hit of its bank. -/
def State.firstCapped (s : State) (c : Chan) (l : List Cand) : Option Cand :=
  let v := s.anvils[c]
  match v.first l with
  | none => none
  | some x =>
    if v.isHit x.place then
      match v.first (l.filter (fun m => m.place.bank == x.place.bank && v.starved (s.hitcap c) m)) with
      | some m => some m
      | none => some x
    else some x

/-- The best entry: a running entry's check bursts and a running group's bursts follow directly (Table 5.1, R198), then
R179 and R180. -/
def State.best (s : State) (c : Chan) (l : List Cand) : Option Cand :=
  match s.anvils[c].first (l.filter Cand.last) with
  | some x => some x
  | none => s.firstCapped c l

/-! ### The command slot -/

/-- Commands of two that would not stand in the slot together: they meet in a bank, and are not two bursts of one
kind in one open row. -/
def Cmd.meets (a b : Cmd) : Bool :=
  let wide := fun (l : Cmd) => !(l.code == .act || l.code == .pre || l.code == .rd || l.code == .wr)
  let bursts := a.code == b.code && (a.code == .rd || a.code == .wr)
  !bursts && a.rank == b.rank &&
  (wide a || wide b || a.bank == b.bank)

/-- A command of the candidate (R181): RD or WR on a hit, PRE on another open row, else ACT. -/
def Anvil.nextCmd (v : Anvil) (x : Cand) : Cmd :=
  let src := if x.read then CmdSrc.readEnt x.seq x.pos else .writeEnt x.seq x.pos
  match v.page x.place.rank x.place.bank with
  | some r =>
    if r = x.place.row then
      { plainCmd (if x.read then .rd else .wr) x.place.rank x.place.bank x.place.row src with col := 2 * x.pos }
    else plainCmd .pre x.place.rank x.place.bank r src
  | none => plainCmd .act x.place.rank x.place.bank x.place.row src

/-- The command that heat-7 work takes next: a row in its way is closed first (R183, 06 R214). Answers whether it is
the work itself. -/
def Anvil.next7Cmd (v : Anvil) (l : Cmd) : Cmd × Bool :=
  let close (b : Nat) : Cmd := plainCmd .pre l.rank b 0 .close
  match l.src, l.code with
  | .smith _, _ | .osc _, _ => (l, true)
  | _, .refab =>
    if (List.range 16).any (fun b => (v.page l.rank b).isSome) then (plainCmd .prea l.rank 0 0 .close, false) else (l, true)
  | _, .refpb | _, .rfm =>
    match [l.bank, l.bank + 8].find? (fun b => (v.page l.rank b).isSome) with
    | some b => (close b, false)
    | none => (l, true)
  | _, .act => if (v.page l.rank l.bank).isSome then (close l.bank, false) else (l, true)
  | _, _ => (l, true)

/-- A Smith's command. -/
def Cmd.bySmith (l : Cmd) : Bool :=
  match l.src with
  | .smith _ | .osc _ => true
  | _ => false

/-- Heat-7 work may be selected: an MRR or MPC that enters at a slot boundary once that has come (02 R72); during a granted pause only Smith commands (06 R219, 07 R266), and SRE after the
neighbour refreshes that go before it (06 R232). -/
def Anvil.selectable (v : Anvil) (l : Cmd) : Bool :=
  !l.bound && (v.granted.isEmpty || l.bySmith) && !(l.code == .sre && v.hammering)

/-- The first pause is being prepared (07 R263, R264). -/
def Anvil.preparing (v : Anvil) : Bool := (v.pauses.head?.map PauseReq.prep).getD false

/-- A command of a client entry. -/
def Cmd.client (l : Cmd) : Bool :=
  match l.src with
  | .readEnt _ _ | .writeEnt _ _ => true
  | _ => false

/-- Rows still open are closed for a pause once no client command is left in the slot (R183, 02 R77). -/
def State.prepareClose (s : State) (c : Chan) : State :=
  let v := s.anvils[c]
  if v.preparing && !v.slot.any Cmd.client && !v.heat7.any (fun e => e.1.src == .close) &&
      !v.slot.any (fun l => l.src == .close) then
    [0, 1].foldl (fun s k =>
      if (List.range 16).any (fun b => ((s.anvils[c]).page k b).isSome) then
        s.onAnvil c (fun v => v.push7 (plainCmd .prea k 0 0 .close))
      else s) s
  else s

/-- No command of a client entry or plot fill is selected (R204, 02 R77, 01 R34). At BANKED entry the save follows the neighbour
refreshes (13 R441). -/
def State.clientsHeld (s : State) (c : Chan) : Bool :=
  s.flag (aCMDERR c.val) 30 || s.anvils[c].preparing || !s.anvils[c].granted.isEmpty ||
  s.modes.mode == .quench || s.keptOff c.val || s.tongs.bitten.isSome || (s.modes.step == .bankIn && s.anvils[c].hammering)

/-! ### Command errors (R203, R205) -/

/-- The record of a command error: VALID, COUNT, CAUSE and event 7 (R205, Table 5.15). -/
def State.recordCmdError (s : State) (c : Chan) (cause : Nat) : State :=
  let s := if s.flag (aCMDERR c.val) 31 then s else (s.setFld (aCMDERR c.val) 3 0 cause).setFlag (aCMDERR c.val) 31 true
  (s.count (aCMDERR c.val) 23 16).eventBoth c 7

/-- A command error with its message (R203); an unpopulated channel sends none (04 R152). -/
def State.cmdError (s : State) (c : Chan) (cause sev addr rank bank : Nat) : State :=
  let s := if s.populated c.val then s.send c.val 0x05 sev addr (cause + rank * 2 ^ 4 + bank * 2 ^ 5) else s
  s.recordCmdError c cause

/-- The answer of a sector whose entry has met a command error (Table 5.3, 03 R124). -/
def cmdErrorRes : SecRes := { status := .cmdError, data := 0, poisoned := true }

/-- Cause 0x1: the read entry is not issued (Table 5.3). -/
def State.readParity (s : State) (c : Chan) (e : ReadEnt) : State :=
  let s := (s.dropRead c e.seq).cmdError c 1 sevUncorrected 0 e.place.rank e.place.bank
  match e.kind with
  | .demand miss half =>
    let halves := (if half.1 then [false] else []) ++ (if half.2 then [true] else [])
    (s.onSlice c (fun l => l.pushFill miss (halves.map (fun h => (h, cmdErrorRes))))).dropLines c e.place e.secs
  | .preread w => s.spawn c w
  | .scrub => s.onAnvil c (fun v => { v.dropVisit with visit := none })
  | .patrol _ _ => s

/-- Causes 0x2 and 0x3 (Table 5.3). -/
def State.writeParity (s : State) (c : Chan) (w : WriteEnt) (bothBad : Bool) : State :=
  if bothBad then (s.dropWrite c w).cmdError c 3 sevFatal 0 w.place.rank w.place.bank
  else
    let ns := w.secs.map WSec.pos
    let s := s.onAnvil c (fun v => { v with reads := v.reads.filter (fun e => e.kind != .preread w.seq) })
    let s := s.onWrite c w.seq (fun w =>
      { w with kind := .poison, secs := ns.map bareSec, ready := true, enc := [], deltas := [], group := none,
               marks := ns, recode := ns, todo := s.writeChecks ns })
    (s.cmdError c 2 sevUncorrected (s.secAddr c w.place (ns.headD 0)) w.place.rank w.place.bank).dropLines c w.place ns

/-- The check sector that the selected entry uses: that of its check burst, else the first that the cache holds for it. -/
def State.usedCheck (s : State) (c : Chan) (x : Cand) : Option Nat :=
  if s.isCheck x.pos then some x.pos
  else
    let ps := (s.anvils[c].reads.filter (fun e => x.read && e.seq == x.seq)).flatMap (s.readChecks c) ++
      (s.anvils[c].writes.filter (fun w => !x.read && w.seq == x.seq)).flatMap (s.entryChecks c)
    ps.find? (fun p => ((s.anvils[c]).held x.place p).isSome)

/-- The held check sector of the selected entry fails its parity: it is dropped and read again, with no fault (09 R300). -/
def State.cacheError (s : State) (c : Chan) (x : Cand) : State :=
  match s.usedCheck c x with
  | some p => s.onAnvil c (fun v => v.dropCheck x.place p)
  | none => s

/-- A parity error of the selected entry (R202, R203), or of what the check-sector cache holds for it. -/
def State.parityError (s : State) (c : Chan) (x : Cand) (p : EntryParity) : State :=
  if p = .cacheBad then s.cacheError c x
  else if x.read then
    match s.anvils[c].reads.find? (fun e => e.seq == x.seq) with
    | some e => s.readParity c e
    | none => s
  else
    match s.anvils[c].writes.find? (fun w => w.seq == x.seq) with
    | some w => s.writeParity c w (p == .bothBad)
    | none => s

/-! ### Selection -/

/-- A command enters the slot. -/
def Anvil.place (v : Anvil) (l : Cmd) : Anvil := { v with slot := v.slot ++ [{ l with seen := false }] }

/-- The oldest waiting heat-7 command is selected (R181). An ACT that would raise an RAA above RAAMMT waits, and the RFM of its pair
goes first (06 R237); DEDUCED (log entry 83): a Smith's too. -/
def State.select7 (s : State) (c : Chan) (l : Cmd × Bool) : State :=
  let v := s.anvils[c]
  let x := v.next7Cmd l.1
  if v.slot.any (fun y => y.meets x.1) then s
  else if x.1.code = .act ∧ s.raaBlocks c x.1.rank x.1.bank = true then
    s.rfmFirst c x.1.rank x.1.bank
  else s.onAnvil c (fun v => ({ v with heat7 := if x.2 then v.heat7.erase l else v.heat7 }).place x.1)

/-- The next command of an entry stands in the slot already: the ACT or PRE of its bank that another selection has placed. -/
def Anvil.stands (v : Anvil) (l : Cmd) : Bool :=
  (l.code == .act || l.code == .pre) &&
  v.slot.any (fun y => y.code == l.code && y.rank == l.rank && y.bank == l.bank && y.row == l.row)

/-- The slot has no place yet for the command of the best entry: it meets a command there, or it is a burst of a swath group, which no other
entry's command stands before (R198). -/
def Anvil.noPlace (v : Anvil) (x : Cand) (l : Cmd) : Bool :=
  v.slot.any (fun y => y.meets l) ||
  (x.cont && l.code == .wr && v.slot.any (fun y => y.client && !(y.code == .wr &&
    v.writes.any (fun w => w.group.isSome && y.src == .writeEnt w.seq (y.col / 2)))))

/-- The best of the entries whose next command does not stand in the slot is selected (R179 to R182); an ACT waits for RFM and for neighbour
refresh (06 R231, R237). Where the slot has no place for its command yet, no lower-ranked one is placed ahead of it: R182 allows that, and
does not ask for it (DEDUCED, log entry 83). -/
def State.selectClient (s : State) (c : Chan) (p : EntryParity) : State :=
  let v := s.anvils[c]
  let free := (s.cands c).filter (fun x =>
    let l := v.nextCmd x
    !v.stands l && !(l.code == .act && v.hammerFull))
  match s.best c free with
  | none => s
  | some x =>
    let l := v.nextCmd x
    if v.noPlace x l then s
    else if p ≠ .good then s.parityError c x p
    else if l.code = .act ∧ s.raaBlocks c l.rank l.bank = true then s.pushRfm c l.rank l.bank
    else s.onAnvil c (fun v => v.place l)

/-- Every write that still needs a pre-read has one, and every other whose turn has come is ready; check sectors that
have left the cache since are read again (R195, R301, Table 5.2). -/
def State.respawn (s : State) (c : Chan) : State := s.anvils[c].writes.foldl (fun s w => s.spawn c w.seq) s

/-- A row whose seal failed is closed where a write waits for it (09 R306). -/
def State.sealClose (s : State) (c : Chan) : State :=
  let v := s.anvils[c]
  (v.sealBad.filter (fun q => v.isHit q && v.writes.any (fun w => w.place == q) &&
    !v.heat7.any (fun e => e.1.src == .close && e.1.rank == q.rank && e.1.bank == q.bank) &&
    !v.slot.any (fun l => l.src == .close && l.rank == q.rank && l.bank == q.bank))).foldl
    (fun s q => s.onAnvil c (fun v => v.push7 (plainCmd .pre q.rank q.bank 0 .close))) s

/-- The work of the anvil brought up to date before a selection. -/
def State.refreshed (s : State) (c : Chan) : State :=
  (((((((s.settle c).respawn c).feedVisit c 4).turn c).releaseAll c).releaseRfm c).sealClose c).prepareClose c

/-- One selection (R181). Work whose own first edge has not come is selected only where nothing else is and the slot is
empty (02 R84). -/
def State.selectOne (s : State) (c : Chan) (p : EntryParity) : State :=
  let s := s.refreshed c
  let v := s.anvils[c]
  let early (e : Cmd × Bool) : Bool := decide (v.ck < e.1.due)
  if !v.room then s
  else
    match v.heat7.find? (fun e => v.selectable e.1 && !early e) with
    | some l => s.select7 c l
    | none =>
      match v.heat7.find? (fun e => v.selectable e.1), v.slot with
      | some l, [] => if s.clientsHeld c || (s.cands c).isEmpty then s.select7 c l else s.selectClient c p
      | _, _ => if s.clientsHeld c then s else s.selectClient c p

/-- COMMAND_SELECT (R181). -/
def execCommandSelect (c : Chan) (parity : EntryParity) (s : State) : Out :=
  .next (occur (s.anvils[c].room && !s.keptOff c.val) s (s.selectOne c parity))

end Sys2Proof.Machine
end

