-- ==== Sys2Proof/Machine/PhyBase.lean ====
section
/-! DEFINITION. Delay codes, the pattern buffer and the hold of a channel (07 R243 to R256, 05 R210). -/

namespace Sys2Proof.Machine

/-- HTH_PLL.LOCK of the hearth of a channel. -/
def State.pllLock (s : State) (c : Chan) : Bool := s.flag (aPLL c.val) 31

/-- HTH_PLL.FSP. -/
def State.fsp (s : State) (c : Chan) : Nat := s.fld (aPLL c.val) 5 4

/-- The rate code of set point `n` in HTH_FSP. -/
def State.fspRate (s : State) (c : Chan) (n : Nat) : Nat := s.fld (aFSP c.val) (4 * n + 2) (4 * n)

/-! ### Delay store (R249 to R252) -/

/-- Offsets of Table 7.3. -/
def dlyOffset (o : Nat) : Bool := o ≤ 7 || (decide (16 ≤ o) && decide (o ≤ 56)) || (decide (64 ≤ o) && decide (o ≤ 104))

/-- An entry of the delay store; a reserved offset reads 0 (R251). -/
def Anvil.dlyGet (v : Anvil) (i : Nat) : BitVec 10 := if dlyOffset (i % 128) then SMap.get (fun _ => 0) v.dly i else 0

/-- Write an entry of the delay store; a reserved offset takes nothing. -/
def Anvil.dlySet (v : Anvil) (i : Nat) (code : BitVec 10) : Anvil :=
  if dlyOffset (i % 128) then { v with dly := SMap.set (fun _ => 0) v.dly i code } else v

/-- Set the live code of a lane. -/
def Anvil.liveSet (v : Anvil) (o : Nat) (code : BitVec 10) : Anvil :=
  if dlyOffset o then { v with live := SMap.set (fun _ => 0) v.live o code } else v

/-- Every live code is loaded from the store entries of set point `n` (R246). -/
def Anvil.loadLive (v : Anvil) (n : Nat) : Anvil :=
  let v := { v with live := [], dlyPend := [] }
  ((List.range 128).filter dlyOffset).foldl (fun v o => v.liveSet o (v.dlyGet (128 * n + o))) v

/-- A write of the store outside DLY: the live code follows, at once on a held channel, else at the next hold (R252). -/
def State.dlyWrite (s : State) (c : Chan) (i : Nat) (code : BitVec 10) : State :=
  let inUse := i / 128 == s.fsp c && dlyOffset (i % 128)
  let held := s.heldAny c
  s.onAnvil c (fun v =>
    let v := v.dlySet i code
    if !inUse then v
    else if held then v.liveSet (i % 128) code
    else { v with dlyPend := v.dlyPend ++ [(i % 128, code)] })

/-- A DLY takes effect: the live code of each lane and its store entry (R252). -/
def State.dlyEffect (s : State) (c : Chan) (offsets : List Nat) (code : BitVec 10) : State :=
  let n := s.fsp c
  s.onAnvil c (fun v => offsets.foldl (fun v o => (v.liveSet o code).dlySet (128 * n + o) code) v)

/-- The index of the delay store after an access (R251). -/
def State.dlyStep (s : State) (c : Chan) : State :=
  let i := s.fld (aDLYIDX c.val) 8 0
  if s.flag (aDLYIDX c.val) 16 then s.setFld (aDLYIDX c.val) 8 0 (if 383 ≤ i then 0 else i + 1) else s

/-- A hold of the channel by a Smith begins: timing values and store writes that waited take effect (R252,
05 R210). -/
def State.startHold (s : State) (c : Chan) : State :=
  let tim := Vector.ofFn (fun (n : Fin 9) => s.rd (if n.val = 8 then aDERATE c.val else aTIM c.val n.val))
  s.onAnvil c (fun v =>
    let v := v.dlyPend.foldl (fun v e => v.liveSet e.1 e.2) v
    { v.unsee with dlyPend := [], tim := tim, timPend := false })

/-- A write to ANV_TIM0-7 or ANV_DERATE reaches the command stage at once in KINDLE, else at the start of the next hold of the
channel (05 R210). -/
def State.timWrite (s : State) (c : Chan) : State :=
  if s.modes.mode = .kindle then s.startHold c
  else s.onAnvil c (fun v => { v with timPend := true })

/-! ### Pattern buffer (R253) -/

/-- Word `w` (0 to 17) of entry `e` of the pattern buffer (Table 7.10). -/
def Anvil.patGet (v : Anvil) (e w : Nat) : Word :=
  if w < 16 then v.pat.get (16 * e + w)
  else ((SMap.get (fun _ => (0 : BitVec 64)) v.patDmi e) >>> (32 * (w - 16))).setWidth 32

/-- Write word `w` of entry `e`. -/
def Anvil.patSet (v : Anvil) (e w : Nat) (x : Word) : Anvil :=
  if w < 16 then { v with pat := v.pat.set (16 * e + w) x }
  else
    let old := SMap.get (fun _ => (0 : BitVec 64)) v.patDmi e
    let new : BitVec 64 := if w = 16 then (old >>> 32 <<< 32) ||| x.setWidth 64
      else (old <<< 32 >>> 32) ||| (x.setWidth 64 <<< 32)
    { v with patDmi := SMap.set (fun _ => 0) v.patDmi e new }

/-- The data of an entry. -/
def Anvil.patData (v : Anvil) (e : Nat) : Sector :=
  BitVec.ofNat 512 ((List.range 16).foldl (fun acc w => acc + (v.patGet e w).toNat * 2 ^ (32 * w)) 0)

/-- A sampled burst enters an entry; a BL16 burst leaves the rest of it unchanged (R253). -/
def Anvil.patStore (v : Anvil) (e : Nat) (data : Sector) (dmi : BitVec 64) (bl16 : Bool) : Anvil :=
  let v := (List.range (if bl16 then 8 else 16)).foldl
    (fun v w => v.patSet e w ((data >>> (32 * w)).setWidth 32)) v
  let v := v.patSet e 16 (dmi.setWidth 32)
  if bl16 then v else v.patSet e 17 ((dmi >>> 32).setWidth 32)

/-- The index of the pattern buffer after an access (Table 7.10). -/
def State.patStep (s : State) (c : Chan) : State :=
  let a := aPATIDX c.val
  let w := s.fld a 8 4
  if s.flag a 16 then
    if 17 ≤ w then (s.setFld a 8 4 0).setFld a 3 0 (s.fld a 3 0 + 1) else s.setFld a 8 4 (w + 1)
  else s

/-- Half `h` (32 B) of a sector, in its low bytes. -/
def halfSector (d : Sector) (h : Nat) : Sector := (d >>> (256 * h)) &&& BitVec.ofNat 512 (2 ^ 256 - 1)

/-- A sector with half `h` replaced by the low 32 B of `x`. -/
def putHalf (d : Sector) (h : Nat) (x : Sector) : Sector :=
  (d &&& ~~~ (BitVec.ofNat 512 (2 ^ 256 - 1) <<< (256 * h))) ||| ((x &&& BitVec.ofNat 512 (2 ^ 256 - 1)) <<< (256 * h))

/-! ### Eye patterns (R254, Table 7.4) -/

/-- Beats of a burst on 16 DQ lanes, their differences gathered by lane. -/
def laneOr (x : Sector) (beats : Nat) : BitVec 16 :=
  (List.range beats).foldl (fun acc k => acc ||| (x >>> (16 * k)).setWidth 16) 0

/-- Beats of a burst on 2 DMI lanes, their differences gathered by lane. -/
def dmiOr (x : BitVec 64) (beats : Nat) : BitVec 2 :=
  (List.range beats).foldl (fun acc k => acc ||| (x >>> (2 * k)).setWidth 2) 0

/-- The pass map of 16 DQ lanes and 2 DMI lanes whose differences are given (02 R83). -/
def dqMap (dq : BitVec 16) (dmi : BitVec 2) : Word := (~~~ dq).setWidth 32 ||| (~~~ dmi).setWidth 32 <<< 16

/-- The burst that a rank sends in a read DQ calibration: 16 beats of the pattern, inverted on the lanes that its masks
name. -/
def Anvil.calBurst (v : Anvil) (rank : Nat) : Sector × BitVec 64 :=
  let r := Config.mrCal.map (v.mr rank)
  let inv : BitVec 16 := (r.getD 0 0).setWidth 16 ||| (r.getD 1 0).setWidth 16 <<< 8
  let pat := (r.getD 2 0).toNat + (r.getD 3 0).toNat * 2 ^ 8
  ((List.range 16).foldl (fun x k =>
      x ||| ((if bit pat k then ~~~ inv else inv).setWidth 512 <<< (16 * k))) 0,
   (List.range 16).foldl (fun x k => x ||| (BitVec.ofNat 64 (if bit pat k then 3 else 0) <<< (2 * k))) 0)

/-- Entry `e` of the pattern buffer as a burst with its DMI bits. -/
def Anvil.patBurst (v : Anvil) (e : Nat) : Sector × BitVec 64 :=
  (v.patData e, SMap.get (fun _ => (0 : BitVec 64)) v.patDmi e)

/-- The pass map of a lane pair: every sampled level is 1. -/
def pairMap (a b : Bool) : Word := BitVec.ofNat 32 (b2n a + 2 * b2n b)

/-- The lanes that one repetition of a pattern passes (Table 7.4). DEDUCED (log entry 85): CS passes where every CA value does,
and one level of a byte stands for its WCK. -/
def Anvil.eyeMap (v : Anvil) (rank pattern : Nat) (x : EyeSample) : Word :=
  let burst (i : Nat) : Sector × BitVec 64 := x.getD i (0, 0)
  match pattern with
  | 0 =>
    let d := laneOr (v.patData 0 ^^^ (burst 0).1) 32
    let bad := (d.setWidth 7 ||| (d >>> 8).setWidth 7 : BitVec 7)
    (~~~ bad).setWidth 32 ||| BitVec.ofNat 32 (128 * b2n (bad == 0))
  | 1 => pairMap ((burst 0).1.getLsbD 0) ((burst 0).1.getLsbD 8)
  | 2 =>
    let e := v.calBurst rank
    dqMap (laneOr (e.1 ^^^ (burst 0).1) 16) (dmiOr (e.2 ^^^ (burst 0).2) 16)
  | 3 =>
    let diff := (List.range 8).map (fun i => ((v.patBurst i).1 ^^^ (burst i).1, (v.patBurst i).2 ^^^ (burst i).2))
    dqMap (diff.foldl (fun a e => a ||| laneOr e.1 32) 0) (diff.foldl (fun a e => a ||| dmiOr e.2 32) 0)
  | _ =>
    let bad := dmiOr (~~~ (burst 0).2) 32
    pairMap (!bad.getLsbD 0) (!bad.getLsbD 1)

/-- The pass map of an EYE: a lane passes in every repetition (02 R83). -/
def Anvil.passMap (v : Anvil) (rank pattern : Nat) (mask : Word) (xs : List EyeSample) : Word :=
  xs.foldl (fun acc x => acc &&& v.eyeMap rank pattern x) mask

/-- Repetitions of a pattern: HTH_EYECFG.REPS + 1 (R254). -/
def State.eyeReps (s : State) (c : Chan) : Nat := s.fld (aEYECFG c.val) 7 0 + 1

/-! ### Smith bursts (R253) -/

/-- A Smith WR: the pattern entry of WPTR and its DMI levels go to the open row, and WPTR advances (R253). With no open row the contents
of the rank become undefined (02 R585). -/
def State.smithWr (s : State) (c : Chan) (l : Cmd) : State :=
  let e := s.fld (aPATPTR c.val) 3 0
  let v := s.anvils[c]
  let x := v.patData e
  let s := match v.page l.rank l.bank with
    | some row =>
      let q : Place := { rank := l.rank, bank := l.bank, row := row }
      let x := v.dramIn l.rank x (SMap.get (fun _ => (0 : BitVec 64)) v.patDmi e)
      let new := if l.bl16 then putHalf (v.cell c q (l.col / 2)) (l.col % 2) x else x
      s.onAnvil c (fun v => v.putCell q (l.col / 2) new)
    | none => s.onAnvil c (fun v => v.lose l.rank)
  s.setFld (aPATPTR c.val) 3 0 (e + 1)

/-- A Smith RD: what is sampled goes to the entry of RPTR, and RPTR advances (R253). With no open row the samples are
free (02 R585); the DMI levels are where read DBI is off in the DRAM. -/
def State.smithRd (s : State) (c : Chan) (l : Cmd) : State :=
  let e := s.fld (aPATPTR c.val) 11 8
  let v := s.anvils[c]
  let x : Sector × Option (BitVec 64) := match v.page l.rank l.bank with
    | some row =>
      let d := v.cell c { rank := l.rank, bank := l.bank, row := row } (l.col / 2)
      v.dramOut l.rank (if l.bl16 then halfSector d (l.col % 2) else d)
    | none => (Config.freeBurst (24 * v.free + c.val), none)
  let dmi := x.2.getD (Config.freeDmi (24 * v.free + c.val))
  let s := s.onAnvil c (fun v => { v.patStore e x.1 dmi l.bl16 with free := v.free + 1 })
  let s := if (v.page l.rank l.bank).isNone then s.onAnvil c (fun v => v.lose l.rank) else s
  s.setFld (aPATPTR c.val) 11 8 (e + 1)

end Sys2Proof.Machine
end

