-- ==== Sys2Proof/Machine/CmdStage.lean ====
section
/-! DEFINITION. The command stage: issue of every command at a CK edge, and what the issue does (05 R182 to R191,
R206 to R208, 06 R228 to R240, 02 R71 to R74). -/

namespace Sys2Proof.Machine

/-- The command `l`, issued at `ck`, does not postpone `first` (R182). -/
def Anvil.keeps (v : Anvil) (bg : Bool) (first l : Cmd) (ck : Nat) : Bool :=
  v.earliest bg first histSpan ck == (v.note l ck).earliest bg first histSpan ck

/-- The lanes of a channel and its command stage work: not in STARTING or STOPPING (19 R581), and with a function that is
OFF only in a bank-out step, before the function starts again (13 R443). In BANKED the pins keep the self-refresh state until
that step (16 R521, 19 R576). -/
def State.lanesUp (s : State) (c : Chan) : Bool :=
  match s.anvils[c].fn.state, s.modes.mode with
  | .off, .banked | .on, .banked => s.modes.step == .bankOut
  | .on, _ => true
  | _, _ => false

/-- What a rank in self-refresh takes: after a direct run of the Assay engine (16 R532) and in QUENCH (13 R444) nothing; else SRX,
and what a Smith issues as it stands (02 R585). The anvil's own work waits. -/
def State.rankTakes (s : State) (c : Chan) (l : Cmd) : Bool :=
  !s.anvils[c].selfRef.toList.getD l.rank false ||
  (!s.flag aAST_STAT 27 && s.modes.mode != .quench && (l.code == .srx || l.bySmith))

/-- The command stage may issue a command of the slot at this edge: the PLL is locked (07 R244), the rules allow it
(R206), clients are not held (R204) and the Tongs has not bitten (01 R34), and no Smith command is accepted in a
self-test (09 R319). On an unpopulated channel none issues (04 R152); DESIGN CHOICE (log entry 97): a Smith's CMD or OSC there, whose
end the spec does not state, waits in its heat-7 work until its Smith is stopped. -/
def State.mayIssue (s : State) (c : Chan) (l : Cmd) (ck : Nat) : Bool :=
  let v := s.anvils[c]
  s.pllLock c && s.populated c.val && decide (v.ck ≤ ck) && v.allowed (s.bgMode c) l ck && !s.keptOff c.val &&
  s.lanesUp c && s.rankTakes c l &&
  !(l.bySmith && s.anvils[c].testing) && !(l.client && (s.flag (aCMDERR c.val) 30 || s.tongs.bitten.isSome)) &&
  !(l.client && l.code == .act && v.hammerFull)

/-- Rank of a command of the slot: heat-7 work, then the check bursts and group bursts that follow directly (Table 5.1, R198), then the
entries under R179; those that have left their queue last. -/
def State.slotKey (s : State) (c : Chan) (l : Cmd) : List Nat :=
  let v := s.anvils[c]
  let cand (read last : Bool) (seq : Nat) (q : Place) (eff stamp : Nat) : List Nat :=
    b2n (!last) :: v.rankKey { read := read, seq := seq, place := q, pos := 0, eff := eff, stamp := stamp, last := last, cont := false }
  match l.src with
  | .readEnt seq _ =>
    match v.reads.find? (fun e => e.seq == seq) with
    | some e => cand true (s.checksFollow c e) seq e.place (v.effR e) e.stamp
    | none => [2]
  | .writeEnt seq _ =>
    match v.writes.find? (fun w => w.seq == seq) with
    | some w => cand false (v.runs w) seq w.place (v.effW w) w.stamp
    | none => [2]
  | _ => []

/-- The commands of the slot, the best entry's first (R179, R182). -/
def State.slotOrder (s : State) (c : Chan) : List Cmd :=
  match s.anvils[c].slot with
  | [a, b] =>
    let x := s.slotKey c a
    let y := s.slotKey c b
    if y.isEmpty && !x.isEmpty || lexLt y x then [b, a] else [a, b]
  | l => l

/-- This edge is the first one at which the rules allow the best entry's command (R182), where the command stood in the
slot when the latest command issued. For one that has entered since, no operand tells the edge of its entry, and the
edge of the command is taken (DEDUCED, log entry 83). -/
def State.firstEdge (s : State) (c : Chan) (l : Cmd) (ck : Nat) : Bool :=
  let v := s.anvils[c]
  !l.seen || decide (v.ck < l.due) || v.earliest (s.bgMode c) l histSpan v.ck == ck

/-- The command of the slot with this code that issues at this edge: the best entry's, or the other where it does not
postpone that one (R182). -/
def State.issuing (s : State) (c : Chan) (code : Code) (ck : Nat) : Option Cmd :=
  match s.slotOrder c with
  | [] => none
  | a :: more =>
    if a.code = code ∧ s.mayIssue c a ck = true ∧ s.firstEdge c a ck = true then some a
    else more.find? (fun b => b.code == code && s.mayIssue c b ck && (s.anvils[c]).keeps (s.bgMode c) a b ck)

/-- The slot after a command of it has issued: what is left has stood in it at that edge. -/
def Anvil.slotAfter (v : Anvil) (l : Cmd) : List Cmd := (v.slot.erase l).map (fun x => { x with seen := true })

/-- CA and DQ have both been idle for 4 CK at an edge (07 R267). -/
def Anvil.idle4 (v : Anvil) (ck : Nat) : Bool :=
  v.hist.all (fun e => decide (e.ck + 4 < ck) && (e.dq == 0 || decide (e.ck + v.lat e.code + e.dq + 4 ≤ ck)))

/-- New PCODE and NCODE values come into use on a channel (07 R267). -/
def State.applyZq (s : State) (c : Chan) : State :=
  let a := aZQ c.val
  s.onAnvil c (fun v =>
    if v.zqApply then { v with zqApply := false, zqUsed := (BitVec.ofNat 6 (s.fld a 29 24), BitVec.ofNat 6 (s.fld a 21 16)) }
    else v)

/-- At an edge at which the buses have been idle for 4 CK, new ZQ codes have come into use (07 R267). -/
def State.zqAt (s : State) (c : Chan) (ck : Nat) : State := if s.anvils[c].idle4 ck then s.applyZq c else s

/-- The command leaves the slot and issues: the counters see it (R206), after new ZQ codes (07 R267). -/
def State.issue (s : State) (c : Chan) (l : Cmd) (ck : Nat) : State :=
  (s.zqAt c ck).onAnvil c (fun v => { v.note l ck with slot := v.slotAfter l })

/-- A CMD completes with result 0 at the issue of its command (02 R73, Table 2.9). -/
def State.cmdDone (s : State) (src : CmdSrc) : State :=
  match src with
  | .smith m =>
    match s.smiths[m].wait with
    | some (.cmd d _) => (s.setG m d 0).smithDone m
    | _ => s
  | _ => s

/-- Bursts of a read entry that are on their way are read again: what they bring is not taken. -/
def Anvil.forget (v : Anvil) (seqs : List Nat) : Anvil :=
  { v with bursts := v.bursts.map (fun b =>
      match b.cmd.src with
      | .readEnt n _ => if seqs.contains n then { b with cmd := { b.cmd with src := .close } } else b
      | _ => b) }

/-- A read entry begins again. -/
def State.rewound (s : State) (e : ReadEnt) : ReadEnt :=
  { e with todo := ((e.todo ++ e.flying ++ e.got.map Prod.fst).filter (fun p => !s.isCheck p)).dedup, flying := [], got := [] }

/-- A row visit is over under the swath code: a read that has RDs left begins again in the next one, so that one visit reads what it
needs, a locate read the whole swath, and checks its seal (09 R306, R307); so does the Gleaner (09 R323). -/
def State.rewind (s : State) (c : Chan) (q : Place) : State :=
  let cut := fun (e : ReadEnt) => e.place == q && !(e.got.isEmpty && e.flying.isEmpty) && s.rdsNow c e
  let mine := s.anvils[c].visit.any (fun x => x.row == s.rowIndex c.val q &&
    (!x.left.isEmpty || s.anvils[c].reads.any (fun e => e.gleans && s.rdsNow c e)))
  let s := s.onAnvil c (fun v =>
    { v.forget ((v.reads.filter cut).map ReadEnt.seq) with reads := v.reads.map (fun e => if cut e then s.rewound e else e) })
  if mine then
    s.onAnvil c (fun v =>
      { v.dropVisit with visit := v.visit.map (fun x => { x with left := s.visitLines c q x.again, got := [] }) })
  else s

/-- A bank is closed: under the swath code the check sector of its row leaves the cache (09 R301), and a visit that failed
its seal is over (09 R306). -/
def State.closeBank (s : State) (c : Chan) (rank bank : Nat) : State :=
  let swath := s.swath
  let s := match (s.anvils[c]).page rank bank with
    | some row => if swath then s.rewind c { rank := rank, bank := bank, row := row } else s
    | none => s
  s.onAnvil c (fun v =>
    let v := match v.page rank bank with
      | some row =>
        let q : Place := { rank := rank, bank := bank, row := row }
        { (if swath then v.dropChecks q else v) with
          sealBad := v.sealBad.filter (fun x => x != q)
          sealRetry := v.sealRetry.map (fun (r : Place × Bool) => if r.1 = q then (q, true) else r) }
      | none => v
    v.setPage rank bank none)

/-- The record of page hits of a bank queue (R180). -/
def Anvil.setHits (v : Anvil) (bank : Nat) (l : List (Nat × Nat)) : Anvil :=
  { v with hits := v.hits.mapIdx (fun i x => if i = bank then l else x) }

/-! ### ACT, PRE, PREA -/

/-- An ACT that would raise an RAA above RAAMMT does not issue: the RFM of its pair goes first (06 R237). DEDUCED (log entry
83): that holds for a Smith's ACT too, which then waits as heat-7 work; 02 R585 says what is not checked about a bank. -/
def State.deferAct (s : State) (c : Chan) (l : Cmd) : State :=
  let s := s.onAnvil c (fun v => { v with slot := v.slot.erase l })
  (if l.client then s else s.onAnvil c (fun v => v.next7 l)).rfmFirst c l.rank l.bank

/-- What an ACT does beyond its timing: the page register, RAA, the tally, and its source's next step. -/
def State.actEffect (s : State) (c : Chan) (l : Cmd) : State :=
  let was := (s.anvils[c]).page l.rank l.bank
  let s := (s.onAnvil c (fun v => (v.setPage l.rank l.bank (some l.row)).setHits l.bank [])).raaAct c l.rank l.bank
  match l.src with
  | .readEnt _ _ | .writeEnt _ _ => s.tallyRow c { rank := l.rank, bank := l.bank, row := l.row }
  | .neighbour q => s.neighbourAct c q
  | .smith m =>
    let s := if was.isSome then s.onAnvil c (fun v => v.lose l.rank) else s
    s.cmdDone (.smith m)
  | _ => s

/-- ACT (R174, R182, R206; 06 R228 to R237). -/
def execAct (c : Chan) (ck : Nat) (s : State) : Out :=
  .next (match s.issuing c .act ck with
    | none => s
    | some l => if s.raaBlocks c l.rank l.bank then s.deferAct c l else (s.issue c l ck).actEffect c l)

/-- PRE (R174, R183; 06 R230). -/
def execPre (c : Chan) (ck : Nat) (s : State) : Out :=
  .next (match s.issuing c .pre ck with
    | none => s
    | some l =>
      let s := (s.issue c l ck).closeBank c l.rank l.bank
      match l.src with
      | .neighbour q => s.neighbourPre c q
      | _ => s.cmdDone l.src)

/-- PREA (R183; 06 R214). -/
def execPrea (c : Chan) (ck : Nat) (s : State) : Out :=
  .next (match s.issuing c .prea ck with
    | none => s
    | some l => ((List.range 16).foldl (fun s b => s.closeBank c l.rank b) (s.issue c l ck)).cmdDone l.src)

/-! ### RD -/

/-- Rows that queued entries of a bank other than `seq` target. A read whose RDs have all issued is queued no more
(Table 5.16). -/
def State.others (s : State) (c : Chan) (rank bank seq : Nat) : List Place :=
  let v := s.anvils[c]
  (v.reads.filter (fun e => e.place.rank == rank && e.place.bank == bank && e.seq != seq && s.rdsLeft c e)).map ReadEnt.place ++
  (v.writes.filter (fun w => w.place.rank == rank && w.place.bank == bank && w.seq != seq)).map WriteEnt.place

/-- The AP bit at the issue of a burst (R184): the last one of its entry, with no other entry for its row and one for
another row of the bank. -/
def State.autoPre (s : State) (c : Chan) (q : Place) (seq : Nat) (final : Bool) : Bool :=
  let o := s.others c q.rank q.bank seq
  final && o.all (fun r => r != q) && o.any (fun r => r != q)

/-- A page hit has been served: one entry, at its last burst (R180). A longer record than the largest HITCAP is of no
use. -/
def Anvil.countHit (v : Anvil) (q : Place) (final : Bool) (eff stamp : Nat) : Anvil :=
  if final then v.setHits q.bank (((eff, stamp) :: v.hits.toList.getD q.bank []).take 32) else v

/-- With its last data burst an entry takes the check sectors that the cache holds (R300, Table 5.1). -/
def State.takeHeld (s : State) (c : Chan) (e : ReadEnt) : State :=
  if !(s.todoNow c e).isEmpty then s
  else
    let e' := s.takes c e (s.readChecks c e)
    (s.onRead c e.seq (fun _ => e')).useHeld c e

/-- A client RD issues: its burst is on its way (R184, R192). -/
def State.clientRd (s : State) (c : Chan) (l : Cmd) (seq pos ck : Nat) : State :=
  match s.anvils[c].reads.find? (fun e => e.seq == seq) with
  | none => s.issue c l ck
  | some e =>
    let e' := { e with todo := e.todo.erase pos, flying := e.flying ++ [pos] }
    let s := s.onRead c seq (fun _ => e')
    let final := !s.rdsLeft c e'
    let s := s.onAnvil c (fun v => v.countHit e.place final (v.effR e) e.stamp)
    let ap := s.autoPre c e.place seq final
    let l' := { l with ap := ap }
    let s := s.zqAt c ck
    let v := s.anvils[c]
    let s := s.onAnvil c (fun v => { v.note l' ck with slot := v.slotAfter l })
    let s := s.takeHeld c e'
    let s := s.onAnvil c (fun x => { x with bursts := x.bursts ++ [{ ck := ck, cmd := l', data := some (v.fromDram c l.rank (v.cell c e.place pos)) }], free := x.free + 1 })
    let s := if ap then s.closeBank c l.rank l.bank else s
    s.turn c

/-- RD (R182, R184, R206 to R208; 07 R253; 02 R585). -/
def execRd (c : Chan) (ck : Nat) (s : State) : Out :=
  .next (match s.issuing c .rd ck with
    | none => s
    | some l =>
      match l.src with
      | .readEnt seq pos => s.clientRd c l seq pos ck
      | _ =>
        let s := (s.issue c l ck).smithRd c l
        (if l.ap then s.closeBank c l.rank l.bank else s).cmdDone l.src)

/-! ### WR -/

/-- The content of a check burst of a write entry (R302, R309; 09 R298, R311). DEDUCED (log entry 83): an entry merges at
its check burst; merges of different sectors commute, so that the check sector after all of them is the one that arrival
order gives. -/
def State.checkContent (s : State) (c : Chan) (w : WriteEnt) (pos : Nat) : Sector :=
  let v := s.anvils[c]
  let old := if w.fill && s.freshRow c w.place then 0 else v.checkNow c w.place pos
  let q := w.place
  let sw := fun (x : Sector) (e : Nat × Sector × Bool) =>
    let n := e.1
    let delta := if w.wholeSwath n then ofBytes (secBytes x (columnAt n) 8) ^^^ v.swathXor c q n
      else (w.deltas.lookup n).getD 0
    s.swMerge c q x n e.2.1 e.2.2 delta
  match w.kind with
  | .data | .save => w.enc.foldl (fun x e => if s.swath then sw x e else s.abMerge c q pos x e.1 e.2.1 e.2.2) old
  | .mend =>
    w.enc.foldl (fun x e => if s.swath then s.swMerge c q x e.1 e.2.1 e.2.2 0 else s.abMerge c q pos x e.1 e.2.1 e.2.2) old
  | .poison => s.poisonCheck c q pos old w.recode w.marks
  | .bitmap m => if s.swath then swSeal old m q c.val s.gid else abPutBitmap old m

/-- What a WR of a write entry puts on DQ. -/
def State.wrContent (s : State) (c : Chan) (w : WriteEnt) (pos : Nat) : Sector :=
  match w.enc.lookup pos with
  | some x => x.1
  | none => s.checkContent c w pos

/-- The entry has reached the DRAM: it leaves the queue (R191). -/
def State.reached (s : State) (c : Chan) (w : WriteEnt) : State :=
  (s.dropWrite c w).onAnvil c (fun v =>
    { v with groupRun := if v.writes.any (fun x => x.group.isSome && x.group == v.groupRun) then v.groupRun else none })

/-- What is left to burst after a WR: at the last data burst of an entry its check sectors are judged anew, as the bitmap
stands then (09 R298). -/
def State.burstsLeft (s : State) (c : Chan) (w : WriteEnt) (pos : Nat) : List Nat :=
  let left := w.todo.erase pos
  if w.kind.encodes = true ∧ w.covers pos = true ∧ left.all (fun p => !w.covers p) = true then s.checkOrder c w else left

/-- A WR of a write entry issues (R184, R191, R198, R302). -/
def State.clientWrite (s : State) (c : Chan) (l : Cmd) (seq pos ck : Nat) : State :=
  match s.anvils[c].writes.find? (fun w => w.seq == seq) with
  | none => s.issue c l ck
  | some w =>
    let s := s.zqAt c ck
    let d := s.wrContent c w pos
    let left := s.burstsLeft c w pos
    let s := s.onAnvil c (fun v => v.countHit w.place left.isEmpty (v.effW w) w.stamp)
    let ap := s.autoPre c w.place seq left.isEmpty
    let l' := { l with ap := ap }
    let check := s.isCheck pos
    let s := s.onAnvil c (fun v =>
      let v := { (v.note l' ck).putCell w.place pos (v.toDram l.rank d) with
        slot := v.slotAfter l, groupRun := if w.group.isSome then w.group else v.groupRun }
      if check then v.hold s.swath w.place pos d else v)
    let s := s.onWrite c seq (fun w => { w with todo := left })
    let s := if left.isEmpty then s.reached c w else s
    let s := if ap then s.closeBank c l.rank l.bank else s
    (s.settle c).turn c

/-- WR (R182, R184, R191, R206 to R208; 07 R253; 02 R585). -/
def execWr (c : Chan) (ck : Nat) (s : State) : Out :=
  .next (match s.issuing c .wr ck with
    | none => s
    | some l =>
      match l.src with
      | .writeEnt seq pos => s.clientWrite c l seq pos ck
      | _ =>
        let s := (s.issue c l ck).smithWr c l
        (if l.ap then s.closeBank c l.rank l.bank else s).cmdDone l.src)

/-! ### Refresh commands -/

/-- REFPB (06 R213, R217, R218, R236). -/
def execRefpb (c : Chan) (ck : Nat) (s : State) : Out :=
  .next (match s.issuing c .refpb ck with
    | none => s
    | some l =>
      let s := (s.issue c l ck).raaRefresh c (fun r b => r == l.rank && samePair b l.bank) s.raaimt
      (s.releaseAll c).cmdDone l.src)

/-- REFAB (06 R213, R217, R218, R236). -/
def execRefab (c : Chan) (ck : Nat) (s : State) : Out :=
  .next (match s.issuing c .refab ck with
    | none => s
    | some l =>
      let s := (s.issue c l ck).raaRefresh c (fun r _ => r == l.rank) s.raaimt
      (s.releaseAll c).cmdDone l.src)

/-- RFM (06 R236, R237, R240). -/
def execRfm (c : Chan) (ck : Nat) (s : State) : Out :=
  .next (match s.issuing c .rfm ck with
    | none => s
    | some l =>
      let s := (s.issue c l ck).raaRefresh c (fun r b => r == l.rank && samePair b l.bank) s.rfmdec
      (s.useBudget c).1.cmdDone l.src)

/-! ### Mode registers, MPC, self-refresh and power-down -/

/-- MRW (02 R71, R84): the operand is recorded. -/
def execMrw (c : Chan) (ck : Nat) (s : State) : Out :=
  .next (match s.issuing c .mrw ck with
    | none => s
    | some l =>
      ((s.issue c l ck).onAnvil c (fun v => v.setMr l.rank l.ma (BitVec.ofNat 8 l.op))).cmdDone l.src)

/-- MRR (02 R74; 06 R222): its result is on its way. -/
def execMrr (c : Chan) (ck : Nat) (s : State) : Out :=
  .next (match s.issuing c .mrr ck with
    | none => s
    | some l =>
      let s := (s.issue c l ck).onAnvil c (fun v => { v with bursts := v.bursts ++ [{ ck := ck, cmd := l, data := none }] })
      match l.src with
      | .smith m =>
        (s.onSmith m (fun h => { h with mrr := h.mrr ++ [{ chan := c, value := none }] })).cmdDone l.src
      | _ => s)

/-- The run time in CK that the last MRW of an oscillator's run-time register selected on a rank; none without one, or
where it selects no run time (02 R84). -/
def Anvil.oscTime (v : Anvil) (rank : Nat) (dqo : Bool) : Option Nat :=
  (v.mrs.lookup (rank, if dqo then Config.mrOscDqo else Config.mrOscDqi)).bind (fun op =>
    let n := Config.oscRunTime op
    if n = 0 then none else some n)

/-- The start MPC of an OSC (02 R84). -/
def oscCmd (m : SmithId) (rank : Nat) (dqo : Bool) : Cmd :=
  { plainCmd .mpc rank 0 0 (.osc m) with op := Config.oscStart dqo }

/-- The MRRs of an oscillator's count, low byte and high byte, from edge `due` on. -/
def oscReads (m : SmithId) (rank : Nat) (dqo : Bool) (due : Nat) : List Cmd :=
  [false, true].map (fun high => { plainCmd .mrr rank 0 0 (.osc m) with ma := Config.mrOscCount dqo high, due := due })

/-- Work of a Smith becomes waiting at heat 7; on a channel that is not held an MRR or MPC enters at the next slot boundary (02
R72). -/
def State.insert7 (s : State) (c : Chan) (l : Cmd) : State :=
  let bound := (l.code == .mrr || l.code == .mpc) && !s.heldAny c
  s.onAnvil c (fun v => v.push7 { l with bound := bound })

/-- What an OSC does once a MPC of it has issued (02 R84): after the start, the run time and 64 CK go before the MRRs;
without a run time the oscillator is stopped 512 CK after its start. -/
def State.oscNext (s : State) (c : Chan) (m : SmithId) (l : Cmd) (ck : Nat) : State :=
  match s.smiths[m].wait with
  | some (.osc _ _ rank dqo) =>
    let reads (due : Nat) : State := (oscReads m rank dqo due).foldl (fun s x => s.insert7 c x) s
    if l.op = Config.oscStart dqo then
      match (s.anvils[c]).oscTime rank dqo with
      | some n => reads (ck + n + 64)
      | none => s.insert7 c { plainCmd .mpc rank 0 0 (.osc m) with op := Config.oscStop dqo, due := ck + 512 }
    else reads (ck + 64)
  | _ => s

/-- MPC (02 R71, R84; 07 R268). -/
def execMpc (c : Chan) (ck : Nat) (s : State) : Out :=
  .next (match s.issuing c .mpc ck with
    | none => s
    | some l =>
      let s := s.issue c l ck
      match l.src with
      | .osc m => s.oscNext c m l ck
      | _ => s.cmdDone l.src)

/-- A rank enters or leaves self-refresh. -/
def Anvil.setSelfRef (v : Anvil) (rank : Nat) (b : Bool) : Anvil :=
  { v with selfRef := v.selfRef.mapIdx (fun i x => if i = rank then b else x) }

/-- A rank enters or leaves power-down. -/
def Anvil.setPdown (v : Anvil) (rank : Nat) (b : Bool) : Anvil :=
  { v with pdown := v.pdown.mapIdx (fun i x => if i = rank then b else x) }

/-- The rows of the segments that the mask of a rank names are not retained from here on (07 R269, R270). -/
def State.dropSegments (s : State) (c : Chan) (rank : Nat) : State :=
  let p := s.bankRows c.val
  ((List.range 8).filter (bit ((s.anvils[c]).mr rank Config.mrPasr).toNat)).foldl
    (fun s g => s.onAnvil c (fun v => v.loseRows rank (g * p / 8) ((g + 1) * p / 8))) s

/-- SRE (Table 2.12; 13 R441, R444; 07 R270). -/
def execSre (c : Chan) (ck : Nat) (s : State) : Out :=
  .next (match s.issuing c .sre ck with
    | none => s
    | some l => (((s.issue c l ck).onAnvil c (fun v => v.setSelfRef l.rank true)).dropSegments c l.rank).cmdDone l.src)

/-- SRX (06 R216, R222): the debt of each rank is 0, a new round starts and a poll falls due. -/
def execSrx (c : Chan) (ck : Nat) (now : Nat) (s : State) : Out :=
  .next (match s.issuing c .srx ck with
    | none => s
    | some l =>
      let s := ((s.at now).issue c l ck).onAnvil c (fun v => v.setSelfRef l.rank false)
      let s := s.newRound c
      (if s.flag (aREFRESH c.val) 31 then s.startPoll c else s).cmdDone l.src)

/-- PDE (R185). -/
def execPde (c : Chan) (ck : Nat) (s : State) : Out :=
  .next (match s.issuing c .pde ck with
    | none => s
    | some l => ((s.issue c l ck).onAnvil c (fun v => v.setPdown l.rank true)).cmdDone l.src)

/-- PDX (R185). -/
def execPdx (c : Chan) (ck : Nat) (s : State) : Out :=
  .next (match s.issuing c .pdx ck with
    | none => s
    | some l => ((s.issue c l ck).onAnvil c (fun v => v.setPdown l.rank false)).cmdDone l.src)

/-! ### Results that cross back -/

/-- The oldest MRR of a Smith whose result has not crossed (02 R74). -/
def Anvil.mrrBurst (v : Anvil) : Option Burst :=
  v.bursts.find? (fun b => b.cmd.code == .mrr && (match b.cmd.src with
    | .smith _ => true
    | _ => false))

/-- The oldest outstanding MRR of a channel takes its result. -/
def fillMrr (c : Chan) (x : BitVec 16) : List MrrResult → List MrrResult
  | [] => []
  | r :: l => if r.chan = c ∧ r.value = none then { r with value := some x } :: l else r :: fillMrr c x l

/-- The oldest MRR result of a channel is taken. -/
def takeMrr (c : Chan) : List MrrResult → List MrrResult
  | [] => []
  | r :: l => if r.chan = c then l else r :: takeMrr c l

/-- An RDMR that waits on this channel completes once the oldest result is there (02 R75). -/
def State.rdmrDone (s : State) (m : SmithId) (c : Chan) : State :=
  match s.smiths[m].wait, s.smiths[m].mrr.find? (fun r => r.chan == c) with
  | some (.rdmr d c'), some { value := some x, .. } =>
    if c' = c then
      ((s.onSmith m (fun h => { h with mrr := takeMrr c h.mrr })).setG m d (x.setWidth 32)).smithDone m
    else s
  | _, _ => s

/-- The byte of the upper die: 0 with a single x16 die (02 R75). -/
def upperDie {w : Nat} (c : Chan) (x : BitVec w) : BitVec w := if Config.byteMode c.val then x else 0

/-- MRR_RESULT (02 R74, R75): the result of the oldest MRR of a Smith crosses into the core. -/
def execMrrResult (c : Chan) (lower upper : Byte) (s : State) : Out :=
  .next (match (s.anvils[c]).mrrBurst with
    | none => s
    | some b =>
      match b.cmd.src with
      | .smith m =>
        let x : BitVec 16 := (upperDie c upper).setWidth 16 <<< 8 ||| lower.setWidth 16
        let s := s.onAnvil c (fun v => { v with bursts := v.bursts.erase b })
        (s.onSmith m (fun h => { h with mrr := fillMrr c x h.mrr })).rdmrDone m c
      | _ => s)

end Sys2Proof.Machine
end

