-- ==== Sys2Proof/Machine/AnvilReturn.lean ====
section
/-! DEFINITION. Read data that crosses back into the core: READ_DATA_RETURN (09 R294 to R313). -/

namespace Sys2Proof.Machine

/-- The row visit in which a burst was read is still in progress: its row is open, and has been since (R301). -/
def Anvil.visitOf (v : Anvil) (b : Burst) : Bool :=
  v.page b.cmd.rank b.cmd.bank == some b.cmd.row &&
  (v.hist.find? (fun e => e.code == .act && e.rank == b.cmd.rank && e.bank == b.cmd.bank)).all (fun e => decide (e.ck ≤ b.ck))

/-- A check sector read from the DRAM is held, unless a newer one is or its row seal is bad (R300, R305); under the swath code while the
row visit goes on (R301). -/
def State.holdRead (s : State) (c : Chan) (b : Burst) (q : Place) (pos : Nat) (was got : Sector) : State :=
  let v := s.anvils[c]
  if s.isCheck pos && (v.held q pos).isNone && v.fromDram c q.rank (v.cell c q pos) == was &&
      (!s.swath || (v.visitOf b && swSealGood got q c.val s.gid)) then
    s.onAnvil c (fun v => v.hold s.swath q pos got)
  else s

/-- The oldest client burst on its way back. -/
def Anvil.readBurst (v : Anvil) : Option Burst := v.bursts.find? (fun b => b.cmd.code == .rd)

/-- A command is a client WR to the row. -/
def Cmd.writesTo (l : Cmd) (q : Place) : Bool := l.clientWr && l.rank == q.rank && l.bank == q.bank && l.row == q.row

/-- A check sector whose row seal fails has been read: the row's visit is bad until the row is closed, and nothing more is written to the
row in it: a WR in the slot is taken back (R306). -/
def State.noteSeal (s : State) (c : Chan) (b : Burst) (q : Place) (pos : Nat) (got : Sector) : State :=
  if s.swath && pos == 31 && !swSealGood got q c.val s.gid && (s.anvils[c]).visitOf b then
    s.onAnvil c (fun v =>
      { v.dropChecks q with sealBad := if v.sealBad.contains q then v.sealBad else q :: v.sealBad
                            slot := v.slot.filter (fun l => !l.writesTo q) })
  else s

/-- A burst reaches the core with `err` added to what the DRAM drove. -/
def State.takeBurst (s : State) (c : Chan) (b : Burst) (err : Sector) : State :=
  let s := s.onAnvil c (fun v => { v with bursts := v.bursts.erase b })
  match b.cmd.src, b.data with
  | .readEnt seq pos, some d =>
    match s.anvils[c].reads.find? (fun e => e.seq == seq) with
    | none => s
    | some e =>
      let x := d ^^^ err
      let e := { e with flying := e.flying.erase pos, got := e.got ++ [(pos, x)] }
      let s := ((s.onRead c seq (fun _ => e)).holdRead c b e.place pos d x).noteSeal c b e.place pos x
      ((if s.readComplete c e then s.completeRead c e else s).settle c).turn c
  | _, _ => s

/-- The burst belongs to a client's access, which stays where it is after a Tongs bite (01 R34). -/
def State.burstHeld (s : State) (c : Chan) (b : Burst) : Bool :=
  s.tongs.bitten.isSome &&
  (match b.cmd.src with
    | .readEnt seq _ => s.anvils[c].reads.any (fun e => e.seq == seq && (match e.kind with
        | .demand _ _ | .preread _ => true
        | _ => false))
    | _ => false)

/-- READ_DATA_RETURN (R294 to R313). -/
def execReadDataReturn (c : Chan) (err : Sector) (now : Nat) (s : State) : Out :=
  .next (timed now (fun s => s.anvils[c].readBurst.any (fun b => !s.burstHeld c b))
    (fun s =>
      match s.anvils[c].readBurst with
      | some b => s.takeBurst c b err
      | none => s) s)

end Sys2Proof.Machine
end

