-- ==== Sys2Proof/Machine/Gleaner.lean ====
section
/-! DEFINITION. The Gleaner, the patrol and the checker self-test (09 R319 to R329). -/

namespace Sys2Proof.Machine

/-! ### The walk (R321, R323, R326) -/

/-- The Gleaner may visit mended rows (R321, R325). -/
def State.glnOn (s : State) (c : Chan) : Bool :=
  s.anvils[c].gln.state == .on && s.inService && decide (s.shed < 2)

/-- The Gleaner walks (R321). -/
def State.walking (s : State) (c : Chan) : Bool := s.glnOn c && !s.flag (aPAT_CTL c.val) 31

/-- GLN_CTL as it reads (Table 9.9). -/
def State.glnCtl (s : State) (c : Chan) : Word :=
  let f := s.anvils[c].gln
  let w := putBits (s.rd (aGLN_CTL c.val)) 30 29 f.state.code
  putBits (putBits w 28 28 (b2n f.pend)) 27 27 (b2n (f.state == .on && !s.walking c))

/-- The lowest row index at or above `r` that a written plot touches (R323). -/
def State.nextRow (s : State) (c : Chan) (r : Nat) : Option Nat :=
  let v := s.anvils[c]
  let plots := if v.plotBase then (List.range (v.plotExc.length + 2)).map (· + plotOf (r * s.rowSectors * 64)) else v.plotExc
  let rows := (plots.filter (fun p => v.written p && decide (p < s.nPlots) && decide (r ≤ (s.plotRows p).2))).map
    (fun p => max r (s.plotRows p).1)
  (rows.filter (fun x => decide (x * s.rowSectors * 64 < s.chanCap))).min?

/-- A plot lies in no encrypted region whose function is not ON (R323). -/
def State.plotKeyed (s : State) (c : Chan) (plot : Nat) : Bool :=
  (List.range 1024).all (fun n =>
    match s.xtsRegion (s.sysAddr c.val (plot * 65536 + n * 64)) with
    | some r => s.regionOn r
    | none => true)

/-- What the Gleaner turns to next. -/
inductive GlnNext where
  | row (ri : Nat) (mended last : Bool)
  | fill (plot : Nat)
  | newLap
  | nothing
deriving DecidableEq, Repr

/-- The choice of R323. -/
def State.glnNext (s : State) (c : Chan) : GlnNext :=
  let v := s.anvils[c]
  if !s.glnOn c || v.visit.isSome || !v.fills.isEmpty then .nothing
  else
    match v.mend with
    | ri :: _ => .row ri true false
    | [] =>
      if !s.walking c then .nothing
      else if 0 < s.fld (aFILL c.val) 13 0 then .fill (s.fld (aFILL c.val) 31 14)
      else
        match s.nextRow c v.walk with
        | some ri => .row ri false (s.nextRow c (ri + 1)).isNone
        | none => if v.lapStart.isSome ∨ 0 < v.walk then .newLap else .nothing

/-- A row visit begins: it reads all 32 sectors, or again the sectors `again` (R323). -/
def State.beginVisit (s : State) (c : Chan) (ri : Nat) (again : List Nat) (mended last : Bool) : State :=
  (s.onAnvil c (fun v =>
    { v with visit := some { row := ri, left := s.visitLines c (s.place c.val ri) again, got := [], dirty := false, again := again,
                             mended := mended, last := last } })).feedVisit c 4

/-- A Gleaner read may be queued (R322). -/
def State.visitOpen (s : State) (c : Chan) (ri : Nat) : Bool :=
  let v := s.anvils[c]
  let q := s.place c.val ri
  v.dir == .read && decide (v.rdq < 160) &&
  !s.queued c 0 q.bank && !s.queued c 1 q.bank &&
  !v.reads.any (fun e => s.rdsLeft c e && decide (2 ≤ v.effR e)) && !v.writes.any (fun w => decide (2 ≤ v.effW w))

/-- The lap in progress is recorded and ends (R326). -/
def State.endLap (s : State) (c : Chan) : State :=
  let t := BitVec.ofNat 64 (s.timebase - (s.anvils[c].lapStart).getD s.timebase)
  let s := (s.wr (aLAP_LO c.val) (t.setWidth 32)).wr (aLAP_HI c.val) ((t >>> 32).setWidth 32)
  s.onAnvil c (fun v => { v with walk := 0, lapStart := none, lapTold := false })

/-- GLN_FILL names a plot: it is filled, or passed over (R323). -/
def State.glnFill (s : State) (c : Chan) (plot : Nat) : State :=
  let s := (s.setFld (aFILL c.val) 31 14 (plot + 1)).setFld (aFILL c.val) 13 0 (s.fld (aFILL c.val) 13 0 - 1)
  if decide (plot < s.nPlots) && !s.anvils[c].written plot && s.plotKeyed c plot then s.startFill c plot 0 none else s

/-- GLEANER_VISIT (R322, R323, R325). -/
def execGleanerVisit (c : Chan) (now : Nat) (s : State) : Out :=
  .next (timed now (fun s => s.anvilOpen c)
    (fun s =>
      match s.glnNext c with
      | .nothing => s
      | .fill p => s.glnFill c p
      | .newLap => s.endLap c
      | .row ri mended last =>
        if !s.visitOpen c ri then s
        else
          let s := s.onAnvil c (fun v =>
            if mended then { v with mend := v.mend.tail }
            else { v with lapStart := some (v.lapStart.getD s.timebase) })
          s.beginVisit c ri [] mended last) s)

/-- The visit in progress, once every RD of it has returned and the write queue has room for what it may find (05 R173). -/
def State.visitRead (s : State) (c : Chan) : Option Visit :=
  let v := s.anvils[c]
  v.visit.filter (fun x => x.left.isEmpty && !v.reads.any ReadEnt.gleans && v.wrRoom findWrites)

/-- What a visit has read, decoded: every data sector of the row, or the sectors it reads again. -/
def State.visitFinds (s : State) (c : Chan) (x : Visit) : List (Nat × Decoded) :=
  (if x.again.isEmpty then s.rowNs else x.again).map (fun n => (n, s.decode c (s.place c.val x.row) x.got n))

/-- The visit is done: the walk goes on at the next row (R321, R323, R326). -/
def State.visitDone (s : State) (c : Chan) (x : Visit) : State :=
  if x.mended then s
  else if x.last then s.endLap c
  else s.onAnvil c (fun v => { v with walk := x.row + 1 })

/-- GLEANER_VISIT_END (R323, R324, R326). -/
def execGleanerVisitEnd (c : Chan) (now : Nat) (s : State) : Out :=
  .next (timed now (fun s => (s.visitRead c).isSome)
    (fun s =>
      match s.visitRead c with
      | none => s
      | some x =>
        let q := s.place c.val x.row
        let s := s.onAnvil c (fun v => { v with visit := none })
        if x.dirty then s.beginVisit c x.row x.again x.mended x.last
        else
          let ds := s.visitFinds c x
          let s := s.actFindings c 2 q x.got ds x.again
          let more := s.toConfirm ds x.again
          if more.isEmpty then s.visitDone c x else (s.closeRow c q).beginVisit c x.row more x.mended x.last) s)

/-- The Gleaner's own writes that have not reached the DRAM. -/
def Anvil.glnWrites (v : Anvil) : Bool := v.writes.any (fun w => !w.kind.encodes && w.heat == 0 && w.port.isNone)

/-- GLEANER_TRANSITION_END (R321, 13 R455): STARTING ends at once; STOPPING once the visit in progress and its writes
are complete. A new lap begins after OFF. -/
def execGleanerTransitionEnd (c : Chan) (s : State) : Out :=
  .next (
    let v := s.anvils[c]
    match v.gln.state with
    | .starting => s.onAnvil c (fun v => { v with gln := v.gln.started })
    | .stopping =>
      occur (v.visit.isNone && !v.glnWrites) s
        (s.onAnvil c (fun v => { v with gln := v.gln.stopped, walk := 0, lapStart := none, lapTold := false }))
    | _ => s)

/-- LAP_OVERDUE (R327). -/
def execLapOverdue (c : Chan) (now : Nat) (s : State) : Out :=
  .next (timed now
    (fun s =>
      let v := s.anvils[c]
      let limit := s.fld (aGLN_CTL c.val) 15 0
      decide (0 < limit) && !v.lapTold && v.lapStart.any (fun t => decide (t + limit * 1000000000 ≤ s.timebase)))
    (fun s => ((s.onAnvil c (fun v => { v with lapTold := true })).setFlag (aGLN_CTL c.val) 25 true).send c.val 0x1E
      sevInfo 0 0) s)

/-! ### Patrol (R328, R329) -/

/-- The patrol advances (R328). -/
def State.patrolling (s : State) (c : Chan) : Bool :=
  s.flag (aPAT_CTL c.val) 31 && s.inService && decide (s.shed < 2) && s.anvilOpen c

/-- POS has been passed over: the end of the pass is reached at END (R329). -/
def State.patrolNext (s : State) (c : Chan) : State :=
  let pos := s.fld (aPAT_POS c.val) 27 0 + 1
  if s.fld (aPAT_END c.val) 27 0 ≤ pos then
    let s := s.setFlag (aPAT_CTL c.val) 29 true
    if s.flag (aPAT_CTL c.val) 30 then s.setFld (aPAT_POS c.val) 27 0 (s.fld (aPAT_START c.val) 27 0)
    else (s.setFlag (aPAT_CTL c.val) 31 false).setFld (aPAT_POS c.val) 27 0 pos
  else s.setFld (aPAT_POS c.val) 27 0 pos

/-- One sector of the patrol; with no room in the read queue it waits (R328). -/
def State.patrolStep (s : State) (c : Chan) : State :=
  let pos := s.fld (aPAT_POS c.val) 27 0
  let p := s.secPlace c (pos * 64)
  if !s.patrolling c then s
  else if decide (pos * 64 < s.chanCap) && s.anvils[c].written (plotOf (pos * 64)) then
    if 160 ≤ s.anvils[c].rdq then s
    else (s.patrolRead c p.1 p.2 false).patrolNext c
  else s.patrolNext c

/-- PATROL_ADVANCE (R328, R329): RATE sectors in one µs of timebase. Time spent suspended is not made up. -/
def execPatrolAdvance (c : Chan) (now : Nat) (s : State) : Out :=
  .next (timed now (fun s => s.patrolling c && decide (s.anvils[c].patrolAt + 1000 ≤ s.timebase))
    (fun s =>
      let s := s.onAnvil c (fun v =>
        { v with patrolAt := if s.timebase < v.patrolAt + 2000 then v.patrolAt + 1000 else s.timebase })
      (List.range (s.fld (aPAT_CTL c.val) 7 0)).foldl (fun s _ => s.patrolStep c) s) s)

/-! ### Checker self-test (R319, R320) -/

/-- The self-test of an anvil begins: no request is accepted until it ends (R319). -/
def State.startSelfTest (s : State) (c : Chan) : State :=
  (s.setFlag (aECC_STAT c.val) 31 false).onAnvil c (fun v => { v with testing := true })

/-- ANV_STAT.KEPTOFF changes, and with it the anvil's request (R320, 18 R569). -/
def State.anvilRequest (s : State) (c : Chan) : State :=
  let want := s.populated c.val && !s.keptOff c.val
  s.onAnvil c (fun v => { v with fn := v.fn.request want })

/-- SELF_TEST_END (R320). The result decides the kept-off state only in KINDLE. -/
def execSelfTestEnd (c : Chan) (failing : Option (Fin 96)) (s : State) : Out :=
  .next (occur s.anvils[c].testing s (
    let s := (s.setFlag (aECC_STAT c.val) 31 true).onAnvil c (fun v => { v.unsee with testing := false })
    let s := s.setFlag (aECC_STAT c.val) 30 failing.isSome
    let s := if s.modes.mode = .kindle then
        (s.setFlag (aSTAT c.val) 28 (failing.isSome || s.anvils[c].macroOff)).anvilRequest c
      else s
    match failing with
    | some f => (s.setFld (aECC_STAT c.val) 22 16 f.val).send c.val 0x16 sevUncorrected 0 f.val
    | none => s))

end Sys2Proof.Machine
end

