-- ==== Sys2Proof/Machine/Hedge.lean ====
section
/-! DEFINITION. Hedge: violations and the security alarm, QUENCH, the key port, region transitions and buffer
releases (14 R474 to R487, 13 R444). -/

namespace Sys2Proof.Machine

/-! ### QUENCH (13 R444) -/

/-- A request that has no answer yet is answered DENIED; a write that owes beats takes them first (03 R120). -/
def State.denyReq (s : State) (p : PortId) (r : Req) : State :=
  if r.stage = .answered ∨ r.stage = .draining then s
  else if r.owes then s.onPort p (fun v => v.onReq r.id (fun r => { r with stage := .draining, refusal := some .denied }))
  else s.answer p r.id .denied

/-- Every accepted request of a port that has no answer is answered DENIED. -/
def State.denyPort (s : State) (p : PortId) : State :=
  let s := s.ports[p].reqs.foldl (fun s r => s.denyReq p r) s
  s.onPort p (fun v =>
    { v with selected := none, labels := v.labels.map (fun l => { l with parked := none })
             reserved := ((v.respq.filter Resp.data).map (fun r => r.beats.length)).sum })

/-- Pauses of a channel end; an ENDP still owed finds the pause no longer held. -/
def Anvil.dropPauses (v : Anvil) : Anvil :=
  { v with pauses := [], granted := [], owed := v.owed.map (fun o => (o.1, true)), heat7 := orderAfterPause v.heat7 }

/-- The queues of an anvil are discarded; the burst in progress completes. -/
def Anvil.discard (v : Anvil) : Anvil :=
  { v.dropPauses with reads := [], writes := [], fills := [], feed := [], visit := none, groupRun := none,
                      sealBad := [], sealRetry := [], slot := v.slot.filter (fun l => !l.client) }

/-- What an anvil does at the security alarm: its queues are discarded, refresh ends (06 R212), the neighbour refreshes of
06 R232, SRE. -/
def State.quenchAnvil (s : State) (c : Chan) : State :=
  ((((s.onAnvil c Anvil.discard).stopRefresh c).pushPrea c).hammerSweep c).pushSre c .close

/-- What a slice discards at the security alarm; its sweeps go on. -/
def Slice.discard (l : Slice) : Slice :=
  { l with inq := [], pfq := [], fills := [], miss := [], merge := [], cleaning := l.cleaning.map (fun e => (e.1, [])) }

/-- A transition in progress ends, and a recorded request is judged in QUENCH, which accepts none (R432, R435). -/
def State.endByAlarm (s : State) : State :=
  let s := if s.modes.recorded.isSome then s.setFlag aMODE 30 true else s
  ((s.setFlag aMODE 29 false).setFlag aMODE_REQ 31 false).onModes
    (fun m => { m with recorded := none, step := .none, offRun := false })

/-- GLB_MODE leaves KINDLE: the mapping is locked and RETAIN falls (04 R170, 19 R580). -/
def State.kindleLeft (s : State) : State := (s.setFlag aCAP 31 true).setFlag aMODE 27 false

/-- A run of the Assay engine ends with the alarm: only RST_N leaves QUENCH (13 R437, R444; DEDUCED, log entry 84). -/
def State.endAssay (s : State) : State :=
  if s.assay.run.isNone then s else { s.setFlag aAST_STAT 30 false with assay := { s.assay with run := none } }

/-- QUENCH is entered (R444, 17 R546). DEDUCED (log entry 84): it is no transition that UF24 begins, and sets no event 3 (02
R60). From COLD no block has anything to discard. -/
def State.enterQuench (s : State) : State :=
  let cold := s.modes.mode == .cold
  let s := if s.inService then s.leaveGang .quench else s
  let s := if s.modes.mode = .kindle then s.kindleLeft else s
  let s := allPorts.foldl (fun s p => s.denyPort p) s
  let s := { s with pieces := [], tongs := { s.tongs with reqNet := [], retNet := [], since := [] },
                    slices := s.slices.map Slice.discard }
  let s := if cold then s else s.popChans.foldl (fun s c => s.quenchAnvil c) s
  (s.endByAlarm.endAssay.setMode .quench).endHandler

/-! ### Violations (R485 to R487) -/

/-- STOPPING of a region begins (R477 steps 1 to 3): no staged key, a key-erasure sweep, and its merge entries are
flushed. -/
def State.regionStopping (s : State) (r : RegionId) (staged : Bool) : State :=
  let s := if staged then s else s.onRegion r (fun x => { x with k1 := none, k2 := none })
  let s := s.keySweep r
  allChans.foldl (fun s c => s.onSlice c (fun l => l.flushIf (fun m => s.covers r (s.lineAddr c m.line)))) s

/-- The request of a region changes (R476); a STOPPING that begins takes its first steps. -/
def State.regionRequest (s : State) (r : RegionId) (want : Bool) : State :=
  let was := s.hedge.regions[r].fn.state
  let s := s.onRegion r (fun x => { x with fn := x.fn.request want })
  if was != .stopping && s.hedge.regions[r].fn.state == .stopping then s.regionStopping r false else s

/-- The keys of a region are zeroized at the alarm, and its request is OFF; an OFF region has no sweep of its own, so
every encrypted region is swept here (R487). -/
def State.alarmRegion (s : State) (r : RegionId) : State :=
  let was := s.hedge.regions[r].fn.state
  let s := (s.onRegion r (fun x => { x with k1 := none, k2 := none, engine := none })).regionRequest r false
  if s.xts r && !(was == .on) then s.keySweep r else s

/-- The security alarm (R487). After a Tongs bite GLB_MODE keeps its value (13 R440). -/
def State.raiseAlarm (s : State) (type : Nat) : State :=
  if s.hedge.alarm then s
  else
    let s := s.send 0x51 0x19 sevFatal 0 type
    let s := (s.onHedge (fun h => { h with alarm := true })).setFlag aHDG_STAT 31 true
    let s := s.setFld aHDG_STAT 29 26 type
    let s := allRegions.foldl (fun s r => s.alarmRegion r) s
    if s.tongs.bitten.isSome || s.modes.mode == .banked || s.modes.mode == .quench then s else s.enterQuench

/-- Hedge sends the message of a violation: at most one of class B in 1,024 ns (R486). -/
def State.violMsg (s : State) (a : Bool) (addr detail : Nat) : State :=
  if a then s.send 0x51 0x0C sevFatal addr detail
  else if s.hedge.lastB.any (fun t => decide (s.timebase < t + 1024)) then s
  else (s.onHedge (fun h => { h with lastB := some s.timebase })).send 0x51 0x0C sevInfo addr detail

/-- A violation of types 0 to 7 and 10 (R485, R486, R487). -/
def State.violation (s : State) (type addr detail : Nat) : State :=
  let a := s.classA type
  let s := (s.recordViol a detail).violMsg a addr detail
  if a then s.raiseAlarm type else s

/-! ### Key port (R474 to R476) -/

/-- KP_READY: low in COLD, KINDLE, BANKED and QUENCH, and after the alarm (R478, R487). -/
def State.kpReady (s : State) : Bool :=
  (s.inService || s.modes.mode == .assay) && !s.hedge.alarm

/-- An operation breaks R474. -/
def keyOpBad : List KeyBeat → Bool
  | [] => false
  | b :: l =>
    b.op == 3 || ((b.op == 0 || b.op == 1) && l.length != 7) || (b.op == 2 && !l.isEmpty) ||
    l.any (fun x => x.op != b.op || x.region != b.region)

/-- The key of eight beats: beat i holds key bits [32i+31:32i] (Table 14.4). -/
def keyOf (l : List KeyBeat) : BitVec 256 :=
  BitVec.ofNat 256 ((l.mapIdx (fun i b => b.data.toNat * 2 ^ (32 * i))).sum)

/-- A LOAD is accepted (R475). -/
def State.loadOpen (s : State) (r : RegionId) : Bool :=
  (s.lifecycle == 1 || s.lifecycle == 2) && s.xts r &&
  (s.hedge.regions[r].fn.state == .off || s.hedge.regions[r].fn.state == .stopping)

/-- A LOAD of K1 or K2 (R475). -/
def State.loadKey (s : State) (second : Bool) (r : RegionId) (k : BitVec 256) : State :=
  if s.loadOpen r then
    let s := s.onRegion r (fun x => if second then { x with k2 := some k } else { x with k1 := some k })
    let x := s.hedge.regions[r]
    s.regionRequest r (x.k1.isSome && x.k2.isSome)
  else
    (s.setFlag aKEYHELD (24 + r.val) true).violation 4 0 (violDetail (some r) 4 true 0)

/-- An ERASE (R476). -/
def State.eraseKeys (s : State) (r : RegionId) : State :=
  (s.onRegion r (fun x => { x with k1 := none, k2 := none })).regionRequest r false

/-- An operation of the key port, framed by KP_LAST, whose first beat carries `op` or the reserved code (R474). -/
def State.keyOp (s : State) (op : BitVec 2) (beats : List KeyBeat) : State :=
  match beats with
  | [] => s
  | b :: _ =>
    if !s.kpReady || !(b.op == op || b.op == 3) then s
    else if keyOpBad beats then s.violation 10 0 (violDetail none 10 false 0)
    else if op = 2 then s.eraseKeys b.region
    else s.loadKey (op == 1) b.region (keyOf beats)

/-- LOAD_K1 (R474, R475). -/
def execLoadK1 (beats : List KeyBeat) (s : State) : Out := .next (s.keyOp 0 beats)

/-- LOAD_K2 (R474, R475). -/
def execLoadK2 (beats : List KeyBeat) (s : State) : Out := .next (s.keyOp 1 beats)

/-- ERASE (R474, R476). -/
def execErase (beats : List KeyBeat) (s : State) : Out := .next (s.keyOp 2 beats)

/-- A host write of HDG_KEYCTL (R476, Table 14.10). -/
def State.keyctl (s : State) (w : Word) : State :=
  (allRegions.filter (fun r => wbit w r.val)).foldl (fun s r => s.eraseKeys r) s

/-! ### Region transitions (R476, R477) -/

/-- REGION_STARTING_END (R476): the staged keys are in every engine. -/
def execRegionStartingEnd (r : RegionId) (s : State) : Out :=
  .next (occur (s.hedge.regions[r].fn.state == .starting) s (
    let s := s.onRegion r (fun x =>
      { x with fn := x.fn.started
               engine := match x.k1, x.k2 with
                 | some a, some b => some (a, b)
                 | _, _ => none })
    if s.hedge.regions[r].fn.state = .stopping then s.regionStopping r false else s))

/-- A slice has a key-erasure sweep of the region left. -/
def State.sweepLeft (s : State) (c : Chan) (r : RegionId) : Bool :=
  let sp := s.regionSpan r
  let mine := fun (x : Range) => x.key && x.base == sp.1 && x.size == sp.2
  s.slices[c].rangesLeft.any mine || s.slices[c].sweep.any mine

/-- A merge entry, write entry or plot fill of the region is left in a channel (R477 step 3). -/
def State.writesLeft (s : State) (c : Chan) (r : RegionId) : Bool :=
  s.slices[c].merge.any (fun m => s.covers r (s.lineAddr c m.line)) ||
  s.anvils[c].writes.any (fun w => w.secs.any (fun x => s.covers r (s.secAddr c w.place x.pos))) ||
  s.anvils[c].feed.any (fun w => w.secs.any (fun x => s.covers r (s.secAddr c w.place x.pos))) ||
  s.anvils[c].fills.any (fun f => (List.range 1024).any (fun n => s.covers r (s.sysAddr c.val (f.plot * 65536 + n * 64))))

/-- REGION_STOPPING_END (R477 steps 3 to 5): the engine keys are zeroized, and a LOAD accepted meanwhile begins
STARTING. -/
def execRegionStoppingEnd (r : RegionId) (s : State) : Out :=
  .next (occur (s.hedge.regions[r].fn.state == .stopping &&
      s.popChans.all (fun c => !s.sweepLeft c r && !s.writesLeft c r)) s
    (s.onRegion r (fun x => { x with engine := none, fn := x.fn.stopped })))

/-! ### Buffer release (R481 to R484) -/

/-- A release covers a system address. -/
def Release.holds (r : Release) (a : Nat) : Bool := decide (r.base ≤ a ∧ a < r.base + 64 * r.size)

/-- System addresses of the sectors of a release. -/
def Release.sectors (r : Release) : List Nat := (List.range r.size).map (fun i => r.base + 64 * i)

/-- The cause for which a release is refused, if any (R482), in the order of its table; cause 1 looks at the sectors
inside the user capacity. -/
def State.releaseRefused (s : State) (r : Release) : Option Nat :=
  let inside := r.sectors.filter (fun a => decide (a < s.gangCap))
  if r.claim ≠ r.owner then some 0
  else if inside.any (fun a => s.banking (s.spot (s.gangMap a).2).la ||
      (s.regionOf a).any (fun k => !s.mayWrite k r.claim)) then some 1
  else if r.size = 0 ∨ s.gangCap < r.base + 64 * r.size then some 2
  else if inside.any (fun a => (s.xtsRegion a).any (fun k => !s.regionOn k)) then some 3
  else none

/-- Sectors of plot `p` of channel `c`, by index in the plot, that a release covers. -/
def State.releasedIn (s : State) (c : Chan) (r : Release) (p : Nat) : List Nat :=
  (List.range 1024).filter (fun n =>
    decide (p * 65536 + n * 64 < s.chanCap) && r.holds (s.sysAddr c.val (p * 65536 + n * 64)))

/-- Written plots of a channel that hold a sector of the range. -/
def State.releasedPlots (s : State) (c : Chan) (r : Release) : List Nat :=
  (List.range s.nPlots).filter (fun p => s.anvils[c].written p && !(s.releasedIn c r p).isEmpty)

/-- A plot lies wholly inside the range. -/
def State.whollyIn (s : State) (c : Chan) (r : Release) (p : Nat) : Bool :=
  (List.range 1024).all (fun n =>
    decide (s.chanCap ≤ p * 65536 + n * 64) || r.holds (s.sysAddr c.val (p * 65536 + n * 64)))

/-- Sectors at rising channel-local addresses by the write entry they share: one line of one row each (05 R173), with what is written. -/
def State.byLine (s : State) (c : Chan) (l : List (Nat × WSec)) : List (Place × List WSec) :=
  (l.foldr (fun x (acc : List ((Place × Nat) × List WSec)) =>
    let p := s.secPlace c x.1
    let w := { x.2 with pos := p.2 }
    match acc with
    | (k, ws) :: more => if k = (p.1, x.1 / 128) then (k, w :: ws) :: more else ((p.1, x.1 / 128), [w]) :: acc
    | [] => [((p.1, x.1 / 128), [w])]) []).map (fun e => (e.1.1, e.2))

/-- Writes of the anvil's own arrive and enter its write queue as it has room (log entry 68). -/
def State.feedLines (s : State) (c : Chan) (save : Bool) (l : List (Nat × WSec)) : State :=
  ((s.byLine c l).foldl (fun s x => s.arriveFeed c save x.1 x.2) s).feedWrites c

/-- Zeros with P = 0 are to be written to sectors of a plot (R484 step 3). -/
def State.zeroWrites (s : State) (c : Chan) (p : Nat) (ns : List Nat) : State :=
  s.feedLines c false (ns.map (fun n => (p * 65536 + n * 64, zeroSec n)))

/-- What an honoured release does in one anvil (R484 steps 2 and 3). -/
def State.releaseIn (s : State) (c : Chan) (r : Release) : State :=
  (s.releasedPlots c r).foldl (fun s p =>
    if s.whollyIn c r p then s.onAnvil c (fun v => v.markPlot p false)
    else s.zeroWrites c p (s.releasedIn c r p)) s

/-- The front of the release queue leaves it. -/
def State.popRelease (s : State) : State := s.onHedge (fun h => { h with queue := h.queue.tail, honour := false })

/-- Messages at the front of the queue are refused, found idempotent, or marked to be honoured (R482, R483). -/
def State.judgeReleases (s : State) : Nat → State
  | 0 => s
  | fuel + 1 =>
    match s.hedge.queue with
    | [] => s
    | r :: _ =>
      if s.hedge.honour then s
      else
        match s.releaseRefused r with
        | some cause =>
          State.judgeReleases (((s.popRelease.count aRELSTAT 15 8).send 0x51 0x0D sevInfo r.base
            (r.claim + r.owner * 2 ^ 7 + cause * 2 ^ 14))) fuel
        | none =>
          if s.popChans.all (fun c => (s.releasedPlots c r).isEmpty) then
            State.judgeReleases ((s.popRelease.count aRELSTAT 23 16).send 0x51 0x0E sevInfo r.base r.owner) fuel
          else s.onHedge (fun h => { h with honour := true })

/-- REL_READY (R481). -/
def State.relReady (s : State) : Bool :=
  decide (s.hedge.queue.length < 8) && s.modes.mode != .cold && s.modes.mode != .banked

/-- Write entries of a channel that hold a sector of the range. -/
def State.releaseWrites (s : State) (c : Chan) (r : Release) : List (Chan × Nat) :=
  let v := s.anvils[c]
  let mine := fun (q : Place) (l : List WSec) => l.any (fun x => r.holds (s.secAddr c q x.pos))
  ((v.writes.filter (fun w => mine w.place w.secs)).map WriteEnt.seq ++
    (v.feed.filter (fun w => mine w.place w.secs)).map FeedWrite.seq).map (fun n => (c, n))

/-- Merge entries of a slice that hold a sector of the range. -/
def State.releaseMerges (s : State) (c : Chan) (r : Release) : List (Chan × Nat) :=
  (s.slices[c].merge.filter (fun m =>
    (m.smask.1 && r.holds (s.sysAddr c.val (128 * m.line))) ||
    (m.smask.2 && r.holds (s.sysAddr c.val (128 * m.line + 64))))).map (fun m => (c, m.id))

/-- BUFFER_RELEASE: a message is accepted (R481 to R483). -/
def execBufferRelease (base : BitVec 35) (size : BitVec 30) (claim owner : PortId) (s : State) : Out :=
  .next (occur s.relReady s (
    let r : Release :=
      { base := base.toNat * 64, size := size.toNat, claim := claim.val, owner := owner.val, writes := [], merges := [] }
    let r := { r with writes := s.popChans.flatMap (fun c => s.releaseWrites c r)
                      merges := s.popChans.flatMap (fun c => s.releaseMerges c r) }
    (s.onHedge (fun h => { h with queue := h.queue ++ [r] })).judgeReleases 9))

/-- Every write that the front message waits for has reached the DRAM (R484 step 1). -/
def State.releaseSettled (s : State) (r : Release) : Bool :=
  r.writes.all (fun e => !s.anvils[e.1].entryLive e.2) &&
  r.merges.all (fun e => !s.slices[e.1].merge.any (fun m => m.id == e.2))

/-- RELEASE_HONOUR (R484): the honoured message at the front takes effect, and the next one is judged. It waits while the
invalidation queue of a slice is full (10 R369). -/
def execReleaseHonour (now : Nat) (s : State) : Out :=
  .next (timed now (fun s => s.hedge.honour && s.hedge.queue.head?.any (fun r => s.releaseSettled r) &&
      s.popChans.all (fun c => s.slices[c].rangeRoom))
    (fun s =>
      match s.hedge.queue with
      | [] => s
      | r :: _ =>
        let s := s.popChans.foldl (fun s c => s.releaseIn c r) s
        let s := (s.queueRange { base := r.base, size := 64 * r.size, key := false, full := false }).popRelease
        (s.count aRELSTAT 7 0).judgeReleases 9) s)

/-- HDG_RELSTAT as it reads (Table 14.13). -/
def State.relstat (s : State) : Word := putBits (s.rd aRELSTAT) 31 28 s.hedge.queue.length

end Sys2Proof.Machine
end

