-- ==== Sys2Proof/Machine/Loft.lean ====
section
/-! DEFINITION. The steps of a Loft slice (10 R337 to R373) and Hedge's verdict at its input (14 R469). -/

namespace Sys2Proof.Machine

/-! ### The head of the input (R338 to R340) -/

/-- The piece at the head of a slice's input. -/
def State.headPiece (s : State) (c : Chan) : Option Piece := s.slices[c].inq.head?.bind s.piece

/-- Channel-local address of sector `i` of a piece. -/
def State.pieceLa (s : State) (x : Piece) (i : Nat) : Nat := (s.spot (s.gangMap x.addr).2).la + 64 * i

/-- The head leaves the input. -/
def State.popHead (s : State) (c : Chan) : State := s.onSlice c (fun l => { l with inq := l.inq.tail })

/-- The return-network output of a piece: its port, or the link it came by. -/
def Piece.returnOutput (x : Piece) : Nat :=
  match x.origin with
  | .port p _ _ => p.val
  | .link k _ => 128 + k.val

/-- The answer of a piece enters the return network (R340). -/
def State.reply (s : State) (c : Chan) (tag : Nat) : State :=
  match s.piece tag with
  | some x => s.tongsPush true { output := x.returnOutput, input := c.val, heat := x.heat, tag := tag }
  | none => s

/-- A piece is answered with one status and no data. -/
def State.replyStatus (s : State) (c : Chan) (tag : Nat) (st : Status) : State :=
  (s.onPiece tag (fun x => { x with status := some st, results := [] })).reply c tag

/-- A READ piece whose sectors have all been answered is sent; KEY_ABSENT stands for the whole piece (R371). -/
def State.finishRead (s : State) (c : Chan) (tag : Nat) : State :=
  match s.piece tag with
  | none => s
  | some x =>
    if x.status.isSome || x.results.length < x.sectors then s
    else if x.results.any (fun r => r.2.status == .keyAbsent) then s.replyStatus c tag .keyAbsent
    else s.reply c tag

/-- The sectors of a line that a piece asks for next: the halves and how many. -/
def State.lineHalves (s : State) (x : Piece) : List Bool :=
  let la := s.pieceLa x x.next
  if la / 64 % 2 = 1 then [true] else if x.next + 1 < x.sectors then [false, true] else [false]

/-- The line of the next sector of a piece. -/
def State.nextLine (s : State) (x : Piece) : Nat := s.pieceLa x x.next / 128

/-- A slice may take a line from its inputs: in blocking mode only while no miss register is open (R346). -/
def State.lineOpen (s : State) (c : Chan) : Bool := !s.blocking c || s.slices[c].miss.isEmpty

/-- The sweep in progress covers a line (R370). -/
def State.sweeping (s : State) (c : Chan) (line : Nat) : Bool :=
  s.slices[c].sweep.any (fun r => decide (r.base ≤ s.lineAddr c line ∧ s.lineAddr c line < r.base + r.size))

/-! ### Hedge's verdict (R37, 14 R469) -/

/-- A piece that Hedge refuses is answered, and a violation is raised where it is one (14 R469, R486). The address is
that of the piece (DEDUCED, log entry 16). -/
def State.refusePiece (s : State) (c : Chan) (x : Piece) (st : Status) (v : Option Nat) : State :=
  let s := (s.popHead c).replyStatus c x.tag st
  match v with
  | some t => s.violation t x.addr (violDetail (s.regionOf x.addr) t (isWriteOp x.op) x.port)
  | none => s

/-! ### Errors of the line store and the rick (R372, R373) -/

/-- An error met by the lookup of a line (Table 10.7); the way of a rick line is given as 0 (log entry 54). -/
def State.lookupErr (s : State) (c : Chan) (line : Nat) (err : StoreErr) : State :=
  let set := lineSet line
  let place := match s.findWay c line with
    | some x => some (0, x.way)
    | none => (s.findRick c line).map (fun _ => (1, 0))
  match err, place with
  | .none, _ => s
  | .tag way, _ =>
    (s.onSlice c (fun l => { l with ways := l.ways.filter (fun x => lineSet x.line != set) })).loftCorrected c line
      (storeDetail 3 way.val set)
  | .single, some (store, way) => (s.count (aLSTAT c.val) 7 0).loftCorrected c line (storeDetail store way set)
  | .double _ _, some (store, way) =>
    (s.onSlice c (fun l =>
      if store = 0 then { l with ways := l.ways.filter (fun x => x.line != line) }
      else { l with rick := l.rick.filter (fun x => x.line != line) })).loftCorrected c line (storeDetail store way set)
  | _, none => s

/-! ### Lookup, recall and installation (R334 to R337, R352, R353) -/

/-- A prefetched line is used by a READ (Table 10.2). -/
def State.usedPrefetch (s : State) (c : Chan) (x : Line) (read : Bool) : State :=
  if read && x.pref then
    (s.setFld (aPF c.val) 31 18 (s.fld (aPF c.val) 31 18 + 1)).onSlice c (fun l => { l with used := l.used + 1 })
  else s

/-- A line is installed into the victim way; a displaced line goes to the rick while that is ON, at `place` where a
recall frees a place (R335, R352, R353). -/
def State.install (s : State) (c : Chan) (x : Line) (pin : Bool) (place : Option Nat) : State :=
  match s.eligibleWays c pin with
  | [] => s
  | e =>
    let set := lineSet x.line
    let keepRick := s.loftState fnRick == .on
    s.onSlice c (fun l =>
      let w := l.victim set e
      let here := fun (y : Line) => y.way == w && lineSet y.line == set
      let out := l.ways.find? here
      let rick := match out, place with
        | none, _ => l.rick
        | some y, some i => l.rick.take i ++ y :: l.rick.drop i
        | some y, none => (if 64 ≤ l.rick.length then l.rick.tail else l.rick) ++ [y]
      ({ l with ways := { x with way := w } :: l.ways.filter (fun y => !here y)
                rick := if keepRick then rick else l.rick }).touch set w)

/-- A lookup that hits: the line as it stood, and the slice after the hit or the recall. A line in the range of a sweep
in progress is treated as a miss (R370). -/
def State.lookup (s : State) (c : Chan) (line : Nat) (pin read : Bool) : Option Line × State :=
  if s.sweeping c line then (none, s)
  else
    match s.findWay c line with
    | some x =>
      (some x, (s.usedPrefetch c x read).onSlice c (fun l =>
        { l.touch (lineSet line) x.way with
          ways := l.ways.map (fun y => if y.line = line then { y with pref := y.pref && !read } else y) }))
    | none =>
      match s.findRick c line with
      | none => (none, s)
      | some x =>
        let s := s.usedPrefetch c x read
        let x' := { x with pref := x.pref && !read }
        if (s.eligibleWays c pin).isEmpty then
          (some x, s.onSlice c (fun l => { l with rick := l.rick.map (fun y => if y.line = line then x' else y) }))
        else
          let i := s.slices[c].rick.findIdx (fun y => y.line == line)
          (some x, (s.onSlice c (fun l => { l with rick := l.rick.filter (fun y => y.line != line) })).install c x' pin (some i))

/-! ### Miss registers (R341 to R343) -/

/-- The result of taking a line from the input: it proceeds, or it holds the head. -/
inductive Took where
  | done (s : State)
  | held (s : State)

/-- Queued read entries of a miss take a higher heat (R341, 05 R176). -/
def State.raiseMiss (s : State) (c : Chan) (id heat : Nat) : State :=
  let s := s.onSlice c (fun l => { l with miss := l.miss.map (fun m => if m.id = id then { m with heat := max m.heat heat } else m) })
  s.onAnvil c (fun v => { v with reads := v.reads.map (fun e =>
    match e.kind with
    | .demand i _ => if i = id then { e with heat := max e.heat heat } else e
    | _ => e) })

/-- A new miss register. -/
def State.openMiss (s : State) (c : Chan) (line : Nat) (opener : Opener) (ws : List Waiter) (heat : Nat) (pin : Bool)
    (port : Option Nat) (gone : Bool := false) : State :=
  s.onSlice c (fun l =>
    { l with nextId := l.nextId + 1, miss := l.miss ++
        [{ id := l.nextId, line := line, sent := false, drop := false, keyDrop := gone, opener := opener,
           waiters := ws, heat := heat, pin := pin, port := port }] })

/-- The port of a piece for the slot grant: a local client port, or a peer's port, numbered from 128 up by link, which
no slot entry can name (12 R411). -/
def Piece.client (x : Piece) : Option Nat :=
  match x.origin with
  | .port p _ _ => some p.val
  | .link k _ => some (128 * (k.val + 1) + x.port)

/-- ATTR.pin. -/
def Piece.pin (x : Piece) : Bool := bit x.attr.toNat 0

/-- ATTR.stream. -/
def Piece.stream (x : Piece) : Bool := bit x.attr.toNat 2

/-- A line lies in a range (R370). -/
def State.inRange (s : State) (c : Chan) (r : Range) (line : Nat) : Bool :=
  decide (r.base ≤ s.lineAddr c line ∧ s.lineAddr c line < r.base + r.size)

/-- A line of a piece whose keys have been erased since Hedge permitted the piece: its fill answers KEY_ABSENT (14 R480). -/
def State.keysGone (s : State) (c : Chan) (x : Piece) (line : Nat) : Bool := x.erased.any (fun r => s.inRange c r line)

/-- A READ's or HINT's line misses (R341, R343); only a READ becomes a waiter. -/
def State.missLine (s : State) (c : Chan) (x : Piece) (line : Nat) (halves : List Bool) (hint : Bool) : Took :=
  let regs := s.slices[c].miss.filter (fun m => m.line == line)
  let w : List Waiter := if hint then [] else [{ tag := x.tag, secs := (halves.contains false, halves.contains true) }]
  match regs.find? (fun m => !m.drop) with
  | some m =>
    if hint then .done s
    else if 16 ≤ m.waiters.length then .held s
    else
      .done ((s.onSlice c (fun l =>
        { l with miss := l.miss.map (fun y =>
            if y.id = m.id then { y with waiters := y.waiters ++ w, keyDrop := y.keyDrop || s.keysGone c x line } else y) })).raiseMiss
          c m.id x.heat)
  | none =>
    if 2 ≤ regs.length ∨ 64 ≤ s.slices[c].miss.length then .held s
    else .done (s.openMiss c line (if hint then .hint else .read x.tag) w x.heat x.pin x.client (s.keysGone c x line))

/-! ### Prefetch training (R355, R356) -/

/-- The update of the detectors at a training event: the predicted step, where there is one. -/
def trainDetector (l : List Detector) (port label : Nat) (a : Int) : List Detector × Option Int :=
  match l.find? (fun d => d.port == port && d.label == label) with
  | none =>
    ({ port := port, label := label, last := a, step := 0, conf := 0 } :: (if 512 ≤ l.length then l.dropLast else l), none)
  | some d =>
    let t := a - d.last
    let same := decide (t = d.step ∧ t ≠ 0)
    let d' : Detector := { d with last := a, step := if same then d.step else t, conf := if same then min (d.conf + 1) 3 else 0 }
    (d' :: l.filter (fun y => !(y.port == port && y.label == label)),
     if 1 ≤ d'.conf ∧ t.natAbs ≤ 2 ^ 20 then some t else none)

/-- One predicted line goes to its slice, within the slice's quota (R356). -/
def State.sendPrefetch (s : State) (quota : List (Nat × Nat)) (port : Nat) (pin : Bool) (y : Int) :
    State × List (Nat × Nat) :=
  let a := y.toNat * 128
  let ia := s.gangMap a
  let sp := s.spot ia.2
  let used := (quota.lookup sp.chan).getD 0
  if y < 0 ∨ ia.1 ≠ s.gid ∨ s.instCap ≤ ia.2 ∨ s.gangCap ≤ a ∨ s.banking sp.la = true ∨
      s.fld (aPF sp.chan) 3 0 ≤ used then (s, quota)
  else
    (s.onSlice (chanOf sp.chan) (fun l => { l with pfq := l.pfq ++ [{ line := sp.la / 128, port := port, pin := pin }] }),
     (sp.chan, used + 1) :: quota.filter (fun e => e.1 != sp.chan))

/-- A training event (R356). -/
def State.train (s : State) (port label lines addr : Nat) (pin : Bool) : State :=
  let r := trainDetector s.detect port label ((addr / 128 : Nat) : Int)
  let s := { s with detect := r.1 }
  match r.2 with
  | none => s
  | some t =>
    ((List.range lines).foldl (fun (acc : State × List (Nat × Nat)) i =>
      acc.1.sendPrefetch acc.2 port pin (((addr / 128 : Nat) : Int) + t + (i : Int))) (s, [])).1

/-- The piece that holds the first sector of a local stream READ trains its detector (R355). -/
def State.trainPiece (s : State) (x : Piece) : State :=
  match x.origin with
  | .port p req 0 =>
    if x.op = 0 ∧ x.stream = true ∧ s.loftState fnPf = .on then
      match s.ports[p].reqs.find? (fun r => r.id == req) with
      | some r =>
        let lines := (x.addr / 64 + r.len) / 2 + 1 - x.addr / 128
        s.train p.val r.label lines x.addr x.pin
      | none => s
    else s
  | _ => s

/-- The head is judged once; a permitted piece goes on (R37, R355). -/
def State.judge (s : State) (c : Chan) (x : Piece) : State × Bool :=
  if x.judged then (s, true)
  else
    match s.verdict x.op x.port x.addr with
    | .refuse st v => (s.refusePiece c x st v, false)
    | .permit => ((s.onPiece x.tag (fun x => { x with judged := true })).trainPiece x, true)

/-! ### LOFT_READ (R340, R341, R353) -/

/-- The answer of a half of a held line (R340). -/
def Line.answer (x : Line) (half : Bool) : SecRes :=
  let bad := if half then x.pois.2 else x.pois.1
  { status := if bad then .poison else .ok, data := if half then x.data.2 else x.data.1, poisoned := bad }

/-- Sector of a piece, counted from its first, that a half of a line is. -/
def State.sectorOf (s : State) (x : Piece) (line : Nat) (half : Bool) : Nat :=
  (128 * line + (if half then 64 else 0) - s.pieceLa x 0) / 64

/-- Sector results join a piece, in address order. -/
def State.giveResults (s : State) (tag : Nat) (rs : List (Nat × SecRes)) : State :=
  s.onPiece tag (fun x => { x with results := rs.foldl (fun l r => SMap.insert l r.1 r.2) x.results })

/-- One line of a READ. -/
def State.readLine (s : State) (c : Chan) (x : Piece) (err : StoreErr) : Took :=
  let line := s.nextLine x
  let halves := s.lineHalves x
  let s := s.lookupErr c line err
  match s.lookup c line x.pin true with
  | (some l, s) => .done (s.giveResults x.tag (halves.map (fun h => (s.sectorOf x line h, l.answer h))))
  | (none, s) => s.missLine c x line halves false

/-- Lines of the head are taken in address order until one holds the head or none is left (R339, R340). -/
def State.takeLines (s : State) (c : Chan) (tag : Nat) (step : State → Piece → Took) : Nat → State
  | 0 => s
  | fuel + 1 =>
    match s.piece tag with
    | none => s
    | some x =>
      if x.sectors ≤ x.next ∨ ¬ s.lineOpen c then s
      else
        match step s x with
        | .held s => s
        | .done s =>
          State.takeLines (s.onPiece tag (fun y => { y with next := y.next + (s.lineHalves x).length })) c tag step fuel

/-- Every sector of the piece has been taken. -/
def State.takenAll (s : State) (tag : Nat) : Bool := (s.piece tag).any (fun x => decide (x.sectors ≤ x.next))

/-- The storage error of the next line of a piece: the k-th line of the step, counted from sector `first`, meets the k-th
of the list (R372). -/
def State.errAt {α : Type} (s : State) (x : Piece) (first : Nat) (errs : List α) (good : α) : α :=
  errs.getD (s.nextLine x - s.pieceLa x first / 128) good

/-- One line of a READ with its storage error. -/
def readStep (c : Chan) (first : Nat) (errs : List StoreErr) (s : State) (x : Piece) : Took :=
  s.readLine c x (s.errAt x first errs .none)

/-- LOFT_READ: the head is a READ piece (R340, R341). -/
def execLoftRead (c : Chan) (errs : List StoreErr) (now : Nat) (s : State) : Out :=
  .next (timed now (fun s => s.tongs.bitten.isNone && (s.headPiece c).any (fun x => x.op == 0) && s.lineOpen c)
    (fun s =>
      match s.headPiece c with
      | none => s
      | some x =>
        let j := s.judge c x
        if !j.2 then j.1
        else
          let s := j.1.takeLines c x.tag (readStep c x.next errs) 64
          if s.takenAll x.tag then (s.popHead c).finishRead c x.tag else s) s)

/-! ### LOFT_WRITE (R342, R343, R347 to R350) -/

/-- A sector of the write: its data, its enables and its poison mark. -/
def Piece.beatAt (x : Piece) (i : Nat) : Beat :=
  let b := x.beats.getD i { data := 0, be := 0, wpoison := false, wlast := false }
  if x.op = 1 then { b with be := BitVec.allOnes 64 } else b

/-- A beat that changes nothing in its sector (03 R126). -/
def Beat.empty (b : Beat) : Bool := b.be == 0 && !b.wpoison

/-- A held line after a write to one of its halves (R347). -/
def Line.write (x : Line) (half : Bool) (b : Beat) : Line :=
  let p := fun (old : Bool) => if b.wpoison then true else if b.be = BitVec.allOnes 64 then false else old
  if half then { x with data := (x.data.1, mergeBytes x.data.2 b.data b.be), pois := (x.pois.1, p x.pois.2) }
  else { x with data := (mergeBytes x.data.1 b.data b.be, x.data.2), pois := (p x.pois.1, x.pois.2) }

/-- A merge entry after a beat for one of its halves (R348). -/
def Merge.write (m : Merge) (half : Bool) (b : Beat) (stream : Bool) (heat : Nat) : Merge :=
  let whole := b.be == BitVec.allOnes 64
  let set1 := fun (old : Bool) => if b.wpoison then true else if whole then false else old
  let clr1 := fun (old : Bool) => if b.wpoison then false else if whole then true else old
  let m := { m with stream := m.stream || stream, heat := max m.heat heat }
  if half then
    { m with data := (m.data.1, mergeBytes m.data.2 b.data b.be), mask := (m.mask.1, m.mask.2 ||| b.be)
             pset := (m.pset.1, set1 m.pset.2), pclr := (m.pclr.1, clr1 m.pclr.2), smask := (m.smask.1, true) }
  else
    { m with data := (mergeBytes m.data.1 b.data b.be, m.data.2), mask := (m.mask.1 ||| b.be, m.mask.2)
             pset := (set1 m.pset.1, m.pset.2), pclr := (clr1 m.pclr.1, m.pclr.2), smask := (true, m.smask.2) }

/-- The open merge entry of a line. -/
def Slice.openMerge (l : Slice) (line : Nat) : Option Merge := l.merge.find? (fun m => m.line == line && !m.flush)

/-- A new merge entry (R348). -/
def Slice.newMerge (l : Slice) (line heat tag now : Nat) (port : Option Nat) : Slice :=
  { l with nextId := l.nextId + 1, merge := l.merge ++
      [{ id := l.nextId, line := line, data := (0, 0), mask := (0, 0), pset := (false, false), pclr := (false, false),
         smask := (false, false), stream := false, heat := heat, start := now, opener := tag, port := port,
         flush := false, group := none, split := false }] }

/-- The oldest entry is flushed at once where a write finds no entry free (R348). -/
def Slice.flushOldest (l : Slice) : Slice :=
  match l.merge with
  | m :: rest => { l with merge := { m with flush := true } :: rest }
  | [] => l

/-- An entry that holds a sector of a swath, full and as a swath member (R350). -/
def Merge.swathHalf (m : Merge) (half : Bool) : Bool :=
  !m.flush && m.stream && (if half then m.smask.2 && m.mask.2 == BitVec.allOnes 64
    else m.smask.1 && m.mask.1 == BitVec.allOnes 64)

/-- Line and half of data sector `n` of a row. -/
def State.secHalf (s : State) (c : Chan) (q : Place) (n : Nat) : Nat × Bool :=
  (s.secLa c q n / 128, s.secLa c q n / 64 % 2 == 1)

/-- The members of the swath of sector `n` of a row: (entry, halves it gives), where every sector is held (R350). -/
def State.swathMembers (s : State) (c : Chan) (q : Place) (n : Nat) : Option (List (Nat × List Bool)) :=
  let secs := (swathPositions n).map (s.secHalf c q)
  let found := secs.map (fun e => (s.slices[c].merge.find? (fun m => m.line == e.1 && m.swathHalf e.2)).map (fun m => (m.id, e.2)))
  if found.all Option.isSome then
    let l := found.filterMap id
    some ((l.map Prod.fst).dedup.map (fun i => (i, (l.filter (fun e => e.1 == i)).map Prod.snd)))
  else none

/-- The halves that an entry keeps. -/
def Merge.without (m : Merge) (hs : List Bool) : Merge :=
  let a := hs.contains false
  let b := hs.contains true
  { m with smask := (m.smask.1 && !a, m.smask.2 && !b)
           mask := (if a then 0 else m.mask.1, if b then 0 else m.mask.2)
           pset := (m.pset.1 && !a, m.pset.2 && !b), pclr := (m.pclr.1 && !a, m.pclr.2 && !b) }

/-- The halves held by an entry. -/
def Merge.halves (m : Merge) : List Bool := (if m.smask.1 then [false] else []) ++ (if m.smask.2 then [true] else [])

/-- An entry joins a swath group: whole, or by the sectors of the flushed swath, which leave it under a number of their
own. Reads and releases that found the entry wait for both (R350, 05 R192). -/
def State.joinGroup (s : State) (c : Chan) (g : Nat) (e : Nat × List Bool) : State :=
  match s.slices[c].merge.find? (fun m => m.id == e.1) with
  | none => s
  | some m =>
    if m.halves.all e.2.contains then
      s.onSlice c (fun l => { l with merge := l.merge.map (fun x => if x.id = m.id then { x with flush := true, group := some g } else x) })
    else
      let id := s.slices[c].nextId
      let part := { m.without (m.halves.filter (fun h => !e.2.contains h)) with id := id, flush := true, group := some g, split := true }
      let s := s.onSlice c (fun l =>
        { l with nextId := id + 1, merge := l.merge.flatMap (fun x => if x.id = m.id then [part, x.without e.2] else [x]) })
      let s := s.onAnvil c (fun v => { v with reads := v.reads.map (fun r =>
        if r.waitsM.contains m.id then { r with waitsM := r.waitsM ++ [id] } else r) })
      s.onHedge (fun h => { h with queue := h.queue.map (fun r =>
        if r.merges.contains (c, m.id) then { r with merges := r.merges ++ [(c, id)] } else r) })

/-- A swath that swath members hold whole is flushed as one group (R350). -/
def State.assemble (s : State) (c : Chan) (la : Nat) : State :=
  if !s.swath then s
  else
    let p := s.secPlace c la
    match s.swathMembers c p.1 p.2 with
    | none => s
    | some l =>
      let g := s.slices[c].nextId
      l.foldl (fun s e => s.joinGroup c g e) (s.onSlice c (fun x => { x with nextId := g + 1 }))

/-- Every swath that the open entry of a line belongs to is flushed once it is whole; an entry is a swath member from the
first write with ATTR.stream on (R350). -/
def State.assembleLine (s : State) (c : Chan) (line : Nat) : State :=
  match s.slices[c].openMerge line with
  | none => s
  | some m =>
    if !m.stream then s
    else m.halves.foldl (fun s h => s.assemble c (128 * line + (if h then 64 else 0))) s

/-- A write hit points the tree away from the way (R334, Table 10.2). -/
def State.touchHit (s : State) (c : Chan) (line : Nat) : State :=
  match s.findWay c line with
  | some x => s.onSlice c (fun l => l.touch (lineSet line) x.way)
  | none => s

/-- One beat enters the merge buffer and the copies that the slice holds (R343, R347, R348). -/
def State.mergeBeat (s : State) (c : Chan) (x : Piece) (line : Nat) (half : Bool) (b : Beat) : State :=
  let upd := fun (y : Line) => if y.line = line ∧ s.waySearched y.way = true then y.write half b else y
  let s := s.onSlice c (fun l =>
    let l := if (l.openMerge line).isSome then l else l.newMerge line x.heat x.tag s.timebase x.client
    { l with
      merge := l.merge.map (fun m => if m.line = line ∧ m.flush = false then m.write half b x.stream x.heat else m)
      miss := l.miss.map (fun m => if m.line = line then { m with drop := true } else m)
      ways := l.ways.map upd
      rick := l.rick.map (fun y => if y.line = line then y.write half b else y) })
  s.assembleLine c line

/-- The beats of a line enter one after another; where the slice holds the line, its lookup may meet a storage error and
is a hit (R334, R347, R372). -/
def State.mergeBeats (s : State) (c : Chan) (x : Piece) (line : Nat) (err : StoreErr) (beats : List (Bool × Beat)) : State :=
  beats.foldl (fun s e => s.mergeBeat c x line e.1 e.2) ((s.lookupErr c line err).touchHit c line)

/-- A write meets an error of the storage of the open entry of its line (R372): with a double-bit error in a sector that the entry holds the
entry is flushed, poisoned there (R351). -/
def State.openErr (s : State) (c : Chan) (line : Nat) (err : StoreErr) : State :=
  match s.slices[c].openMerge line with
  | none => s
  | some m =>
    let r := s.mergeErr c m err
    if r.2 = m then r.1
    else r.1.onSlice c (fun l => { l with merge := l.merge.map (fun x => if x.id = m.id then { r.2 with flush := true } else x) })

/-- One line of a write: it holds the head under R342 and R348. -/
def writeStep (c : Chan) (first : Nat) (errs : List (StoreErr × StoreErr)) (s : State) (x : Piece) : Took :=
  let line := s.nextLine x
  let err := (s.errAt x first errs (.none, .none)).1
  let beats := ((s.lineHalves x).mapIdx (fun i h => (h, x.beatAt (x.next + i)))).filter (fun e => !e.2.empty)
  if beats.isEmpty then .done s
  else if s.slices[c].miss.any (fun m => m.line == line && !m.sent) then .held s
  else
  let s := s.openErr c line (s.errAt x first errs (.none, .none)).2
  let l := s.slices[c]
  if (l.openMerge line).isSome then .done (s.mergeBeats c x line err beats)
  else if 2 ≤ (l.merge.filter (fun m => m.line == line)).length ∨ 32 ≤ l.mergeCount then .held s
  else .done (s.mergeBeats c x line err beats)

/-- The head waits for a free merge entry. -/
def State.wantsEntry (s : State) (c : Chan) (x : Piece) : Bool :=
  decide (32 ≤ s.slices[c].mergeCount) && (s.slices[c].openMerge (s.nextLine x)).isNone && decide (x.next < x.sectors)

/-- LFT_MERGE_NS.NS. -/
def State.mergeNs (s : State) (c : Chan) : Nat := s.fld (aMERGE c.val) 15 0

/-- LOFT_WRITE: the head is a WRITE or WRITE_MASKED piece (R342, R343, R347 to R350). With NS = 0 the entries that it
opened flush at the end of the step. -/
def execLoftWrite (c : Chan) (met : Nat × List (StoreErr × StoreErr)) (s : State) : Out :=
  .next (timed met.1 (fun s => s.tongs.bitten.isNone && (s.headPiece c).any (fun x => isWriteOp x.op) && s.lineOpen c)
    (fun s =>
      match s.headPiece c with
      | none => s
      | some x =>
        let j := s.judge c x
        if !j.2 then j.1
        else
          let s := j.1.takeLines c x.tag (writeStep c x.next met.2) 64
          let s := if s.mergeNs c = 0 then s.onSlice c (fun l => l.flushIf (fun m => m.opener == x.tag)) else s
          if s.takenAll x.tag then (s.popHead c).replyStatus c x.tag .ok
          else if (s.piece x.tag).any (fun y => s.wantsEntry c y) then s.onSlice c Slice.flushOldest
          else s) s)

/-! ### LOFT_HINT (R345, 03 R118) and LOFT_PREFETCH (R357) -/

/-- One line of a HINT, with its storage error. -/
def hintStep (c : Chan) (first : Nat) (errs : List StoreErr) (s : State) (x : Piece) : Took :=
  let line := s.nextLine x
  let s := s.lookupErr c line (s.errAt x first errs .none)
  match s.lookup c line x.pin false with
  | (some _, s) => .done s
  | (none, s) => s.missLine c x line [] true

/-- The next line of a HINT needs a miss register and none is free (03 R118). -/
def State.hintStuck (s : State) (c : Chan) (x : Piece) : Bool :=
  let line := s.nextLine x
  decide (64 ≤ s.slices[c].miss.length) && (s.findWay c line).isNone && (s.findRick c line).isNone &&
  !s.slices[c].miss.any (fun m => m.line == line && !m.drop)

/-- A HINT that has passed Hedge is answered DROPPED at L1 or higher, or with no miss register free (03 R118). -/
def State.hintDropped (s : State) (c : Chan) (x : Piece) : Bool :=
  decide (1 ≤ s.shed) || (decide (x.next < x.sectors) && s.hintStuck c x)

/-- LOFT_HINT: the head is a HINT piece (R345). DESIGN CHOICE (log entry 109): of a HINT answered DROPPED after some of its lines were taken,
the misses and recalls of those lines stand. -/
def execLoftHint (c : Chan) (met : Nat × List StoreErr) (s : State) : Out :=
  .next (timed met.1 (fun s => s.tongs.bitten.isNone && (s.headPiece c).any (fun x => x.op == 4) && s.lineOpen c)
    (fun s =>
      match s.headPiece c with
      | none => s
      | some x =>
        let j := s.judge c x
        if !j.2 then j.1
        else if j.1.shed ≠ 0 then (j.1.popHead c).replyStatus c x.tag .dropped
        else
          let s := j.1.takeLines c x.tag (hintStep c x.next met.2) 64
          if s.takenAll x.tag then (s.popHead c).replyStatus c x.tag .ok
          else if (s.piece x.tag).any (fun y => s.hintDropped c y) then (s.popHead c).replyStatus c x.tag .dropped
          else s) s)

/-- Some row of Table 1.7 refuses the read of a prefetched line to the stream's port (R357). -/
def State.prefetchRefused (s : State) (c : Chan) (x : Prefetch) : Bool :=
  let a := s.lineAddr c x.line
  (s.adapterRefusal a 1).isSome || s.verdict 0 x.port a != .permit

/-- A prefetch is dropped without a trace (R357). -/
def State.prefetchDropped (s : State) (c : Chan) (x : Prefetch) : Bool :=
  s.loftState fnPf != .on || s.blocking c || (s.findWay c x.line).isSome || (s.findRick c x.line).isSome ||
  s.slices[c].miss.any (fun m => m.line == x.line) || decide (56 < s.slices[c].miss.length) || s.prefetchRefused c x

/-- LOFT_PREFETCH: the prefetch input is served while the Tongs input is empty (R339, R357). -/
def execLoftPrefetch (read : Chan × StoreErr) (s : State) : Out :=
  let c := read.1
  .next (occur (s.tongs.bitten.isNone && s.slices[c].inq.isEmpty) s
    (match s.slices[c].pfq with
      | [] => s
      | x :: _ =>
        let s := s.lookupErr c x.line read.2
        let d := s.prefetchDropped c x
        let s := s.onSlice c (fun l => { l with pfq := l.pfq.tail })
        if d then s else s.openMiss c x.line .prefetch [] 0 x.pin (some x.port)))

/-! ### LOFT_FILL (R344, R371) and LINE_DROP (R367) -/

/-- What a waiter receives for a half of the line (R340, R344, R371). -/
def Miss.give (m : Miss) (w : Waiter) (r : SecRes) : SecRes :=
  if m.keyDrop then { status := .keyAbsent, data := 0, poisoned := false }
  else if r.status = .okCorrected ∧ m.opener ≠ .read w.tag then { r with status := .ok }
  else r

/-- A waiter is answered from the fill. -/
def State.answerWaiter (s : State) (c : Chan) (m : Miss) (r : SecRes × SecRes) (w : Waiter) : State :=
  match s.piece w.tag with
  | none => s
  | some x =>
    let rs := (if w.secs.1 then [(s.sectorOf x m.line false, m.give w r.1)] else []) ++
      (if w.secs.2 then [(s.sectorOf x m.line true, m.give w r.2)] else [])
    (s.giveResults w.tag rs).finishRead c w.tag

/-- The statuses of sectors that R344 lets a slice install. -/
def Status.installable (st : Status) : Bool := st == .ok || st == .okCorrected || st == .poison

/-- The fill is installed (R344). -/
def State.fillStays (s : State) (c : Chan) (m : Miss) (f : Fill) (r : SecRes × SecRes) : Bool :=
  !(m.drop || f.fresh || !r.1.status.installable || !r.2.status.installable || s.sweeping c m.line ||
    (s.eligibleWays c m.pin).isEmpty)

/-- The line that a fill installs. -/
def fillOf (m : Miss) (r : SecRes × SecRes) : Line :=
  { line := m.line, way := 0, data := (r.1.data, r.2.data), pois := (r.1.poisoned, r.2.poisoned), pref := m.opener == .prefetch, pin := m.pin }

/-- An installed prefetch is counted (Table 10.13). -/
def State.countPrefetch (s : State) (c : Chan) (m : Miss) : State :=
  if m.opener = .prefetch then
    (s.setFld (aPF c.val) 17 4 (s.fld (aPF c.val) 17 4 + 1)).onSlice c (fun l => { l with issued := l.issued + 1 })
  else s

/-- The oldest fill that is complete. -/
def Slice.readyFill (l : Slice) : Option (Fill × SecRes × SecRes) :=
  l.fills.findSome? (fun f =>
    match f.res with
    | (some a, some b) => some (f, a, b)
    | _ => none)

/-- An error of the set that a fill is installed into, met as the victim is read for the rick, and its tags for the choice (R335, R352,
R372). -/
def State.fillErr (s : State) (c : Chan) (m : Miss) (err : StoreErr) : State :=
  let set := lineSet m.line
  let l := s.slices[c]
  match s.eligibleWays c m.pin, err with
  | [], _ => s
  | _, .tag _ => s.lookupErr c m.line err
  | e, _ =>
    match l.ways.find? (fun y => y.way == l.victim set e && lineSet y.line == set) with
    | some y => s.lookupErr c y.line err
    | none => s

/-- A fill is installed, with the error that the step meets. -/
def State.fillLine (s : State) (c : Chan) (m : Miss) (f : Fill) (r : SecRes × SecRes) (err : StoreErr) : State :=
  if s.fillStays c m f r then (s.fillErr c m err).install c (fillOf m r) m.pin none |>.countPrefetch c m else s

/-- LOFT_FILL (R344): a fill arrives. -/
def execLoftFill (read : Chan × StoreErr) (s : State) : Out :=
  let c := read.1
  .next (occur s.tongs.bitten.isNone s
    (match s.slices[c].readyFill with
      | none => s
      | some (f, r) =>
        let s := s.onSlice c (fun l => { l with fills := l.fills.erase f })
        match s.slices[c].miss.find? (fun m => m.id == f.miss) with
        | none => s
        | some m =>
          let s := m.waiters.foldl (fun s w => s.answerWaiter c m r w) s
          let s := s.fillLine c m f r read.2
          s.onSlice c (fun l =>
            { l with miss := l.miss.filter (fun x => x.id != m.id)
                     cleaning := l.cleaning.map (fun e => (e.1, e.2.filter (· != m.id))) })))

/-- LINE_DROP (R367): a line that the anvil has poisoned is dropped from the ways and the rick. -/
def execLineDrop (c : Chan) (s : State) : Out :=
  .next (s.onSlice c (fun l =>
    match l.drops with
    | [] => l
    | x :: rest =>
      { l with drops := rest, ways := l.ways.filter (fun y => y.line != x), rick := l.rick.filter (fun y => y.line != x) }))

/-! ### MERGE_TIMER (R349, R350) -/

/-- Sectors of an entry by row place and swath. -/
def State.swathsOf (s : State) (c : Chan) (m : Merge) : List (Place × Nat × Nat) :=
  m.halves.map (fun h =>
    let p := s.secPlace c (128 * m.line + (if h then 64 else 0))
    (p.1, swathOf p.2))

/-- MERGE_TIMER: the timer of an open entry, by its number, reaches LFT_MERGE_NS.NS (R349). Every member of an incomplete
swath flushes with it (R350). -/
def execMergeTimer (c : Chan) (entry now : Nat) (s : State) : Out :=
  .next (timed now (fun s => s.tongs.bitten.isNone)
    (fun s =>
      match s.slices[c].merge.find? (fun m => m.id == entry && !m.flush && decide (m.start + s.mergeNs c ≤ s.timebase)) with
      | none => s
      | some m =>
        let mine := if s.swath && m.stream then s.swathsOf c m else []
        s.onSlice c (fun l => l.flushIf (fun x =>
          x.id == m.id || (x.stream && !x.flush && (s.swathsOf c x).any mine.contains)))) s)

/-! ### Blocking mode, sweeps and functions (R346, R359, R364, R368 to R370) -/

/-- BLOCKING_MODE_END: 100 µs after service begins from BANKED (R346). -/
def execBlockingModeEnd (c : Chan) (now : Nat) (s : State) : Out :=
  .next (timed now (fun s => s.slices[c].settle.any (fun t => decide (t + 100000 ≤ s.timebase)))
    (fun s => s.onSlice c (fun l => { l with settle := none })) s)

/-- Pieces at the input that Hedge has permitted already keep the key-erasure sweep that begins (14 R480). -/
def State.markErased (s : State) (c : Chan) (r : Range) : State :=
  if r.key then s.slices[c].inq.foldl (fun s n => s.onPiece n (fun x => if x.judged then { x with erased := r :: x.erased } else x)) s
  else s

/-- SWEEP_START (R369, R370; 14 R480). -/
def execSweepStart (c : Chan) (s : State) : Out :=
  .next (match s.slices[c].ranges with
    | [] => s
    | r :: _ =>
      occur s.slices[c].sweep.isNone s ((s.markErased c r).onSlice c (fun l =>
        { l.popRange with
          sweep := some r
          miss := l.miss.map (fun m =>
            if s.inRange c r m.line then { m with drop := true, keyDrop := m.keyDrop || r.key } else m)
          ways := l.ways.filter (fun x => !s.inRange c r x.line)
          rick := l.rick.filter (fun x => !s.inRange c r x.line) })))

/-- SWEEP_END (R368, R370). -/
def execSweepEnd (c : Chan) (s : State) : Out :=
  .next (match s.slices[c].sweep with
    | none => s
    | some r =>
      let s := s.onSlice c (fun l => { l with sweep := none })
      if r.full then { s with fullInv := s.fullInv.filter (· != c) } else s)

/-- The range of a full invalidation: the whole space. -/
def fullRange : Range := { base := 0, size := 2 ^ 41, key := false, full := true }

/-- A full invalidation begins (R368). -/
def State.invalidateAll (s : State) : State :=
  if s.fullInv.isEmpty then { s.queueRange fullRange with fullInv := s.popChans } else s

/-- What the end of a transition clears: the lines of a way group, the rick, the detectors (Table 10.6). -/
def State.clearFn (s : State) (k : Fin 6) : State :=
  if k.val < 4 then
    { s with slices := s.slices.map (fun l =>
        { l with ways := l.ways.filter (fun x => x.way / 4 != k.val), cleaning := l.cleaning.filter (fun e => e.1 != k.val) }) }
  else if k = fnPf then { s with detect := [] }
  else { s with slices := s.slices.map (fun l => { l with rick := [] }) }

/-- LOFT_FUNCTION_STARTED (R359, 13 R455). -/
def execLoftFunctionStarted (f : LoftFn) (s : State) : Out :=
  let k := LoftFn.index f
  .next (occur (s.loftState k == .starting) s (
    let s := { s.clearFn k with loftFns := upd s.loftFns k Fn.started }
    if s.loftState k == .stopping then s.loftStopping k else s))

/-- Every populated slice has finished its part of STOPPING (R359, R364, Table 10.6). -/
def State.fnDone (s : State) (k : Fin 6) : Bool :=
  s.popChans.all (fun c =>
    let l := s.slices[c]
    if k.val < 4 then l.cleaning.all (fun e => e.1 != k.val || e.2.isEmpty)
    else if k = fnPf then !l.miss.any (fun m => m.opener == .prefetch)
    else true)

/-- LOFT_FUNCTION_STOPPED (R359, R364, 13 R455). -/
def execLoftFunctionStopped (f : LoftFn) (s : State) : Out :=
  let k := LoftFn.index f
  .next (occur (s.loftState k == .stopping && s.fnDone k) s
    { s.clearFn k with loftFns := upd s.loftFns k Fn.stopped })

end Sys2Proof.Machine
end

