-- ==== Sys2Proof/Machine/Train.lean ====
section
/-! DEFINITION. The programs of the reference Anvil Smith image: training, the short retraining of bank-out, drift
retraining and MARGIN (07 R255 to R262, 08 R271, R273, R278). A program runs over the OSC, EYE and PAUSE of its Smith:
each step ends where one of them waits, and `EYE_END`, `OSC_END` and `PAUSE_GRANT` take it on. -/

namespace Sys2Proof.Machine

/-! ### Programs and their Smith -/

/-- The program that runs on a channel. -/
def State.job (s : State) (c : Chan) : Option Job := s.prog.jobs[c]

/-- A program starts, goes on or ends. -/
def State.setJob (s : State) (c : Chan) (j : Option Job) : State := s.onProg (fun p => { p with jobs := p.jobs.set c j })

/-- Change the program of a channel. -/
def State.onJob (s : State) (c : Chan) (f : Job → Job) : State := s.onProg (fun p => { p with jobs := upd p.jobs c (Option.map f) })

/-- An Anvil Smith that runs a program of the reference image. -/
def State.working (s : State) (m : SmithId) : Bool := (chanOfSmith m).any (fun c => (s.job c).isSome)

/-- The program of a channel has ended: its Smith is IDLE, or takes the stop that waits (02 R61, R91). -/
def State.jobIdle (s : State) (c : Chan) : State :=
  let m := anvilSmith c
  let s := (s.setJob c none).onSmith m (fun h => { h with run := .idle, wait := none })
  if s.smiths[m].stopReq then s.smithStop m else s.clobber m

/-- A report goes to the Master Smith with a SIG (08 R273). -/
def State.report (s : State) (c : Chan) (r : Report) : State :=
  (s.onProg (fun p => { p with reports := p.reports ++ [(c, r)] })).signal (anvilSmith c) masterSmith

/-- The Master Smith hands work to an Anvil Smith: a flag in its data memory, and a SIG (08 R273, R285). Which word holds the flag, and
its value, are free (log entry 98). -/
def State.order (s : State) (c : Chan) (o : Order) : State :=
  let flag := (s.free 0).setWidth 32
  let s := (s.drawn 1).onSmith (anvilSmith c) (fun h => { h with dmem := h.dmem.set (Config.flagWord c.val % 1024) flag })
  (s.onProg (fun p => { p with orders := upd p.orders c (· ++ [o]) })).signal masterSmith (anvilSmith c)

/-- An MRW that a program of the reference image issues on a held channel. -/
def State.progMrw (s : State) (c : Chan) (rank ma op : Nat) : State :=
  s.onAnvil c (fun v => v.push7 { plainCmd .mrw rank 0 0 .close with ma := ma, op := op })

/-- A program whose steps begin. -/
def freshJob (kind : JobKind) (steps : List JobStep) : Job :=
  { kind := kind, steps := steps, code := 0, maps := [], levels := [], saved := [], counts := [], windows := [], cancelled := false }

/-! ### Lanes, windows and criteria (Table 7.5) -/

/-- All lanes of a class on a rank; `dir` is the direction of the DMI class (R250). -/
def classLanes (c : Chan) (rank cls dir : Nat) : Lanes :=
  { chan := c.val, rank := rank, cls := cls, osc := false, byte := 0, bitNo := dir, all := true }

/-- The pattern that measures a step of Table 7.5; MARGIN takes that of the lane class. -/
def stepPattern (step cls : Nat) : Nat :=
  match step with
  | 2 => 0 | 3 => 1 | 4 => 2 | 5 => 3 | 6 => 4
  | _ => if cls = 4 then 3 else if cls = 5 then 2 else 4

/-- The smallest window that passes a step, in codes. -/
def stepWindow (step : Nat) : Nat := if step = 2 then 52 else if step = 6 then 20 else 23

/-- The widest run of `true` in a list, as its first index and length. DESIGN CHOICE (log entry 99): of equally wide runs the one at the
lowest codes is the window (R255 does not say which). -/
def widestRun (l : List Bool) : Nat × Nat :=
  let r := l.foldl (fun (acc : (Nat × Nat) × Nat × Nat) b =>
    let i := acc.2.1
    let n := if b then acc.2.2 + 1 else 0
    (if acc.1.2 < n then (i + 1 - n, n) else acc.1, i + 1, n)) ((0, 0), 0, 0)
  r.1

/-- The window of the lane in bit `i` of the pass maps, latest first (R255). -/
def laneWindow (maps : List Word) (i : Nat) : Nat × Nat := widestRun (maps.reverse.map (fun w => wbit w i))

/-- The centre of a window, rounded down. -/
def windowCentre (w : Nat × Nat) : Nat := w.1 + (w.2 - 1) / 2

/-- The code of the first 0-to-1 transition in bit `i` of the pass maps of a sweep, latest first. -/
def laneRise (maps : List Word) (i : Nat) : Option Nat :=
  let l := maps.reverse.map (fun w => wbit w i)
  (List.range l.length).find? (fun k => decide (0 < k) && !l.getD (k - 1) true && l.getD k false)

/-- The median of eight codes, rounded down between the middle two (DEDUCED, log entry 85). -/
def medianOf (l : List Nat) : Nat :=
  let s := l.mergeSort (· ≤ ·)
  (s.getD 3 0 + s.getD 4 0) / 2

/-- Eight transitions lie within 2 codes of their median. -/
def levelGood (l : List Nat) : Bool := l.all (fun x => decide (x ≤ medianOf l + 2 ∧ medianOf l ≤ x + 2))

/-- Step 1 of Table 7.5 on the ranks of a channel: background calibration mode (R268), the codes of the hearth, the latch. -/
def zqSteps (ranks : List Nat) : List JobStep := ranks.map .zqMode ++ ranks.map .zq ++ [.told]

/-- The steps of Table 7.5 on the ranks of a channel, in order, and the baseline of the drift counts. DESIGN CHOICE (log entry 99): the CA
lanes are shared by both ranks (R250) and take the centre found on the rank trained last. -/
def trainSteps (ranks : List Nat) : List JobStep :=
  JobStep.dbi false :: zqSteps ranks ++
  ranks.flatMap (fun r => [.window 2 r 0 0, .window 2 r 1 0]) ++
  ranks.flatMap (fun r => List.replicate 8 (.level r)) ++
  ranks.flatMap (fun r => [.window 4 r 5 0, .window 4 r 7 1]) ++
  ranks.flatMap (fun r => [.window 5 r 4 0, .window 5 r 7 0]) ++
  ranks.map (fun r => .window 6 r 6 0) ++
  [.dbi true] ++ ranks.flatMap (fun r => [.count r false, .count r true]) ++ [.baseline]

/-- The checks of moved or restored codes on a rank: patterns 0x3 and 0x2 on every lane they may be used with. -/
def checkSteps (r : Nat) : List JobStep := [.check r 3 4 0, .check r 3 7 0, .check r 2 5 0, .check r 2 7 1]

/-- The short retraining of bank-out: steps 1 and 3, and the checks (R258). -/
def bankOutSteps (ranks : List Nat) : List JobStep :=
  JobStep.dbi false :: zqSteps ranks ++ ranks.flatMap (fun r => List.replicate 8 (.level r)) ++ ranks.flatMap checkSteps ++ [.dbi true]

/-- Drift tracking: both oscillators of each rank, and the judgement (R260). -/
def retrainSteps (ranks : List Nat) : List JobStep := ranks.flatMap (fun r => [.count r false, .count r true]) ++ .judge :: ranks.map .move

/-- MARGIN: the windows of the DQ write, DQ read and RDQS lanes (08 Table 8.5). -/
def marginSteps (ranks : List Nat) : List JobStep := ranks.flatMap (fun r => [.window 7 r 4 0, .window 7 r 5 0, .window 7 r 6 0])

/-- The populated ranks of a channel as numbers. -/
def State.rankNos (s : State) (c : Chan) : List Nat := (s.ranksOf c).map Fin.val

/-! ### Codes -/

/-- The stored codes of lanes at the set point in use, by offset. -/
def State.codesOf (s : State) (c : Chan) (offs : List Nat) : List (Nat × BitVec 10) :=
  let n := s.fsp c
  offs.map (fun o => (o, (s.anvils[c]).dlyGet (128 * n + o)))

/-- Lanes take codes by DLY (02 R82, R252). -/
def State.setCodes (s : State) (c : Chan) (l : List (Nat × BitVec 10)) : State := l.foldl (fun s e => s.dlyEffect c [e.1] e.2) s

/-! ### Drift (R260) -/

/-- The CK that an oscillator of a rank runs: its run time, or 512 where the stop MPC ends it (02 R84). -/
def Anvil.oscCk (v : Anvil) (rank : Nat) (dqo : Bool) : Nat := (v.oscTime rank dqo).getD 512

/-- The drift of a count against its baseline in ppt. The spec gives none for a baseline of 0 (log entry 90). -/
def driftOf (n n0 : Nat) : Nat := if n0 = 0 then Config.freeDrift n else ((n : Int) - n0).natAbs * 1000 / n0

/-- An integer quotient rounded to the nearest whole number, halves away from zero; `b` is positive. -/
def roundDiv (a : Int) (b : Nat) : Int :=
  let q : Int := ((2 * a.natAbs + b) / (2 * b) : Nat)
  if a < 0 then -q else q

/-- The shift in codes: (T / 2) × (n0 − n) / (n0 × n) over a step of tCK / 512, T being `t` CK (R249, R260). The spec gives none
for a count or a baseline of 0 (log entry 90). -/
def shiftCodes (t n n0 : Nat) : Int :=
  if n = 0 ∨ n0 = 0 then Config.freeShift n n0 else roundDiv (256 * t * ((n0 : Int) - n)) (n0 * n)

/-- The key of a count: rank, byte, oscillator. -/
abbrev CountKey := Nat × Nat × Bool

/-- A count or baseline, 0 where none is recorded. -/
def countAt (l : List (CountKey × Nat)) (k : CountKey) : Nat := (l.lookup k).getD 0

/-- The counts of an OSC on a rank: each byte has its die in byte mode, else both have the one die's (02 R84). -/
def oscCounts (c : Chan) (rank : Nat) (dqo : Bool) (w : Word) : List (CountKey × Nat) :=
  [((rank, 0, dqo), wbits w 15 0), ((rank, 1, dqo), if Config.byteMode c.val then wbits w 31 16 else wbits w 15 0)]

/-- The largest drift of some counts of a channel. -/
def State.largestDrift (s : State) (c : Chan) (l : List (CountKey × Nat)) : Nat :=
  (l.map (fun e => driftOf e.2 (countAt s.prog.base[c] e.1))).foldl max 0

/-- The counts of one rank. -/
def countsOf (rank : Nat) (l : List (CountKey × Nat)) : List (CountKey × Nat) := l.filter (fun e => e.1.1 == rank)

/-- Offsets that a shift moves: DQ write and DMI write for WCK2DQI, RDQS for WCK2DQO (R260), with their lane class. -/
def driftLanes (k : CountKey) : List (Nat × Nat) :=
  let r := 48 * k.1
  if k.2.2 then [(51 + r + k.2.1, 6)]
  else (List.range 8).map (fun i => (19 + r + 8 * k.2.1 + i, 4)) ++ [(53 + r + k.2.1, 7)]

/-- The new codes of a rank, with the class of each lane, before they are checked (R260). -/
def State.shifted (s : State) (c : Chan) (rank : Nat) (l : List (CountKey × Nat)) : List (Nat × Nat × Int) :=
  let v := s.anvils[c]
  let n := s.fsp c
  (countsOf rank l).flatMap (fun e =>
    let d := shiftCodes (v.oscCk rank e.1.2.2) e.2 (countAt s.prog.base[c] e.1)
    (driftLanes e.1).map (fun o => (o.1, o.2, ((v.dlyGet (128 * n + o.1)).toNat : Int) + d)))

/-- A code that would leave 0 to 1,023 (R262). -/
def codeOut (x : Int) : Bool := decide (x < 0 ∨ 1023 < x)

/-! ### The steps -/

/-- HTH_TSTAT.STEP (R257, Table 7.14). -/
def State.setStep (s : State) (c : Chan) (step : Nat) : State := s.setFld (aTSTAT c.val) 27 24 step

/-- Fault 0x08 of a failed step or check: the step, the rank and the lane class (R257, R261). -/
def State.trainFault (s : State) (c : Chan) (step rank cls : Nat) : State :=
  s.send c.val 0x08 sevUncorrected 0 (step + rank * 2 ^ 4 + cls * 2 ^ 5)

/-- The least of some windows, 0 with none. -/
def leastOf : List Nat → Nat
  | [] => 0
  | w :: l => l.foldl min w

/-- The smallest of the windows a program has found. -/
def Job.smallest (j : Job) : Nat := leastOf (j.windows.map Prod.snd)

/-- The smallest window that a program has found in a lane class. -/
def Job.windowOf (j : Job) (cls : Nat) : Nat := leastOf ((j.windows.filter (fun e => e.1 == cls)).map Prod.snd)

/-! ### Bank-in (13 R441, 07 R269) -/

/-- A plot keeps its segments from being masked: it is written, or holds a part of the banking area (07 R269). -/
def State.plotKept (s : State) (c : Chan) (plot : Nat) : Bool := (s.anvils[c]).written plot || s.banking (65536 * plot)

/-- The segments, by rank, that hold a row of a kept plot (07 R269). -/
def State.keptSegments (s : State) (c : Chan) : List (Nat × Nat) :=
  ((List.range (s.chanCap / 65536)).filter (s.plotKept c)).flatMap (fun plot =>
    let r := s.plotRows plot
    (List.range (r.2 + 1 - r.1)).map (fun i =>
      let q := s.place c.val (r.1 + i)
      (q.rank, 8 * q.row / s.bankRows c.val)))

/-- The segment mask of a rank at BANKED entry (07 R269). -/
def State.segmentMask (s : State) (c : Chan) (rank : Nat) : Nat :=
  let kept := s.keptSegments c
  (List.range 8).foldl (fun m g => m + if kept.contains (rank, g) then 0 else 2 ^ g) 0

/-- Step 4 of R441 by the reference Anvil Smith image: the bank and segment masks of every rank, the rows closed, then SRE (07 R269), and
the report. -/
def State.sleepAnvil (s : State) (c : Chan) : State :=
  let s := (s.ranksOf c).foldl (fun s k => (s.progMrw c k.val Config.mrBankMask 0).progMrw c k.val Config.mrPasr (s.segmentMask c k.val)) s
  ((s.pushPrea c).pushSre c .close).report c .banked

/-- Everything that the save has written, and what came of it, has reached the DRAM (13 R441 step 3). -/
def Anvil.saved (v : Anvil) : Bool := v.feed.isEmpty && v.writes.isEmpty && v.fills.isEmpty && v.reads.isEmpty

/-- A program ends with every step done: training shows DONE and reports, MARGIN reports its windows (R257, 08 R273). DESIGN CHOICE (log
entry 99): HTH_TSTAT.MARGIN shows a window of 1,024 codes, which its 10 bits do not hold, as 1,023. -/
def State.jobEnd (s : State) (c : Chan) (j : Job) : State :=
  let s := match j.kind with
    | .train fsp =>
      let w := putBits (putBits (putBits (putBits (s.rd (aTSTAT c.val)) 31 30 2) 27 24 6) 17 16 fsp) 9 0 (sat 1023 j.smallest)
      (s.wr (aTSTAT c.val) w).report c (.trained true)
    | .bankIn => s.sleepAnvil c
    | .bankOut => s.report c .banked
    | .margin mail => s.report c (.margin (j.windowOf 4, j.windowOf 5, j.windowOf 6) mail)
    | _ => s
  s.jobIdle c

/-- A step of Table 7.5 fails: FAIL, the fault and the report (R257). -/
def State.jobFail (s : State) (c : Chan) (j : Job) (step rank cls : Nat) : State :=
  let s := (s.setFld (aTSTAT c.val) 31 30 1).setStep c step
  let s := s.trainFault c step rank cls
  let s := match j.kind with
    | .train fsp => (s.setFld (aTSTAT c.val) 17 16 fsp).report c (.trained false)
    | _ => s
  s.jobIdle c

/-- A mode register of a rank takes a new field by MRW. -/
def State.progField (s : State) (c : Chan) (rank ma hi lo x : Nat) : State :=
  s.progMrw c rank ma (putBits (((s.anvils[c]).mr rank ma).setWidth 32) hi lo x).toNat

/-- The set point of a rank, for writes and in use (R246). -/
def State.progFsp (s : State) (c : Chan) (rank n : Nat) : State := s.progField c rank Config.mrFsp 3 0 (n + 4 * n)

/-- DBI in the DRAM of every rank, by MRW, and in the PHY (R256). -/
def State.setDbi (s : State) (c : Chan) (on : Bool) : State :=
  (s.rankNos c).foldl (fun s r => s.progField c r Config.mrDbi 7 6 (if on then 3 else 0)) (s.onAnvil c (fun v => { v with phyDbi := on }))

/-- EYE on the lanes of a class: without the channel held it is a Smith fault (02 R81). -/
def State.jobSample (s : State) (c : Chan) (rank pattern cls dir : Nat) : State :=
  let m := anvilSmith c
  if s.holds m c then s.smithWait m (.eye 0 c rank pattern (classLanes c rank cls dir).mask) else s.smithFault m 4 0

/-- A code position of a sweep is tried: every lane of the class takes the code, and EYE samples (R255). -/
def State.sweepSample (s : State) (c : Chan) (rank pattern cls dir code : Nat) : State :=
  let offs := (classLanes c rank cls dir).offsets
  let s := s.onJob c (fun j => { j with saved := s.codesOf c offs })
  (s.setCodes c (offs.map (fun o => (o, BitVec.ofNat 10 code)))).jobSample c rank pattern cls dir

/-- The longest pause of the reference programs (08 Table 8.5). -/
def programPause : Nat := 256

/-- The program asks for a pause of its channel. -/
def State.jobPause (s : State) (c : Chan) : State :=
  (s.askPause (anvilSmith c) programPause c).smithWait (anvilSmith c) (.pause 0 c)

/-- The program ends its pause (ENDP). -/
def State.jobRelease (s : State) (c : Chan) : State :=
  let m := anvilSmith c
  s.onAnvil c (fun v =>
    let v := v.endPause m
    { v with owed := v.owed.filter (fun x => x.1 != m) })

/-- The sweep of the running step tries its next code; MARGIN does so in a pause of its own (08 Table 8.5). -/
def State.sweepTry (s : State) (c : Chan) (step rank cls dir code : Nat) : State :=
  if step = 7 then s.jobPause c else s.sweepSample c rank (stepPattern step cls) cls dir code

/-- The hearth has calibrated its drivers since it was powered (R267). -/
def State.zqKnown (s : State) (c : Chan) : Bool := s.hearths[hearthOf c].zqDone

/-- The ZQ codes of the hearth pass step 1 (Table 7.5). -/
def State.zqGood (s : State) (c : Chan) : Bool :=
  let p := s.fld (aZQ c.val) 29 24
  let n := s.fld (aZQ c.val) 21 16
  decide (2 ≤ p ∧ p ≤ 61 ∧ 2 ≤ n ∧ n ≤ 61)

/-- An OSC of the program (R260). -/
def State.jobOsc (s : State) (c : Chan) (rank : Nat) (dqo : Bool) : State :=
  let m := anvilSmith c
  (s.smithWait m (.osc 0 c rank dqo)).insert7 c (oscCmd m rank dqo)

/-- HTH_DRIFT.LAST_PPT takes the largest drift of the counts (R260). DESIGN CHOICE (log entry 99): its 10 bits show a drift above
1,023 ppt as 1,023. -/
def State.setDrift (s : State) (c : Chan) (j : Job) : State :=
  s.setFld (aDRIFT c.val) 25 16 (sat 1023 (s.largestDrift c j.counts))

/-- The largest drift exceeds HTH_DRIFT.THRESH_PPT, and codes are moved (R260). -/
def State.driftHigh (s : State) (c : Chan) (j : Job) : Bool := decide (s.fld (aDRIFT c.val) 9 0 < s.largestDrift c j.counts)

/-- The counts of the ranks given become the baseline. -/
def State.takeBaseline (s : State) (c : Chan) (l : List (CountKey × Nat)) : State :=
  s.onProg (fun p => { p with base := upd p.base c (fun b => l ++ b.filter (fun e => !(l.map Prod.fst).contains e.1)) })

/-- The move of a rank has succeeded: the pause ends, the counts become its baseline, fault 0x07 (R261). DESIGN CHOICE (log entry 99):
of the drifts of the rank the detail carries the largest. -/
def State.moveDone (s : State) (c : Chan) (j : Job) (rank : Nat) : State :=
  let l := countsOf rank j.counts
  let d := s.largestDrift c l
  ((s.jobRelease c).takeBaseline c l).send c.val 0x07 sevInfo 0 (rank * 2 ^ 4 + sat 255 d * 2 ^ 8)

/-- The shift of a rank is refused where a code would leave its range (R262): the lane class of the first such code. -/
def codesOut (l : List (Nat × Nat × Int)) : Option Nat := (l.find? (fun e => codeOut e.2.2)).map (fun e => e.2.1)

/-- What training leaves in the pattern buffer and HTH_PATPTR is free (08 R271, log entry 4); HTH_TSTAT shows the set point (Table
7.14). -/
def State.trainStart (s : State) (c : Chan) (n : Nat) : State :=
  let s := s.onAnvil c (fun v =>
    { v with pat := (List.range 256).foldl (fun m i => m.set i ((s.free i).setWidth 32)) v.pat,
             patDmi := (List.range 16).foldl (fun m i => SMap.set (fun _ => 0) m i (s.free (256 + i))) v.patDmi })
  let s := (s.wr (aPATPTR c.val) (putBits (putBits 0 3 0 (s.free 272).toNat) 11 8 (s.free 273).toNat)).drawn 274
  (s.setFld (aTSTAT c.val) 31 30 0).setFld (aTSTAT c.val) 17 16 n

/-- The steps of a program run until one of them waits. DEDUCED (log entry 85): what a program does between two waits takes no
time of its own; step 1 looks again and again until the hearth has calibrated, and bank-in until the save is in the DRAM. DESIGN CHOICE (log entry 99): step 1, which trains no
lane class, fails with 0 for the class. -/
def State.jobRun (s : State) (c : Chan) : List JobStep → State
  | [] =>
    match s.job c with
    | some j => s.jobEnd c j
    | none => s
  | x :: rest =>
    let s := s.onJob c (fun j => { j with steps := x :: rest, code := 0, maps := [] })
    match x, s.job c with
    | _, none => s
    | .zqMode rank, some _ => State.jobRun (s.progField c rank Config.mrZq 5 5 0) c rest
    | .zq rank, some j =>
      let s := s.setStep c 1
      if !s.zqKnown c then s.smithWait (anvilSmith c) (.wns s.timebase)
      else if s.zqGood c then
        State.jobRun (s.onAnvil c (fun v => v.push7 { plainCmd .mpc rank 0 0 .zq with op := Config.zqLatchOp })) c rest
      else s.jobFail c j 1 rank 0
    | .told, some j =>
      State.jobRun (match j.kind with
        | .train _ => s.report c .calibrated
        | _ => s) c rest
    | .saved, some _ =>
      if s.anvils[c].saved then State.jobRun s c rest else s.smithWait (anvilSmith c) (.wns s.timebase)
    | .window step rank cls dir, some _ =>
      (if step = 7 then s else s.setStep c step).sweepTry c step rank cls dir 0
    | .level rank, some _ => (s.setStep c 3).sweepTry c 3 rank 3 0 0
    | .dbi on, some _ => State.jobRun (s.setDbi c on) c rest
    | .check rank pattern cls dir, some _ => s.jobSample c rank pattern cls dir
    | .count rank dqo, some _ => s.jobOsc c rank dqo
    | .baseline, some j => State.jobRun (s.takeBaseline c j.counts) c rest
    | .judge, some j =>
      let s := s.setDrift c j
      if s.driftHigh c j then State.jobRun s c rest else s.jobEnd c j
    | .move rank, some j =>
      match codesOut (s.shifted c rank j.counts) with
      | some cls => State.jobRun (s.trainFault c 7 rank cls) c rest
      | none => s.jobPause c
    | .moved rank, some j => State.jobRun (s.moveDone c j rank) c rest

/-- The running step is done, and the next ones run. -/
def State.jobNext (s : State) (c : Chan) : State :=
  match s.job c with
  | some j => s.jobRun c j.steps.tail
  | none => s

/-- A program begins on a channel. -/
def State.jobBegin (s : State) (c : Chan) (j : Job) : State := (s.setJob c (some j)).jobRun c j.steps

/-! ### What the waits bring -/

/-- CK is set in step 2 with the CS lanes (Table 7.5). No pattern measures it, and the spec states no code for it: a free value (log
entry 99). -/
def State.setCk (s : State) (c : Chan) (step cls : Nat) : State :=
  if step = 2 ∧ cls = 1 then (s.setCodes c [(7, (s.free 0).setWidth 10)]).drawn 1 else s

/-- The windows of a class have been measured: a step of training sets the centres where every one passes (R255). -/
def State.windowDone (s : State) (c : Chan) (j : Job) (step rank cls dir : Nat) : State :=
  let l := classLanes c rank cls dir
  let ws := l.mapBits.map (laneWindow j.maps)
  let least := leastOf (ws.map Prod.snd)
  let s := s.onJob c (fun j => { j with windows := (cls, least) :: j.windows })
  if step = 7 then s.jobNext c
  else if least < stepWindow step then s.jobFail c j step rank cls
  else ((s.setCodes c (l.offsets.zip (ws.map (fun w => BitVec.ofNat 10 (windowCentre w))))).setCk c step cls).jobNext c

/-- A sweep of step 3 has ended: both bytes need a transition near its median, and with the eighth sweep the lanes take the centres of
their windows (Table 7.5, R255; DEDUCED, log entry 85: of the windows of that sweep). -/
def State.levelDone (s : State) (c : Chan) (j : Job) (rank : Nat) : State :=
  match laneRise j.maps 0, laneRise j.maps 1 with
  | some a, some b =>
    let l := (a, b) :: j.levels
    if l.length < 8 then (s.onJob c (fun j => { j with levels := l })).jobNext c
    else
      let s := s.onJob c (fun j => { j with levels := [] })
      let x := l.map Prod.fst
      let y := l.map Prod.snd
      if levelGood x && levelGood y then
        let centres := [0, 1].map (fun i => BitVec.ofNat 10 (windowCentre (laneWindow j.maps i)))
        (s.setCodes c ((classLanes c rank 3 0).offsets.zip centres)).jobNext c
      else s.jobFail c j 3 rank 3
  | _, _ => s.jobFail c j 3 rank 3

/-- A check has failed: a move is undone before ENDP (R261), and bank-out trains in full, as the train program does (R258, 08 R271). -/
def State.checkFail (s : State) (c : Chan) (j : Job) (rank cls : Nat) : State :=
  match j.kind with
  | .retrain =>
    if s.holds (anvilSmith c) c then
      (((s.setCodes c j.saved).jobRelease c).trainFault c 7 rank cls).jobRun c (j.steps.dropWhile (· != .moved rank)).tail
    else s.smithFault (anvilSmith c) 4 0
  | .bankOut => (s.trainStart c (s.fsp c)).jobBegin c (freshJob (.train (s.fsp c)) (trainSteps (s.rankNos c)))
  | _ => s.jobIdle c

/-- A sweep goes on from a pass map: its next code, or its end. -/
def State.sweepNext (s : State) (c : Chan) (j : Job) (map : Word) (step rank cls dir : Nat) (done : State → Job → State) : State :=
  let j := { j with maps := map :: j.maps }
  if j.cancelled then s.jobIdle c
  else if j.code = 1023 then done (s.setJob c (some j)) j
  else (s.setJob c (some { j with code := j.code + 1 })).sweepTry c step rank cls dir (j.code + 1)

/-- The EYE of a program has ended with a pass map (02 R83). A stop that waits takes effect first (02 R91). -/
def State.jobEye (s : State) (c : Chan) (map : Word) : State :=
  let m := anvilSmith c
  match s.job c with
  | none => s
  | some j =>
    if s.smiths[m].stopReq then s.smithStop m
    else
      match j.steps with
      | .window step rank cls dir :: _ =>
        if step = 7 then
          if s.holds m c then
            ((s.setCodes c j.saved).jobRelease c).sweepNext c j map 7 rank cls dir (fun s j => s.windowDone c j 7 rank cls dir)
          else s.smithFault m 4 0
        else s.sweepNext c j map step rank cls dir (fun s j => s.windowDone c j step rank cls dir)
      | .level rank :: _ => s.sweepNext c j map 3 rank 3 0 (fun s j => s.levelDone c j rank)
      | .check rank _ cls dir :: rest =>
        if map = (classLanes c rank cls dir).mask then s.jobRun c rest else s.checkFail c j rank cls
      | _ => s

/-- The OSC of a program has ended with a count (R260). -/
def State.jobCount (s : State) (c : Chan) (w : Word) : State :=
  let m := anvilSmith c
  match s.job c with
  | none => s
  | some j =>
    if s.smiths[m].stopReq then s.smithStop m
    else
      match j.steps with
      | .count rank dqo :: rest =>
        (s.onJob c (fun j => { j with counts := j.counts ++ oscCounts c rank dqo w })).jobRun c rest
      | _ => s

/-- The pause of a program is granted: a margin position is measured, or the codes of a rank are moved and checked (R260,
R261). -/
def State.jobGranted (s : State) (c : Chan) : State :=
  match s.job c with
  | none => s
  | some j =>
    match j.steps with
    | .window step rank cls dir :: _ => s.sweepSample c rank (stepPattern step cls) cls dir j.code
    | .move rank :: rest =>
      let new := s.shifted c rank j.counts
      match codesOut new with
      | some cls => ((s.jobRelease c).trainFault c 7 rank cls).jobRun c rest
      | none =>
      let s := s.onJob c (fun j => { j with saved := s.codesOf c (new.map Prod.fst) })
      (s.setCodes c (new.map (fun e => (e.1, BitVec.ofInt 10 e.2.2)))).jobRun c (checkSteps rank ++ .moved rank :: rest)
    | _ => s

/-- A program that looked whether its hearth has calibrated looks again. -/
def State.jobLook (s : State) (c : Chan) : State :=
  match s.job c with
  | some j => s.jobRun c j.steps
  | none => s

end Sys2Proof.Machine
end

