-- ==== Sys2Proof/Machine/Phy.lean ====
section
/-! DEFINITION. Set points and the PLL, retraining, ZQ calibration, and the grant and end of a pause (07 R242 to R268,
02 R76 to R80). -/

namespace Sys2Proof.Machine

/-! ### Set points (R242 to R248) -/

/-- Every channel of the hearth of `c`. -/
def sameHearth (c : Chan) : List Chan := hearthChans (hearthOf c)

/-- Every populated channel of the hearth is in a bank-out step and its DRAM is in self-refresh (R245). -/
def State.hearthAsleep (s : State) (c : Chan) : Bool :=
  s.modes.step == .bankOut &&
  ((sameHearth c).filter (fun x => s.populated x.val)).all (fun x =>
    s.anvils[x].drained && (s.ranksOf x).all (fun k => s.anvils[x].selfRef[k]))

/-- A change of the set point, or of the rate in use, is accepted (R245). -/
def State.rateChangeOpen (s : State) (c : Chan) : Bool := s.modes.mode == .kindle || s.hearthAsleep c

/-- The PLL of the hearth starts to lock: LOCK falls (R244). -/
def State.startLock (s : State) (c : Chan) : State :=
  let on := s.flag (aPLL c.val) 8
  let s := s.setFlag (aPLL c.val) 31 false
  { s with hearths := upd s.hearths (hearthOf c) (fun h => { h with locking := on }) }

/-- The set point or its rate has changed: LOCK, RATE and the live codes (R244, R246). -/
def State.newRate (s : State) (c : Chan) : State :=
  let n := s.fsp c
  let s := s.setFld (aPLL c.val) 2 0 (s.fspRate c n)
  let s := (sameHearth c).foldl (fun s x => s.onAnvil x (fun v => v.loadLive n)) s
  s.startLock c

/-- An ignored change (R245). -/
def State.rateIgnored (s : State) (c : Chan) : State := s.setFlag (aPLL c.val) 30 true

/-- A change of HTH_PLL.FSP from `old` to the stored value is accepted or put back (R245). -/
def State.fspJudge (s : State) (c : Chan) (old : Nat) : State :=
  let new := s.fsp c
  if new = old then s
  else
    let back := (s.setFld (aPLL c.val) 5 4 old).rateIgnored c
    if !s.rateChangeOpen c then back
    else if s.modes.mode ≠ .kindle ∧ s.flag (aFSP c.val) (16 + new) = false then back
    else s.newRate c

/-- A write of HTH_PLL (R243 to R246). -/
def State.pllWrite (s : State) (c : Chan) (w : Word) : State :=
  let old := s.fsp c
  let was := s.flag (aPLL c.val) 8
  let s := (s.typed (aPLL c.val) w).fspJudge c old
  if s.flag (aPLL c.val) 8 = was then s else s.startLock c

/-- A change of RATEn from `old` is accepted or put back; it clears TRAINEDn (R245, R247). -/
def State.rateJudge (s : State) (c : Chan) (old : Word) (n : Nat) : State :=
  let was := wbits old (4 * n + 2) (4 * n)
  if s.fspRate c n = was then s
  else if s.fsp c = n then
    if s.rateChangeOpen c then (s.setFlag (aFSP c.val) (16 + n) false).newRate c
    else (s.setFld (aFSP c.val) (4 * n + 2) (4 * n) was).rateIgnored c
  else s.setFlag (aFSP c.val) (16 + n) false

/-- A write of HTH_FSP (R243 to R247). -/
def State.fspWrite (s : State) (c : Chan) (w : Word) : State :=
  let old := s.rd (aFSP c.val)
  [0, 1, 2].foldl (fun s n => s.rateJudge c old n) (s.typed (aFSP c.val) w)

/-- The first channel of a hearth. -/
def firstChan (h : HearthId) : Chan := ⟨6 * h.val, by omega⟩

/-- LOCK rises: the command stages resume, and the boundaries of a channel with no table are counted anew (R244,
12 R409). -/
def State.lockRise (s : State) (h : HearthId) : State :=
  let s := { s.setFlag (aPLL (firstChan h).val) 31 true with hearths := upd s.hearths h (fun x => { x with locking := false, lockAt := s.timebase }) }
  (hearthChans h).foldl (fun s c =>
    s.onAnvil c (fun v => { v.unsee with slotFresh := v.slotFresh || s.alen c.val == 0 })) s

/-- PLL_LOCK (R244). -/
def execPllLock (h : HearthId) (s : State) : Out :=
  .next (occur (s.hearths[h].locking && s.flag (aPLL (firstChan h).val) 8) s (s.lockRise h))

/-- The fault of a lost lock: from the lowest-numbered populated anvil of the hearth (R248). -/
def State.lockFault (s : State) (h : HearthId) : State :=
  match (hearthChans h).find? (fun c => s.populated c.val) with
  | some c => s.send c.val 0x08 sevFatal 0 (0xF + h.val * 2 ^ 8)
  | none => s

/-- PLL_LOCK_LOSS (R248). -/
def execPllLockLoss (h : HearthId) (s : State) : Out :=
  let a := aPLL (firstChan h).val
  .next (occur (s.flag a 8 && s.flag a 31 && !s.hearths[h].locking) s ((s.setFlag a 31 false).lockFault h))

/-! ### HTH_DLYDAT and HTH_PATDAT (R251 to R253) -/

/-- A read of HTH_DLYDAT: the code at INDEX, which may then advance (R251). -/
def State.dlydatRead (s : State) (c : Chan) : Word × State :=
  ((s.anvils[c].dlyGet (s.fld (aDLYIDX c.val) 8 0)).setWidth 32, s.dlyStep c)

/-- A write of HTH_DLYDAT (R251, R252). -/
def State.dlydatWrite (s : State) (c : Chan) (w : Word) : State :=
  (s.dlyWrite c (s.fld (aDLYIDX c.val) 8 0) (w.setWidth 10)).dlyStep c

/-- A read of HTH_PATDAT (Table 7.10). -/
def State.patdatRead (s : State) (c : Chan) : Word × State :=
  (s.anvils[c].patGet (s.fld (aPATIDX c.val) 3 0) (s.fld (aPATIDX c.val) 8 4), s.patStep c)

/-- A write of HTH_PATDAT (Table 7.10). -/
def State.patdatWrite (s : State) (c : Chan) (w : Word) : State :=
  (s.onAnvil c (fun v => v.patSet (s.fld (aPATIDX c.val) 3 0) (s.fld (aPATIDX c.val) 8 4) w)).patStep c

/-! ### Event 6 (R259) -/

/-- ANV_RETRAIN_US.INTERVAL in ns. -/
def State.retrainNs (s : State) (c : Chan) : Nat := 1000 * s.fld (aRETRAIN c.val) 15 0

/-- The retrain interval runs (R259). -/
def State.retrainRuns (s : State) (c : Chan) : Bool :=
  decide (0 < s.retrainNs c) && s.anvils[c].fn.state == .on && (s.inService || s.modes.mode == .assay)

/-- RETRAIN: event 6 of the Anvil Smith (R259). -/
def execRetrain (c : Chan) (now : Nat) (s : State) : Out :=
  .next (timed now
    (fun s => s.retrainRuns c && decide (s.anvils[c].retrainAt + s.retrainNs c ≤ s.timebase))
    (fun s => (s.onAnvil c (fun v => { v with retrainAt := v.retrainAt + s.retrainNs c })).event (anvilSmith c) 6) s)

/-- A write of ANV_RETRAIN_US restarts the interval (R259). -/
def State.retrainWrite (s : State) (c : Chan) (w : Word) : State :=
  (s.typed (aRETRAIN c.val) w).onAnvil c (fun v => { v with retrainAt := s.timebase })

/-! ### ZQ (R267, R268) -/

/-- A PHY calibration is due: PERIOD_MS after the previous one (R267; DEDUCED, log entry 17: in every mode in which
the hearths have power, the first one at once). -/
def State.zqDueNow (s : State) (h : HearthId) : Bool :=
  let a := aZQ (firstChan h).val
  s.modes.mode != .cold && s.modes.mode != .banked && !s.flag a 31 &&
  (!s.hearths[h].zqDone || decide (s.hearths[h].zqFrom + 1000000 * s.fld a 7 0 ≤ s.timebase))

/-- ZQ_CALIBRATION (R267). -/
def execZqCalibration (h : HearthId) (now : Nat) (s : State) : Out :=
  .next (timed now (fun s => s.zqDueNow h)
    (fun s =>
      { s.setFlag (aZQ (firstChan h).val) 31 true with hearths := upd s.hearths h (fun x => { x with zqFrom := s.timebase }) }) s)

/-- ZQ_CALIBRATION_END (R267): the new codes wait for an idle bus on each channel. -/
def execZqCalibrationEnd (h : HearthId) (pcode ncode : BitVec 6) (s : State) : Out :=
  let a := aZQ (firstChan h).val
  .next (occur (s.flag a 31) s (
    let s := ((s.setFlag a 31 false).setFld a 29 24 pcode.toNat).setFld a 21 16 ncode.toNat
    let s := { s with hearths := upd s.hearths h (fun x => { x with zqDone := true }) }
    (hearthChans h).foldl (fun s c => s.onAnvil c (fun v => { v with zqApply := true })) s))

/-- ZQ_CODE_APPLY (R267): at a CK edge at which CA and DQ have both been idle for 4 CK; a command that issues at such an edge
finds the codes in use (`State.issue`), so that they come into use at the first of them. -/
def execZqCodeApply (edge : Chan × Nat) (s : State) : Out :=
  let c := edge.1
  let ck := edge.2
  .next (occur (decide (s.anvils[c].ck ≤ ck) && s.anvils[c].idle4 ck) s
    ((s.applyZq c).onAnvil c (fun v => { v with ck := max v.ck ck })))

/-- HTH_ZQ.LATCH_MS in ns. -/
def State.latchNs (s : State) (c : Chan) : Nat := 1000000 * s.fld (aZQ c.val) 15 8

/-- The schedule of the ZQ latches starts at an entry to FORGE or LOWFIRE from another mode (R268). -/
def State.startLatches (s : State) (c : Chan) : State :=
  let t := s.timebase + s.latchNs c
  s.onAnvil c (fun v => { v with zqDue := #v[some t, if s.twoRanks c.val then some (t + 1000000) else none] })

/-- ZQ_LATCH_DUE (R268): an MPC ZQ latch becomes waiting at heat 7. -/
def execZqLatchDue (c : Chan) (rank : Fin 2) (now : Nat) (s : State) : Out :=
  .next (timed now
    (fun s => s.inService && s.populated c.val && (s.anvils[c].zqDue[rank]).any (fun t => decide (t ≤ s.timebase)))
    (fun s => s.onAnvil c (fun v =>
      ({ v with zqDue := upd v.zqDue rank (fun t => t.map (· + s.latchNs c)) }).push7
        { plainCmd .mpc rank.val 0 0 .zq with op := Config.zqLatchOp })) s)

/-! ### Pauses (R263 to R266, 02 R76 to R80) -/

/-- Every burst of a command that has issued has ended on DQ at this edge. -/
def Anvil.dqEnded (v : Anvil) (ck : Nat) : Bool :=
  v.hist.all (fun e => e.dq == 0 || decide (e.ck + v.lat e.code + e.dq ≤ ck))

/-- The preparation of 02 R77 is complete: no command in the slot, no client burst in flight, every bank closed. -/
def Anvil.prepared (v : Anvil) (ck : Nat) : Bool :=
  v.slot.isEmpty && !v.bursts.any (fun b => b.cmd.client) && v.dqEnded ck && v.pages.all Option.isNone

/-- The Smith that waits in PAUSE takes the grant: g[d] := timebase[31:0] (Table 2.9); a program of the reference image goes on. -/
def State.pauseDone (s : State) (m : SmithId) : State :=
  match s.smiths[m].wait with
  | some (.pause d c) => if s.working m then s.jobGranted c else (s.setG m d (BitVec.ofNat 32 s.timebase)).smithDone m
  | _ => s

/-- The first ungranted pause is granted: the hold begins (02 R77, 05 R210, R252, R267). -/
def State.grantPause (s : State) (c : Chan) (r : PauseReq) (ck : Nat) : State :=
  let s := s.onAnvil c (fun v =>
    { v with pauses := v.pauses.erase r, granted := v.granted ++ [{ smith := r.smith, n := r.n, start := ck }],
             ck := max v.ck ck })
  (((s.applyZq c).count (aPSTAT c.val) 15 0).startHold c).pauseDone r.smith

/-- PAUSE_GRANT (02 R76, R77, R263). -/
def execPauseGrant (c : Chan) (ck now : Nat) (s : State) : Out :=
  .next (timed now
    (fun s =>
      let v := s.anvils[c]
      s.modes.mode != .kindle && v.granted.isEmpty && v.preparing && decide (v.ck ≤ ck) && v.prepared ck)
    (fun s =>
      match s.anvils[c].pauses with
      | r :: _ => s.grantPause c r ck
      | [] => s) s)

/-- The deferral limit in ns (R264). -/
def State.deferral (s : State) (c : Chan) : Nat := if s.retrainNs c = 0 then 200000 else 4 * s.retrainNs c

/-- The first ungranted pause has passed its deferral limit (R264). -/
def State.forceDue (s : State) (c : Chan) : Bool :=
  let v := s.anvils[c]
  s.inService && v.granted.isEmpty && v.pauses.head?.any (fun r => !r.prep && !r.forced && decide (r.time + s.deferral c ≤ s.timebase))

/-- A pause is forced: it prepares at the next slot boundary, and takes away any grant in use there (R264, 12 R409, R416). -/
def State.forcePause (s : State) (c : Chan) : State :=
  (s.onAnvil c (fun v =>
    { v with pauses := (v.pauses.head?.map (fun r => { r with forced := true })).toList ++
        v.pauses.tail })).count (aPSTAT c.val) 23 16

/-- PAUSE_FORCE (R264). -/
def execPauseForce (c : Chan) (now : Nat) (s : State) : Out :=
  .next (timed now (fun s => s.forceDue c) (fun s => s.forcePause c) s)

/-- A pause whose n CK have passed. -/
def Anvil.expired (v : Anvil) (ck : Nat) : Option PauseGrant := v.granted.find? (fun g => decide (g.start + g.n ≤ ck))

/-- A pause expires: its Smith still owes an ENDP, which returns 1 (02 R78, Table 2.9). -/
def Anvil.expire (v : Anvil) (g : PauseGrant) : Anvil :=
  let v := v.endPause g.smith
  { v with owed := v.owed.map (fun o => if o.1 = g.smith then (g.smith, true) else o) }

/-- PAUSE_EXPIRE (02 R78, R266). -/
def execPauseExpire (c : Chan) (ck : Nat) (s : State) : Out :=
  .next (s.onAnvil c (fun v =>
    match v.expired ck with
    | some g => v.expire g
    | none => v))

/-- HTH_PSTAT as it reads (Table 7.13). -/
def State.pstat (s : State) (c : Chan) : Word :=
  let v := s.anvils[c]
  putBits (putBits (s.rd (aPSTAT c.val)) 31 31 (b2n (!v.pauses.isEmpty))) 30 30 (b2n (!v.granted.isEmpty))

end Sys2Proof.Machine
end

