-- ==== Sys2Proof/Machine/Slots.lean ====
section
/-! DEFINITION. Slot boundaries and grants, the search for a pause window, the commit and the switch of a slot table,
and the bank windows (12 R408 to R421, 07 R263, 02 R87). -/

namespace Sys2Proof.Machine

/-! ### Eligibility of a port (R414) -/

/-- The port that a candidate's entry belongs to. -/
def Anvil.candPort (v : Anvil) (x : Cand) : Option Nat :=
  if x.read then (v.reads.find? (fun e => e.seq == x.seq)).bind ReadEnt.port
  else (v.writes.find? (fun w => w.seq == x.seq)).bind WriteEnt.port

/-- The candidates of the anvil, judged as if it held grant `g` already. -/
def State.candsUnder (s : State) (c : Chan) (g : Grant) : List Cand :=
  ((s.onAnvil c (fun v => { v with grant := g })).turn c).cands c

/-- Port `p` has an eligible entry, judged under its own grant. -/
def State.portEligible (s : State) (c : Chan) (p : Nat) : Bool :=
  (s.candsUnder c (.background p 1)).any (fun x => s.anvils[c].candPort x == some p)

/-- The effective heat of a candidate without the grant term. -/
def Anvil.bareHeat (v : Anvil) (x : Cand) : Nat :=
  let v := { v with grant := .none }
  if x.read then ((v.reads.find? (fun e => e.seq == x.seq)).map v.effR).getD 0
  else ((v.writes.find? (fun w => w.seq == x.seq)).map v.effW).getD 0

/-- Eligible entries of any port, each judged under a grant of its own port, ranked without the grant term (R414). -/
def State.backgroundCands (s : State) (c : Chan) : List Cand :=
  let v := s.anvils[c]
  let ports := ((v.reads.map ReadEnt.port) ++ (v.writes.map WriteEnt.port)).dedup
  (ports.flatMap (fun q =>
    let g := match q with
      | some p => Grant.background p 1
      | none => Grant.none
    (s.candsUnder c g).filter (fun x => v.candPort x == q))).map (fun x => { x with eff := v.bareHeat x })

/-- The port of the first of them, if it belongs to one. -/
def State.backgroundPort (s : State) (c : Chan) : Option Nat :=
  let v := s.anvils[c]
  (v.first (s.backgroundCands c)).bind v.candPort

/-! ### The decision at a boundary (R413 to R417, R420) -/

/-- Heat-7 work waits at an edge: a command whose first edge has come (02 R84), or a pause that is prepared or granted (05 R178;
DEDUCED, log entry 19). -/
def Anvil.heat7Waits (v : Anvil) (ck : Nat) : Bool :=
  v.heat7.any (fun e => decide (e.1.due ≤ ck)) || v.preparing || !v.granted.isEmpty

/-- The owner of a slot of the active table, while it is not lapsed (R407, R428). -/
def State.slotPort (s : State) (c : Chan) (i : Nat) : Option Nat :=
  match slotOwner (s.anvils[c].slotEntry (s.slotAct c.val) i) with
  | some p => if s.lapsed p then none else some p
  | none => none

/-- An owned slot is lost where its owner has an eligible entry; it counts in `[hi:lo]` (R417). -/
def State.loseSlot (s : State) (c : Chan) (i hi lo : Nat) : State :=
  match s.slotPort c i with
  | some p => if s.portEligible c p then s.count (aLOST c.val) hi lo else s
  | none => s

/-- The anvil takes a grant. -/
def State.setGrant (s : State) (c : Chan) (g : Grant) : State := s.onAnvil c (fun v => { v with grant := g })

/-- A decision with no background grant running: the owner, else the best entry's port (R414). -/
def State.freshGrant (s : State) (c : Chan) (i : Nat) : State :=
  let background := match s.backgroundPort c with
    | some p => s.setGrant c (.background p 1)
    | none => s.setGrant c .none
  match s.slotPort c i with
  | some p => if s.portEligible c p then s.setGrant c (.owner p) else background
  | none => background

/-- The grant at the boundary of slot `i` (R414, R416, R417, R420). -/
def State.decideGrant (s : State) (c : Chan) (i ck : Nat) : State :=
  let v := s.anvils[c]
  let carried := match v.grant with
    | .carried p u drops => decide (ck < u) && (!drops || s.portEligible c p)
    | _ => false
  if carried then (if s.slotPort c i = v.grant.port then s else s.loseSlot c i 15 0)
  else if v.heat7Waits ck then (s.loseSlot c i 31 16).setGrant c .none
  else
    match v.grant with
    | .background p n =>
      if n < s.burst c.val + 1 ∧ s.portEligible c p = true then
        let s := if s.slotPort c i = some p then s else s.loseSlot c i 15 0
        s.setGrant c (.background p (n + 1))
      else s.freshGrant c i
    | _ => s.freshGrant c i

/-! ### The window of a pause (07 R263) -/

/-- W of a pause of n CK. -/
def pauseWindow (n : Nat) : Nat := ceilDiv n 4 + 8

/-- The next `w` slots from slot `i` are open, across the end of the table. -/
def State.openRun (s : State) (c : Chan) (i w : Nat) : Bool :=
  let l := s.alen c.val
  (List.range (min w l)).all (fun k => (s.slotPort c ((i + k) % l)).isNone)

/-- The first ungranted pause starts its preparation at this boundary, where its window begins or where it is forced (07 R263,
R264). -/
def State.seekWindow (s : State) (c : Chan) (i : Nat) : State :=
  let v := s.anvils[c]
  match v.pauses with
  | r :: rest =>
    if v.granted.isEmpty && !r.prep && s.modes.mode != .kindle && (r.forced || s.openRun c i (pauseWindow r.n)) then
      s.onAnvil c (fun v => { v with pauses := { r with prep := true } :: rest })
    else s
  | [] => s

/-- The first boundary of a table fixes its start (R409, R412). -/
def State.anchorTable (s : State) (c : Chan) (ck : Nat) : State :=
  s.onAnvil c (fun v => if v.slotFresh then { v with slotStart := ck, slotFresh := false } else v)

/-- A CK edge is a slot boundary of the active table (R409), not yet decided. -/
def State.atBoundary (s : State) (c : Chan) (ck : Nat) : Bool :=
  let v := s.anvils[c]
  s.pllLock c && v.boundAt.all (fun b => decide (b < ck)) && (v.slotFresh || (decide (v.slotStart ≤ ck) && (ck - v.slotStart) % 4 == 0))

/-- The slot that begins at a boundary. -/
def State.slotIndex (s : State) (c : Chan) (ck : Nat) : Nat := (ck - s.anvils[c].slotStart) / 4 % s.alen c.val

/-- MRRs and MPCs that wait for a slot boundary may be selected from this one on (02 R72, 06 R222, R409): those of an OSC from the
first boundary at or after their first edge (02 R84). -/
def Anvil.admit7 (v : Anvil) (ck : Nat) : Anvil :=
  { v with heat7 := v.heat7.map (fun e => ({ e.1 with bound := e.1.bound && decide (ck < e.1.due) }, e.2)) }

/-- A boundary: heat-7 work that waits for it, the budget of a new period, the window of a pause, and the grant. -/
def State.boundary (s : State) (c : Chan) (ck : Nat) : State :=
  let s := (s.anchorTable c ck).onAnvil c (fun v => { v.admit7 ck with boundAt := some ck })
  let i := s.slotIndex c ck
  let s := (if i = 0 then s.onAnvil c (fun v => { v with hammer := 0 }) else s).seekWindow c i
  if s.alen c.val = 0 then s.setGrant c .none else s.decideGrant c i ck

/-- SLOT_BOUNDARY (R409 to R417, R420, R428; 07 R263). -/
def execSlotBoundary (c : Chan) (ck : Nat) (s : State) : Out := .next (occur (s.atBoundary c ck) s (s.boundary c ck))

/-! ### Commit and switch (R418 to R421) -/

/-- The period of a table in units of 1/2,640 ns (R408). -/
def State.periodUnits (s : State) (c : Chan) (l : Nat) : Nat := 4 * l * s.tck c

/-- Units in one ns. -/
def unitsPerNs : Nat := 2640

/-- ANV_SLOT_TLO and ANV_SLOT_THI take a start time and PEND is set (R418). -/
def State.fixStart (s : State) (c : Chan) (t : Nat) : State :=
  let x := BitVec.ofNat 64 t
  ((s.wr (aTLO c.val) (x.setWidth 32)).wr (aTHI c.val) ((x >>> 32).setWidth 32)).setFlag (aSLOT c.val) 30 true

/-- The number of whole new periods that a late start adds (R418). -/
def lateCount (t tc pOld pNew : Nat) : Nat :=
  let bound := max (unitsPerNs * tc + 2 * pOld) (unitsPerNs * (tc + 32))
  ceilDiv (bound - unitsPerNs * t) pNew

/-- A late commit is reported: LATE, event 10 and fault 0x11 (R418); an unpopulated channel sends no message (04 R152). -/
def State.lateCommit (s : State) (c : Chan) (n : Nat) : State :=
  let s := (s.setFlag (aSLOT c.val) 31 true).eventBoth c 10
  if s.populated c.val then s.send c.val 0x11 sevInfo 0 (sat 65535 n) else s

/-- The anvil takes an SLC for start time `t` (R418); the result of 02 R87. -/
def State.commit (s : State) (c : Chan) (t : Nat) : Nat × State :=
  let tc := s.timebase
  let a := s.alen c.val
  let b := s.slen c.val
  let pOld := s.periodUnits c (if a = 0 then b else a)
  let pNew := s.periodUnits c (if b = 0 then a else b)
  if s.slotPend c.val then (2, s)
  else if tc + 32 ≤ t then (0, s.fixStart c t)
  else if pNew = 0 then (0, s.fixStart c (tc + 32))
  else
    let n := lateCount t tc pOld pNew
    (1, (s.lateCommit c n).fixStart c (t + ceilDiv (n * pNew) unitsPerNs))

/-- t_s of the last commit. -/
def State.startTime (s : State) (c : Chan) : Nat := (s.rd (aTLO c.val)).toNat + (s.rd (aTHI c.val)).toNat * 2 ^ 32

/-- A grant in use runs on to its end under the old table, counted from the boundary that decided it last (R420). At an old
boundary that the old table has not decided, the new table does (R421). DEDUCED (log entry 86): into no table none runs on,
since an anvil without a table holds no grant (R413). -/
def State.carryGrant (s : State) (c : Chan) (ck : Nat) : Grant :=
  let v := s.anvils[c]
  let last := v.boundAt.getD 0
  let live (p u : Nat) (drops : Bool) : Grant := if ck < u then .carried p u drops else .none
  if s.slen c.val = 0 then .none
  else
    match v.grant with
    | .none => .none
    | .owner p => live p (last + 4) false
    | .background p n => live p (last + 4 * max 1 (s.burst c.val + 2 - n)) true
    | .carried p u d => live p u d

/-- The switch (R419): the banks exchange roles and the new table begins slot 0 at this edge. A boundary at this edge that the old
table has decided is not decided again (R421). -/
def State.switchTable (s : State) (c : Chan) (ck : Nat) : State :=
  let before := s
  let g := s.carryGrant c ck
  let act := s.slotAct c.val
  let s := ((s.setFlag (aSLOT c.val) 28 (!act)).setFld (aSLOT c.val) 21 11 (s.slen c.val)).setFlag (aSLOT c.val) 30 false
  let s := s.onAnvil c (fun v => { v with grant := g, slotStart := ck, slotFresh := false })
  (s.slwDone c).throttleEdge before

/-- SLOT_TABLE_SWITCH (R419 to R421): at a CK edge at or after t_s. -/
def execSlotTableSwitch (c : Chan) (ck now : Nat) (s : State) : Out :=
  .next (timed now (fun s => s.slotPend c.val && s.pllLock c && decide (s.startTime c ≤ s.timebase))
    (fun s => s.switchTable c ck) s)

/-! ### Bank windows (R410) -/

/-- The word at index `w` of a bank: entry 4w + k in bits [8k+7:8k]. -/
def Anvil.bankWord (v : Anvil) (b : Bool) (w : Nat) : Word :=
  BitVec.ofNat 32 ((List.range 4).foldl (fun acc k => acc + (v.slotEntry b (4 * w + k)).toNat * 2 ^ (8 * k)) 0)

/-- A write of the word at index `w` of a bank; ignored on the active bank and while a commit waits (R410). -/
def State.bankWrite (s : State) (c : Chan) (b : Bool) (w : Nat) (x : Word) : State :=
  if b = s.slotAct c.val ∨ s.slotPend c.val = true then s.setFlag (aSLOT c.val) 29 true
  else
    s.onAnvil c (fun v => (List.range 4).foldl (fun v k => v.setSlot b (4 * w + k) ((x >>> (8 * k)).setWidth 8)) v)

/-- A write of ANV_SLOT (R430). -/
def State.slotWrite (s : State) (c : Chan) (w : Word) : State :=
  let old := s.slen c.val
  let s := s.typed (aSLOT c.val) w
  if s.slotPend c.val ∧ s.slen c.val ≠ old then (s.setFld (aSLOT c.val) 10 0 old).setFlag (aSLOT c.val) 29 true else s

/-- The active table of an anvil starts again at slot 0 (R412). With no table the boundaries go on as LOCK has set them (R409). -/
def State.restartTable (s : State) (c : Chan) : State :=
  if s.alen c.val = 0 then s.setGrant c .none
  else s.onAnvil c (fun v => { v with grant := .none, slotFresh := true, boundAt := none })

end Sys2Proof.Machine
end

