-- ==== Sys2Proof/Machine/Save.lean ====
section
/-! DEFINITION. The save path and the restore of the banking area (16 R517, R518, 09 R318). -/

namespace Sys2Proof.Machine

/-! ### Writing (R517) -/

/-- Byte list of a sector. -/
def sectorBytes (d : Sector) : List Nat := toBytes 64 d.toNat

/-- Bytes cut into sectors, the last one filled with zeros. -/
def sectorsOf : Nat → List Nat → List Sector
  | 0, _ => []
  | k + 1, l => BitVec.ofNat 512 (ofBytes (l.take 64)) :: sectorsOf k (l.drop 64)

/-! ### The items (Table 16.1) -/

/-- Base of the banking area. -/
def State.areaBase (s : State) : Nat := s.chanCap - 2 ^ 20

/-- The delay store as bytes. -/
def Anvil.dlyBytes (v : Anvil) : List Nat := (List.range 384).flatMap (fun i => toBytes 2 (v.dlyGet i).toNat)

/-- A data memory as bytes: word `i` at bytes 4i to 4i + 3. -/
def Smith.dmemBytes (h : Smith) (words : Nat) : List Nat := (List.range words).flatMap (fun i => toBytes 4 (h.dmem.get i).toNat)

/-- The plot bitmap as bytes: plot p in bit p mod 8 of byte p div 8 (DEDUCED, log entry 23). -/
def Anvil.plotBytes (v : Anvil) : List Nat :=
  (List.range 32768).map (fun i => (List.range 8).foldl (fun acc k => acc + b2n (v.written (8 * i + k)) * 2 ^ k) 0)

/-- The lowest-numbered populated anvil. -/
def State.firstPop (s : State) (c : Chan) : Bool := s.popChans.head? == some c

/-- The Master Smith's data memory as an item of an anvil: zero elsewhere. -/
def State.masterBytes (s : State) (c : Chan) : List Nat :=
  if s.firstPop c then (s.smiths[masterSmith]).dmemBytes 4096 else List.replicate 16384 0

/-- The four items of an anvil with their offsets and sizes in sectors, in the order of Table 16.1. -/
def State.items (s : State) (c : Chan) : List (Nat × Nat × List Nat) :=
  [ (0x40, 12, (s.anvils[c]).dlyBytes), (0x1000, 64, (s.smiths[anvilSmith c]).dmemBytes 1024),
    (0x2000, 512, (s.anvils[c]).plotBytes), (0x10000, 256, s.masterBytes c) ]

/-- The magic word of the header. -/
def saveMagic : Nat := 0x314B4E42

/-- The header (Table 16.1). -/
def State.saveHeader (s : State) (its : List (Nat × Nat × List Nat)) : Sector :=
  BitVec.ofNat 512 (ofBytes ([saveMagic, s.assay.saveSeq.toNat] ++ its.map (fun e => crc32c e.2.2) |>.flatMap (toBytes 4)))

/-- A sector of the banking area as the save writes it: whole, with no poison. -/
def saveSec (d : Sector) : WSec := { pos := 0, data := d, mask := BitVec.allOnes 64, pset := false, pclr := true }

/-- Sectors at consecutive addresses. -/
def saveRun (la : Nat) (ds : List Sector) : List (Nat × WSec) := ds.zipIdx.map (fun e => (la + 64 * e.2, saveSec e.1))

/-- The header and the items of an anvil, in rising order of their addresses. -/
def State.saveLines (s : State) (c : Chan) : List (Nat × WSec) :=
  let base := s.areaBase
  let its := s.items c
  saveRun base [s.saveHeader its] ++ its.flatMap (fun e => saveRun (base + e.1) (sectorsOf e.2.1 e.2.2))

/-- A plot of the banking area that is not written is filled before the save writes to it (05 R199). -/
def State.saveFill (s : State) (c : Chan) (plot : Nat) : State :=
  if s.anvils[c].written plot || s.anvils[c].fills.any (fun f => f.plot == plot) then s else s.startFill c plot 0 none

/-- The bank-in step of one anvil saves its items through the anvil's own write path: they arrive as writes, in a plot bitmap that shows
plots 0 and 1 of the area written (R517, 09 R318). What the step saves is what stands at its start. An anvil that is kept off takes no
part (09 R320). -/
def State.saveAnvil (s : State) (c : Chan) : State :=
  if s.keptOff c.val then s
  else
    let p := plotOf s.areaBase
    let lines := (s.onAnvil c (fun v => (v.markPlot p true).markPlot (p + 1) true)).saveLines c
    ((s.saveFill c p).saveFill c (p + 1)).feedLines c true lines

/-! ### Restore (R518) -/

/-- A sector of the banking area as the restore reads it: none where it decodes as POISON, ADDRESS_FAULT or
uncorrectable. -/
def State.loadAt (s : State) (c : Chan) (la : Nat) : Option Sector :=
  let p := s.secPlace c la
  let r : RowData := (List.range 32).map (fun pos => (pos, (s.anvils[c]).cell c p.1 pos))
  let d := s.decode c p.1 r p.2
  if d.found.bad then none else some d.data

/-- Consecutive sectors as bytes, where every one is good. -/
def State.loadRun (s : State) (c : Chan) (la : Nat) : Nat → Option (List Nat)
  | 0 => some []
  | k + 1 =>
    match s.loadAt c la, State.loadRun s c (la + 64) k with
    | some d, some l => some (sectorBytes d ++ l)
    | _, _ => none

/-- Item `i` of the banking area, where it is accepted: the magic, every sector, and the CRC-32C of the header. -/
def State.loadItem (s : State) (c : Chan) (i off sectors : Nat) : Option (List Nat) :=
  match s.loadAt c s.areaBase, s.loadRun c (s.areaBase + off) sectors with
  | some h, some l =>
    if ofBytes (secBytes h 0 4) = saveMagic ∧ ofBytes (secBytes h (8 + 4 * i) 4) = crc32c l then some l else none
  | _, _ => none

/-- A rejected item: fault 0x15 with finding 3 (R518, Table 16.3). -/
def State.notRestored (s : State) (c : Chan) (i : Nat) : State :=
  s.send 0x54 0x15 sevUncorrected 0
    (Config.notRestoredId c.val i % 1024 + 3 * 2 ^ 10 + c.val / 6 * 2 ^ 12)

/-- Word `i` of a byte list. -/
def wordOf (l : List Nat) (i : Nat) : Word := BitVec.ofNat 32 (ofBytes ((l.drop (4 * i)).take 4))

/-- The delay store is restored, or every entry is 0 (Table 16.2). -/
def Anvil.loadDly (v : Anvil) (l : Option (List Nat)) : Anvil :=
  match l with
  | none => { v with dly := [] }
  | some l => (List.range 384).foldl (fun v i => v.dlySet i (BitVec.ofNat 10 (ofBytes ((l.drop (2 * i)).take 2)))) { v with dly := [] }

/-- The plot bitmap is restored, or each of the `n` plots below C_ch counts as written (Table 16.2). -/
def Anvil.loadPlots (v : Anvil) (n : Nat) (l : Option (List Nat)) : Anvil :=
  match l with
  | none => { v with plotBase := true, plotExc := List.range' n (262144 - n) }
  | some l =>
    { v with plotBase := false,
             plotExc := l.zipIdx.flatMap (fun e => ((List.range 8).filter (bit e.1)).map (· + 8 * e.2)) }

/-- A data memory is restored, or cleared (Table 16.2). -/
def Smith.loadDmem (h : Smith) (words : Nat) (l : Option (List Nat)) : Smith :=
  match l with
  | none => { h with dmem := [] }
  | some l => { h with dmem := (List.range words).foldl (fun m i => m.set i (wordOf l i)) [] }

/-- Item `i` as the restore finds it: a command error, or an error that the check code of a sector cannot correct as it is read out, is
the surroundings' and rejects it too; whether one occurs is a free value (log entry 107). -/
def State.readItem (s : State) (c : Chan) (i off sectors : Nat) : Option (List Nat) :=
  if bit (s.free i).toNat 0 then none else s.loadItem c i off sectors

/-- One anvil is restored from its banking area (R518), with its delay store where `full`; where that is rejected bank-out trains the channel
in full (Table 16.2). -/
def State.restoreAnvil (s : State) (full : Bool) (c : Chan) : State :=
  let dly := s.readItem c 0 0x40 12
  let dm := s.readItem c 1 0x1000 64
  let plots := s.readItem c 2 0x2000 512
  let ms := s.readItem c 3 0x10000 256
  let s := s.drawn 4
  let told (s : State) (i : Nat) (l : Option (List Nat)) : State := if l.isNone then s.notRestored c i else s
  let s := told (told (if full then told s 0 dly else s) 1 dm) 2 plots
  let s := s.onAnvil c (fun v => (if full then { v.loadDly dly with dlyLost := dly.isNone } else v).loadPlots s.nPlots plots)
  let s := s.onSmith (anvilSmith c) (fun h => h.loadDmem 1024 dm)
  if s.firstPop c then (told s 3 ms).onSmith masterSmith (fun h => h.loadDmem 4096 ms) else s

/-- Every populated anvil is restored. -/
def State.restoreAll (s : State) (full : Bool) : State := s.popChans.foldl (fun s c => s.restoreAnvil full c) s

end Sys2Proof.Machine
end

