-- ==== Sys2Proof/Machine/Modes.lean ====
section
/-! DEFINITION. Mode requests, the completion of a transition, BANKED entry and shed levels (13 R431 to R449). -/

namespace Sys2Proof.Machine

/-! ### Requests (R432, R433, R435, R439, R440) -/

/-- AST_STAT.DIRTY (16 R532). -/
def State.dirty (s : State) : Bool := s.flag aAST_STAT 27

/-- UF24 ignores every request: after a Tongs bite, with the Master Smith stopped or parked outside BANKED, and after
a direct run (R432, R440, 16 R532). -/
def State.requestsBarred (s : State) : Bool :=
  s.tongs.bitten.isSome || s.dirty ||
  (s.modes.mode != .banked && (s.smiths[masterSmith].run == .stopped || s.flag aSTATE1 18))

/-- Lifecycle DEVELOP or RETURNED (Table 14.1). -/
def State.assayLife (s : State) : Bool := s.lifecycle == 1 || s.lifecycle == 3

/-- AST_STAT.FAIL shows an unrepairable macro of no anvil and no slice (16 R529). -/
def State.macroBlocks (s : State) : Bool :=
  s.flag aAST_STAT 29 && s.assay.repairs.any (fun r => r.unrep && (Config.macroChannel r.macroId).isNone)

/-- Table 13.2 lists the request for the current mode, and 16 R529 does not bar it. -/
def State.requestListed (s : State) (m : Mode) : Bool :=
  match s.modes.mode, m with
  | .kindle, .forge => !s.macroBlocks
  | .kindle, .assay => s.assayLife && !s.macroBlocks
  | .forge, .banked | .lowfire, .banked => true
  | .forge, .assay | .lowfire, .assay => s.assayLife
  | .banked, .forge => !s.assay.holdExit
  | .assay, .kindle => true
  | _, _ => false

/-- An ignored request or MODE write (R432, R434). -/
def State.modeIgnored (s : State) : State := s.setFlag aMODE 30 true

/-- A refused request for ASSAY is reported to Hedge while it has power (R439). -/
def State.reportAssay (s : State) (m : Mode) : State :=
  if m = .assay ∧ s.assayLife = false ∧ s.modes.gated = false then s.violation 5 0 (violDetail none 5 false 0) else s

/-- BUSY and TARGET (R433). -/
def State.startTransition (s : State) (m : Mode) : State := (s.setFlag aMODE 29 true).setFld aMODE 10 8 m.code

/-- The power-gate request to power up (R442, 19 R574). -/
def State.startExit (s : State) : State := s.onModes (fun m => { m with step := .gateOn, pgReq := 2, held := false })

/-- BANKED is left: at once, or after the run and step 7 of R441 (16 R523). -/
def State.leaveBanked (s : State) : State :=
  let s := s.startTransition .forge
  if s.modes.step = .off then s.startExit else s.onModes (fun m => { m with held := true })

/-- ASSAY is entered from service: steps 1 and 2 of R441 (Table 13.2, 17 R546). -/
def State.beginAssay (s : State) : State :=
  let s := ((s.leaveGang .assay).startTransition .assay).eventMS 3
  (s.onModes (fun m => { m with step := .draining })).flushAll

/-- A request is accepted (R433). -/
def State.acceptRequest (s : State) (m : Mode) (host : Bool) : State :=
  match s.modes.mode, m with
  | .banked, _ => s.leaveBanked
  | _, .banked => s.beginBanked host
  | .forge, .assay | .lowfire, .assay => s.beginAssay
  | _, _ => (s.startTransition m).eventMS 3

/-- A request is judged against the mode in force (R432, R439). -/
def State.judgeRequest (s : State) (m : Mode) (host : Bool) : State :=
  let s := s.reportAssay m
  if !s.requestsBarred && s.requestListed m then s.acceptRequest m host else s.modeIgnored

/-- A planned power-off that has not been answered begins its steps 1 to 6 once no transition runs (16 R519): in service, and in KINDLE and
ASSAY (DEDUCED, log entry 105); after a Tongs bite or a direct run it waits for RST_N (R440, 16 R532). -/
def State.offDue (s : State) : Bool :=
  s.modes.offReq && !s.modes.offAck && !s.busy && s.tongs.bitten.isNone && !s.dirty &&
  (s.inService || s.modes.mode == .kindle || s.modes.mode == .assay)

/-- The steps of a planned power-off begin where it is due. -/
def State.startOff (s : State) : State :=
  if s.offDue then (s.beginBanked true).onModes (fun m => { m with offRun := true }) else s

/-- A request recorded during a transition is judged at its end (R435). -/
def State.judgeRecorded (s : State) : State :=
  match s.modes.recorded with
  | none => s
  | some m =>
    let host := s.modes.recHost
    ((s.setFlag aMODE_REQ 31 false).onModes (fun x => { x with recorded := none, recHost := false })).judgeRequest m host

/-- A transition ends: BUSY clears, a recorded request is judged (R435), and a planned power-off that waits begins. -/
def State.endTransition (s : State) : State := (s.setFlag aMODE 29 false).judgeRecorded.startOff

/-- The modes that GLB_MODE_REQ.REQ may name (Table 13.7). -/
def requestMode : Nat → Option Mode
  | 1 => some .kindle
  | 2 => some .forge
  | 4 => some .banked
  | 5 => some .assay
  | _ => none

/-- A write of GLB_MODE_REQ (R432, R435). -/
def State.modeRequest (s : State) (w : Word) : State :=
  match requestMode (wbits w 2 0) with
  | none => s.modeIgnored
  | some m =>
    let s := s.setFld aMODE_REQ 2 0 (wbits w 2 0)
    if s.busy && !s.requestsBarred then
      (s.setFlag aMODE_REQ 31 true).onModes (fun x => { x with recorded := some m, recHost := true })
    else s.judgeRequest m true

/-- MODE_REQUEST (R432, R435, R439, R440). -/
def execModeRequest (w : Word) (s : State) : Out := hostRow [(aMODE_REQ, some w)] true (fun s => s.modeRequest w) s

/-! ### Entry to service -/

/-- What starts with an entry to FORGE or LOWFIRE from another mode (07 R259, R268, 13 R438, R447). -/
def State.serviceStarts (s : State) : State :=
  let s := s.popChans.foldl (fun s c => (s.startLatches c).onAnvil c (fun v => { v with retrainAt := s.timebase })) s
  (s.onModes (fun m => { m with shedFrom := s.timebase, shedLow := s.timebase })).thermalFloor

/-- A Temper round starts (R457). -/
def State.startRound (s : State) : State := { s with temper := { s.temper with round := true, roundAt := s.timebase } }

/-- The checks at KINDLE exit have passed: MISMATCH falls and the mapping is locked (04 R170, R171, 19 R580). -/
def State.lockMap (s : State) : State := (s.setFlag aCAP 29 false).kindleLeft

/-- KINDLE exit to service (Table 13.2). -/
def State.kindleToService (s : State) : State := (s.setMode s.serviceMode).serviceStarts

/-- The Temper round at the completion of KINDLE exit, from which the schedule runs (R457). -/
def State.firstRound (s : State) : State :=
  let s := s.onTemper (fun t => { t with base := some s.timebase })
  if s.temper.round then s else s.startRound

/-- ASSAY is entered: GLB_SHED.LEVEL is 0, and the ports are ready again (Table 13.2, R438). Pauses that wait are prepared without a
window from then on (02 R80). -/
def State.toAssay (s : State) : State :=
  let fresh := !s.inService
  let s := (s.setMode .assay).onModes (fun m => { m with step := .none })
  let s := s.setShed 0
  let s := allChans.foldl (fun s c => s.onAnvil c (fun v => { v with pauses := v.pauses.map (fun r => { r with prep := true }) })) s
  if fresh then s.popChans.foldl (fun s c => s.onAnvil c (fun v => { v with retrainAt := s.timebase })) s else s

/-- KINDLE exit: the checks of 04 R171. -/
def State.leaveKindle (s : State) (target : Mode) : State :=
  if s.mapGood s.keptOff then
    let s := s.lockMap
    (if target = .assay then s.toAssay else s.kindleToService).firstRound.endTransition
  else ((s.setFlag aCAP 29 true).modeIgnored).endTransition

/-- Every anvil begins its self-test (09 R319). -/
def State.selfTests (s : State) : State := allChans.foldl (fun s c => s.startSelfTest c) s

/-- The pauses of a channel that wait are granted at once (02 R80). -/
def State.grantWaiting (s : State) (c : Chan) : State :=
  let l := s.anvils[c].pauses
  let s := s.onAnvil c (fun v =>
    { v with pauses := [], granted := v.granted ++ l.map (fun r => { smith := r.smith, n := r.n, start := v.ck }) })
  l.foldl (fun s r => s.pauseDone r.smith) s

/-- KINDLE is entered from ASSAY (Table 13.2): every channel is held from then on, and no PAUSE waits (02 R70, R80). -/
def State.assayToKindle (s : State) : State :=
  let s := ((s.setMode .kindle).selfTests).invalidateAll
  allChans.foldl (fun s c => (s.startHold c).grantWaiting c) s

/-! ### BANKED entry (R441, R442) -/

/-- A run of the Assay engine begins (16 R522). -/
def State.startRun (s : State) (k : RunKind) (quarters : List Nat) : State :=
  let w := putBits (putBits (s.rd aAST_STAT) 3 0 0) 15 8 0
  let w := putBits (putBits (putBits (putBits w 31 30 1) 29 29 0) 28 28 0) 26 26 (b2n (k == .short))
  { s.wr aAST_STAT w with assay := { s.assay with run := some (k, quarters) } }

/-- The Smiths to start again at BANKED exit (02 R52). -/
def State.wakers (s : State) : List SmithId := allSmiths.filter (fun m => s.smiths[m].run != .stopped)

/-- GLB_MODE becomes BANKED: no commit waits (12 R412), no refresh and no debt (06 R212), BCAUSE, the Smiths stop, and the automatic run begins (R441 step 6, R442, 16 R519). -/
def State.enterBanked (s : State) : State :=
  let wake := s.wakers
  let s := if s.modes.mode = .kindle then s.kindleLeft else s
  let s := (s.cancelCommits.setFlag aMODE 28 (!s.modes.hostBank)).setMode .banked
  let s := allChans.foldl (fun s c => s.stopRefresh c) s
  let s := s.onModes (fun m => { m with step := .run, wake := wake })
  let s := wake.foldl (fun s m => s.smithStop m) s
  (s.startRun .automatic [0, 1, 2, 3]).endTransition

/-- The queues of a channel and its slice are empty, its Gleaner and patrol writes included (R441 step 2). -/
def State.channelEmpty (s : State) (c : Chan) : Bool :=
  let v := s.anvils[c]
  let l := s.slices[c]
  v.reads.isEmpty && v.writes.isEmpty && v.fills.isEmpty && v.feed.isEmpty && v.visit.isNone && !v.bursts.any (fun b => b.cmd.client) &&
  l.inq.isEmpty && l.pfq.isEmpty && l.fills.isEmpty && l.miss.isEmpty && l.merge.isEmpty

/-- Every accepted request has been answered: its client has taken the response, which a port holds until then (03 R103,
R107). -/
def Port.quiet (v : Port) : Bool := v.reqs.isEmpty && v.respq.isEmpty

/-- Every accepted request is answered and every queue is empty. -/
def State.queuesEmpty (s : State) : Bool := s.ports.all Port.quiet && s.pieces.isEmpty && allChans.all s.channelEmpty

/-- The Anvil Smith of a channel runs the reference image. -/
def State.anvilProgram (s : State) (c : Chan) : Bool := s.imageAS.reference && s.smiths[anvilSmith c].run != .stopped

/-- The mode handler of the reference Master Smith image, where it runs, hands the bank steps to the Anvil Smiths that run the
reference image (08 Tables 8.1 and 8.2). -/
def State.orderBanks (s : State) : State :=
  if !s.prog.mode then s
  else
    let cs := s.popChans.filter s.anvilProgram
    match s.modes.step with
    | .bankIn => cs.foldl (fun s c => s.order c .bankIn) s
    | .bankOut => cs.foldl (fun s c => s.order c .bankOut) s
    | _ => s

/-- The bank-in program of an Anvil Smith: the save of R441 step 3, and step 4 once it is in the DRAM. -/
def State.bankInAnvil (s : State) (c : Chan) : State :=
  if s.modes.step = .bankIn then (s.saveAnvil c).jobBegin c (freshJob .bankIn [.saved]) else s

/-- The bank-in step of an anvil begins: the hold of 02 R70, the rows closed for self-refresh (05 R183) and the neighbour refreshes of
06 R232. A reference Anvil Smith image saves and sleeps by order of the mode handler; with another Master Smith image the step itself
orders it, and with another Anvil Smith image the engine saves at once (DEDUCED, log entry 102). -/
def State.bankIn (s : State) (c : Chan) : State :=
  let s := (((s.onAnvil c (fun v => { v with drained := true })).startHold c).pushPrea c).hammerSweep c
  if !s.anvilProgram c then s.saveAnvil c
  else if s.imageMS.reference then s
  else s.order c .bankIn

/-- BANKED_QUEUES_EMPTY (R441 steps 2 and 3). -/
def execBankedQueuesEmpty (s : State) : Out :=
  .next (occur (s.modes.step == .draining && s.queuesEmpty && s.tongs.bitten.isNone) s (
    if s.fld aMODE 10 8 = Mode.assay.code then s.onModes (fun m => { m with step := .ready })
    else
      let s := s.onModes (fun m => { m with step := .bankIn })
      let s := { s with assay := { s.assay with saveSeq := s.assay.saveSeq + 1 } }
      (s.popChans.foldl (fun s c => s.bankIn c) s).orderBanks))

/-! ### BANKED exit, step 5 (R443) -/

/-- GLB_SHED.LEVEL at BANKED exit (R443). -/
def State.exitLevel (s : State) : Nat := if s.flag aMODE 28 then 6 else 0

/-- LEVEL takes its value at BANKED exit, with the fault of a change (R446). -/
def State.setExitLevel (s : State) : State :=
  let old := s.shed
  let s := s.setFld aSHED 2 0 s.exitLevel
  if old = s.exitLevel then s
  else s.send 0x50 0x1A sevInfo 0 (s.exitLevel + old * 2 ^ 3 + b2n (s.flag aSHED 31) * 2 ^ 6)

/-- The Bellows of a port starts again; its window boundaries have kept their pace (11 R390, R393, R402). -/
def State.restartPort (s : State) (p : PortId) : State := (s.passBoundaries p).onPort p Port.clearBellows

/-- A channel starts again at BANKED exit (R443, 06 R215, R222, 12 R412). -/
def State.restartChannel (s : State) (c : Chan) : State :=
  let s := s.restartTable c
  let s := s.onAnvil c (fun v => { v with drained := false })
  let s := s.onSlice c (fun l => { l with settle := some s.timebase })
  let s := if s.refreshing c then (s.newRound c).startPoll c else s
  (s.anvilRequest c).glnRequest c

/-- GLB_MODE shows service again (R443). -/
def State.bankedToService (s : State) : State :=
  let s := s.setExitLevel
  let s := ((s.setMode s.serviceMode).onModes (fun m => { m with step := .none, wake := [] })).samplePm
  let s := allPorts.foldl (fun s p => s.restartPort p) s
  let s := allChans.foldl (fun s c => s.restartChannel c) s
  s.serviceStarts.loftRequests

/-! ### MODE_COMPLETE (R434) -/

/-- A Master Smith write completes the transition that TARGET names (R434); after a Tongs bite GLB_MODE keeps its value (01
R34). A write before UF24 has done its own part
of the transition, the steps up to the empty queues and the save, or the power-up, completes nothing (DEDUCED, log entry 24). -/
def State.completes (s : State) (m : Mode) : Bool :=
  s.busy && s.fld aMODE 10 8 == m.code && s.tongs.bitten.isNone &&
  (match s.modes.mode, m with
    | .banked, _ => s.modes.step == .bankOut
    | _, .banked => s.modes.step == .bankIn && s.popChans.all (fun c => s.anvils[c].saved)
    | .kindle, _ | .assay, _ => true
    | _, _ => s.modes.step == .ready)

/-- The transition that TARGET names is complete. -/
def State.complete13 (s : State) (m : Mode) : State :=
  match s.modes.mode, m with
  | .banked, _ => s.bankedToService.endTransition
  | _, .banked => s.enterBanked
  | .kindle, _ => s.leaveKindle m
  | .assay, _ => s.assayToKindle.endTransition
  | _, _ => s.toAssay.endTransition

/-- A write of GLB_MODE: host writes of MODE are ignored, and the Master Smith completes a transition (R434). -/
def State.modeWrite (s : State) (master : Bool) (w : Word) : State :=
  let s := s.typed aMODE w
  if !master || wbits w 2 0 == s.modes.mode.code then s
  else
    match Mode.ofCode (wbits w 2 0) with
    | some m => if s.completes m then s.complete13 m else s.modeIgnored
    | none => s.modeIgnored

/-- The channels whose Anvil Smith runs the reference image. -/
def State.progChans (s : State) : List Chan := s.popChans.filter s.anvilProgram

/-- Every rank of a channel is in self-refresh, or none is. -/
def State.ranksAre (s : State) (c : Chan) (asleep : Bool) : Bool := (s.ranksOf c).all (fun k => s.anvils[c].selfRef[k] == asleep)

/-- A command that a program of the reference image has handed to the command stage has not issued. -/
def State.programWaits (s : State) (c : Chan) : Bool :=
  let v := s.anvils[c]
  v.slot.any (fun l => l.src == .close) || v.heat7.any (fun e => e.1.src == .close)

/-- A channel has no work of a bank step left. -/
def State.stepDone (s : State) (c : Chan) : Bool :=
  s.prog.orders[c].isEmpty && s.prog.jobs[c].isNone && !s.programWaits c

/-- What the mode handler of the reference image waits for before it completes a transition: no mapped channel has failed
training (07 R257); the bank-in steps have ended with SRE (R441 step 4); the bank-out steps have ended (R443 step 4). -/
def State.handlerDone (s : State) : Bool :=
  match s.modes.mode with
  | .banked => s.progChans.all (fun c => s.ranksAre c false && s.stepDone c)
  | .kindle =>
    if s.fld aMODE 10 8 = Mode.banked.code then s.progChans.all (fun c => s.ranksAre c true && s.stepDone c)
    else s.popChans.all (fun c => !s.flag (aTSTAT c.val) 30)
  | _ => s.fld aMODE 10 8 != Mode.banked.code || s.progChans.all (fun c => s.ranksAre c true && s.stepDone c)

/-- The Master Smith may write GLB_MODE: not while it is STOPPED; the reference image does so from its mode handler alone (08
R273). -/
def State.masterWrites (s : State) : Bool :=
  s.smiths[masterSmith].run != .stopped && (!s.imageMS.reference || (s.prog.mode && s.handlerDone))

/-- The write completes a transition. -/
def State.completing (s : State) (w : Word) : Bool :=
  wbits w 2 0 != s.modes.mode.code && (Mode.ofCode (wbits w 2 0)).any s.completes

/-- The mode handler ends with its transition (08 R273): at the end of bank-out it issues XCHG (17 R543), and it has ended already
where BANKED has stopped its Smith. -/
def State.handlerEnds (s : State) (was : Mode) : State :=
  if s.smiths[masterSmith].run = .stopped then s
  else
    let s := if was = .banked ∧ s.imageMS.reference = true then s.exchange else s
    s.endHandler

/-- MODE_COMPLETE (R434 to R438, R443). A write that completes nothing leaves the mode handler at work (08 R273). -/
def execModeComplete (w : Word) (now : Nat) (s : State) : Out :=
  .next (timed now State.masterWrites (fun s =>
    let t := s.modeWrite true w
    if s.completing w then t.handlerEnds s.modes.mode else t) s)

/-! ### Shed rows (R445 to R449) -/

/-- SHED_LEVEL_CHANGE: the Master Smith writes GLB_SHED.LEVEL (R445). -/
def execShedLevelChange (w : Word) (s : State) : Out :=
  .next (occur (s.smiths[masterSmith].run != .stopped) s (s.shedWrite (wbits w 2 0)))

/-- TMP_SAG.DWELL_US in ns. -/
def State.dwellNs (s : State) : Nat := 1000 * s.fld aSAG 31 16

/-- LEVEL is above TMP_SAG.LEVEL in service (R447). -/
def State.shedAbove (s : State) : Bool := s.inService && decide (s.fld aSAG 2 0 < s.shed)

/-- SHED_STEP_TIMER: event 4 every DWELL_US (R447). -/
def execShedStepTimer (now : Nat) (s : State) : Out :=
  .next (timed now (fun s => s.shedAbove && decide (s.modes.shedFrom + s.dwellNs ≤ s.timebase))
    (fun s => (s.onModes (fun m => { m with shedFrom := m.shedFrom + s.dwellNs })).eventMS 4) s)

end Sys2Proof.Machine
end

