-- ==== Sys2Proof/Machine/Assay.lean ====
section
/-! DEFINITION. The Assay engine: repair allocation, results, direct runs and the test access port, and the end of
COLD (16 R519 to R532). -/

namespace Sys2Proof.Machine

/-! ### Spares (R526) -/

/-- Failing cells that no spare of a macro covers. -/
def Repair.uncovered (r : Repair) (cells : List (Nat × Nat)) : List (Nat × Nat) :=
  cells.filter (fun e => !r.rows.contains e.1 && !r.cols.contains e.2)

/-- Free spare rows. -/
def Repair.freeRows (r : Repair) : Nat := 2 - r.rows.length

/-- Free spare columns. -/
def Repair.freeCols (r : Repair) : Nat := 2 - r.cols.length

/-- A line of a macro: a row or a column with the failing cells it holds. -/
structure FailLine where
  col   : Bool
  index : Nat
  count : Nat
deriving DecidableEq, Repr

/-- The lines that still hold failing cells and for whose kind a spare is free. -/
def Repair.lines (r : Repair) (cells : List (Nat × Nat)) : List FailLine :=
  let l := r.uncovered cells
  let rows := (l.map Prod.fst).dedup.map (fun i => ({ col := false, index := i, count := (l.filter (fun e => e.1 == i)).length } : FailLine))
  let cols := (l.map Prod.snd).dedup.map (fun i => ({ col := true, index := i, count := (l.filter (fun e => e.2 == i)).length } : FailLine))
  (if 0 < r.freeRows then rows else []) ++ (if 0 < r.freeCols then cols else [])

/-- The line of a list that comes first under a key. -/
def firstLine (key : FailLine → List Nat) : List FailLine → Option FailLine
  | [] => none
  | x :: l => some (l.foldl (fun b y => if lexLt (key y) (key b) then y else b) x)

/-- A line takes a spare of its kind. -/
def Repair.take (r : Repair) (x : FailLine) : Repair :=
  if x.col then { r with cols := r.cols ++ [x.index] } else { r with rows := r.rows ++ [x.index] }

/-- One allocation of pass 1: a row with more failing cells than the free spare columns, or a column with more than the
free spare rows; rows first, then the lower index (DEDUCED, log entry 88). -/
def Repair.must (r : Repair) (cells : List (Nat × Nat)) : Option FailLine :=
  firstLine (fun x => [b2n x.col, x.index]) ((r.lines cells).filter (fun x =>
    decide ((if x.col then r.freeRows else r.freeCols) < x.count)))

/-- One allocation of pass 2: the line with more failing cells, a row among equals, then the lower index (DEDUCED, log
entry 88). -/
def Repair.may (r : Repair) (cells : List (Nat × Nat)) : Option FailLine :=
  firstLine (fun x => [cells.length - x.count, b2n x.col, x.index]) (r.lines cells)

/-- A pass: allocations until nothing changes. -/
def Repair.pass (pick : Repair → Option FailLine) : Nat → Repair → Repair
  | 0, r => r
  | fuel + 1, r =>
    match pick r with
    | some x => Repair.pass pick fuel (r.take x)
    | none => r

/-- The two passes of R526 over the new failing cells of a macro. -/
def Repair.allocate (r : Repair) (cells : List (Nat × Nat)) : Repair :=
  let r := Repair.pass (fun r => r.must cells) 4 r
  let r := Repair.pass (fun r => r.may cells) 4 r
  { r with unrep := !(r.uncovered cells).isEmpty }

/-! ### Results of a quarter (R522, R525, R528, R529) -/

/-- The repair of a macro. -/
def State.repairOf (s : State) (m : Nat) : Repair :=
  (s.assay.repairs.find? (fun r => r.macroId == m)).getD { macroId := m, rows := [], cols := [], unrep := false }

/-- Change the Assay engine. -/
def State.onAssay (s : State) (f : Assay → Assay) : State := { s with assay := f s.assay }

/-- Store the repair of a macro, in the order of the macros. -/
def State.putRepair (s : State) (r : Repair) : State :=
  s.onAssay (fun a =>
    { a with repairs := a.repairs.filter (fun x => decide (x.macroId < r.macroId)) ++ r ::
        a.repairs.filter (fun x => decide (r.macroId < x.macroId)) })

/-- Store a result word. -/
def State.record (s : State) (i : Nat) (w : Word) : State :=
  s.onAssay (fun a => { a with records := SMap.insert a.records i w })

/-- Macro word 0 (Table 16.6). -/
def macroWord (r : Repair) (fails : Nat) : Word :=
  BitVec.ofNat 32 (2 ^ 31 + b2n r.unrep * 2 ^ 30 + r.rows.length * 2 ^ 28 + r.cols.length * 2 ^ 26 + sat 65535 fails)

/-- The message of a finding; those of the short memory test wait for KINDLE (R528, Table 16.3). -/
def State.finding (s : State) (id find q : Nat) (short : Bool) (sev : Nat) : State :=
  let detail := id + find * 2 ^ 10 + q * 2 ^ 12 + b2n short * 2 ^ 14
  if short then s.onAssay (fun a => { a with later := a.later ++ [(sev, detail)] }) else s.send 0x54 0x15 sev 0 detail

/-- The findings of the short memory test are sent (R528). -/
def State.sendFindings (s : State) : State :=
  (s.assay.later.foldl (fun s e => s.send 0x54 0x15 e.1 0 e.2) s).onAssay (fun a => { a with later := [] })

/-- AST_STAT.NREP: macros with any spare in use. -/
def State.countRepairs (s : State) : State :=
  s.setFld aAST_STAT 23 16 (sat 255 (s.assay.repairs.filter (fun r => !r.rows.isEmpty || !r.cols.isEmpty)).length)

/-- A failure counts in the last run. -/
def State.countFail (s : State) : State := (s.setFlag aAST_STAT 29 true).count aAST_STAT 15 8

/-- An unrepairable macro: its severity, and the held exit (R529). -/
def State.unrepairable (s : State) (k : RunKind) (q m : Nat) : State :=
  let s := s.countFail
  let short := k == .short
  match Config.macroChannel m with
  | none => s.finding m 1 q short sevFatal
  | some c =>
    if k = .automatic ∧ s.populated c = true then
      (s.onAssay (fun a => { a with holdExit := true })).finding m 1 q short sevFatal
    else s.finding m 1 q short sevUncorrected

/-- What the memory test of a run finds in one macro (R525 to R529). -/
def State.macroResult (s : State) (k : RunKind) (q : Nat) (f : MacroFinding) : State :=
  let old := s.repairOf f.macroId
  let r := old.allocate f.cells
  let s := s.putRepair r
  let s := ((s.record (4 * f.macroId) (macroWord r f.fails)).record (4 * f.macroId + 1) (f.firstAddr.setWidth 32)).record
    (4 * f.macroId + 2) (f.firstBit.setWidth 32)
  let s := if r.rows.length + r.cols.length = old.rows.length + old.cols.length then s else s.setFlag aAST_STAT 28 true
  if r.unrep then s.unrepairable k q f.macroId else s.finding f.macroId 0 q (k == .short) sevCorrected

/-- The quarter that a macro is tested in: that of its anvil or slice (R520), else the list's. -/
def macroQuarter (m : Nat) : Nat :=
  match Config.macroChannel m with
  | some c => c / 6 % 4
  | none => Config.macroQuarter m % 4

/-- The macros of a quarter start the test with no record and no mark (R525, R529). -/
def State.clearQuarter (s : State) (q : Nat) : State :=
  s.onAssay (fun a =>
    { a with repairs := a.repairs.map (fun r => if macroQuarter r.macroId = q then { r with unrep := false } else r)
             records := a.records.filter (fun e => decide (3328 ≤ e.1) || macroQuarter (e.1 / 4) != q)
             tested := a.tested ||| BitVec.ofNat 4 (2 ^ q) })

/-- What a test finds counts for the macros of the quarter alone, and only where a cell fails that the stored repair does not cover
(R520, R525). -/
def State.foundIn (s : State) (q : Nat) (f : MacroFinding) : Bool :=
  macroQuarter f.macroId == q && !((s.repairOf f.macroId).uncovered f.cells).isEmpty

/-- The memory test of a quarter. -/
def State.memoryTest (s : State) (k : RunKind) (q : Nat) (fs : List MacroFinding) : State :=
  (fs.filter (s.foundIn q)).foldl (fun s f => s.macroResult k q f) (s.clearQuarter q)

/-! ### What March C- leaves in the memories of a direct run (R525; log entry 104) -/

/-- What sample `d` leaves in a way or a place of the rick; `set` is the set that a way lies in. -/
def marchLine (d set way : Nat) : Line :=
  let x := (Config.marched d).toNat
  let t := bits x 17 1
  { line := t * 1024 + (set ^^^ t % 1024 ^^^ t / 1024), way := way, data := (Config.marched (d + 1), Config.marched (d + 2))
    pois := (bit x 18, bit x 19), pref := bit x 20, pin := bit x 21 }

/-- A Loft slice: in each way a line or none, and other lines in the rick. -/
def Slice.march (l : Slice) (d : Nat) : Slice :=
  { l with
    ways := ((List.range 16384).filter (fun i => bit (Config.marched (d + 3 * i)).toNat 0)).map (fun i =>
      marchLine (d + 3 * i) (i / 16) (i % 16))
    rick := l.rick.mapIdx (fun i _ => let e := d + 49152 + 3 * i; marchLine e (bits (Config.marched e).toNat 31 22) 0) }

/-- `n` words of a data memory. -/
def marchWords (d n : Nat) : WMem :=
  ((List.range n).map (fun i => (i, (Config.marched (d + i)).setWidth 32))).filter (fun e => e.2 != 0)

/-- A plot bitmap. -/
def Anvil.march (v : Anvil) (d : Nat) : Anvil :=
  { v with plotBase := false, plotExc := (List.range 262144).filter (fun p => bit (Config.marched (d + p / 512)).toNat (p % 512)) }

/-- The Loft slice, the plot bitmap and the Anvil Smith's data memory of a channel. -/
def State.marchChannel (s : State) (c : Chan) : State :=
  let d := s.gang.free
  (((s.onSlice c (fun l => l.march d)).onAnvil c (fun v => v.march (d + 60000))).onSmith (anvilSmith c) (fun h =>
    { h with dmem := marchWords (d + 61000) 1024 })).drawn 63000

/-- The memories of a quarter. -/
def State.marchQuarter (s : State) (q : Nat) : State :=
  let s := (allChans.filter (fun c => c.val / 6 == q)).foldl (fun s c => s.marchChannel c) s
  if q = 3 then (s.onSmith masterSmith (fun h => { h with dmem := marchWords s.gang.free 4096 })).drawn 4096 else s

/-- The signature words of a quarter (Table 16.6); one that differs is a free value other than the expected one (R524). -/
def State.putSignature (s : State) (q : Nat) (good : Bool) : State :=
  let e := Config.expectedSignature q
  let x := Config.signature s.gang.free
  let m := if good then e else if x = 0 then e + 1 else e ^^^ x
  let s := s.drawn 1
  let at_ := 3328 + 4 * q
  (((s.record at_ (m.setWidth 32)).record (at_ + 1) ((m >>> 32).setWidth 32)).record (at_ + 2) (e.setWidth 32)).record
    (at_ + 3) ((e >>> 32).setWidth 32)

/-- The logic test of a quarter (R524). -/
def State.logicTest (s : State) (k : RunKind) (q : Nat) (good : Bool) : State :=
  let s := s.putSignature q good
  if good then s else s.countFail.finding q 2 q (k == .short) sevUncorrected

/-- The run makes the logic test. -/
def State.runsLogic (s : State) (k : RunKind) : Bool :=
  match k with
  | .automatic => true
  | .short => false
  | .direct => s.fld aAST_CTL 29 28 != 1

/-- The run makes the memory test. -/
def State.runsMemory (s : State) (k : RunKind) : Bool :=
  match k with
  | .direct => s.fld aAST_CTL 29 28 != 0
  | _ => true

/-! ### The end of COLD (13 Table 13.2, R527, R529) -/

/-- A macro of anvil or slice `c` is marked unrepairable. -/
def State.macroMarked (s : State) (c : Nat) : Bool :=
  s.assay.repairs.any (fun r => r.unrep && Config.macroChannel r.macroId == some c)

/-- The memories apply the stored repair (R527). -/
def State.repairNow (s : State) : State := s.onAssay (fun a => { a with inForce := a.repairs })

/-- The stored repair is applied at the end of COLD: ANV_STAT.KEPTOFF follows the marks (R527, R529). -/
def State.applyRepair (s : State) : State :=
  allChans.foldl (fun s c =>
    let bad := s.macroMarked c.val
    ((s.onAnvil c (fun v => { v with macroOff := bad })).setFlag (aSTAT c.val) 28 bad).anvilRequest c) s.repairNow

/-- COLD ends: KINDLE, the self-tests, and the Loft functions start (09 R319, 10 R360). -/
def State.endCold (s : State) : State := (s.applyRepair.setMode .kindle).sendFindings.samplePm.selfTests.loftRequests

/-! ### QUARTER_END (R522, R530) -/

/-- A run has ended (R522): COMPLETE once all four quarters have ended. -/
def State.endRun (s : State) (k : RunKind) : State :=
  let s := (s.setFlag aAST_STAT 30 false).onAssay (fun a => { a with run := none })
  let s := if s.fld aAST_STAT 3 0 = 15 then s.setFlag aAST_STAT 31 true else s
  match k with
  | .automatic => s.onModes (fun m => { m with step := .gateOff, gateFrom := some s.timebase })
  | .short => s.endCold
  | .direct => s

/-- The populated channels of a quarter. -/
def State.quarterChans (s : State) (q : Nat) : List Chan := s.popChans.filter (fun c => c.val / 6 == q)

/-- Every rank of the quarters of a direct run is in self-refresh (R521, R532). -/
def State.runReady (s : State) (k : RunKind) (qs : List Nat) : Bool :=
  k != .direct || (qs.flatMap s.quarterChans).all (fun c => s.ranksAre c true)

/-- A quarter ends (R520 to R530, R532). The memories of an automatic run lose their contents with the core's power, and those of the
short one hold nothing yet. -/
def State.quarterEnd (s : State) (signatureGood : Bool) (findings : List MacroFinding) : State :=
  match s.assay.run with
  | some (k, q :: rest) => occur (s.runReady k (q :: rest)) s (
    let s := if s.runsLogic k then s.logicTest k q signatureGood else s
    let s := if s.runsMemory k then s.memoryTest k q findings else s
    let s := if k = .direct ∧ s.runsMemory k = true then s.marchQuarter q else s
    let s := (s.setFlag aAST_STAT q true).countRepairs
    if rest.isEmpty then s.endRun k else s.onAssay (fun a => { a with run := some (k, rest) }))
  | _ => s

/-! ### Direct control (R531, R532) -/

/-- A direct run starts: SRE to every rank of its quarters, and DIRTY (R532). With no quarter to test it ends as it starts, with
COMPLETE at 0 (R522, log entry 46). -/
def State.directRun (s : State) : State :=
  let qs := (List.range 4).filter (fun q => s.flag aAST_CTL (24 + q))
  let s := s.setFlag aAST_STAT 27 true
  let s := (qs.flatMap s.quarterChans).foldl (fun s c => (s.pushPrea c).pushSre c .close) s
  let s := s.startRun .direct qs
  if qs.isEmpty then s.endRun .direct else s

/-- CLRREP: the whole retention store is cleared (R526, Table 16.5). -/
def State.clearRepair (s : State) : State :=
  (s.onAssay (fun a => { a with repairs := [], records := [], tested := 0, saveSeq := 0 })).countRepairs

/-- A write of AST_CTL; outside ASSAY it is ignored (R531). -/
def State.astWrite (s : State) (w : Word) : State :=
  if s.modes.mode ≠ .assay then s
  else
    let s := s.typed aAST_CTL w
    let s := if wbit w 30 then s.clearRepair else s
    if wbit w 31 && s.assay.run.isNone then s.directRun else s

/-- AST_RESDAT as it reads: 0 outside ASSAY (R531, Table 16.6). -/
def State.resdat (s : State) : Word :=
  let i := s.fld aRESIDX 11 0
  if s.modes.mode ≠ .assay then 0
  else
    match s.assay.records.lookup i with
    | some w => w
    | none =>
      if i < 3328 ∧ i % 4 = 0 ∧ bit s.assay.tested.toNat (macroQuarter (i / 4)) = true then
        macroWord (s.repairOf (i / 4)) 0
      else 0

/-- What a wrapper instruction does in the engine in ASSAY: it chooses and starts a run as host software does (R531). What a scan chain
holds after a shift is not the block's to say (log entry 104). -/
def State.tapAct (s : State) : TapOp → State
  | .ctl w => s.astWrite w
  | .seed w => s.typed aAST_SEED w
  | .other | .engine | .shift => s

/-- A wrapper instruction arrives: outside ASSAY one that reaches the engine is replaced by bypass and is a violation (R531), while Hedge
has power. -/
def State.tapInstruction (s : State) (op : TapOp) : State :=
  let refused := op != .other && s.modes.mode != .assay
  let s := s.onAssay (fun a => { a with tap := refused })
  if !refused then s.tapAct op
  else if s.modes.gated then s
  else s.violation 7 0 (violDetail none 7 false 0)

/-- TDO: what a scan shifts out is a free value (log entry 104). -/
def State.tdo (s : State) : Bool := bit (Config.freeWord s.gang.free).toNat 0

end Sys2Proof.Machine
end

