-- ==== Sys2Proof/Machine/Temper.lean ====
section
/-! DEFINITION. Sag detection, Temper rounds and the supply request (13 R450 to R460). -/

namespace Sys2Proof.Machine

/-! ### Sag levels (R450 to R453) -/

/-- One level of a bit set. -/
def levelBit (n : Nat) : BitVec 8 := BitVec.ofNat 8 (2 ^ n)

/-- Threshold V_n in µV (R451, Table 13.11). -/
def State.supplyThreshold (s : State) (n : Nat) : Nat :=
  let k := n - 1
  400000 + 2500 * s.fld (aSAGV (k / 4)) (8 * (k % 4) + 7) (8 * (k % 4))

/-- The release level of V_n in µV (R451). -/
def State.supplyRelease (s : State) (n : Nat) : Nat := s.supplyThreshold n + 2500 * s.fld (aSAGV 1) 31 24

/-- One level of the comparator sees a supply that has stood at two REFCLK edges (R451). -/
def State.supplyLevel (s : State) (supply : Nat) (n : Fin 8) : State :=
  s.onTemper (fun t =>
    let t := if supply < s.supplyThreshold n.val then { t with vset := t.vset ||| levelBit n.val } else t
    if s.supplyRelease n.val ≤ supply then { t with above := t.above.set n.val (some ((t.above[n]).getD s.timebase)) }
    else { t with above := t.above.set n.val none })

/-- The sag levels from 1 to 7. -/
def sagLevels : List (Fin 8) := (List.finRange 8).filter (fun n => decide (0 < n.val))

/-- COMPARATOR_CROSSING: VDD_CORE has crossed a threshold or release level and stands at `level.1` µV, at two REFCLK edges
(R451, R453), at timebase `level.2`. -/
def execComparatorCrossing (level : Nat × Nat) (s : State) : Out :=
  .next (timed level.2 (fun s => !s.modes.pinsLow)
    (fun s => (sagLevels.foldl (fun s n => s.supplyLevel level.1 n) s).showSag) s)

/-- Threshold R_n in 10 ps (Table 13.11). -/
def State.rateThreshold (s : State) (n : Nat) : Nat :=
  let k := n - 1
  s.fld (aSAGR (k / 4)) (8 * (k % 4) + 7) (8 * (k % 4))

/-- RHYST in 10 ps. -/
def State.rateHyst (s : State) : Nat := s.fld (aSAGR 1) 31 24

/-- The rate monitor runs while the core has power (R452, R453). -/
def State.coreRuns (s : State) : Bool := s.modes.mode != .cold && s.modes.mode != .banked

/-- One level of the rate monitor sees a period (R452). -/
def State.rateLevel (s : State) (period : Nat) (n : Fin 8) : State :=
  s.onTemper (fun t =>
    let r := s.rateThreshold n.val
    let t := if r ≤ period then { t with rset := t.rset ||| levelBit n.val } else t
    if period + s.rateHyst < r then { t with below := t.below.set n.val (some ((t.below[n]).getD s.timebase)) }
    else { t with below := t.below.set n.val none })

/-- RATE_MONITOR (R452). -/
def execRateMonitor (period : Nat) (now : Nat) (s : State) : Out :=
  .next (timed now State.coreRuns
    (fun s =>
      let p := sat 255 period
      let s := s.setFld aRATE 7 0 p
      (sagLevels.foldl (fun s n => s.rateLevel p n) s).showSag) s)

/-- A level of the rate monitor may be released (R452). -/
def State.rateReleased (s : State) (n : Fin 8) : Bool :=
  bit s.temper.rset.toNat n.val && (s.temper.below[n]).any (fun t => decide (t + s.dwellNs ≤ s.timebase))

/-- The supply has stood at or above the release level of V_n for DWELL_US (R451). -/
def State.supplyReleased (s : State) (n : Fin 8) : Bool :=
  (s.temper.above[n]).any (fun t => decide (t + s.dwellNs ≤ s.timebase))

/-- SAG_RELEASE: a level of the comparator or of the rate monitor is released (R451, R452). -/
def execSagRelease (comparator : Bool) (level : Fin 8) (now : Nat) (s : State) : Out :=
  .next (timed now
    (fun s => !s.modes.pinsLow &&
      (if comparator then bit s.temper.vset.toNat level.val && s.supplyReleased level else s.coreRuns && s.rateReleased level))
    (fun s =>
      (s.onTemper (fun t =>
        if comparator then { t with vset := t.vset &&& ~~~ levelBit level.val }
        else { t with rset := t.rset &&& ~~~ levelBit level.val })).showSag) s)

/-- PM_SAG: the sag input of the power-management port (R450). It is sampled while the core has power (R453). -/
def execPmSag (level : BitVec 3) (s : State) : Out :=
  let s := s.onTemper (fun t => { t with pmPin := level })
  .next (if s.coreRuns then s.samplePm else s)

/-- BANKED_SAG_RELEASE: the comparator has shown the supply above the release level of L7 for DWELL_US. BANKED entered at
L7 is left, or the exit is held until the run has ended (R442, R453, 16 R523, R529). -/
def execBankedSagRelease (now : Nat) (s : State) : Out :=
  .next (timed now
    (fun s => s.modes.mode == .banked && s.flag aMODE 28 && !s.busy && !s.assay.holdExit && s.supplyReleased 7)
    (fun s => ((s.onTemper (fun t => { t with vset := t.vset &&& ~~~ levelBit 7 })).showSag).leaveBanked) s)

/-! ### Temper rounds (R457, R458) -/

/-- TMP_CTL.PERIOD_S in ns. -/
def State.periodNs (s : State) : Nat := 1000000000 * s.fld aTMP_CTL 15 0

/-- A scheduled time has come. -/
def State.roundDue (s : State) : Bool :=
  decide (0 < s.periodNs) && s.temper.base.any (fun t => decide (t + s.periodNs ≤ s.timebase))

/-- A scheduled time: a round starts, or follows the one in progress; in BANKED none does (R457). -/
def State.scheduled (s : State) : State :=
  let s := s.onTemper (fun t => { t with base := t.base.map (· + s.periodNs) })
  if s.modes.mode = .banked then s
  else if s.temper.round then s.onTemper (fun t => { t with again := true })
  else s.startRound

/-- TEMPER_ROUND (R457). -/
def execTemperRound (now : Nat) (s : State) : Out := .next (timed now State.roundDue State.scheduled s)

/-- A write of TMP_CTL: GO starts an extra round, and a new PERIOD_S whose time has passed runs a round at once
(R457). -/
def State.tmpWrite (s : State) (w : Word) : State :=
  let old := s.periodNs
  let s := s.typed aTMP_CTL w
  let s := if s.periodNs != old && s.roundDue then s.scheduled else s
  if wbit w 31 && !s.temper.round && s.coreRuns then s.startRound else s

/-- TEMPER_GO: a host write of TMP_CTL with GO = 1 (R457). -/
def execTemperGo (w : Word) (s : State) : Out := hostRow [(aTMP_CTL, some w)] (wbit w 31) (fun s => s.tmpWrite w) s

/-- ρ0 of pair `i` (Table 14.2). -/
def State.rho0 (s : State) (i : Nat) : Nat :=
  let w := s.fuseWord ⟨99 + i / 2 % 16, by omega⟩
  wbits w (16 * (i % 2) + 15) (16 * (i % 2))

/-- The ratio of a pair's counts; with a reference count of 0 a free value (R458, log entry 21). -/
def ratioOf (ns nr : Nat) : Nat := if nr = 0 then Config.freeRatio ns else ns * 65536 / nr

/-- The shift of a pair in ppt (R458, 14 R465). -/
def State.shiftOf (s : State) (i : Nat) (n : Nat × Nat) : Nat :=
  let r := s.rho0 i
  if r = 0 then 0 else (r - ratioOf n.1 n.2) * 1000 / r

/-- The largest shift and the lowest-numbered pair that gives it (R458). -/
def worstOf (l : List Nat) : Nat × Nat :=
  let m := l.foldl max 0
  (m, l.idxOf m)

/-- The reference loops have settled for 10 µs and the gate of 2^(10 + GATE) REFCLK cycles has passed (R457). -/
def State.roundOver (s : State) : Bool :=
  decide (24 * (s.temper.roundAt + 10000) + 625 * 2 ^ (10 + s.fld aTMP_CTL 19 16) ≤ 24 * s.timebase)

/-- TEMPER_ROUND_END: TMP_AGE and event 11 (R457, R458). The counts of the 32 pairs come from the surroundings. -/
def execTemperRoundEnd (counts : List (Nat × Nat)) (now : Nat) (s : State) : Out :=
  .next (timed now (fun s => s.temper.round && s.roundOver && s.coreRuns && counts.length == 32)
    (fun s =>
      let x := worstOf (counts.mapIdx s.shiftOf)
      let s := ((s.setFld aAGE 31 24 (s.fld aAGE 31 24 + 1)).setFld aAGE 20 16 x.2).setFld aAGE 9 0 (sat 1023 x.1)
      (s.onTemper (fun t => { t with round := t.again, roundAt := s.timebase, again := false })).eventMS 11) s)

/-! ### The supply request (R460) -/

/-- PM_VREQ: TMP_VREQ.CODE as it was 2 REFCLK cycles ago (R460). -/
def State.pmVreq (s : State) : BitVec 6 :=
  ((s.temper.vreqs.find? (fun e => decide (e.1 ≤ s.clock.refclk))).map Prod.snd).getD s.temper.vreq

/-- CODE has changed: ACK clears, and PM_VREQ follows 2 REFCLK cycles later (R460). -/
def State.codeChanged (s : State) : State :=
  let e := (s.clock.refclk + 2, BitVec.ofNat 6 (s.fld aVREQ 5 0))
  (s.setFlag aVREQ 31 false).onTemper (fun t =>
    { t with vreq := s.pmVreq, vreqs := e :: t.vreqs.filter (fun x => decide (s.clock.refclk < x.1)) })

/-- A write of TMP_VREQ (R460). -/
def State.vreqWrite (s : State) (w : Word) : State :=
  let old := s.fld aVREQ 5 0
  let s := s.typed aVREQ w
  if s.fld aVREQ 5 0 = old then s
  else s.codeChanged

/-- VREQ_CODE_WRITE (R460). -/
def execVreqCodeWrite (w : Word) (s : State) : Out := hostRow [(aVREQ, some w)] true (fun s => s.vreqWrite w) s

/-- A rise of PM_VACK sets ACK where it follows the latest change of PM_VREQ (R460); in reset TMP_VREQ takes nothing. -/
def State.vackSets (s : State) (level : Bool) : Bool :=
  level && !s.temper.vack && !s.modes.pinsLow && s.temper.vreqs.all (fun e => decide (e.1 < s.clock.refclk))

/-- PM_VACK takes a level. -/
def State.vackTo (s : State) (level : Bool) : State :=
  let sets := s.vackSets level
  let s := s.onTemper (fun t => { t with vack := level })
  if sets then s.setFlag aVREQ 31 true else s

/-- PM_VACK takes the level `level.1` at timebase `level.2` (R460). -/
def execPmVack (level : Bool × Nat) (s : State) : Out :=
  .next ((if s.modes.pinsLow then s else s.at level.2).vackTo level.1)

end Sys2Proof.Machine
end

