-- ==== Sys2Proof/Machine/Power.lean ====
section
/-! DEFINITION. Core power in BANKED, reset, the end of COLD, and the transitions of an anvil (13 R441 to R443,
16 R519, 18 R565, R566, 19 R574 to R581). -/

namespace Sys2Proof.Machine

/-! ### Core power off (13 R441 step 7) -/

/-- An anvil without core power: its function is OFF, and its slot tables and DRAM stay (12 R412, 18 Table 18.2; log entry
20), with the pattern buffer (R565). -/
def Anvil.powerOff (v : Anvil) : Anvil :=
  { Anvil.reset with
    fn := { v.fn with state := .off }, macroOff := v.macroOff, resetN := v.resetN, resetAt := v.resetAt, bank0 := v.bank0, bank1 := v.bank1, dram := v.dram, lost := v.lost,
    free := v.free, pat := v.pat, patDmi := v.patDmi, selfRef := v.selfRef, pdown := v.pdown, mrs := v.mrs, segLost := v.segLost }

/-- A port without core power: the pace of its windows stays (11 R390). DESIGN CHOICE (log entry 108): write beats that have come ahead of their
request are lost with the port's buffer; the spec does not say what becomes of them, and a later write takes the beats that come later
(03 R109). -/
def Port.powerOff (v : Port) : Port :=
  { Port.reset with panic := v.panic, window := v.window, boundary := v.boundary, epoch := v.epoch }

/-- Hedge without core power: every key is lost (14 R478). The fuse shadow stays. -/
def Hedge.powerOff (h : Hedge) : Hedge := { Hedge.reset with fuse := h.fuse, alarm := h.alarm }

/-- What the reference images had in work is gone with their Smiths; what their data memories record stays (16 R517). -/
def Prog.powerOff (p : Prog) : Prog :=
  { p with pf := [], mode := false, task := none, reports := [], orders := Vector.replicate 24 [], jobs := Vector.replicate 24 none }

/-- Core power is removed (13 R441 step 7, 14 R478, 15 R516). DEDUCED (log entry 82): a verification in progress, which SMI_LOAD.STATUS
goes on showing, ends once the core has power again (02 R95). -/
def State.coreOff (s : State) : State :=
  { s with
    hostCaps := { Captures.reset with timebase := s.hostCaps.timebase }
    smiths := Vector.replicate 25 Smith.reset
    ports := s.ports.map Port.powerOff
    pieces := [], tongs := { Tongs.reset with bitten := s.tongs.bitten }
    slices := Vector.replicate 24 Slice.reset, detect := [], loftFns := Vector.replicate 6 Fn.reset, fullInv := []
    anvils := s.anvils.map Anvil.powerOff
    hedge := s.hedge.powerOff, faults := { FaultUnit.reset with pulse := s.faults.pulse }, evq := Evq.reset
    temper := { s.temper with round := false, again := false, rset := 0, below := Vector.replicate 8 none }
    gang := { Gang.reset with free := s.gang.free }, prog := s.prog.powerOff
    modes := { s.modes with gated := true }, assay := { s.assay with inForce := [] }
    regs := ((List.finRange 3).foldl (fun s (k : Fin 3) => s.setFld (aLINK k.val) 31 30 0) s).regs }

/-- The fault unit has drained, or 100 µs have passed (15 R497). -/
def State.drainDone (s : State) : Bool :=
  (s.faults.queue.isEmpty && s.faults.arriving.isEmpty) ||
  s.modes.gateFrom.any (fun t => decide (t + 100000 ≤ s.timebase))

/-- PM_OFFACK rises where PM_OFFREQ waits for the end of the entry (16 R519, 19 R574). -/
def State.ackOff (s : State) : State :=
  s.onModes (fun m => { m with offAck := m.offAck || m.offReq, offRun := false })

/-- The exit that was held during the run and step 7 begins, or is ignored (16 R523, R529). -/
def State.heldExit (s : State) : State :=
  if !s.modes.held then s
  else
    let s := s.onModes (fun m => { m with held := false })
    if s.assay.holdExit then s.modeIgnored.endTransition else s.startExit

/-- BANKED entry is complete; an exit that was held begins at the next step on an empty queue, so that PM_PGREQ shows 0b00 between (19
R574; log entry 2). -/
def State.bankedOff (s : State) : State := (s.onModes (fun m => { m with step := .off, gateFrom := none })).ackOff

/-- What the block does of itself on an empty queue: HRP_RVALID falls, and an exit that was held during the entry begins (16 R523, log entry
2). -/
def State.idle (s : State) : State :=
  let s := { s with hrpRvalid := false }
  if s.modes.step = .off then s.heldExit else s

/-- FAULT_DRAIN_TIMEOUT (15 R497): messages still queued are discarded, and the power-gate request rises; a planned
power-off is acknowledged after step 6 with no power-gate request, and the core keeps its power (16 R519). -/
def execFaultDrainTimeout (now : Nat) (s : State) : Out :=
  .next (timed now (fun s => s.modes.step == .gateOff && s.modes.pgReq == 0 && s.drainDone)
    (fun s =>
      let s := s.onFaults (fun f => { f with queue := [], arriving := [] })
      if s.modes.offRun then s.bankedOff else s.onModes (fun m => { m with pgReq := 1 })) s)

/-- PM_OFFREQ (16 R519, 19 R574): its rise begins a BANKED entry, at once or once the transition in progress has ended; in an entry or in
BANKED it is answered once the entry is complete. -/
def execPmOffreq (level : Bool) (s : State) : Out :=
  .next (
    if !level then s.onModes (fun m => { m with offReq := false, offAck := false })
    else if s.modes.offReq then s
    else
      let s := s.onModes (fun m => { m with offReq := true })
      if s.modes.step = .off then s.ackOff
      else s.startOff)

/-! ### Core power on (13 R443 steps 1 to 3) -/

/-- The location is reached in BANKED (18 Table 18.2). Instruction memories are reached for reading (R570). -/
def bankedReach (a : Nat) : Bool :=
  [aID, aCFGID, aHERR, aHERR_ADDR, aMODE, aMODE_REQ, aSHED, aTB_LO, aTB_HI, aGANG, aFURROW, aCAP, aPIN_WIDTH,
   aPIN_HOLD, aHDG_STAT, aAST_STAT, aLOAD, aVER_MS, aVER_AS].contains a ||
  (List.range 4).any (fun n => a == aSCRATCH n || a == aCHMAP n) ||
  decide (0x3000 ≤ a ∧ a ≤ aGUARD) || decide (0x2800 ≤ a ∧ a < 0x2A00) ||
  (decide (0x010000 ≤ a ∧ a < 0x020000) && (a % 0x200 == 0 || decide (0x100 ≤ a % 0x200))) ||
  (decide (0x020000 ≤ a ∧ a < 0x02C000) && [0x000, 0x004, 0x050, 0x100].contains (a % 0x800)) ||
  decide (0x200000 ≤ a ∧ a < 0x20C000)

/-- A FLT_ register that takes its reset value at BANKED exit (15 R497). -/
def fltReset (a : Nat) : Bool := decide (0x1000 ≤ a ∧ a ≤ 0x1040) && a != aPIN_WIDTH && a != aPIN_HOLD

/-- The value of a register at BANKED exit (18 R565, 15 R497). -/
def exitWord (a : Nat) (w : Word) : Word :=
  if fltReset a then resetWord a
  else if bankedReach a then w
  else
    match regInfo a with
    | none => w
    | some r => (w &&& (r.rw ||| r.lk)) ||| (r.reset &&& ~~~ (r.rw ||| r.lk))

/-- Every register takes its value at BANKED exit; SWD_ACTIVE follows the retained SWD_EN (03 R104; DEDUCED, log
entry 26). -/
def State.exitRegs (s : State) : State :=
  let s := { s with regs := (s.regs.map (fun e => (e.1, exitWord e.1 e.2))).filter (fun e => e.2 != resetWord e.1) }
  (List.range 4).foldl (fun s k => s.wr (aSWD_ACTIVE k) (s.rd (aSWD_EN k))) s

/-- A hearth comes up: LOCK is 0, RATE is that of the set point, and the PLL locks while EN is 1 (07 R244). -/
def State.hearthUp (s : State) (h : HearthId) : State :=
  let c := firstChan h
  let s := s.setFld (aPLL c.val) 2 0 (s.fspRate c (s.fsp c))
  { s with hearths := upd s.hearths h (fun x => { x with locking := s.flag (aPLL c.val) 8, zqDone := false }) }

/-- The bank-out step of a channel begins: its Anvil Smith holds it, with the retained timing fields (02 R70). -/
def State.bankOut (s : State) (c : Chan) : State := (s.onAnvil c (fun v => { v with drained := true })).startHold c

/-- A Smith is started with event 3 pending (02 R52). -/
def State.wakeSmith (s : State) (m : SmithId) : State := (s.smithStart m).event m 3

/-- The restored codes of the set point in use are live, because the channel is held (07 R252). -/
def State.liveCodes (s : State) (c : Chan) : State := s.onAnvil c (fun v => v.loadLive (s.fsp c))

/-- The core is powered and reset, the hearths and channels come up, the banking areas are restored, and the Smiths
start (13 R443 steps 1 to 3; log entry 23). -/
def State.coreOn (s : State) : State :=
  let s := (if s.modes.gated then s else s.coreOff).repairNow
  let s := (s.onModes (fun m => { m with gated := false })).exitRegs
  let s := (List.finRange 4).foldl (fun s h => s.hearthUp h) s
  let s := s.popChans.foldl (fun s c => s.bankOut c) s
  let s := s.popChans.foldl (fun s c => s.liveCodes c) (s.restoreAll true)
  let s := if s.flag aGNG_CTL 31 then s.linksEnable true else s
  s.modes.wake.foldl (fun s m => s.wakeSmith m) s

/-- POWER_GATE_ACK (19 R574): PM_PGREQ returns to 0b00. -/
def execPowerGateAck (s : State) : Out :=
  .next (
    if s.modes.pgReq = 1 then (s.onModes (fun m => { m with pgReq := 0 })).coreOff.bankedOff
    else if s.modes.pgReq = 2 then (s.onModes (fun m => { m with pgReq := 0, step := .bankOut })).coreOn
    else s)

/-! ### Reset (18 R566, 19 R577 to R580) -/

/-- AST_STAT at RST_N: it is not reset, a run ends with COMPLETE at 0, and DIRTY clears (16 R522, R532). -/
def State.astReset (s : State) : Word :=
  let w := putBits (putBits (s.rd aAST_STAT) 30 30 0) 27 27 0
  if s.assay.run.isSome then putBits w 31 31 0 else w

/-- An anvil at RST_N: its DRAM stays in self-refresh where it is retained, else it is reset and its contents are no
longer defined (19 R579, R580). -/
def State.resetAnvil (s : State) (c : Chan) (retain : Bool) : Anvil :=
  let v := s.anvils[c]
  let n := { Anvil.reset with dram := v.dram, segLost := v.segLost, lost := v.lost, free := v.free }
  if retain then
    { n with mrs := v.mrs, resetN := v.resetN, resetAt := v.resetAt, selfRef := #v[s.populated c.val, s.populated c.val && s.twoRanks c.val] }
  else (n.lose 0).lose 1

/-- An image at RST_N: its words stay, its accepted state is cleared (18 R566). -/
def Image.rst (i : Image) : Image := { Image.reset with mem := i.mem }

/-- REFCLK is counted anew from RST_N (19 R577); the counter of free values is the model's own. -/
def Clock.rst (k : Clock) : Clock := { Clock.reset with free := k.free }

/-- Every block is reset (18 R566). The queue of commands is the model's own. -/
def State.resetAll (s : State) : State :=
  let retain := s.modes.mode == .banked
  let r := { State.reset with
    pending := s.pending, clock := s.clock.rst, hrpRdata := s.hrpRdata, hrpHeld := s.hrpHeld
    imageMS := s.imageMS.rst, imageAS := s.imageAS.rst
    assay := { Assay.reset with repairs := s.assay.repairs, records := s.assay.records, tested := s.assay.tested,
                                saveSeq := s.assay.saveSeq }
    anvils := Vector.ofFn (fun c => s.resetAnvil c retain)
    temper := { Temper.reset with pmPin := s.temper.pmPin, vack := s.temper.vack }
    gang := { Gang.reset with free := s.gang.free } }
  (r.wr aAST_STAT s.astReset).setFlag aMODE 27 retain

/-- RESET_ASSERT: RST_N falls (18 R566, 19 R578, R580). -/
def execResetAssert (s : State) : Out := .next (occur (!s.modes.pinsLow) s s.resetAll)

/-- RESET_DEASSERT: RST_N rises, the gang pins are sampled, and the timebase starts (04 R144, 19 R577). -/
def execResetDeassert (gangId gangSize : BitVec 2) (s : State) : Out :=
  .next (occur s.modes.pinsLow s (
    let s := { s with timebase := 0, clock := s.clock.rst }
    ((s.setFld aGANG 5 4 gangId.toNat).setFld aGANG 1 0 gangSize.toNat).onModes (fun m => { m with pinsLow := false })))

/-- The lifecycle of a thermometer pattern (14 Table 14.1). -/
def lifecycleOf : Nat → Option Nat
  | 0 => some 0 | 1 => some 1 | 3 => some 2 | 7 => some 3 | 15 => some 4 | _ => none

/-- The CRC of the fuse image is good (14 R464). -/
def fuseCrcGood (ws : List Word) : Bool :=
  crc32c (((ws.drop 1).take 126).flatMap (fun w => toBytes 4 w.toNat)) == (ws.getD 127 0).toNat

/-- A fuse integrity failure (14 R462, R464). -/
def fuseFails (first second : List Word) : Bool :=
  match lifecycleOf (wbits (first.getD 0 0) 3 0) with
  | none => true
  | some lc => first != second || (lc != 0 && !fuseCrcGood first)

/-- The fuse shadow and HDG_STAT are loaded (14 R462 to R467). -/
def State.loadFuses (s : State) (first : List Word) : State :=
  let s := s.onHedge (fun h => { h with fuse := Vector.ofFn (fun i => first.getD i.val 0) })
  let s := s.setFld aHDG_STAT 2 0 ((lifecycleOf (wbits (first.getD 0 0) 3 0)).getD 4)
  allRegions.foldl (fun s r => s.setFlag aHDG_STAT (8 + r.val) (descrBad (s.descr r))) s

/-- The fuses are good: COLD ends, after the short memory test where COMPLETE is 0 (16 R530). -/
def State.fusesGood (s : State) : State :=
  let s := s.setFlag aHDG_STAT 30 true
  if s.flag aAST_STAT 31 then s.endCold else s.startRun .short [0, 1, 2, 3]

/-- UF24 reads the fuses (14 R462): FP_RD is high. -/
def State.fpRd (s : State) : Bool := s.modes.mode == .cold && !s.modes.pinsLow && !s.modes.fuseRead

/-- FP_ADDR: both readings of the fuses are one command, so the word that is asked for is a free value (log entry 106). -/
def State.fpAddr (s : State) : BitVec 7 := (Config.freeWord s.gang.free).setWidth 7

/-- The fuse image is read (14 R462 to R467, 13 Table 13.2). -/
def State.fuseImageRead (s : State) (first second : List Word) : State :=
  occur (s.fpRd && first.length == 128 && second.length == 128) s (
    let s := (s.onModes (fun m => { m with fuseRead := true })).loadFuses first
    if fuseFails first second then
      (((s.setFlag aHDG_STAT 30 false).recordViol true (violDetail none 8 false 0)).applyRepair.samplePm).raiseAlarm 8
    else s.fusesGood)

/-- A channel whose always-on domain has lost its supply: RESET_n is low, and the DRAM is not retained (19 R579, R580). -/
def Anvil.blackout (v : Anvil) : Anvil :=
  let n := (v.lose 0).lose 1
  { n with resetN := false, mrs := [], selfRef := Vector.replicate 2 false, pdown := Vector.replicate 2 false }

/-- ALWAYS_ON_POWER_UP: AST_STAT, the retention store and every instruction word (18 R566); RETAIN falls and no DRAM contents outlast it
(19 R580). -/
def execAlwaysOnPowerUp (s : State) : Out :=
  .next ({ (s.wr aAST_STAT (resetWord aAST_STAT)).setFlag aMODE 27 false with
    assay := Assay.reset, imageMS := Image.reset, imageAS := Image.reset, anvils := s.anvils.map Anvil.blackout })

/-! ### The anvil function (19 R581) -/

/-- STARTING ends: the queues and the command stage are reset (19 R581). DEDUCED (log entry 20): a command of a Smith that
waited in the stage is gone too, and its CMD goes on waiting, as log entry 97 says. -/
def Anvil.startUp (v : Anvil) : Anvil :=
  { v with
    fn := v.fn.started, reads := [], writes := [], fills := [], feed := [], visit := none, cache := [], sealBad := [],
    sealRetry := [], groupRun := none, dir := .read, pages := Vector.replicate 32 none, hits := Vector.replicate 16 []
    slot := [], heat7 := [], bursts := v.bursts.filter (fun b => !b.cmd.client) }

/-- STOPPING ends: the channel's RESET_n is low, and the DRAM's contents are no longer defined. -/
def Anvil.shutDown (v : Anvil) : Anvil :=
  let n := (v.lose 0).lose 1
  { n with
    fn := v.fn.stopped, resetN := false, mrs := [], selfRef := Vector.replicate 2 false, pdown := Vector.replicate 2 false
    slot := v.slot.filter Cmd.bySmith, heat7 := v.heat7.filter (fun e => e.1.bySmith) }

/-- ANVIL_TRANSITION_END (18 R569, 19 R581). In KINDLE the channel is held, and its refresh starts anew; at BANKED exit
the bank-out step has done both. -/
def execAnvilTransitionEnd (c : Chan) (s : State) : Out :=
  .next (match s.anvils[c].fn.state with
    | .starting =>
      let s := s.onAnvil c (fun v => { v.startUp with retrainAt := s.timebase })
      if s.modes.mode = .kindle then
        let s := s.startHold c
        if s.refreshing c then (s.newRound c).startPoll c else s
      else s
    | .stopping => s.onAnvil c Anvil.shutDown
    | _ => s)

end Sys2Proof.Machine
end

