-- ==== Sys2Proof/Machine/HostPort.lean ====
section
/-! DEFINITION. What a read or a write of a register or window does (18 R556 to R571, 02 R53 to R58), shared by the host
port and the Smiths. -/

namespace Sys2Proof.Machine

/-- The Master Smith as a reader or writer. -/
def Agent.isMaster (who : Agent) : Bool := who == .smith masterSmith

/-! ### Images (02 R55, R90 to R95, 18 R570) -/

/-- Every Smith that executes from the memory of an image is STOPPED; `anvil` selects the Anvil Smith image. -/
def State.imageIdle (s : State) (anvil : Bool) : Bool :=
  if anvil then allChans.all (fun c => s.smiths[anvilSmith c].run == .stopped)
  else s.smiths[masterSmith].run == .stopped

/-- Change an image. -/
def State.onImage (s : State) (anvil : Bool) (f : Image → Image) : State :=
  if anvil then { s with imageAS := f s.imageAS } else { s with imageMS := f s.imageMS }

/-- The address of the version register of an image. -/
def aVer (anvil : Bool) : Nat := if anvil then aVER_AS else aVER_MS

/-- The accepted state of an image is cleared; its version register then reads 0 (R95, Table 2.20). -/
def State.clearAccepted (s : State) (anvil : Bool) : State :=
  (s.onImage anvil (fun i => { i with accepted := false })).wr (aVer anvil) 0

/-- A write of an instruction memory word (R55, R95, 18 R570). -/
def State.imemWrite (s : State) (anvil : Bool) (i : Nat) (w : Word) : State :=
  if s.imageIdle anvil && s.verify != some anvil then
    (s.onImage anvil (fun x => { x with mem := x.mem.set i w })).clearAccepted anvil
  else s.setFlag aLOAD 12 true

/-- A write of SMI_HDRk (R95). -/
def State.hdrWrite (s : State) (a : Nat) (w : Word) : State :=
  if s.verify.isSome then s.setFlag aLOAD 12 true
  else (s.typed a w).clearAccepted (s.flag aLOAD 1)

/-- A write of SMI_LOAD, with GO (R95). While STATUS is 1 the image is not accepted, since it is accepted only with
status 2 or 3 (R96). DEDUCED (log entry 82): status 6, which verifies nothing, leaves the accepted state as it is. -/
def State.loadWrite (s : State) (w : Word) : State :=
  let s := s.typed aLOAD w
  if !wbit w 0 || s.verify.isSome then s
  else
    let t := s.flag aLOAD 1
    if s.imageIdle t then { (s.setFld aLOAD 6 4 1).clearAccepted t with verify := some t } else s.setFld aLOAD 6 4 6

/-- The Anvil Smiths that SMI_AS_SEL selects. -/
def State.selected (s : State) : List SmithId :=
  (allChans.filter (fun c => s.flag aAS_SEL c.val)).map anvilSmith

/-- A write of SMI_CTL: a stop wins over a start of the same Smith (R92). -/
def State.ctlWrite (s : State) (w : Word) : State :=
  let ms := [masterSmith]
  let stops := (if wbit w 1 then ms else []) ++ (if wbit w 3 then s.selected else [])
  let starts := (if wbit w 0 then ms else []) ++ (if wbit w 2 then s.selected else [])
  let s := stops.foldl (fun s m => s.smithHalt m) s
  (starts.filter (fun m => !stops.contains m)).foldl (fun s m => s.smithStart m) s

/-- A write of SMI_EVSET (Table 2.21). -/
def State.evsetWrite (s : State) (w : Word) : State :=
  let hit := (if wbit w 31 then [masterSmith] else []) ++ (allChans.filter (fun c => wbit w c.val)).map anvilSmith
  hit.foldl (fun s m => ((List.range 3).filter (fun j => wbit w (24 + j))).foldl (fun s j => s.event m (13 + j)) s) s

/-! ### Mailbox registers (08 R274 to R277) -/

/-- A host write that the mailbox ignores while BUSY (R275). -/
def State.mboxHeld (s : State) (f : State → State) : State :=
  if s.flag aMBOX_STATUS 31 then s.setFlag aMBOX_STATUS 30 true else f s

/-- A host write of SMI_MBOX_CMD (R274, R277). -/
def State.mboxCmd (s : State) (w : Word) : State :=
  s.mboxHeld (fun s =>
    let s := (s.typed aMBOX_CMD w).setFlag aMBOX_STATUS 31 true
    if s.smiths[masterSmith].run = .stopped then s.mboxNoSmith else s.eventMS 2)

/-- A Master Smith write of SMI_MBOX_STATUS (R276). -/
def State.mboxStatus (s : State) (w : Word) : State :=
  let s := ((s.typed aMBOX_STATUS w).setFld aMBOX_STATUS 23 16 (wbits w 23 16)).setFld aMBOX_STATUS 7 0 (wbits w 7 0)
  if wbit w 31 then s else s.setFlag aMBOX_STATUS 31 false

/-! ### Writes of global registers -/

/-- Put back two fields of `old`, keeping the rest of what the write left. -/
def State.putBack (s : State) (a : Nat) (old : Word) (h1 l1 h2 l2 : Nat) : State :=
  (s.setFld a h1 l1 (wbits old h1 l1)).setFld a h2 l2 (wbits old h2 l2)

/-- A write of GLB_FURROW that would set M3 = 1 and K = 4 together leaves both as they were in `old` (04 R149). -/
def State.furrowGood (s old : State) : State :=
  if s.flag aFURROW 12 && s.fld aFURROW 10 8 == 4 then s.putBack aFURROW (old.rd aFURROW) 12 12 10 8 else s

/-- A write of a mapping register: the capacity and the anvils' requests follow (04 R151, R162, 18 R569). An anvil that is
unpopulated from then on has M = 1 and no MR4 value (06 R227). -/
def State.mapWrite (s : State) (a : Nat) (w : Word) : State :=
  let before := s.named
  let ranks := Vector.ofFn (fun c : Chan => s.liveRanks c)
  let s := allChans.foldl (fun s c => s.anvilRequest c) ((s.typed a w).furrowGood s).recap
  let s := (allChans.filter (fun c => before.contains c.val && !s.populated c.val)).foldl (fun s c => (s.stopRefresh c).forgetMr4 c) s
  allChans.foldl (fun s c => s.clearNew c ranks[c]) s

/-- A write of GLB_ADJ0 or GLB_ADJ1: the map is checked again (06 R235). -/
def State.adjWrite (s : State) (a : Nat) (w : Word) : State :=
  let s := s.typed a w
  s.setFlag aRFM 31 (!adjGood (s.rd (aADJ 0)) (s.rd (aADJ 1)))

/-- A write of GLB_RFM (06 R238). -/
def State.rfmWrite (s : State) (w : Word) : State :=
  let old := s.rd aRFM
  let s := s.typed aRFM w
  if s.raammt < s.raaimt ∨ s.raaimt < 8 then s.putBack aRFM old 17 8 7 0 else s

/-- A write of GLB_LOFT_CTL (10 R358, R368). -/
def State.loftWrite (s : State) (w : Word) : State :=
  let s := (s.typed aLOFT_CTL w).loftRequests
  if wbit w 6 then s.invalidateAll else s

/-- A write of TNG_WDOG_NS: no output reaches the new limit before now (01 R32). -/
def State.wdogWrite (s : State) (w : Word) : State :=
  let s := s.typed aWDOG w
  if s.tongs.bitten.isSome then s else { s with tongs := { s.tongs with limitFrom := s.timebase } }

/-- A write of SWD_ENk: a port that is enabled is active (03 R101, R104). -/
def State.swdWrite (s : State) (k : Nat) (w : Word) : State :=
  let s := s.typed (aSWD_EN k) w
  s.wr (aSWD_ACTIVE k) (s.rd (aSWD_ACTIVE k) ||| s.rd (aSWD_EN k))

/-- A write of FLT_LINKINJ (15 R503). -/
def State.injWrite (s : State) (w : Word) : State :=
  let armed := s.flag aLINKINJ 31
  let on := wbits w 17 16 != 0
  if s.modes.mode = .quench then s
  else if !armed then
    let s := s.typed aLINKINJ w
    if on then s.setFlag aLINKINJ 31 true else s
  else if on then s
  else (s.typed aLINKINJ w).setFlag aLINKINJ 31 false

/-- A write of GNG_CTL (17 R533, R543). -/
def State.gngWrite (s : State) (w : Word) : State :=
  let was := s.flag aGNG_CTL 31
  let s := s.typed aGNG_CTL w
  let s := if s.flag aGNG_CTL 31 = was then s else s.linksEnable (!was)
  if wbit w 30 then s.exchange else s

/-- The mapping registers among the global ones (04 R170). -/
def mapRegs : List Nat := [aGANG, aFURROW, aCAP, aCHMAP 0, aCHMAP 1, aCHMAP 2, aCHMAP 3]

/-- A write of a Smith register (02 Tables 2.16 to 2.21, 08 Tables 8.3 and 8.4). -/
def State.smiWrite (s : State) (who : Agent) (a : Nat) (w : Word) : State :=
  let ms := who.isMaster
  if a = aSMI_CTL then s.ctlWrite w
  else if a = aSTATE1 then (if ms then s.setFlag aSTATE1 18 (wbit w 18) else s)
  else if a = aLOAD then s.loadWrite w
  else if a = aEVSET then s.evsetWrite w
  else if aHDR 0 ≤ a ∧ a ≤ aHDR 7 then s.hdrWrite a w
  else if ms then (if a = aMBOX_STATUS then s.mboxStatus w else s.typed a w)
  else if a = aMBOX_CMD then s.mboxCmd w
  else if aMBOX_ARG 0 ≤ a ∧ a ≤ aMBOX_ARG 3 then s.mboxHeld (fun s => s.typed a w)
  else s.typed a w

/-- A write that only the Master Smith's register write performs (15 R510, 17 R552). -/
def State.masterOnly (s : State) (who : Agent) (s' : State) : State := if who.isMaster then s' else s

/-- A write of a register of FLT, EVQ, HDG, TMP, GNG or AST. -/
def State.unitWrite (s : State) (who : Agent) (a : Nat) (w : Word) : State :=
  if a = aFORCE 0 then s.force 0 w
  else if a = aFORCE 1 then s.force 1 w
  else if a = aFORCE 2 then s.force 2 w
  else if a = aLINKINJ then s.injWrite w
  else if a = aEVQ_CTL then (if wbit w 0 then s.evqFlush else s)
  else if a = aPUT_HDR then s.masterOnly who (s.evqPutHdr w)
  else if a = aPUT_LO then s.masterOnly who (s.evqPutLo w)
  else if a = aPUT_HI then s.masterOnly who (s.evqPutHi w)
  else if a = aPIN_HOLD then (if who = .host then s.typed a w else s)
  else if a = aKEYCTL then s.keyctl w
  else if a = aTMP_CTL then s.tmpWrite w
  else if a = aVREQ then s.vreqWrite w
  else if a = aGNG_CTL then s.gngWrite w
  else if a = aTX_LO then s.masterOnly who (s.onGang (fun g => { g with txLo := w }))
  else if a = aTX_HI then s.masterOnly who (s.sendSmith w)
  else if a = aAST_CTL then s.astWrite w
  else s.typed a w

/-- A write of a global register (Table 18.4). -/
def State.globalWrite (s : State) (who : Agent) (a : Nat) (w : Word) : State :=
  if 0x1000 ≤ a then s.unitWrite who a w
  else if 0x0100 ≤ a ∧ a < 0x0180 then s.smiWrite who a w
  else if a = aMODE then s.modeWrite who.isMaster w
  else if a = aMODE_REQ then s.modeRequest w
  else if a = aSHED then s.masterOnly who (s.shedWrite (wbits w 2 0))
  else if mapRegs.contains a then s.mapWrite a w
  else if a = aADJ 0 ∨ a = aADJ 1 then s.adjWrite a w
  else if a = aRFM then s.rfmWrite w
  else if a = aLOFT_CTL then s.loftWrite w
  else if a = aWDOG then s.wdogWrite w
  else if aSWD_EN 0 ≤ a ∧ a ≤ aSWD_EN 3 then s.swdWrite ((a - aSWD_EN 0) / 4) w
  else s.typed a w

/-! ### Writes of a port block (11) -/

/-- A label belongs to the weighted group under a value of STRICT. -/
def strictOf (w : Word) : Nat := wbits w 2 0

/-- A write of BLW_CFG: a change of STRICT clears the deficit of every label that joins or leaves the weighted group
(R388); a new WINDOW applies from the next boundary of the old length (R393), so that those before now pass first. -/
def State.blwWrite (s : State) (p : PortId) (w : Word) : State :=
  let s := s.passBoundaries p
  let a := strictOf (s.rd (aBLW_CFG p.val))
  let s := s.typed (aBLW_CFG p.val) w
  let b := strictOf (s.rd (aBLW_CFG p.val))
  s.onPort p (fun v =>
    { v with labels := v.labels.mapIdx (fun l x => if decide (l < a) = decide (l < b) then x else { x with deficit := 0 }) })

/-- A host write of BLW_HALT clears the bits written 1 (03 R132). -/
def State.haltWrite (s : State) (who : Agent) (p : PortId) (w : Word) : State :=
  if who = .host then s.typed (aHALT p.val) w else s

/-- A write of word 0 of a label's parameters: PIR is not below CIR (11 R382, Table 11.3). -/
def State.label0 (s : State) (p l : Nat) (w : Word) : State :=
  let a := aLabel p l 0
  let old := s.rd a
  let s := s.typed a w
  if s.fld a 15 8 < s.fld a 7 0 then s.putBack a old 15 8 7 0 else s

/-- A write of word 1: TARGET alone by the Master Smith, every other field by the host (R404). A policer or shaper that
is switched on starts with full buckets (R382, R386). -/
def State.label1 (s : State) (who : Agent) (p : PortId) (l : Nat) (w : Word) : State :=
  let a := aLabel p.val l 1
  if who.isMaster then s.setFld a 31 24 (wbits w 31 24)
  else
    let old := s.rd a
    let s := s.typed a w
    let police := wbits old 21 20 == 0 && s.fld a 21 20 != 0
    let shape := !wbit old 22 && s.flag a 22
    s.onLabel p l (fun x =>
      let x := if police then { x with tc := 2 ^ 32, tp := 2 ^ 32 } else x
      if shape then { x with ts := 2 ^ 32 } else x)

/-- A write in a port block (Table 18.5, R403). -/
def State.portWrite (s : State) (who : Agent) (a : Nat) (w : Word) : State :=
  let p := portOf ((a - 0x010000) / 0x200)
  let o := a % 0x200
  if o = 0 then s.blwWrite p w
  else if o = 4 then s.haltWrite who p w
  else if o % 8 = 0 then s.label0 p.val ((o - 0x100) / 8) w
  else s.label1 who p ((o - 0x100) / 8) w

/-! ### Writes of an anvil block (05, 06, 07, 09, 12) -/

/-- A write of ANV_WM (05 R190). -/
def State.wmWrite (s : State) (c : Chan) (w : Word) : State :=
  let a := aWM c.val
  let old := s.rd a
  let s := s.typed a w
  if s.fld a 6 0 ≤ s.fld a 14 8 ∨ 96 < s.fld a 6 0 then s.putBack a old 14 8 6 0 else s

/-- A write of ANV_CMDERR: setting HOLD records a command error of cause 0x6, whose CAUSE is taken where VALID was 0 before
the write, and client commands leave the command slot; their entries stay queued (05 R203 to R205). -/
def State.cmderrWrite (s : State) (c : Chan) (w : Word) : State :=
  let a := aCMDERR c.val
  let old := s.rd a
  let s := s.typed a w
  if !wbit old 30 && s.flag a 30 then
    let s := s.onAnvil c (fun v => { v with slot := v.slot.filter (fun l => !l.client) })
    let s := if wbit old 31 then s.setFlag a 31 true else s
    s.recordCmdError c 6
  else s

/-- A write of ANV_REFRESH (06 R215, R222, R226, R227). -/
def State.refreshWrite (s : State) (c : Chan) (w : Word) : State :=
  let a := aREFRESH c.val
  let old := s.rd a
  let s := s.typed a w
  let s := if s.fld a 25 21 ≤ s.fld a 20 16 then s.putBack a old 25 21 20 16 else s
  if !wbit old 31 && s.flag a 31 then ((s.clearDebt c).forgetMr4 c).startPoll c
  else if wbit old 31 && !s.flag a 31 then s.stopRefresh c
  else s

/-- A write of GLN_PATROL_CTL: the patrol starts at START where EN rises (09 R328; log entry 15). -/
def State.patWrite (s : State) (c : Chan) (w : Word) : State :=
  let was := s.flag (aPAT_CTL c.val) 31
  let s := s.typed (aPAT_CTL c.val) w
  if !was && s.flag (aPAT_CTL c.val) 31 then
    (s.setFld (aPAT_POS c.val) 27 0 (s.fld (aPAT_START c.val) 27 0)).onAnvil c (fun v => { v with patrolAt := s.timebase })
  else s

/-- A write of GLN_PATROL_START or GLN_PATROL_END: END stays above START (09 R329). -/
def State.patEdge (s : State) (c : Chan) (a : Nat) (w : Word) : State :=
  let s' := s.typed a w
  if s'.fld (aPAT_END c.val) 27 0 ≤ s'.fld (aPAT_START c.val) 27 0 then s else s'

/-- A write of ECC_STAT: STGO in KINDLE or ASSAY (09 R319). -/
def State.eccWrite (s : State) (c : Chan) (w : Word) : State :=
  if wbit w 0 && (s.modes.mode == .kindle || s.modes.mode == .assay) then s.startSelfTest c else s

/-- A write of an HTH register. -/
def State.hthWrite (s : State) (c : Chan) (o : Nat) (w : Word) : State :=
  if o = 0x400 then s.pllWrite c w
  else if o = 0x404 then s.fspWrite c w
  else if o = 0x414 then s.dlydatWrite c w
  else if o = 0x41C then s.patdatWrite c w
  else s.typed (aAnv c.val o) w

/-- A write in an anvil block (Table 18.6). -/
def State.anvWrite (s : State) (a : Nat) (w : Word) : State :=
  let c := chanOf ((a - 0x020000) / 0x800)
  let o := a % 0x800
  if 0x400 ≤ o then s.hthWrite c o w
  else if o = 0x000 then s.mapWrite a w
  else if 0x010 ≤ o ∧ o ≤ 0x030 then (s.typed a w).timWrite c
  else if o = 0x034 then s.wmWrite c w
  else if o = 0x03C then s.cmderrWrite c w
  else if o = 0x040 then s.refreshWrite c w
  else if o = 0x04C then s.retrainWrite c w
  else if o = 0x050 then s.slotWrite c w
  else if o = 0x100 then s.eccWrite c w
  else if o = 0x200 then (s.typed a w).glnRequest c
  else if o = 0x280 then s.patWrite c w
  else if o = 0x284 ∨ o = 0x288 then s.patEdge c a w
  else s.typed a w

/-! ### The address space (18 R556, Table 18.1) -/

/-- The populated windows: fuse shadow, instruction and data memories, slot tables. -/
def windowAt (a : Nat) : Bool :=
  decide (0x2800 ≤ a ∧ a < 0x2A00) || decide (0x100000 ≤ a ∧ a < 0x10C000) || decide (0x110000 ≤ a ∧ a < 0x114000) ||
  decide (0x120000 ≤ a ∧ a < 0x138000) || decide (0x200000 ≤ a ∧ a < 0x20C000)

/-- A populated word address (R556). -/
def populatedAt (a : Nat) : Bool := windowAt a || (regInfo a).isSome

/-- A write in a memory window (Table 18.13). The fuse shadow takes none (FZ). -/
def State.windowWrite (s : State) (a : Nat) (w : Word) : State :=
  if a < 0x100000 then s
  else if a < 0x108000 then s.imemWrite false ((a - 0x100000) / 4) w
  else if a < 0x10C000 then s.onSmith masterSmith (fun h => { h with dmem := h.dmem.set ((a - 0x108000) / 4) w })
  else if a < 0x114000 then s.imemWrite true ((a - 0x110000) / 4) w
  else if a < 0x138000 then
    s.onSmith (anvilSmith (chanOf ((a - 0x120000) / 0x1000))) (fun h => { h with dmem := h.dmem.set (a % 0x1000 / 4) w })
  else s.bankWrite (chanOf ((a - 0x200000) / 0x800)) (decide (0x400 ≤ a % 0x800)) (a % 0x400 / 4) w

/-- A write of the populated word at `a`. -/
def State.regWrite (s : State) (who : Agent) (a : Nat) (w : Word) : State :=
  if windowAt a then s.windowWrite a w
  else if a < 0x005000 then s.globalWrite who a w
  else if a < 0x020000 then s.portWrite who a w
  else if a < 0x02C000 then s.anvWrite a w
  else s.typed a w

/-! ### Reads -/

/-- The code of a Smith's state (Table 2.18). -/
def SmithRun.code : SmithRun → Nat
  | .stopped => 0 | .idle => 1 | .running => 2 | .waiting => 3

/-- SMI_STATE0 and SMI_STATE1 as they read. -/
def State.smithStates (s : State) (hi : Bool) : Word :=
  if hi then
    let w := (List.range 8).foldl (fun w i => putBits w (2 * i + 1) (2 * i) (s.smiths[anvilSmith (chanOf (16 + i))]).run.code)
      (s.rd aSTATE1)
    putBits w 17 16 (s.smiths[masterSmith]).run.code
  else (List.range 16).foldl (fun w i => putBits w (2 * i + 1) (2 * i) (s.smiths[anvilSmith (chanOf i)]).run.code) 0

/-- ANV_STAT as it reads (Table 18.12). -/
def State.anvStat (s : State) (c : Chan) : Word :=
  let f := s.anvils[c].fn
  let pop := s.populated c.val
  let w := putBits (s.rd (aSTAT c.val)) 31 30 f.state.code
  let w := putBits (putBits w 29 29 (b2n f.pend)) 7 7 (b2n pop)
  putBits w 4 0 (if pop then s.logical c.val else 0)

/-- A global register as it reads. -/
def State.globalView (s : State) (a : Nat) : Word :=
  if a = aLOFT_STAT then s.loftStat
  else if a = aSTATE0 then s.smithStates false
  else if a = aSTATE1 then s.smithStates true
  else if a = aLOAD then putBits (putBits (s.rd aLOAD) 9 9 (b2n s.imageAS.accepted)) 8 8 (b2n s.imageMS.accepted)
  else if a = aQSTAT then s.qstatWord
  else if a = aEVQ_STATUS then s.evqStatus
  else if a = aKEYSTAT then s.keystat
  else if a = aKEYHELD then s.keyheld
  else if a = aRELSTAT then s.relstat
  else if a = aGNG_STAT then s.gngStat
  else if a = aPEER then s.gngPeer
  else if a = aDIGEST then BitVec.ofNat 32 s.digest
  else if a = aRESDAT then s.resdat
  else s.rd a

/-- A register of an anvil block as it reads. -/
def State.anvView (s : State) (c : Chan) (a o : Nat) : Word :=
  if o = 0x000 then putBits (s.rd a) 16 16 (b2n (s.bgMode c))
  else if o = 0x004 then s.anvStat c
  else if o = 0x038 then s.aqstat c
  else if o = 0x048 then s.rfstat c
  else if o = 0x200 then s.glnCtl c
  else if o = 0x414 then (s.dlydatRead c).1
  else if o = 0x41C then (s.patdatRead c).1
  else if o = 0x42C then s.pstat c
  else s.rd a

/-- A register as it reads, before any effect of the read. -/
def State.regView (s : State) (a : Nat) : Word :=
  if a < 0x005000 then s.globalView a
  else if a < 0x020000 then
    (if a % 0x200 = 0 then putBits (s.rd a) 31 31 (b2n (s.overNow (portOf ((a - 0x010000) / 0x200)))) else s.rd a)
  else if a < 0x02C000 then s.anvView (chanOf ((a - 0x020000) / 0x800)) a (a % 0x800)
  else if a % 0x400 = 0x00C then s.lftStat (chanOf ((a - 0x030000) / 0x400))
  else s.rd a

/-- A word of a memory window as it reads; key material reads 0 (14 R466). -/
def State.windowRead (s : State) (a : Nat) : Word :=
  if a < 0x2A00 then
    let w := (a - 0x2800) / 4 % 128
    if 91 ≤ w ∧ w ≤ 98 then 0 else s.hedge.fuse[w]'(by omega)
  else if a < 0x108000 then s.imageMS.mem.get ((a - 0x100000) / 4)
  else if a < 0x10C000 then (s.smiths[masterSmith]).dmem.get ((a - 0x108000) / 4)
  else if a < 0x114000 then s.imageAS.mem.get ((a - 0x110000) / 4)
  else if a < 0x138000 then (s.smiths[anvilSmith (chanOf ((a - 0x120000) / 0x1000))]).dmem.get (a % 0x1000 / 4)
  else (s.anvils[chanOf ((a - 0x200000) / 0x800)]).bankWord (decide (0x400 ≤ a % 0x800)) (a % 0x400 / 4)

/-- High half of a 64-bit number. -/
def hiWord (n : Nat) : Word := BitVec.ofNat 32 (n / 2 ^ 32)

/-- A read of GLB_TIMEBASE_LO captures the upper half (02 R58). -/
def State.readTimeLo (s : State) (who : Agent) : Word × State :=
  (BitVec.ofNat 32 s.timebase, s.onCaps who (fun c => { c with timebase := some (hiWord s.timebase) }))

/-- A read of GLB_TIMEBASE_HI (02 R58, R563). -/
def State.readTimeHi (s : State) (who : Agent) : Word × State :=
  ((s.capsOf who).timebase.getD (hiWord s.timebase), s.onCaps who (fun c => { c with timebase := none }))

/-- A read of ANV_SLOT_TLO or GLN_LAP_LO captures the upper half (R563). -/
def State.readPairLo (s : State) (who : Agent) (c : Chan) (lap : Bool) : Word × State :=
  let lo := if lap then aLAP_LO c.val else aTLO c.val
  let hi := s.rd (if lap then aLAP_HI c.val else aTHI c.val)
  (s.rd lo, s.onCaps who (fun x =>
    if lap then { x with lap := upd x.lap c (fun _ => some hi) } else { x with slot := upd x.slot c (fun _ => some hi) }))

/-- A read of ANV_SLOT_THI or GLN_LAP_HI (R563). -/
def State.readPairHi (s : State) (who : Agent) (c : Chan) (lap : Bool) : Word × State :=
  let live := s.rd (if lap then aLAP_HI c.val else aTHI c.val)
  let held := if lap then (s.capsOf who).lap[c] else (s.capsOf who).slot[c]
  (held.getD live, s.onCaps who (fun x =>
    if lap then { x with lap := upd x.lap c (fun _ => none) } else { x with slot := upd x.slot c (fun _ => none) }))

/-- A read of GNG_SMSG_RX_LO: the oldest message, whose upper half and sender are captured (Table 17.11). With
no message waiting the word is a free value (log entry 28). -/
def State.readMsgLo (s : State) (who : Agent) : Word × State :=
  match s.gang.fifo with
  | [] => ((Config.freeWord s.gang.free).setWidth 32, s.onGang (fun g => { g with free := g.free + 1 }))
  | m :: _ => (m.1.setWidth 32, s.onCaps who (fun c => { c with smsg := some ((m.1 >>> 32).setWidth 32), smsgSrc := m.2 }))

/-- A read of GNG_SMSG_RX_HI: with a capture pending it removes the message (R563); an Anvil Smith's read removes
nothing (02 R54). -/
def State.readMsgHi (s : State) (who : Agent) : Word × State :=
  match (s.capsOf who).smsg with
  | none => (0, s)
  | some hi =>
    let s := s.onCaps who (fun c => { c with smsg := none })
    let mine := s.gang.fifo.head?.any (fun (m : BitVec 64 × BitVec 2) => (m.1 >>> 32).setWidth 32 == hi && m.2 == (s.capsOf who).smsgSrc)
    (hi, if who.takes && mine then s.onGang (fun g => { g with fifo := g.fifo.tail }) else s)

/-- The effect of a read on the register itself: indexed windows step, and RC fields clear (R562) unless an Anvil Smith
reads (02 R54). -/
def State.readEffect (s : State) (who : Agent) (a : Nat) : State :=
  if 0x020000 ≤ a ∧ a < 0x02C000 ∧ a % 0x800 = 0x414 then (s.dlydatRead (chanOf ((a - 0x020000) / 0x800))).2
  else if 0x020000 ≤ a ∧ a < 0x02C000 ∧ a % 0x800 = 0x41C then (s.patdatRead (chanOf ((a - 0x020000) / 0x800))).2
  else
    match regInfo a with
    | none => s
    | some r => if who.takes then s.wr a (clearOnRead r (s.rd a)) else s

/-- A read of a capture pair of an anvil block, or of any other register of it. -/
def State.anvRead (s : State) (who : Agent) (a : Nat) : Word × State :=
  let c := chanOf ((a - 0x020000) / 0x800)
  let o := a % 0x800
  if o = 0x054 then s.readPairLo who c false
  else if o = 0x058 then s.readPairHi who c false
  else if o = 0x204 then s.readPairLo who c true
  else if o = 0x208 then s.readPairHi who c true
  else (s.regView a, s.readEffect who a)

/-- A read of the populated word at `a`: its value and what it leaves. -/
def State.regRead (s : State) (who : Agent) (a : Nat) : Word × State :=
  if windowAt a then (s.windowRead a, s)
  else if a = aTB_LO then s.readTimeLo who
  else if a = aTB_HI then s.readTimeHi who
  else if a = aEVQ_LO then s.evqReadLo who
  else if a = aEVQ_HI then s.evqReadHi who
  else if a = aRX_LO then s.readMsgLo who
  else if a = aRX_HI then s.readMsgHi who
  else if a = aRX_SRC then ((s.capsOf who).smsgSrc.setWidth 32, s)
  else if 0x020000 ≤ a ∧ a < 0x02C000 then s.anvRead who a
  else (s.regView a, s.readEffect who a)

/-! ### Host accesses (R557 to R560, R564, R568) -/

/-- A host access error: the first after VALID was last 0 is recorded, a later one sets OVF (R568). -/
def State.hostError (s : State) (cause : Nat) (write : Bool) (a : Nat) : State :=
  if s.flag aHERR 31 then s.setFlag aHERR 30 true
  else (((s.setFld aHERR 11 8 cause).setFlag aHERR 0 write).setFlag aHERR 31 true).setFld aHERR_ADDR 23 0 a

/-- The cause that refuses a host access, if any (R557, R558, R564). In BANKED an instruction memory is reached for
reading alone. -/
def State.hostCause (s : State) (write : Bool) (a : Nat) : Option Nat :=
  if a % 4 ≠ 0 then some 3
  else if !populatedAt a then some 1
  else if s.modes.mode = .banked ∧ (bankedReach a || (!write && (decide (0x100000 ≤ a ∧ a < 0x108000) ||
      decide (0x110000 ≤ a ∧ a < 0x114000)))) = false then some 2
  else none

/-- HRP_READY: the host port takes accesses, but not in COLD (R560). -/
def State.hrpReady (s : State) : Bool := s.modes.mode != .cold

/-- A host write (R557 to R564). -/
def State.hostWrite (s : State) (a : Nat) (w : Word) : State :=
  match s.hostCause true a with
  | some cause => s.hostError cause true a
  | none => s.regWrite .host a w

/-- A host read leaves its value in HRP_RDATA (R557 to R564). -/
def State.hostRead (s : State) (a : Nat) : State :=
  match s.hostCause false a with
  | some cause => { s.hostError cause false a with hrpRdata := 0 }
  | none => let r := s.regRead .host a; { r.2 with hrpRdata := r.1 }

/-- A host access: a write where a word is given, else a read. -/
def State.hostAccess (s : State) (a : Nat) (w : Option Word) : State :=
  match w with
  | some w => s.hostWrite a w
  | none => s.hostRead a

/-- The accesses that the port has held take effect once COLD has ended, in the order issued (R559, R560). -/
def State.serveHeld (s : State) : State :=
  if s.modes.mode = .cold then s
  else s.hrpHeld.foldl (fun s e => { s.hostAccess e.1 e.2 with hrpRvalid := true }) { s with hrpHeld := [] }

/-- A host access. -/
def hostAccessRow (a : Nat) (w : Option Word) (s : State) : Out := hostRow [(a, w)] true (fun s => s.hostAccess a w) s

/-- A host write. -/
def hostWriteRow (a : Nat) (w : Word) (s : State) : Out := hostAccessRow a (some w) s

/-- A host write whose content is that of the row. -/
def hostWriteWhen (ok : Bool) (a : Nat) (w : Word) (s : State) : Out := hostRow [(a, some w)] ok (fun s => s.hostAccess a (some w)) s

/-- A host read. -/
def hostReadRow (a : Nat) (s : State) : Out := hostAccessRow a none s

/-- A host access at timebase `now`. -/
def hostAccessAt (now a : Nat) (w : Option Word) (s : State) : Out := hostRowAt now [(a, w)] true (fun s => s.hostAccess a w) s

end Sys2Proof.Machine
end

