-- ==== Sys2Proof/Machine/HostRows.lean ====
section
/-! DEFINITION. Rows that are one access of the host register port or one register write of the Master Smith, and the
end of image verification. -/

namespace Sys2Proof.Machine

/-! ### Host control of the Smiths (02 R90 to R96) -/

/-- MS_START: a host write of SMI_CTL with MS_START = 1 (R90, R92). -/
def execMsStart (w : Word) (s : State) : Out := hostWriteWhen (wbit w 0) aSMI_CTL w s

/-- MS_STOP: a host write of SMI_CTL with MS_STOP = 1 (R91, R92). -/
def execMsStop (w : Word) (s : State) : Out := hostWriteWhen (wbit w 1) aSMI_CTL w s

/-- AS_START: a host write of SMI_CTL with AS_START = 1 (R90, R92). -/
def execAsStart (w : Word) (s : State) : Out := hostWriteWhen (wbit w 2) aSMI_CTL w s

/-- AS_STOP: a host write of SMI_CTL with AS_STOP = 1 (R91, R92). -/
def execAsStop (w : Word) (s : State) : Out := hostWriteWhen (wbit w 3) aSMI_CTL w s

/-- GO: a host write of SMI_LOAD with GO = 1 (R95). -/
def execGo (w : Word) (s : State) : Out := hostWriteWhen (wbit w 0) aLOAD w s

/-- SMI_EVSET: a host write of SMI_EVSET (R60, Table 2.21). -/
def execSmiEvset (w : Word) (s : State) : Out := hostWriteRow aEVSET w s

/-- The address is in an instruction memory. -/
def imemAddr (a : Nat) : Bool :=
  decide (0x100000 ≤ a ∧ a < 0x108000) || decide (0x110000 ≤ a ∧ a < 0x114000)

/-- INSTRUCTION_MEMORY_WRITE (18 R570). -/
def execInstructionMemoryWrite (addr : BitVec 24) (w : Word) (s : State) : Out :=
  hostWriteWhen (imemAddr addr.toNat) addr.toNat w s

/-- LENGTH of the image header (Table 2.22). -/
def State.hdrLength (s : State) : Nat := s.fld (aHDR 1) 31 16

/-- ENTRY of the image header. -/
def State.hdrEntry (s : State) : Nat := s.fld (aHDR 2) 15 0

/-- MAGIC, TARGET, FORMAT, LENGTH and ENTRY satisfy Table 2.22. -/
def State.headerGood (s : State) (anvil : Bool) : Bool :=
  s.rd (aHDR 0) == 0x31475753 && s.fld (aHDR 1) 7 0 == (if anvil then 2 else 1) && s.fld (aHDR 1) 15 8 == 1 &&
  decide (1 ≤ s.hdrLength ∧ s.hdrLength ≤ (if anvil then 4096 else 8192) ∧ s.hdrEntry < s.hdrLength)

/-- The image CMAC key: key byte k is bits [8k+7:8k] (R94, 14 Table 14.2). -/
def State.cmacKey (s : State) : List Nat :=
  (List.finRange 8).flatMap (fun i => toBytes 4 (s.fuseWord ⟨91 + i.val, by omega⟩).toNat)

/-- The message of the tag: header bytes 0 to 15 and the instructions (R94). -/
def State.imageMessage (s : State) (anvil : Bool) : List Nat :=
  let mem := (if anvil then s.imageAS else s.imageMS).mem
  (List.range 4).flatMap (fun k => toBytes 4 (s.rd (aHDR k)).toNat) ++
    (List.range s.hdrLength).flatMap (fun i => toBytes 4 (mem.get i).toNat)

/-- The tag of the header matches the computed one (R94). -/
def State.tagMatches (s : State) (anvil : Bool) : Bool :=
  cmac s.cmacKey (s.imageMessage anvil) == (List.range 4).flatMap (fun k => toBytes 4 (s.rd (aHDR (4 + k))).toNat)

/-- The result of a verification (Table 2.23). -/
def State.verdictOf (s : State) (anvil : Bool) : Nat :=
  if !s.headerGood anvil then 5 else if s.tagMatches anvil then 2 else if s.lifecycle ≤ 1 then 3 else 4

/-- An image is accepted (R96, R97). That it is the reference image of release 1.2 is told by `reference` (log entry
29). -/
def State.acceptImage (s : State) (anvil reference : Bool) : State :=
  let len := s.hdrLength
  let entry := BitVec.ofNat 13 s.hdrEntry
  (s.onImage anvil (fun i => { i with accepted := true, length := len, entry := entry, reference := reference })).wr
    (aVer anvil) (s.rd (aHDR 3))

/-- A refused tag: fault 0x18, and a violation of type 6 (R96, 14 Table 14.5). -/
def State.refuseTag (s : State) (anvil : Bool) : State :=
  (s.send 0x51 0x18 sevUncorrected 0 (b2n anvil + 4 * 2)).violation 6 0 (violDetail none 6 false 0)

/-- A verification ends (R96, Table 2.23). -/
def State.endVerify (s : State) (anvil reference : Bool) : State :=
  let v := s.verdictOf anvil
  let s := { s.setFld aLOAD 6 4 v with verify := none }
  if v = 2 ∨ v = 3 then s.acceptImage anvil reference
  else if v = 4 then (s.clearAccepted anvil).refuseTag anvil
  else s.clearAccepted anvil

/-- VERIFY_END (R95 to R97), while the core has power (log entry 82). -/
def execVerifyEnd (reference : Bool) (s : State) : Out :=
  .next (match (if s.modes.gated then none else s.verify) with
    | some anvil => s.endVerify anvil reference
    | none => s)

/-! ### Ports (03) -/

/-- PORT_ENABLE: a host write of SWD_ENk (03 R101). -/
def execPortEnable (k : Fin 4) (w : Word) (s : State) : Out := hostWriteRow (aSWD_EN k.val) w s

/-- PORT_DISABLE: a host write of SWD_ENk (03 R104). -/
def execPortDisable (k : Fin 4) (w : Word) (s : State) : Out := hostWriteRow (aSWD_EN k.val) w s

/-- HALT_CLEAR: a host write of BLW_HALT (03 R132). -/
def execHaltClear (p : PortId) (w : Word) (s : State) : Out := hostWriteRow (aHALT p.val) w s

/-! ### Loft (10) -/

/-- INVALL: a host write of GLB_LOFT_CTL with INVALL = 1 (10 R368). -/
def execInvall (w : Word) (s : State) : Out := hostWriteWhen (wbit w 6) aLOFT_CTL w s

/-- WG_EN: a host write of GLB_LOFT_CTL (10 R358). -/
def execWgEn (w : Word) (s : State) : Out := hostWriteRow aLOFT_CTL w s

/-- RICK_EN: a host write of GLB_LOFT_CTL (10 R358). -/
def execRickEn (w : Word) (s : State) : Out := hostWriteRow aLOFT_CTL w s

/-- PF_EN: a host write of GLB_LOFT_CTL (10 R358). -/
def execPfEn (w : Word) (s : State) : Out := hostWriteRow aLOFT_CTL w s

/-! ### Anvils, PHY, check codes (05, 07, 09) -/

/-- HOLD_SET: a write of ANV_CMDERR (05 R204, R205). -/
def execHoldSet (c : Chan) (w : Word) (s : State) : Out := hostWriteRow (aCMDERR c.val) w s

/-- RETRAIN_INTERVAL_WRITE: a write of ANV_RETRAIN_US (07 R259). -/
def execRetrainIntervalWrite (c : Chan) (w : Word) (now : Nat) (s : State) : Out :=
  hostAccessAt now (aRETRAIN c.val) (some w) s

/-- PLL_ENABLE: a write of HTH_PLL (07 R244). -/
def execPllEnable (c : Chan) (w : Word) (s : State) : Out := hostWriteRow (aPLL c.val) w s

/-- FSP_CHANGE: a write of HTH_PLL (07 R245). -/
def execFspChange (c : Chan) (w : Word) (s : State) : Out := hostWriteRow (aPLL c.val) w s

/-- RATE_CHANGE: a write of HTH_FSP (07 R247). -/
def execRateChange (c : Chan) (w : Word) (s : State) : Out := hostWriteRow (aFSP c.val) w s

/-- DLYDAT_ACCESS: a read or a write of HTH_DLYDAT (07 R251, R252). -/
def execDlydatAccess (c : Chan) (w : Option Word) (s : State) : Out :=
  hostAccessRow (aAnv c.val 0x414) w s

/-- PATDAT_ACCESS: a read or a write of HTH_PATDAT (07 R253). -/
def execPatdatAccess (c : Chan) (w : Option Word) (s : State) : Out :=
  hostAccessRow (aAnv c.val 0x41C) w s

/-- STGO: a write of ECC_STAT (09 R319). -/
def execStgo (c : Chan) (w : Word) (s : State) : Out := hostWriteRow (aECC_STAT c.val) w s

/-- GLEANER_EN: a write of GLN_CTL (09 R321). -/
def execGleanerEn (c : Chan) (w : Word) (s : State) : Out := hostWriteRow (aGLN_CTL c.val) w s

/-! ### Hedge, faults, event FIFO (14, 15) -/

/-- KEYCTL_ERASE: a host write of HDG_KEYCTL (14 R476). -/
def execKeyctlErase (w : Word) (s : State) : Out := hostWriteRow aKEYCTL w s

/-- FORCE_MESSAGE: a write of FLT_FORCEk (15 R498). -/
def execForceMessage (k : Fin 3) (w : Word) (s : State) : Out := hostWriteRow (aFORCE k.val) w s

/-- FIRSTV_REARM: a host write of FLT_OVF (15 R494). -/
def execFirstvRearm (w : Word) (s : State) : Out := hostWriteRow aOVF w s

/-- INJECTION_ARM: a write of FLT_LINKINJ with MODE not 0 (15 R503). -/
def execInjectionArm (w : Word) (s : State) : Out :=
  hostWriteWhen (wbits w 17 16 != 0) aLINKINJ w s

/-- INJECTION_DISARM: a write of FLT_LINKINJ with MODE = 0 (15 R503). -/
def execInjectionDisarm (w : Word) (s : State) : Out :=
  hostWriteWhen (wbits w 17 16 == 0) aLINKINJ w s

/-- The Master Smith executes, so that it can write a register. -/
def State.masterRuns (s : State) : Bool := s.smiths[masterSmith].run != .stopped

/-- EVQ_PUT_HDR: a Master Smith write (15 R510). -/
def execEvqPutHdr (w : Word) (now : Nat) (s : State) : Out :=
  .next (timed now State.masterRuns (fun s => s.regWrite (.smith masterSmith) aPUT_HDR w) s)

/-- EVQ_PUT_LO: a Master Smith write (15 R510). -/
def execEvqPutLo (w : Word) (s : State) : Out :=
  .next (occur s.masterRuns s (s.regWrite (.smith masterSmith) aPUT_LO w))

/-- EVQ_PUT_HI: a Master Smith write (15 R510). -/
def execEvqPutHi (w : Word) (now : Nat) (s : State) : Out :=
  .next (timed now State.masterRuns (fun s => s.regWrite (.smith masterSmith) aPUT_HI w) s)

/-- EVQ_DATA_LO: a host read (15 R511). -/
def execEvqDataLo (s : State) : Out := hostReadRow aEVQ_LO s

/-- EVQ_DATA_HI: a host read (15 R511). -/
def execEvqDataHi (now : Nat) (s : State) : Out := hostAccessAt now aEVQ_HI none s

/-- FLUSH: a host write of EVQ_CTL (15 R514). -/
def execFlush (w : Word) (now : Nat) (s : State) : Out := hostAccessAt now aEVQ_CTL (some w) s

/-! ### Captures and accesses (18 R557 to R564) -/

/-- TIMEBASE_LO_READ: a host read (02 R58, R563). -/
def execTimebaseLoRead (now : Nat) (s : State) : Out := hostAccessAt now aTB_LO none s

/-- SLOT_TLO_READ: a host read (R563). -/
def execSlotTloRead (c : Chan) (s : State) : Out := hostReadRow (aTLO c.val) s

/-- LAP_LO_READ: a host read (R563). -/
def execLapLoRead (c : Chan) (s : State) : Out := hostReadRow (aLAP_LO c.val) s

/-- The HI registers of the captures of the timebase, a slot table start and a lap time. -/
def hiAddr (a : Nat) : Bool := a == aTB_HI || allChans.any (fun c => a == aTHI c.val || a == aLAP_HI c.val)

/-- CAPTURED_HI_READ: a host read (R563). -/
def execCapturedHiRead (addr : BitVec 24) (now : Nat) (s : State) : Out :=
  hostRowAt now [(addr.toNat, none)] (hiAddr addr.toNat) (fun s => s.hostAccess addr.toNat none) s

/-- RC_READ: a host read of a register; its RC fields, if any, return to their reset value (00 Table 0.4, R562). -/
def execRcRead (addr : BitVec 24) (s : State) : Out := hostReadRow addr.toNat s

/-- ADJACENCY_MAP_WRITE: a write of GLB_ADJ0 or GLB_ADJ1 (06 R235). -/
def execAdjacencyMapWrite (k : Fin 2) (w : Word) (s : State) : Out := hostWriteRow (aADJ k.val) w s

/-- REGISTER_WRITE: a host write (01 R44, R559). -/
def execRegisterWrite (addr : BitVec 24) (w : Word) (now : Nat) (s : State) : Out :=
  hostAccessAt now addr.toNat (some w) s

/-- An access that is refused with this cause. -/
def State.refusedWith (s : State) (cause : Nat) (a : Nat) (w : Option Word) : Bool :=
  s.hostCause w.isSome a == some cause

/-- UNALIGNED_ACCESS (R557). -/
def execUnalignedAccess (addr : BitVec 24) (w : Option Word) (s : State) : Out :=
  hostRow [(addr.toNat, w)] (s.refusedWith 3 addr.toNat w) (fun s => s.hostAccess addr.toNat w) s

/-- UNPOPULATED_ACCESS (R558). -/
def execUnpopulatedAccess (addr : BitVec 24) (w : Option Word) (s : State) : Out :=
  hostRow [(addr.toNat, w)] (s.refusedWith 1 addr.toNat w) (fun s => s.hostAccess addr.toNat w) s

/-- BANKED_ACCESS_REFUSED (R564). -/
def execBankedAccessRefused (addr : BitVec 24) (w : Option Word) (s : State) : Out :=
  hostRow [(addr.toNat, w)] (s.refusedWith 2 addr.toNat w) (fun s => s.hostAccess addr.toNat w) s

/-! ### Rows that may end COLD, and serve what the port has held (R560) -/

/-- FUSE_IMAGE_READ (14 R462 to R467, 13 Table 13.2). -/
def execFuseImageRead (first second : List Word) (s : State) : Out := .next (s.fuseImageRead first second).serveHeld

/-- QUARTER_END (16 R520 to R530, R532). -/
def execQuarterEnd (signatureGood : Bool) (findings : List MacroFinding) (s : State) : Out :=
  .next (s.quarterEnd signatureGood findings).serveHeld

/-- DIRECT_RUN: a write of AST_CTL with GO = 1 (16 R531, R532). -/
def execDirectRun (w : Word) (s : State) : Out := hostWriteWhen (wbit w 31) aAST_CTL w s

/-- CLRREP: a write of AST_CTL with CLRREP = 1 (16 R526). -/
def execClrrep (w : Word) (s : State) : Out := hostWriteWhen (wbit w 30) aAST_CTL w s

/-- TAP_INSTRUCTION (16 R531). -/
def execTapInstruction (op : TapOp) (s : State) : Out := .next (s.tapInstruction op).serveHeld

/-! ### Gang (17) -/

/-- XCHG: a write of GNG_CTL with XCHG = 1 (17 R543). -/
def execXchg (w : Word) (now : Nat) (s : State) : Out :=
  hostRowAt now [(aGNG_CTL, some w)] (wbit w 30) (fun s => s.hostAccess aGNG_CTL (some w)) s

/-- SMSG_SEND: a Master Smith write of GNG_SMSG_TX_HI (17 R552). -/
def execSmsgSend (w : Word) (s : State) : Out :=
  .next (occur s.masterRuns s (s.regWrite (.smith masterSmith) aTX_HI w))

/-- SMSG_RX_LO: a host read (R563). -/
def execSmsgRxLo (s : State) : Out := hostReadRow aRX_LO s

/-- SMSG_RX_HI: a host read (R563). -/
def execSmsgRxHi (s : State) : Out := hostReadRow aRX_HI s

end Sys2Proof.Machine
end

