-- ==== Sys2Proof/Machine/Smith.lean ====
section
/-! DEFINITION. Smith instructions of arithmetic and control (02 Table 2.8). -/

namespace Sys2Proof.Machine

/-! ### Shared forms -/

/-- An instruction with destination d that waits for nothing: g[d] := v, then pc + 1 (R66). -/
def State.setDone (s : State) (m : SmithId) (d : RegNo) (v : Word) : State := (s.setG m d v).smithDone m

/-- A three-register instruction. -/
def regRegRow (op : Nat) (m : SmithId) (d a b : RegNo) (f : Word → Word → Word) (s : State) : Out :=
  .next (occur (s.ready m { op := op, d := some d, a := some a, b := some b }) s
    (s.setDone m d (f (s.g m a) (s.g m b))))

/-- A register and immediate instruction. -/
def regImmRow (op : Nat) (m : SmithId) (d a : RegNo) (imm : BitVec 14) (f : Word → Word) (s : State) : Out :=
  .next (occur (s.ready m { op := op, d := some d, a := some a, imm := some imm }) s
    (s.setDone m d (f (s.g m a))))

/-- The shift amount in bits [4:0]. -/
def shamt (w : Word) : Nat := wbits w 4 0

/-- uimm as a word. -/
def uimmW (imm : BitVec 14) : Word := imm.setWidth 32

/-- 1 or 0. -/
def flagWord (b : Bool) : Word := if b then 1 else 0

/-- pc + 1 + simm (R64, R66). -/
def State.branchTo (s : State) (m : SmithId) (imm : BitVec 14) : Nat :=
  (BitVec.ofNat 32 (s.smiths[m].pc.toNat + 1) + simm imm).toNat

/-- A branch (R66). -/
def branchRow (op : Nat) (m : SmithId) (a b : RegNo) (imm : BitVec 14) (c : Word → Word → Bool) (s : State) : Out :=
  .next (occur (s.ready m { op := op, a := some a, b := some b, imm := some imm }) s
    (if c (s.g m a) (s.g m b) then s.smithGo m (s.branchTo m imm) else s.smithDone m))

/-! ### Arithmetic -/

/-- ADD (Table 2.8). -/
def execAdd (m : SmithId) (d a b : RegNo) (s : State) : Out := regRegRow 0x01 m d a b (fun x y => x + y) s

/-- SUB (Table 2.8). -/
def execSub (m : SmithId) (d a b : RegNo) (s : State) : Out := regRegRow 0x02 m d a b (fun x y => x - y) s

/-- AND (Table 2.8). -/
def execAnd (m : SmithId) (d a b : RegNo) (s : State) : Out := regRegRow 0x03 m d a b (fun x y => x &&& y) s

/-- OR (Table 2.8). -/
def execOr (m : SmithId) (d a b : RegNo) (s : State) : Out := regRegRow 0x04 m d a b (fun x y => x ||| y) s

/-- XOR (Table 2.8). -/
def execXor (m : SmithId) (d a b : RegNo) (s : State) : Out := regRegRow 0x05 m d a b (fun x y => x ^^^ y) s

/-- SHL (Table 2.8). -/
def execShl (m : SmithId) (d a b : RegNo) (s : State) : Out := regRegRow 0x06 m d a b (fun x y => x <<< shamt y) s

/-- SHR (Table 2.8). -/
def execShr (m : SmithId) (d a b : RegNo) (s : State) : Out := regRegRow 0x07 m d a b (fun x y => x >>> shamt y) s

/-- SRA (Table 2.8). -/
def execSra (m : SmithId) (d a b : RegNo) (s : State) : Out :=
  regRegRow 0x08 m d a b (fun x y => x.sshiftRight (shamt y)) s

/-- MUL: the unsigned low halves (Table 2.8). -/
def execMul (m : SmithId) (d a b : RegNo) (s : State) : Out :=
  regRegRow 0x09 m d a b (fun x y => BitVec.ofNat 32 (wbits x 15 0 * wbits y 15 0)) s

/-- SLT (Table 2.8). -/
def execSlt (m : SmithId) (d a b : RegNo) (s : State) : Out := regRegRow 0x0A m d a b (fun x y => flagWord (x.slt y)) s

/-- SLTU (Table 2.8). -/
def execSltu (m : SmithId) (d a b : RegNo) (s : State) : Out := regRegRow 0x0B m d a b (fun x y => flagWord (x.ult y)) s

/-- ADDI (Table 2.8). -/
def execAddi (m : SmithId) (d a : RegNo) (imm : BitVec 14) (s : State) : Out :=
  regImmRow 0x10 m d a imm (fun x => x + simm imm) s

/-- ANDI (Table 2.8). -/
def execAndi (m : SmithId) (d a : RegNo) (imm : BitVec 14) (s : State) : Out :=
  regImmRow 0x11 m d a imm (fun x => x &&& uimmW imm) s

/-- ORI (Table 2.8). -/
def execOri (m : SmithId) (d a : RegNo) (imm : BitVec 14) (s : State) : Out :=
  regImmRow 0x12 m d a imm (fun x => x ||| uimmW imm) s

/-- XORI (Table 2.8). -/
def execXori (m : SmithId) (d a : RegNo) (imm : BitVec 14) (s : State) : Out :=
  regImmRow 0x13 m d a imm (fun x => x ^^^ uimmW imm) s

/-- SHLI (Table 2.8). -/
def execShli (m : SmithId) (d a : RegNo) (imm : BitVec 14) (s : State) : Out :=
  regImmRow 0x14 m d a imm (fun x => x <<< shamt (uimmW imm)) s

/-- SHRI (Table 2.8). -/
def execShri (m : SmithId) (d a : RegNo) (imm : BitVec 14) (s : State) : Out :=
  regImmRow 0x15 m d a imm (fun x => x >>> shamt (uimmW imm)) s

/-- LUI (Table 2.8, R64). -/
def execLui (m : SmithId) (d : RegNo) (imm : BitVec 18) (s : State) : Out :=
  .next (occur (s.ready m { op := 0x16, d := some d, imm18 := some imm }) s (s.setDone m d (imm.setWidth 32 <<< 14)))

/-! ### Control -/

/-- BEQ (Table 2.8). -/
def execBeq (m : SmithId) (a b : RegNo) (imm : BitVec 14) (s : State) : Out :=
  branchRow 0x20 m a b imm (fun x y => x == y) s

/-- BNE (Table 2.8). -/
def execBne (m : SmithId) (a b : RegNo) (imm : BitVec 14) (s : State) : Out :=
  branchRow 0x21 m a b imm (fun x y => x != y) s

/-- BLT (Table 2.8). -/
def execBlt (m : SmithId) (a b : RegNo) (imm : BitVec 14) (s : State) : Out :=
  branchRow 0x22 m a b imm (fun x y => x.slt y) s

/-- BGE (Table 2.8). -/
def execBge (m : SmithId) (a b : RegNo) (imm : BitVec 14) (s : State) : Out :=
  branchRow 0x23 m a b imm (fun x y => !x.slt y) s

/-- JAL (Table 2.8): the return index wraps as the program counter does (R47). -/
def execJal (m : SmithId) (d : RegNo) (imm : BitVec 14) (s : State) : Out :=
  .next (occur (s.ready m { op := 0x24, d := some d, imm := some imm }) s (
    let ret := (wrapPc m (s.smiths[m].pc.toNat + 1)).setWidth 32
    (s.setG m d ret).smithGo m (s.branchTo m imm)))

/-- JR (Table 2.8). -/
def execJr (m : SmithId) (a : RegNo) (imm : BitVec 14) (s : State) : Out :=
  .next (occur (s.ready m { op := 0x25, a := some a, imm := some imm }) s
    (s.smithGo m (s.g m a + simm imm).toNat))

/-- HALT (R61, R66). -/
def execHalt (m : SmithId) (s : State) : Out := .next (occur (s.ready m { op := 0x27 }) s (s.smithIdle m))

end Sys2Proof.Machine
end

