-- ==== Sys2Proof/Machine/SmithDram.lean ====
section
/-! DEFINITION. Smith instructions of DRAM commands, pauses, PHY, time, synchronisation, slot tables and faults (02
Table 2.9). -/

namespace Sys2Proof.Machine

/-- An instruction acts on the channel of its operand; a channel above 23 is cause 0x2 (02 Instructions). DESIGN CHOICE
(log entry 89): the message then has address 0, since there is no CSR address (R89). -/
def State.withChan (s : State) (m : SmithId) (x : Nat) (f : Chan → State) : State :=
  match chanFor m x with
  | some c => f c
  | none => s.smithFault m 2 0

/-! ### CMD and RDMR (R69 to R75) -/

/-- Commands that Table 2.13 permits on any channel in service and ASSAY. -/
def freeCode (k : Option Code) (op : Nat) : Bool :=
  match k with
  | some .mrr | none => true
  | some .mpc => oscMpc op
  | _ => false

/-- Commands that Table 2.13 permits in KINDLE and in bank steps alone. -/
def powerCode : Option Code → Bool
  | some .sre | some .srx | some .pde | some .pdx => true
  | _ => false

/-- A CMD is permitted (R71, Table 2.13). -/
def State.cmdPermitted (s : State) (m : SmithId) (c : Chan) (k : Option Code) (op : Nat) : Bool :=
  s.modes.mode == .kindle || s.bankSteps ||
  ((s.inService || s.modes.mode == .assay) && (freeCode k op || (s.pausedBy m c && !powerCode k)))

/-- A command word refused by the command stage: fault 0x05, and its status in g[d] (R73). -/
def State.cmdRefused (s : State) (m : SmithId) (c : Chan) (d : RegNo) (w : Word) (cause : Nat) : State :=
  (s.cmdError c cause sevUncorrected 0 (wbits w 26 26) (wbits w 25 22)).setDone m d (BitVec.ofNat 32 (cause - 3))

/-- MRR results of a Smith outstanding on a channel (R74). -/
def Smith.mrrOn (h : Smith) (c : Chan) : Nat := (h.mrr.filter (fun r => r.chan == c)).length

/-- A command word crosses to the command stage and waits at heat 7; a fifth MRR waits before it (R72, R74). -/
def State.cmdSend (s : State) (m : SmithId) (c : Chan) (d : RegNo) (k : Code) (w : Word) : State :=
  let s' := s.smithWait m (.cmd d c)
  if k = .mrr ∧ 4 ≤ (s.smiths[m]).mrrOn c then s'
  else s'.insert7 c (cmdOfWord k w (.smith m))

/-- A CMD on a channel (R71 to R74). -/
def State.cmdOn (s : State) (m : SmithId) (d : RegNo) (w : Word) (c : Chan) : State :=
  let k := codeOf (wbits w 31 28)
  if !s.cmdPermitted m c k (wbits w 7 0) then s.smithFault m 4 0
  else if !evenOnes w then s.cmdRefused m c d w 4
  else
    match k with
    | none => s.cmdRefused m c d w 5
    | some k => s.cmdSend m c d k w

/-- CMD (Table 2.9). -/
def execCmd (m : SmithId) (d a : RegNo) (imm : BitVec 14) (s : State) : Out :=
  .next (occur (s.ready m { op := 0x28, d := some d, a := some a, imm := some imm }) s
    (s.withChan m (uimm imm % 32) (s.cmdOn m d (s.g m a))))

/-- RDMR on a channel (R75). -/
def State.rdmrOn (s : State) (m : SmithId) (d : RegNo) (c : Chan) : State :=
  if (s.smiths[m]).mrrOn c = 0 then s.smithFault m 5 0
  else (s.smithWait m (.rdmr d c)).rdmrDone m c

/-- RDMR (Table 2.9). -/
def execRdmr (m : SmithId) (d : RegNo) (imm : BitVec 14) (s : State) : Out :=
  .next (occur (s.ready m { op := 0x29, d := some d, imm := some imm }) s
    (s.withChan m (uimm imm % 32) (s.rdmrOn m d)))

/-! ### Pauses (R76 to R80) -/

/-- Commands of no Smith leave the slot: heat-7 work goes back to the front of its queue, and a client's command is
selected again. -/
def Anvil.unplace (v : Anvil) : Anvil :=
  { v with slot := v.slot.filter Cmd.bySmith
           heat7 := (v.slot.filter (fun l => !l.bySmith && !l.client)).map (fun l => (l, false)) ++ v.heat7 }

/-- In KINDLE a pause is granted at once (R80); no refresh issues during it (06 R219), and new ZQ codes come into use (07
R267). -/
def State.pauseNow (s : State) (m : SmithId) (d : RegNo) (n : Nat) (c : Chan) : State :=
  ((s.onAnvil c (fun v =>
    let v := (v.owe m).unplace
    { v with granted := v.granted ++ [{ smith := m, n := n, start := v.ck }] })).applyZq c).setDone m d
      (BitVec.ofNat 32 s.timebase)

/-- A pause request waits for its grant (R76, R80). -/
def State.pauseAsk (s : State) (m : SmithId) (d : RegNo) (n : Nat) (c : Chan) : State :=
  (s.askPause m n c).smithWait m (.pause d c)

/-- PAUSE on a channel (R76, R79, R80). -/
def State.pauseOn (s : State) (m : SmithId) (d : RegNo) (n : Nat) (c : Chan) : State :=
  if n = 0 ∨ 512 < n ∨ s.pausedBy m c = true then s.smithFault m 6 0
  else if s.modes.mode = .kindle then s.pauseNow m d n c
  else s.pauseAsk m d n c

/-- PAUSE (Table 2.9). -/
def execPause (m : SmithId) (d a : RegNo) (imm : BitVec 14) (now : Nat) (s : State) : Out :=
  .next (timed now (fun s => s.ready m { op := 0x2C, d := some d, a := some a, imm := some imm })
    (fun s => s.withChan m (wbits (s.g m a) 4 0) (s.pauseOn m d (uimm imm))) s)

/-- ENDP on a channel (R78 to R80). -/
def State.endpOn (s : State) (m : SmithId) (d : RegNo) (c : Chan) : State :=
  match (s.anvils[c]).owed.find? (fun o => o.1 == m) with
  | none => s.smithFault m 6 0
  | some o =>
    let expired := o.2 && s.modes.mode != .kindle
    (s.onAnvil c (fun v =>
      let v := v.endPause m
      { v with owed := v.owed.filter (fun x => x.1 != m) })).setDone m d (flagWord expired)

/-- ENDP (Table 2.9). -/
def execEndp (m : SmithId) (d a : RegNo) (s : State) : Out :=
  .next (occur (s.ready m { op := 0x2D, d := some d, a := some a }) s
    (s.withChan m (wbits (s.g m a) 4 0) (s.endpOn m d)))

/-! ### PHY instructions (R81 to R84) -/

/-- CK from the start of a DLY to its effect: the crossing of 2 CK and 4 CK (R82). -/
def dlyCk : Nat := 6

/-- DLY on a channel (R81, R82). -/
def State.dlyOn (s : State) (m : SmithId) (l : Lanes) (code : BitVec 10) (c : Chan) : State :=
  if !s.holds m c || l.none then s.smithFault m 4 0
  else s.smithWait m (.dly c l.offsets code (s.anvils[c].ck + dlyCk))

/-- DLY (Table 2.9). -/
def execDly (m : SmithId) (a b : RegNo) (s : State) : Out :=
  .next (occur (s.ready m { op := 0x30, a := some a, b := some b }) s (
    let l := lanesOf (s.g m a)
    s.withChan m l.chan (s.dlyOn m l ((s.g m b).setWidth 10))))

/-- DLY_EFFECT (R82, 07 R252): at a CK edge of a locked hearth. -/
def execDlyEffect (m : SmithId) (ck : Nat) (s : State) : Out :=
  .next (match s.smiths[m].wait with
    | some (.dly c offsets code due) =>
      occur (s.pllLock c && decide (due ≤ ck)) s
        (((s.dlyEffect c offsets code).onAnvil c (fun v => { v with ck := max v.ck ck })).smithDone m)
    | _ => s)

/-- EYE on a channel (R81, 07 R254). -/
def State.eyeOn (s : State) (m : SmithId) (d : RegNo) (l : Lanes) (pattern : Nat) (c : Chan) : State :=
  if !s.holds m c || l.none || !(patternClasses pattern).contains l.cls then s.smithFault m 4 0
  else s.smithWait m (.eye d c l.rank pattern l.mask)

/-- EYE (Table 2.9). -/
def execEye (m : SmithId) (d a b : RegNo) (s : State) : Out :=
  .next (occur (s.ready m { op := 0x31, d := some d, a := some a, b := some b }) s (
    let l := lanesOf (s.g m a)
    s.withChan m l.chan (s.eyeOn m d l (wbits (s.g m b) 3 0))))

/-- EYE_END (R83, 07 R244, R254, R586): the lanes of the selector that passed in every repetition of what was sampled. -/
def execEyeEnd (m : SmithId) (samples : List EyeSample) (s : State) : Out :=
  .next (match s.smiths[m].wait with
    | some (.eye d c rank pattern mask) =>
      occur (s.pllLock c && samples.length == s.eyeReps c) s (
        let map := s.anvils[c].passMap rank pattern mask samples
        if s.working m then s.jobEye c map else s.setDone m d map)
    | _ => s)

/-- OSC on a channel (R81, R84). DESIGN CHOICE (log entry 97): BYTE of the selector (Table 2.14) has no effect, because R84 states
none. -/
def State.oscOn (s : State) (m : SmithId) (d : RegNo) (l : Lanes) (c : Chan) : State :=
  if !s.cmdPermitted m c (some .mrr) 0 then s.smithFault m 4 0
  else (s.smithWait m (.osc d c l.rank l.osc)).insert7 c (oscCmd m l.rank l.osc)

/-- OSC (Table 2.9). -/
def execOsc (m : SmithId) (d a : RegNo) (s : State) : Out :=
  .next (occur (s.ready m { op := 0x32, d := some d, a := some a }) s (
    let l := lanesOf (s.g m a)
    s.withChan m l.chan (s.oscOn m d l)))

/-- An MRR that an OSC of Smith `m` has issued, its result on the way. -/
def Burst.ofOsc (b : Burst) (m : SmithId) : Bool := b.cmd.code == .mrr && b.cmd.src == .osc m

/-- Both MRRs of an OSC have issued (R84). -/
def Anvil.oscRead (v : Anvil) (m : SmithId) : Bool := (v.bursts.filter (fun b => b.ofOsc m)).length == 2

/-- The count that an OSC returns: the upper die's half is 0 with a single x16 die (R84). -/
def oscCount (c : Chan) (lower upper : BitVec 16) : Word := (upperDie c upper).setWidth 32 <<< 16 ||| lower.setWidth 32

/-- The MRR results of an OSC of Smith `m` are taken. -/
def Anvil.takeOsc (v : Anvil) (m : SmithId) : Anvil := { v with bursts := v.bursts.filter (fun b => !b.ofOsc m) }

/-- OSC_END (R84): the count of the two MRRs crosses back, as the surroundings give it. -/
def execOscEnd (m : SmithId) (lower upper : BitVec 16) (s : State) : Out :=
  .next (match s.smiths[m].wait with
    | some (.osc d c _ _) =>
      occur ((s.anvils[c]).oscRead m) s (
        let s := s.onAnvil c (fun v => v.takeOsc m)
        let n := oscCount c lower upper
        if s.working m then s.jobCount c n else s.setDone m d n)
    | _ => s)

/-! ### Time and events (R85) -/

/-- WCK (Table 2.9, R85). -/
def execWck (m : SmithId) (a : RegNo) (imm : BitVec 14) (ck : Nat) (s : State) : Out :=
  .next (occur (s.ready m { op := 0x34, a := some a, imm := some imm }) s
    (s.withChan m (wbits (s.g m a) 4 0) (fun c =>
      if uimm imm = 0 then s.smithDone m else s.smithWait m (.wck c (ck + uimm imm)))))

/-- WCK_END (R85). -/
def execWckEnd (m : SmithId) (ck : Nat) (s : State) : Out :=
  .next (match s.smiths[m].wait with
    | some (.wck _ due) => occur (decide (due ≤ ck)) s (s.smithDone m)
    | _ => s)

/-- WNS (Table 2.9, R85). -/
def execWns (m : SmithId) (a : RegNo) (imm : BitVec 14) (now : Nat) (s : State) : Out :=
  .next (timed now (fun s => s.ready m { op := 0x35, a := some a, imm := some imm }) (fun s =>
    let n := (s.g m a + uimmW imm).toNat
    if n = 0 then s.smithDone m else s.smithWait m (.wns (s.timebase + n))) s)

/-- WNS_END (R85). -/
def execWnsEnd (m : SmithId) (now : Nat) (s : State) : Out :=
  .next (timed now (fun s => match s.smiths[m].wait with
      | some (.wns due) => decide (due ≤ s.timebase)
      | _ => false) (fun s => if s.working m then (chanOfSmith m).elim s s.jobLook else s.smithDone m) s)

/-- The end of a timeout of uimm µs; none for 0. -/
def State.deadline (s : State) (imm : BitVec 14) : Option Nat :=
  if uimm imm = 0 then none else some (s.timebase + 1000 * uimm imm)

/-- A timeout has run out. -/
def State.expired (s : State) (t : Option Nat) : Bool := t.any (fun t => decide (t ≤ s.timebase))

/-- The lowest pending event of a mask. -/
def Smith.pendingIn (h : Smith) (mask : BitVec 16) : Option (Fin 16) :=
  (List.finRange 16).find? (fun n => bit (h.evpend &&& mask).toNat n.val)

/-- A WEV that waits returns a pending event, consuming it, or 16 at its timeout (R85, Table 2.9). -/
def State.wevTry (s : State) (m : SmithId) : State :=
  match s.smiths[m].wait with
  | some (.wev d mask t) =>
    match (s.smiths[m]).pendingIn mask with
    | some n =>
      (s.onSmith m (fun h => { h with evpend := h.evpend &&& ~~~ BitVec.ofNat 16 (2 ^ n.val) })).setDone m d
        (BitVec.ofNat 32 n.val)
    | none => if s.expired t then s.setDone m d 16 else s
  | _ => s

/-- WEV (Table 2.9): an event that is pending already is returned at once. -/
def execWev (m : SmithId) (d a : RegNo) (imm : BitVec 14) (now : Nat) (s : State) : Out :=
  .next (timed now (fun s => s.ready m { op := 0x36, d := some d, a := some a, imm := some imm })
    (fun s => (s.smithWait m (.wev d ((s.g m a).setWidth 16) (s.deadline imm))).wevTry m) s)

/-- WEV_END (R85). -/
def execWevEnd (m : SmithId) (now : Nat) (s : State) : Out := .next ((s.at now).wevTry m)

/-! ### Signals (R86) -/

/-- The targets of SIG: Smiths 0 to 23 or all of them from the Master Smith, the Master Smith from an Anvil Smith. -/
def sigTargets (m : SmithId) (k : Nat) : List SmithId :=
  if isMaster m then
    if h : k < 24 then [⟨k, by omega⟩] else if k = 31 then allChans.map anvilSmith else []
  else if k = 24 then [masterSmith] else []

/-- SIG (Table 2.9, R86). -/
def execSig (m : SmithId) (a : RegNo) (imm : BitVec 14) (s : State) : Out :=
  .next (occur (s.ready m { op := 0x38, a := some a, imm := some imm }) s (
    match sigTargets m (s.g m a + simm imm).toNat with
    | [] => s.smithFault m 7 0
    | l => (l.foldl (fun s k => s.signal m k) s).smithDone m))

/-- A WSIG that waits returns 0 and clears its bits once all have arrived, or 1 at its timeout (R86). -/
def State.wsigTry (s : State) (m : SmithId) : State :=
  match s.smiths[m].wait with
  | some (.wsig d mask t) =>
    if s.smiths[m].sigset &&& mask = mask then
      (s.onSmith m (fun h => { h with sigset := h.sigset &&& ~~~ mask })).setDone m d 0
    else if s.expired t then s.setDone m d 1
    else s
  | _ => s

/-- WSIG (Table 2.9, R86). -/
def execWsig (m : SmithId) (d a : RegNo) (imm : BitVec 14) (now : Nat) (s : State) : Out :=
  .next (timed now (fun s => s.ready m { op := 0x39, d := some d, a := some a, imm := some imm })
    (fun s => (s.smithWait m (.wsig d ((s.g m a).setWidth 25) (s.deadline imm))).wsigTry m) s)

/-- WSIG_END (R86). -/
def execWsigEnd (m : SmithId) (now : Nat) (s : State) : Out := .next ((s.at now).wsigTry m)

/-! ### Slot tables (R87) -/

/-- SLW on a channel: with a commit pending it waits for the switch (R87). -/
def State.slwOn (s : State) (m : SmithId) (i : Nat) (x : Byte) (c : Chan) : State :=
  if s.slotPend c.val then s.smithWait m (.slw c i x) else (s.writeShadow c i x).smithDone m

/-- SLW (Table 2.9). -/
def execSlw (m : SmithId) (a b : RegNo) (imm : BitVec 14) (s : State) : Out :=
  .next (occur (s.ready m { op := 0x3A, a := some a, b := some b, imm := some imm }) s
    (s.withChan m (uimm imm % 32) (s.slwOn m (wbits (s.g m a) 9 0) ((s.g m b).setWidth 8))))

/-- SLC on a channel: the anvil fixes the start time (R87, 12 R418). -/
def State.slcOn (s : State) (m : SmithId) (d : RegNo) (t : Nat) (c : Chan) : State :=
  let r := s.commit c t
  r.2.setDone m d (BitVec.ofNat 32 r.1)

/-- SLC (Table 2.9). -/
def execSlc (m : SmithId) (d a b : RegNo) (imm : BitVec 14) (now : Nat) (s : State) : Out :=
  .next (timed now (fun s => s.ready m { op := 0x3B, d := some d, a := some a, b := some b, imm := some imm })
    (fun s =>
      s.withChan m (uimm imm % 32) (s.slcOn m d ((s.g m b).toNat * 2 ^ 32 + (s.g m a).toNat))) s)

/-! ### RAISE (R88) -/

/-- The message of a RAISE. -/
def State.raiseMsg (s : State) (m : SmithId) (d a b : RegNo) (imm : BitVec 14) : Msg :=
  { source := BitVec.ofNat 8 (smithSource m), kind := imm.setWidth 8, sev := imm.extractLsb' 8 2
    addr := BitVec.ofNat 41 (wbits (s.g m b) 8 0 * 2 ^ 32 + (s.g m a).toNat), detail := (s.g m d).setWidth 23
    raiser := some m }

/-- RAISE (Table 2.9, R88): it completes once the fault unit has accepted the message. -/
def execRaise (m : SmithId) (d a b : RegNo) (imm : BitVec 14) (s : State) : Out :=
  .next (occur (s.ready m { op := 0x3E, d := some d, a := some a, b := some b, imm := some imm }) s (
    let kind := uimm imm % 256
    if kind = 0 ∨ 0x1E < kind then s.smithFault m 8 0
    else
      (s.onFaults (fun f => { f with arriving := f.arriving ++ [s.raiseMsg m d a b imm] })).smithWait m
        (.raise (bit imm.toNat 10))))

end Sys2Proof.Machine
end

