-- ==== Sys2Proof/Machine/Programs.lean ====
section
/-! DEFINITION. What the programs of the reference Master Smith image decide (08 R271 to R286, 12 R422 to R429, 13 R447,
R459 to R461, 17 R552 to R554). Each handler is one step: it runs to its end, and the Smith is IDLE again (R273). -/

namespace Sys2Proof.Machine

/-! ### Admission (12 R422 to R427) -/

/-- Owners of the entries of a table: `shadow` names the bank that is not active. -/
def State.tableOwners (s : State) (c : Chan) (shadow : Bool) : List Nat :=
  if shadow then s.anvils[c].owners (!s.slotAct c.val) (s.slen c.val)
  else s.anvils[c].owners (s.slotAct c.val) (s.alen c.val)

/-- ANV_RETRAIN_US.INTERVAL. -/
def State.intervalUs (s : State) (c : Chan) : Nat := s.fld (aRETRAIN c.val) 15 0

/-- The check load of `o` owned slots. -/
def State.checkLoad (s : State) (o : Nat) : Nat := if s.swath then ceilDiv (o * 1032) 1000 else ceilDiv (o * 9) 8

/-- The pause budget B_p of a table of length `l`. -/
def State.pauseBudget (s : State) (c : Chan) (l : Nat) : Nat :=
  if s.intervalUs c = 0 then 0 else ceilDiv (136 * l * 4 * s.tck c) (1000 * s.intervalUs c * unitsPerNs)

/-- The refresh derate D_ref of a table of length `l` (06 R239). -/
def State.refreshDerate (s : State) (c : Chan) (l : Nat) : Nat :=
  ceilDiv (l * 4 * s.tck c * s.anvils[c].m * (s.ranksOf c).length * 8 * s.fld (aREFRESH c.val) 28 26)
    (s.fld (aREFRESH c.val) 11 0 * unitsPerNs) + s.fld (aHAMMER c.val) 20 16

/-- The demand D of a table of length `l` with `o` owned slots. -/
def State.demand (s : State) (c : Chan) (l o : Nat) : Nat := s.checkLoad o + s.pauseBudget c l + s.refreshDerate c l

/-- ADMIT_CAP_PPT / 1,000 of the period slots. -/
def State.fullCapacity (s : State) (l : Nat) : Nat := l * (s.block 6).toNat / 1000

/-- The capacity C: halved at L6 or higher. -/
def State.capacity (s : State) (l : Nat) : Nat := if 6 ≤ s.shed then s.fullCapacity l / 2 else s.fullCapacity l

/-- D and C of the active table of an anvil, the entries of lapsed ports left out but for those of port `p`. -/
def State.activeLoad (s : State) (c : Chan) (p : Option Nat) : Nat × Nat :=
  let o := ((s.tableOwners c false).filter (fun q => !s.lapsed q || p == some q)).length
  (s.demand c (s.alen c.val) o, s.capacity (s.alen c.val))

/-- D and C of the shadow table of an anvil, every owner counted and without the halving (R423). -/
def State.shadowLoad (s : State) (c : Chan) : Nat × Nat :=
  (s.demand c (s.slen c.val) (s.tableOwners c true).length, s.fullCapacity (s.slen c.val))

/-- The guarantee rank of a port (R426). -/
def State.grank (s : State) (p : Nat) : Nat := s.fld (aGRANK (p / 8)) (4 * (p % 8) + 3) (4 * (p % 8))

/-- Every port, most important first (R426). -/
def State.byImportance (s : State) : List Nat :=
  (List.range 16).reverse.flatMap (fun r => (List.range 128).filter (fun p => s.grank p == r))

/-- The least important port that owns a slot of the active table and is not lapsed. -/
def State.lapsable (s : State) (c : Chan) : Option Nat :=
  let own := s.tableOwners c false
  s.byImportance.reverse.find? (fun p => own.contains p && !s.lapsed p)

/-- A LAPSE or RESUME record (15 Table 15.8). -/
def State.lapseRecord (s : State) (resume : Bool) (p : Nat) (w : Nat) : State :=
  s.evqRecord (if resume then 1 else 2) (if resume then 3 else 2) 0x50 0
    [BitVec.ofNat 64 (p + s.grank p * 2 ^ 8 + w % 2 ^ 48 * 2 ^ 16)]

/-- The anvil, D and C as the record holds them. -/
def loadWord (c : Chan) (l : Nat × Nat) : Nat := c.val + l.1 % 2 ^ 16 * 2 ^ 16 + l.2 % 2 ^ 16 * 2 ^ 32

/-- The first anvil with too much demand and a port to lapse (DEDUCED: the lowest-numbered one, log entry 33). -/
def State.overloaded (s : State) : Option (Chan × Nat) :=
  s.popChans.findSome? (fun c =>
    let l := s.activeLoad c none
    if l.2 < l.1 then (s.lapsable c).map (fun p => (c, p)) else none)

/-- The guarantee of port `p` lapses because of anvil `c` (R427). -/
def State.lapsePort (s : State) (c : Chan) (p : Nat) : State :=
  let l := s.activeLoad c none
  ((s.setFlag (aLAPSE (p / 32)) (p % 32) true).send 0x50 0x0F sevInfo 0 (p + s.grank p * 2 ^ 7 + c.val * 2 ^ 11)).lapseRecord
    false p (loadWord c l)

/-- The first loop of R427, at most `n` lapses. -/
def State.lapseAll (s : State) : Nat → State
  | 0 => s
  | n + 1 =>
    match s.overloaded with
    | none => s
    | some (c, p) => State.lapseAll (s.lapsePort c p) n

/-- The guarantee of a lapsed port may resume (R427). -/
def State.mayResume (s : State) (p : Nat) : Bool :=
  s.popChans.all (fun c =>
    let l := s.activeLoad c (some p)
    !(s.tableOwners c false).contains p || decide (l.1 + ceilDiv (s.alen c.val * 20) 1000 ≤ l.2))

/-- The anvil with the largest D - C among some anvils: the most loaded one (DEDUCED, log entry 33). -/
def State.mostLoaded (s : State) (p : Option Nat) (cs : List Chan) : Option Chan :=
  cs.foldl (fun best c =>
    match best with
    | none => some c
    | some b =>
      let x := s.activeLoad b p
      let y := s.activeLoad c p
      if x.1 + y.2 < y.1 + x.2 then some c else some b) none

/-- The guarantee of a lapsed port resumes. The record of a port that owns no slot names a free anvil and load. -/
def State.resumePort (s : State) (p : Nat) : State :=
  let own := s.popChans.filter (fun c => (s.tableOwners c false).contains p)
  let w := match s.mostLoaded (some p) own with
    | some c => loadWord c (s.activeLoad c (some p))
    | none => (s.free 0).toNat
  ((s.drawn 1).setFlag (aLAPSE (p / 32)) (p % 32) false).lapseRecord true p w

/-- A run of the admission program: the lapse state is computed again (R427). -/
def State.admission (s : State) : State :=
  let s := s.lapseAll 128
  (s.byImportance.filter s.lapsed).foldl (fun s p => if s.mayResume p then s.resumePort p else s) s

/-! ### Floor of a port (R424) -/

/-- The longest run of slots, counted cyclically, between two owned slots of a port in a table of length `l`. -/
def longestGap (own : List Nat) (l : Nat) : Nat :=
  match own with
  | [] => l
  | a :: rest =>
    let ends := rest ++ [a + l]
    ((own.zip ends).map (fun e => e.2 - e.1 - 1)).foldl max 0

/-- The indices of the slots of a port in the active table. -/
def State.slotsOf (s : State) (c : Chan) (p : Nat) : List Nat :=
  ((s.anvils[c].bank (s.slotAct c.val)).filter (fun e => decide (e.1 < s.alen c.val) && slotOwner e.2 == some p)).map Prod.fst

/-- The floor of a port in one anvil, in units of 1/2,640 ns. -/
def State.floorIn (s : State) (c : Chan) (p : Nat) : Nat :=
  (longestGap (s.slotsOf c p) (s.alen c.val) + s.burst c.val + 1 + 136) * 4 * s.tck c + 128 * unitsPerNs

/-- The anvil of the largest floor of a port, and the floor. -/
def State.floorOf (s : State) (p : Nat) : Option (Chan × Nat) :=
  (s.popChans.filter (s.ownsSlotOf p)).foldl (fun best c =>
    match best with
    | none => some (c, s.floorIn c p)
    | some b => if b.2 < s.floorIn c p then some (c, s.floorIn c p) else some b) none

/-! ### Retrain interval (08 R280) -/

/-- The smallest of RI_STEWARD, RI_THERMO and RI_TEMPER. -/
def State.riMin (s : State) : Nat := min (min (s.block 1).toNat (s.block 2).toNat) (s.block 3).toNat

/-- A program publishes its choice in word `i` of the status block, and writes the smallest choice to INTERVAL of each populated anvil
that does not hold it. DEDUCED (log entry 33): INTERVAL equals the smallest choice also after a value of host software (01 R45) or
of KINDLE_RUN, and is not written while it does. -/
def State.setri (s : State) (i ri : Nat) : State :=
  let s := s.setBlock i (BitVec.ofNat 32 ri)
  (s.popChans.filter (fun c => s.intervalUs c != s.riMin)).foldl (fun s c =>
    s.retrainWrite c (putBits (s.rd (aRETRAIN c.val)) 15 0 s.riMin)) s

/-! ### Thermo, shed, temper (08 R282, 13 R447, R459 to R461) -/

/-- The thermo program. -/
def State.thermo (s : State) : State :=
  let m := (s.anvils.toList.map Anvil.mult).foldl max 0
  (s.setri 2 (50 / 2 ^ m)).admission

/-- A peer whose level counts (17 R548): a joined one; and one that leaves for BANKED because of L7, which its last heartbeat shows
(DEDUCED, log entry 100). -/
def State.shedPeer (s : State) (i : Fin 4) : Bool :=
  let p := s.gang.peers[i]
  s.joined i || (p.fn.state == .stopping && p.mode.toNat == Mode.banked.code && p.shed.toNat == 7)

/-- The shed level of R282: sag, thermal requests, SHED_FLOOR, and the peers (17 R548). -/
def State.shedTarget (s : State) : Nat :=
  let peers := ((s.peerIds.filter s.shedPeer).map (fun i => s.gang.peers[i].shed.toNat)).foldl max 0
  max (max (s.fld aSAG 2 0) (if s.thermal then 5 else 0)) (max (wbits (s.block 4) 2 0) peers)

/-- The shed program: up at once, down by at most one level per TMP_SAG.DWELL_US (13 R447); admission at each change. -/
def State.shedRun (s : State) : State :=
  let t := s.shedTarget
  let old := s.shed
  let s := if old < t then s.shedWrite t
    else if t < old ∧ s.modes.shedLow + s.dwellNs ≤ s.timebase then s.shedWrite (old - 1)
    else s
  if s.shed = old then s else s.admission

/-- The outputs of the temper program for age `a` and eye flag `e`, none of them relaxed from what the program set before
(Table 13.5); a value that host software has put into a register meanwhile is overwritten (01 R45). -/
def State.temperOutputs (s : State) (a e : Nat) : State :=
  let code := max s.prog.code (min 50 (30 + a / 10))
  let g := max s.prog.guard (min 15 (a / 20 + e))
  let thresh := min s.prog.thresh (max 4 (16 - a / 10))
  let ri := min s.prog.ri (if a < 20 ∧ e = 0 then 50 else if a < 50 then 25 else 12)
  let cap := min s.prog.cap (max 800 (950 - 10 * g))
  let s := s.onProg (fun p => { p with code := code, guard := g, thresh := thresh, ri := ri, cap := cap })
  let s := s.vreqWrite (putBits (s.rd aVREQ) 5 0 code)
  let s := s.popChans.foldl (fun s c =>
    let s := (s.wr (aDERATE c.val) (putBits (putBits (putBits (s.rd (aDERATE c.val)) 3 0 g) 7 4 g) 11 8 g)).timWrite c
    s.setFld (aDRIFT c.val) 9 0 thresh) s
  ((s.setBlock 6 (BitVec.ofNat 32 cap)).setFld aGUARD 7 0 (250 - 5 * code)).setri 3 ri

/-- A fall of GUARD_MV below its floor (13 R461). -/
def State.guardFall (s : State) (was : Nat) : State :=
  let mv := s.fld aGUARD 7 0
  let floor := s.fld aGUARD 15 8
  if mv < floor ∧ floor ≤ was then
    let s := (s.setFlag aGUARD 31 true).send 0x50 0x1B sevInfo 0 mv
    s.evqRecord 2 6 0x50 0 [BitVec.ofNat 64 ((s.rd aGUARD).toNat + (s.rd aAGE).toNat * 2 ^ 32)]
  else s

/-- The eye flag E: the latest measurement of a populated channel found a window below 32 codes (13 R459). -/
def State.eyeFlag (s : State) : Bool :=
  s.popChans.any (fun c => (s.prog.margins.lookup c.val).any (fun w => decide (w < 32)))

/-- The temper program. -/
def State.temperRun (s : State) : State :=
  let was := s.fld aGUARD 7 0
  ((s.temperOutputs (s.fld aAGE 9 0) (b2n s.eyeFlag)).guardFall was).admission

/-- The populated channel that follows channel `n` in channel order (13 R459). -/
def State.chanAfter (s : State) (n : Nat) : Option Chan :=
  match s.popChans.find? (fun c => decide (n < c.val)) with
  | some c => some c
  | none => s.popChans.head?

/-- Temper measures one channel per round, in channel order, in the modes that MARGIN serves (13 R459; DEDUCED, log entry
85: on every rank). -/
def State.temperMeasure (s : State) : State :=
  match s.chanAfter s.prog.measured with
  | some c =>
    if s.inService then (s.onProg (fun p => { p with measured := c.val })).order c (.margin (s.rankNos c) false) else s
  | none => s

/-! ### Steward (08 R281) -/

/-- The samples of ANV_QSTAT of a tick, WRQ and RDQ: what the queues hold now, and seven free samples within their sizes, because
the queues go on changing while the handler takes them and the handler is one step (log entry 32). -/
def State.qSamples (s : State) (c : Chan) : List (Nat × Nat) :=
  (wbits (s.aqstat c) 14 8, wbits (s.aqstat c) 7 0) ::
    (List.range 7).map (fun i => ((s.free (14 * c.val + 2 * i)).toNat % 97, (s.free (14 * c.val + 2 * i + 1)).toNat % 161))

/-- What a program wrote last to a field of channel `c`; `d` before its first write. Host software's value is overwritten at the next
run (01 R45). -/
def lastOf (l : List (Nat × Nat)) (c : Chan) (d : Nat) : Nat := (l.lookup c.val).getD d

/-- A program remembers what it writes. -/
def noteLast (l : List (Nat × Nat)) (c : Chan) (x : Nat) : List (Nat × Nat) := (c.val, x) :: l.filter (fun e => e.1 != c.val)

/-- The write watermarks of one anvil (Table 8.8). -/
def State.stewardWm (s : State) (c : Chan) : State :=
  let l := s.qSamples c
  let high := lastOf s.prog.high c 72
  let full := l.filter (fun x => decide (high ≤ x.1 ∧ 80 ≤ x.2))
  let new := if l.any (fun x => decide (92 ≤ x.1)) then high - 8 else if 4 ≤ full.length then high + 4 else high
  let new := max 48 (min 88 new)
  (s.onProg (fun p => { p with high := noteLast p.high c new })).wmWrite c (putBits (putBits (s.rd (aWM c.val)) 6 0 new) 14 8 (new / 3))

/-- How far a counter has come over the readings of it, newest first. The 16 readings of LFT_PF in a tick make the sums
that the handler keeps exact (10 Prefetch), so that they need no modulus. -/
def countSteps (l : List Nat) : Nat := l.headD 0 - l.getLastD 0

/-- The prefetch depth of one slice, from the readings of the last ticks. -/
def State.stewardPf (s : State) (c : Chan) : State :=
  let reads := s.prog.pf.map (fun l => l.getD c.val (0, 0))
  let used := countSteps (reads.map Prod.fst)
  let issued := countSteps (reads.map Prod.snd)
  let d := lastOf s.prog.depth c 4
  let new := if issued = 0 then d else if 3 * issued ≤ 4 * used then min 8 (d + 1) else if 4 * used ≤ issued then max 1 (d - 1) else d
  (s.onProg (fun p => { p with depth := noteLast p.depth c new })).setFld (aPF c.val) 3 0 new

/-- LAST_PPT and THRESH_PPT of every populated anvil. -/
def State.drifts (s : State) : List (Nat × Nat) :=
  s.popChans.map (fun c => (s.fld (aDRIFT c.val) 25 16, s.fld (aDRIFT c.val) 9 0))

/-- RI_STEWARD: halved at a drift above threshold, doubled after 64 calm ticks, within the bounds. -/
def State.stewardRi (s : State) : State :=
  let ri := (s.block 1).toNat
  let high := s.drifts.any (fun d => decide (d.2 < d.1))
  let calm := if s.drifts.all (fun d => decide (d.1 ≤ d.2 / 4)) then s.prog.calm + 1 else 0
  let new := if high then ri / 2 else if 64 ≤ calm then 2 * ri else ri
  let lo := wbits s.prog.bounds 15 0
  let hi := wbits s.prog.bounds 31 16
  let s := { s with prog := { s.prog with calm := if 64 ≤ calm then 0 else calm } }
  s.setri 1 (max lo (min hi new))

/-- The steward program at a tick. -/
def State.stewardTick (s : State) : State :=
  let s := { s with prog := { s.prog with pf := (s.slices.toList.map (fun l => (l.used, l.issued)) :: s.prog.pf).take 17 } }
  let s := if bit s.prog.knobs.toNat 0 then (s.popChans.foldl (fun s c => s.stewardWm c) s).drawn 336 else s
  let s := if bit s.prog.knobs.toNat 1 && s.shed == 0 then s.popChans.foldl (fun s c => s.stewardPf c) s else s
  if bit s.prog.knobs.toNat 2 then s.stewardRi else s

/-! ### Event records (15 Table 15.8, 17 Table 17.6) -/

/-- Two registers as one word of a record. -/
def State.pairWord (s : State) (lo hi : Nat) : BitVec 64 := BitVec.ofNat 64 ((s.rd lo).toNat + (s.rd hi).toNat * 2 ^ 32)

/-- The CMDERR record of event 7: the lowest-numbered anvil with an error (DEDUCED, log entry 33). -/
def State.cmderrRecord (s : State) : State :=
  match allChans.find? (fun c => s.flag (aCMDERR c.val) 31) with
  | none => s
  | some c =>
    s.evqRecord 2 4 0x50 c.val [BitVec.ofNat 64 ((s.rd (aCMDERR c.val)).toNat + (s.aqstat c).toNat * 2 ^ 32)]

/-- The FIRST record of event 8. -/
def State.firstRecord (s : State) : State :=
  s.evqRecord 3 5 0x50 0 [s.pairWord (aFIRST 0) (aFIRST 1), s.pairWord (aFIRST 2) aMODE]

/-- The record of one peer that has joined or departed since the gang program last looked. -/
def State.peerRecord (s : State) (i : Fin 4) : State :=
  let was := bit s.prog.seen.toNat i.val
  if s.joined i && !was then
    s.evqRecord 1 0x10 0x50 i.val [BitVec.ofNat 64 (s.digest + s.gngStat.toNat * 2 ^ 32)]
  else if !s.joined i && was then
    s.evqRecord 2 0x11 0x50 i.val [BitVec.ofNat 64 (s.gngPeer.toNat + s.digest * 2 ^ 32)]
  else s

/-- The joined peer with the largest skew. -/
def State.worstPeer (s : State) : Option (Fin 4) :=
  s.joinedPeers.find? (fun i => s.joinedPeers.all (fun j => decide (s.gang.peers[j].magnitude ≤ s.gang.peers[i].magnitude)))

/-- The SKEW and RESYNC records. -/
def State.skewRecord (s : State) : State :=
  let now := s.flag aSKEW 31
  if now && !s.prog.susp then
    match s.worstPeer with
    | none => s
    | some i =>
      s.evqRecord 2 0x12 0x50 i.val
        [BitVec.ofNat 64 ((BitVec.ofInt 32 s.gang.peers[i].skew).toNat + (s.rd aSKEW).toNat * 2 ^ 32)]
  else if !now && s.prog.susp then s.evqRecord 1 0x13 0x50 0 []
  else s

/-! ### Gang-wide commits (17 R552, R553) -/

/-- A message of the gang program goes to the peers of a mask. -/
def State.gangSend (s : State) (mask : Nat) (lo hi : Word) : State :=
  ((s.setFld aGNG_CTL 3 0 mask).onGang (fun g => { g with txLo := lo })).sendSmith hi

/-- The upper word of a message (R552). -/
def gangHi (type anvil refuse d c : Nat) : Word :=
  BitVec.ofNat 32 (type * 2 ^ 28 + anvil * 2 ^ 23 + refuse * 2 ^ 22 + d % 2 ^ 11 * 2 ^ 11 + c % 2 ^ 11)

/-- The mask of the joined peers. -/
def State.joinedMask (s : State) : Nat := (s.joinedPeers.map (fun i => 2 ^ i.val)).sum

/-- The refusal of a commit raises fault 0x10 (12 R423). -/
def State.overbooked (s : State) (detail : Nat) : State := s.send 0x50 0x10 sevInfo 0 detail

/-- The T within 4 s ahead that shares T[31:0] (R553); with none there, the one before the timebase, which is late. -/
def State.sharedT (s : State) (lo : Nat) : Nat :=
  let d := (lo + 2 ^ 32 - s.timebase % 2 ^ 32) % 2 ^ 32
  if d ≤ 4000000000 then s.timebase + d else s.timebase + d - 2 ^ 32

/-- COMMIT: the peer issues SLC, and tells the originator of a LATE. DESIGN CHOICE (log entry 101): by a further VOTE with REFUSE, because
the layout of R552 names no other message. -/
def State.peerCommit (s : State) (c : Chan) (peer : Nat) (lo : Word) : State :=
  let r := s.commit c (s.sharedT lo.toNat)
  if r.1 = 1 then r.2.gangSend (2 ^ peer) lo (gangHi 2 c.val 1 0 0) else r.2

/-- The gang program handles one message of a peer: PREPARE is voted on, COMMIT commits. -/
def State.gangMsg (s : State) (m : BitVec 64 × BitVec 2) : State :=
  let hi : Word := (m.1 >>> 32).setWidth 32
  let lo : Word := m.1.setWidth 32
  if h : wbits hi 27 23 < 24 then
    let c : Chan := ⟨wbits hi 27 23, h⟩
    match wbits hi 31 28 with
    | 1 =>
      let l := s.shadowLoad c
      let s := s.admission
      let s := if l.2 < l.1 then s.overbooked c.val else s
      s.gangSend (2 ^ m.2.toNat) lo (gangHi 2 c.val (b2n (decide (l.2 < l.1))) l.1 l.2)
    | 3 => s.peerCommit c m.2.toNat lo
    | _ => s
  else s

/-- The gang program at event 9: records, messages, and the shed level of the gang (08 Table 8.1). -/
def State.gangRun (s : State) : State :=
  let s := (s.peerIds.foldl (fun s i => s.peerRecord i) s).skewRecord
  let s := { s with prog := { s.prog with seen := BitVec.ofNat 4 s.joinedMask, susp := s.flag aSKEW 31 } }
  let ms := s.gang.fifo
  let s := s.onGang (fun g => { g with fifo := [] })
  (ms.foldl (fun s m => s.gangMsg m) s).shedRun

end Sys2Proof.Machine
end

