-- ==== Sys2Proof/Machine/Mailbox.lean ====
section
/-! DEFINITION. The mailbox commands as the reference images carry them out (08 R272 to R287), and the dispatch of events
(02 R61, R62). -/

namespace Sys2Proof.Machine

/-- What the surroundings tell a mailbox command: the upper words of the VOTE messages and whether a peer committed late (17
R553), and the control messages that the links bring before it answers (17 R543); none where they come later. -/
structure Told where
  votes   : List (Fin 4 × Word)
  late    : Bool
  heard   : Option (List (Fin 3 × BitVec 128))
deriving DecidableEq, Repr

/-- Nothing is told. -/
def Told.nothing : Told := { votes := [], late := false, heard := some [] }

/-- What a command meets when it is dispatched with nothing told: free votes (log entry 4), and links that answer later. -/
def State.toldFree (s : State) : Told :=
  { votes := (s.joinedPeers.filter (fun i => bit (s.free 1).toNat i.val)).map (fun i => (i, (s.free (2 + i.val)).setWidth 32)),
    late := bit (s.free 1).toNat 8, heard := none }

/-- What a command answers: RESULT, or none while the Anvil Smiths do its work (R273), and the state with its ARG results. -/
abbrev Answer := Option Nat × State

/-- SMI_MBOX_ARGn. -/
def State.arg (s : State) (n : Nat) : Word := s.rd (aMBOX_ARG n)

/-- The Master Smith writes SMI_MBOX_ARGn. -/
def State.setArg (s : State) (n v : Nat) : State := s.wr (aMBOX_ARG n) (BitVec.ofNat 32 v)

/-- DONE. -/
def State.done (s : State) : Answer := (some 0, s)

/-- The command answers later, from event 0, 1 or 12. -/
def State.later (s : State) (t : Task) : Answer := (none, s.onProg (fun p => { p with task := some t }))

/-- The answer is written in one CSRW of SMI_MBOX_STATUS, with SEQ of the command (R276). -/
def State.mboxReply (r : Answer) : State :=
  match r.1 with
  | none => r.2
  | some n => (r.2.onProg (fun p => { p with task := none })).mboxStatus (BitVec.ofNat 32 (wbits (r.2.rd aMBOX_CMD) 15 8 * 2 ^ 16 + n))

/-! ### KINDLE_RUN (R278, R283, 07 R255 to R257, 19 R579, R580) -/

/-- The PLL of a hearth is switched to set point `n` and locks (07 R244). -/
def State.kindlePll (s : State) (h : HearthId) (n : Nat) : State :=
  let c := firstChan h
  s.pllWrite c (putBits (putBits (s.rd (aPLL c.val)) 8 8 1) 5 4 n)

/-- Timing values: the spec prints none that every DRAM takes, so they are free (log entry 4). -/
def State.kindleTiming (s : State) (c : Chan) : State :=
  (((List.range 8).foldl (fun s n => s.typed (aTIM c.val n) ((s.free n).setWidth 32)) s).timWrite c).drawn 8

/-- Refresh of a channel starts after its ZQ calibration (06 R215), with free values (log entry 4). -/
def State.kindleRefresh (s : State) (c : Chan) : State :=
  (s.refreshWrite c (putBits ((s.free 0).setWidth 32) 31 31 1)).drawn 1

/-- Every rank of a channel leaves self-refresh by SRX, takes its set point, and clears its segment mask (07 R246, R270). -/
def State.wakeRanks (s : State) (c : Chan) : State :=
  (s.rankNos c).foldl (fun s r =>
    ((s.onAnvil c (fun v => v.push7 (plainCmd .srx r 0 0 .close))).progFsp c r (s.fsp c)).progMrw c r Config.mrPasr 0) s

/-- Under RETAIN the ranks of a channel leave self-refresh (19 R580, 06 R216). -/
def State.kindleWake (s : State) (c : Chan) : State := if s.flag aMODE 27 then s.wakeRanks c else s

/-- The channels that kindle brings up: every populated one whose checker self-test has passed (R271, log entry 32). -/
def State.kindleChans (s : State) : List Chan := s.popChans.filter (fun c => !s.keptOff c.val)

/-- TRAINEDn of a hearth: every populated channel has been trained, and none has failed (07 R247, R257). -/
def State.kindleTrained (s : State) (n : Nat) (failed : List Chan) (h : HearthId) : State :=
  let cs := (hearthChans h).filter (fun c => s.populated c.val)
  if cs.all (fun c => s.kindleChans.contains c && !failed.contains c) then s.setFlag (aFSP (firstChan h).val) (16 + n) true else s

/-- The status block after kindle (Table 8.7). RI_TEMPER and ADMIT_CAP_PPT do not rise above what temper has set since RST_N (13
R459; DEDUCED, log entry 33). -/
def State.kindleBlock (s : State) : State :=
  (((s.setBlock 1 50).setBlock 2 50).setBlock 3 (BitVec.ofNat 32 s.prog.ri)).setBlock 6 (BitVec.ofNat 32 s.prog.cap)

/-- The hearths with a populated channel. -/
def State.liveHearths (s : State) : List HearthId :=
  (List.finRange 4).filter (fun h => (hearthChans h).any (fun c => s.populated c.val))

/-- The answer of KINDLE_RUN: the failed channels, and HTH_TSTAT of the lowest one. -/
def State.kindleAnswer (s : State) (failed : List Chan) : Answer :=
  let bad := allChans.filter failed.contains
  let s := s.setArg 0 (bad.map (fun c => 2 ^ c.val)).sum
  match bad.head? with
  | none => ((s.setArg 1 (s.free 0).toNat).drawn 1).done
  | some c => (some 7, s.setArg 1 (s.rd (aTSTAT c.val)).toNat)

/-- Every hearth runs at set point `n`. -/
def State.kindlePoint (s : State) (n : Nat) : State := s.liveHearths.foldl (fun s h => s.kindlePll h n) s

/-- The frequency change: the set point goes to the mode register of every rank, and the PLLs switch (07 R246). -/
def State.kindleChange (s : State) (n : Nat) : State :=
  (s.kindleChans.foldl (fun s c => (s.rankNos c).foldl (fun s r => s.progFsp c r n) s) s).kindlePoint n

/-- Training is done: the set point for service, the timing and RFM values, the restore, the status block and the credentials. -/
def State.kindleEnd (s : State) (failed : List Chan) : Answer :=
  let a := s.arg 0
  let s := s.kindleChange (wbits a 5 4)
  let s := s.kindleChans.foldl (fun s c => s.kindleTiming c) s
  let s := (s.rfmWrite ((s.free 0).setWidth 32)).drawn 1
  let s := if wbit a 8 then s.restoreAll false else s
  s.kindleBlock.exchange.kindleAnswer failed

/-- The set points still to train: each channel that has not failed trains the next one through its Anvil Smith (07 R255). -/
def State.kindleNext (s : State) (failed : List Chan) (limit : Nat) : List Nat → Answer
  | [] => s.kindleEnd failed
  | n :: rest =>
    let s := s.kindleChange n
    match s.kindleChans.filter (fun c => !failed.contains c) with
    | [] => State.kindleNext s failed limit rest
    | cs => (cs.foldl (fun s c => s.order c (.train n)) s).later (.kindle rest n cs failed limit)

/-- The PLL of a channel is locked and its checker self-test has ended (08 R271), and its DRAM has been out of reset for 2 ms, or was
held in self-refresh through the reset (19 R579, R580). -/
def State.dramReady (s : State) (c : Chan) : Bool :=
  s.pllLock c && !s.anvils[c].testing && s.anvils[c].resetN &&
  (s.flag aMODE 27 || decide (s.anvils[c].resetAt + 2000000 ≤ s.timebase))

/-- The first commands of kindle: SRX under RETAIN, and the first set point (19 Table 19.4). -/
def State.kindleBring (s : State) (limit : Nat) (points : List Nat) : Answer :=
  (s.kindleChans.foldl (fun s c => s.kindleWake c) s).kindleNext [] limit points

/-- RESET_n of a channel is released 200 µs after LOCK of its hearth, unless it is high (19 R579). -/
def State.releaseReset (s : State) (c : Chan) : State :=
  if !s.anvils[c].resetN && s.flag (aPLL c.val) 31 && decide (s.hearths[hearthOf c].lockAt + 200000 ≤ s.timebase) then
    s.onAnvil c (fun v => { v with resetN := true, resetAt := s.timebase, mrs := [] })
  else s

/-- KINDLE_RUN goes on once every channel has settled. -/
def State.kindleSettle (s : State) (points : List Nat) (limit : Nat) : State :=
  let s := s.kindleChans.foldl (fun s c => s.releaseReset c) s
  if s.kindleChans.all s.dramReady then State.mboxReply (s.kindleBring limit points) else s

/-- KINDLE_RUN with its fields in range: the PLLs lock, and the DRAM settles after its reset. -/
def State.kindleRun (s : State) : Answer :=
  if s.layoutOf masterSmith != s.layoutOf 0 then (some 8, s)
  else
    let points := (List.range 3).filter (bit (wbits (s.arg 0) 2 0))
    let limit := s.timebase + 10000000 * points.length
    let s := s.kindlePoint (points.headD 0)
    if s.kindleChans.all s.dramReady then s.kindleBring limit points else s.later (.settle points limit)

/-! ### SLOT_COMMIT (12 R423, 17 R553) -/

/-- RESULT for what SLC returned (02 R87, Table 8.6). -/
def slcResult (r : Nat) (late : Bool) : Nat := if r = 2 then 6 else if r = 1 ∨ late = true then 5 else 0

/-- The commit itself. -/
def State.slc (s : State) (c : Chan) (t : Nat) (late : Bool) : Answer :=
  let r := s.commit c t
  (some (slcResult r.1 late), r.2)

/-- ARG0 and ARG1 return a demand and a capacity. -/
def State.setLoad (s : State) (l : Nat × Nat) : State := (s.setArg 0 l.1).setArg 1 l.2

/-- D and C of a VOTE, and whether it refuses (17 R552). -/
def voteLoad (w : Word) : Nat × Nat := (wbits w 21 11, wbits w 10 0)

/-- The load with the largest D - C. -/
def worstLoad (l : Nat × Nat) (ls : List (Nat × Nat)) : Nat × Nat :=
  ls.foldl (fun a b => if a.1 + b.2 < b.1 + a.2 then b else a) l

/-- A gang-wide commit with D ≤ C here: PREPARE, the votes, and COMMIT; a refusal raises fault 0x10 (Table 8.6). -/
def State.gangCommit (s : State) (c : Chan) (at64 : Nat) (l : Nat × Nat) (t : Told) : Answer :=
  let lo : Word := BitVec.ofNat 32 at64
  let s := s.gangSend s.joinedMask lo (gangHi 1 c.val 0 0 0)
  if s.joinedPeers.all (fun i => (t.votes.lookup i).isSome) then
      let votes := s.joinedPeers.filterMap (fun i => t.votes.lookup i)
      if votes.any (fun w => wbit w 22) then (some 4, (s.overbooked c.val).setLoad (worstLoad l (votes.map voteLoad)))
      else (s.gangSend s.joinedMask lo (gangHi 3 c.val 0 0 0)).slc c at64 t.late
  else (some 9, s)

/-- SLOT_COMMIT with its fields in range: D and C are returned in every case (12 R423). A gang-wide one answers GANG_SKEW while SUSP is 1,
before anything is judged (17 R553). -/
def State.slotCommit (s : State) (t : Told) : Answer :=
  let a := s.arg 0
  let c := chanOf (wbits a 4 0)
  let at64 := (s.arg 1).toNat + (s.arg 2).toNat * 2 ^ 32
  let l := s.shadowLoad c
  let s := s.admission.setLoad l
  if wbit a 8 && s.flag aSKEW 31 then (some 0x0A, s)
  else if l.2 < l.1 then (some 4, s.overbooked c.val)
  else if wbit a 8 then s.gangCommit c at64 l t
  else s.slc c at64 false

/-! ### SET_TARGET (12 R424, 11 R397) -/

/-- A target below the floor of the port is refused; a target of 0 is none (DEDUCED, log entry 33). -/
def State.belowFloor (s : State) (p ns : Nat) : Option Chan :=
  match s.floorOf p with
  | none => none
  | some (c, f) => if 0 < ns ∧ ns * unitsPerNs < f then some c else none

/-- SET_TARGET with its fields in range. -/
def State.setTarget (s : State) : Answer :=
  let p := wbits (s.arg 0) 6 0
  let units := ceilDiv (s.arg 1).toNat 64
  let low := s.belowFloor p (64 * units)
  let s := match low with
    | some c => s.overbooked (c.val + p * 2 ^ 5 + 2 ^ 12)
    | none => s.setFld (aLabel p (wbits (s.arg 0) 12 8) 1) 31 24 units
  let s := s.admission
  let l := ((s.mostLoaded none s.popChans).map (fun c => s.activeLoad c none)).getD (0, 0)
  (some (if low.isSome then 4 else 0), s.setLoad l)

/-! ### The other commands -/

/-- PING. -/
def State.ping (s : State) : Answer :=
  ((((s.setArg 0 (s.rd aVER_MS).toNat).setArg 1 (s.rd aVER_AS).toNat).setArg 2 (s.rd aMODE).toNat).setArg 3
    (s.block 5).toNat).done

/-- SHED_FLOOR. -/
def State.shedFloor (s : State) : Answer :=
  let s := (s.setBlock 4 (BitVec.ofNat 32 (wbits (s.arg 0) 2 0))).shedRun
  (s.setArg 0 (s.rd aSHED).toNat).done

/-- STEWARD. -/
def State.steward (s : State) : Answer :=
  let new : Prog := { s.prog with knobs := (s.arg 0).setWidth 3, bounds := s.arg 1 }
  (({ s with prog := new }.setArg 0 s.prog.knobs.toNat).setArg 1 s.prog.bounds.toNat).done

/-- TEMPER_NOW: a run on the last Temper round, which orders no measurement of its own. -/
def State.temperNow (s : State) : Answer :=
  let s := s.temperRun
  (s.setArg 0 (s.rd aGUARD).toNat).done

/-- A control message that a link brings during GANG_REJOIN. -/
def State.hear (s : State) (e : Fin 3 × BitVec 128) : State :=
  let s := s.onLink e.1 (fun l => { l with ctrl := l.ctrl ++ [e.2] })
  let s := s.takeCredentials e.1
  let s := s.takeHeartbeat e.1
  s.peerSeen (s.linkPeer e.1)

/-- GANG_REJOIN answers with the instances that have joined, and GANG_DISAGREE where a peer has answered with a different digest or
version (Table 8.6). -/
def State.rejoinAnswer (s : State) : Answer :=
  (some (if s.gang.differs = 0 then 0 else 9), s.setArg 0 (wbits s.gngStat 7 4))

/-- GANG_REJOIN: the exchange (17 R543), and the answer, or the wait for it of 1 ms (Table 8.5). -/
def State.gangRejoin (s : State) (t : Told) : Answer :=
  match t.heard with
  | some l => (l.foldl (fun s e => s.hear e) s.exchange).rejoinAnswer
  | none => s.exchange.later (.rejoin (s.timebase + 1000000))

/-- MARGIN: the Anvil Smith of the channel measures, one code position per pause (Table 8.5). -/
def State.margin (s : State) : Answer :=
  let a := s.arg 0
  let c := chanOf (wbits a 4 0)
  (s.order c (.margin [wbits a 8 8] true)).later (.margin c (s.timebase + 20000000))

/-- The Master Smith parks itself: it enables event 2 alone and SMI_STATE1.PARK is set (R285). -/
def State.parkMaster (s : State) : State :=
  ((s.onSmith masterSmith (fun h => { h with evmask := 4 })).setFlag aSTATE1 18 true).setBlock 5 (putBits (s.block 5) 0 0 1)

/-- Every Anvil Smith that PARK names is parked: PARKED, then the Master Smith where it is named too. -/
def State.parkEnd (s : State) : Answer :=
  let a := s.arg 0
  let s := if wbit a 1 then s.setBlock 5 (putBits (s.block 5) 1 1 1) else s
  let s := if wbit a 0 then s.parkMaster else s
  (s.setArg 0 (s.block 5).toNat).done

/-- PARK: each Anvil Smith that runs receives a flag and a SIG; one that is STOPPED has nothing to lose (R285). -/
def State.park (s : State) : Answer :=
  if !wbit (s.arg 0) 1 then s.parkEnd
  else
    match allChans.filter (fun c => s.smiths[anvilSmith c].run != .stopped) with
    | [] => s.parkEnd
    | cs => (cs.foldl (fun s c => s.order c .park) s).later (.park cs (s.timebase + 2000000))

/-! ### Reports and deadlines (R272, R273, R279) -/

/-- The smallest window of a measurement is remembered for temper (13 R459). -/
def State.noteMargin (s : State) (c : Chan) (w : Nat × Nat × Nat) : State :=
  s.onProg (fun p => { p with margins := (c.val, min w.1 (min w.2.1 w.2.2)) :: p.margins.filter (fun e => e.1 != c.val) })

/-- A report meets the waiting command. -/
def Task.hear (t : Task) (c : Chan) (r : Report) : Task :=
  match t, r with
  | .kindle rest n waiting failed limit, .trained pass =>
    if waiting.contains c then .kindle rest n (waiting.erase c) (if pass then failed else failed ++ [c]) limit else t
  | .park waiting limit, .parked => .park (waiting.erase c) limit
  | _, _ => t

/-- KINDLE_RUN waits for the training of its channels. -/
def State.kindling (s : State) : Bool :=
  match s.prog.task with
  | some (.kindle ..) => true
  | _ => false

/-- One report of an Anvil Smith: refresh starts once a channel is calibrated, a measurement is remembered, and that of MARGIN answers
the command. -/
def State.takeReport (s : State) (e : Chan × Report) : State :=
  let s := s.onProg (fun p => { p with task := p.task.map (fun t => t.hear e.1 e.2) })
  match e.2 with
  | .calibrated => if s.kindling && !s.flag (aREFRESH e.1.val) 31 then s.kindleRefresh e.1 else s
  | .margin w mail =>
    let s := s.noteMargin e.1 w
    match s.prog.task with
    | some (.margin c _) =>
      if mail = true ∧ c = e.1 then State.mboxReply (((s.setArg 0 w.1).setArg 1 w.2.1).setArg 2 w.2.2).done else s
    | _ => s
  | _ => s

/-- A command whose last report has come goes on or is answered. -/
def State.taskDone (s : State) : State :=
  match s.prog.task with
  | some (.kindle rest n [] failed limit) =>
    State.mboxReply ((s.liveHearths.foldl (fun s h => s.kindleTrained n failed h) s).kindleNext failed limit rest)
  | some (.park [] _) => State.mboxReply s.parkEnd
  | _ => s

/-- The end of the time of a waiting command. -/
def Task.limit : Task → Nat
  | .kindle _ _ _ _ limit => limit
  | .margin _ limit => limit
  | .park _ limit => limit
  | .settle _ limit => limit
  | .rejoin limit => limit

/-- A MARGIN measurement is called off: its order is withdrawn, and its program ends at its next step. -/
def State.cancelMargin (s : State) (c : Chan) : State :=
  let s := s.onProg (fun p => { p with orders := upd p.orders c (List.filter (fun o => match o with
    | .margin _ mail => !mail
    | _ => true)) })
  s.onJob c (fun j => if j.kind = .margin true then { j with cancelled := true } else j)

/-- A waiting command is answered TIMEOUT; GANG_REJOIN, whose wait is for peers that need not answer, with what has come. -/
def State.taskTimeout (s : State) (t : Task) : State :=
  let s := match t with
    | .margin c _ => s.cancelMargin c
    | .settle _ _ | .rejoin _ => s
    | .kindle _ _ cs _ _ => s.onProg (fun p => { p with orders := cs.foldl (fun o c => upd o c (fun _ => [])) p.orders })
    | .park cs _ => s.onProg (fun p => { p with orders := cs.foldl (fun o c => upd o c (List.filter (· != Order.park))) p.orders })
  match t with
  | .rejoin _ => State.mboxReply s.rejoinAnswer
  | _ => State.mboxReply (some 0x0B, s)

/-- A GANG_REJOIN that waits is answered at once where a peer has disagreed (event 9, Table 8.2). -/
def State.rejoinHeard (s : State) : State :=
  match s.prog.task with
  | some (.rejoin _) => if s.gang.differs = 0 then s else State.mboxReply s.rejoinAnswer
  | _ => s

/-- The time of a waiting command has passed (R279). The handlers of events 0 and 1 look at it (log entry 32). -/
def State.taskClock (s : State) : State :=
  match s.prog.task with
  | some t =>
    if t.limit < s.timebase then s.taskTimeout t
    else
      match t with
      | .settle points limit => s.kindleSettle points limit
      | _ => s
  | none => s

/-- Event 1: the reports that have come are collected, then the waiting command goes on (Table 8.2). -/
def State.collect (s : State) : State :=
  let rs := s.prog.reports
  (rs.foldl (fun s e => s.takeReport e) (s.taskClock.onProg (fun p => { p with reports := [] }))).taskDone

/-- Event 12 cancels a MARGIN command in progress (Table 8.2). -/
def State.cancelTask (s : State) : State :=
  match s.prog.task with
  | some (.margin c limit) => s.taskTimeout (.margin c limit)
  | _ => s

/-! ### The handlers of the reference Anvil Smith image (Table 8.2) -/

/-- An Anvil Smith is parked: it ends a pause it holds, enables event 1 alone and tells the Master Smith (R285). -/
def State.parkAnvil (s : State) (c : Chan) : State :=
  ((s.jobRelease c).onSmith (anvilSmith c) (fun h => { h with evmask := 2 })).report c .parked

/-- The bank-out program: SRX of every rank, the set point, the segment masks cleared, and the short retraining (R443, 07 R246, R258,
R270); training in full where the delay store was not restored (16 Table 16.2). -/
def State.bankOutAnvil (s : State) (c : Chan) : State :=
  if s.modes.step != .bankOut || !s.populated c.val then s
  else
    let lost := s.anvils[c].dlyLost
    let s := (s.wakeRanks c).onAnvil c (fun v => { v with dlyLost := false })
    if lost then (s.trainStart c (s.fsp c)).jobBegin c (freshJob (.train (s.fsp c)) (trainSteps (s.rankNos c)))
    else s.jobBegin c (freshJob .bankOut (bankOutSteps (s.rankNos c)))

/-- One order of the Master Smith (Table 8.1). -/
def State.carryOut (s : State) (c : Chan) (o : Order) : State :=
  match o with
  | .train n => (s.trainStart c n).jobBegin c (freshJob (.train n) (trainSteps (s.rankNos c)))
  | .margin ranks mail => s.jobBegin c (freshJob (.margin mail) (marginSteps ranks))
  | .park => s.parkAnvil c
  | .bankIn => s.bankInAnvil c
  | .bankOut => s.bankOutAnvil c

/-- Event 1: the oldest order is carried out; a further one sets event 1 again. -/
def State.takeOrder (s : State) (c : Chan) : State :=
  match s.prog.orders[c] with
  | [] => s
  | o :: rest =>
    let s := s.onProg (fun p => { p with orders := p.orders.set c rest })
    (if rest.isEmpty then s else s.event (anvilSmith c) 1).carryOut c o

/-- The handlers of the reference Anvil Smith image. On an unpopulated channel, which has no DRAM command to issue (04 R152), they do
nothing. Event 3 finds the delay store restored already (log entry 23); the bank-out step follows by order of a reference Master Smith
image, and with another one from this event (DEDUCED, log entry 102). -/
def State.handleAnvil (s : State) (c : Chan) (n : Nat) : State :=
  if n != 1 && !s.populated c.val then s
  else
  match n with
  | 1 => s.takeOrder c
  | 3 => if s.imageMS.reference then s else s.bankOutAnvil c
  | 6 => s.jobBegin c (freshJob .retrain (retrainSteps (s.rankNos c)))
  | 12 => s.jobRelease c
  | _ => s

/-! ### The dispatcher (R278) -/

/-- The modes in which a command is carried out (Table 8.5). -/
def mboxModes (code : Nat) (m : Mode) : Bool :=
  let service := m == .forge || m == .lowfire
  match code with
  | 0x01 => true
  | 0x02 => m == .kindle
  | 0x05 | 0x0B => m == .kindle || service
  | 0x07 => m != .cold && m != .quench
  | _ => service

/-- The bits of ARG0 that a command reads. -/
def mboxBits (code : Nat) : Word :=
  match code with
  | 0x02 => 0x137
  | 0x04 => 0x11F
  | 0x05 => 0x1F7F
  | 0x06 => 0x7
  | 0x07 => 0x7
  | 0x0A => 0x11F
  | 0x0B => 0x3
  | _ => 0xFFFFFFFF

/-- A bound of RI_STEWARD. -/
def boundGood (n : Nat) : Bool := decide (10 ≤ n ∧ n ≤ 65535)

/-- The arguments of a command are in range (Table 8.5, 11 R397, 19 R580). -/
def State.argsGood (s : State) (code : Nat) : Bool :=
  let a := s.arg 0
  (a &&& ~~~ mboxBits code == 0) &&
  (match code with
    | 0x02 => bit (wbits a 2 0) (wbits a 5 4) && (!wbit a 8 || s.flag aMODE 27)
    | 0x04 | 0x0A => decide (wbits a 4 0 < 24)
    | 0x05 => decide ((s.arg 1).toNat ≤ 16320)
    | 0x06 => decide (wbits a 2 0 ≤ 6)
    | 0x07 => boundGood (wbits (s.arg 1) 15 0) && boundGood (wbits (s.arg 1) 31 16)
    | _ => true)

/-- The codes of Table 8.5. -/
def mboxCodes : List Nat := [0x01, 0x02, 0x04, 0x05, 0x06, 0x07, 0x08, 0x09, 0x0A, 0x0B]

/-- A command that is carried out. -/
def State.mboxCarry (s : State) (code : Nat) (t : Told) : Answer :=
  match code with
  | 0x01 => s.ping
  | 0x02 => s.kindleRun
  | 0x04 => s.slotCommit t
  | 0x05 => s.setTarget
  | 0x06 => s.shedFloor
  | 0x07 => s.steward
  | 0x08 => s.temperNow
  | 0x09 => s.gangRejoin t
  | 0x0A => s.margin
  | _ => s.park

/-- The answer to a command: a parked Master Smith refuses all but PING (R285); else the code, the mode and the
arguments are judged in this order (DEDUCED, log entry 33). -/
def State.mboxAnswer (s : State) (code : Nat) (t : Told) : Answer :=
  if wbit (s.block 5) 0 && code != 1 then (some 3, s)
  else if !mboxCodes.contains code then (some 1, s)
  else if !mboxModes code s.modes.mode then (some 3, s)
  else if !s.argsGood code then (some 2, s)
  else s.mboxCarry code t

/-- The mailbox dispatcher. -/
def State.mboxHandler (s : State) (t : Told) : State := State.mboxReply (s.mboxAnswer (wbits (s.rd aMBOX_CMD) 7 0) t)

/-! ### Dispatch (02 R61, R62; 08 Table 8.2) -/

/-- The handlers of the reference Master Smith image. -/
def State.handle (s : State) (n : Nat) : State :=
  match n with
  | 0 => s.taskClock.stewardTick
  | 1 => s.collect
  | 2 => (s.mboxHandler s.toldFree).drawn 64
  | 3 => s.modeHandler.orderBanks
  | 4 => s.shedRun
  | 5 => s.thermo
  | 7 => s.cmderrRecord
  | 8 => s.firstRecord
  | 9 => s.gangRun.rejoinHeard
  | 10 => s.admission
  | 11 => s.temperRun.temperMeasure
  | 12 => s.cancelTask
  | _ => s

/-- An event is taken from EVPEND (R61). -/
def State.takeEvent (s : State) (m : SmithId) (n : Fin 16) : State :=
  s.onSmith m (fun h => { h with evpend := h.evpend &&& ~~~ BitVec.ofNat 16 (2 ^ n.val), evcause := BitVec.ofNat 5 n.val })

/-- One dispatch of a reference image: the handler runs to its end, or to a wait of the program it begins. -/
def State.dispatchReference (s : State) (m : SmithId) : State :=
  match s.smiths[m].run, s.smiths[m].readyEvent with
  | .idle, some n =>
    let s := (s.takeEvent m n).clobber m
    match chanOfSmith m with
    | some c => s.handleAnvil c n.val
    | none => s.handle n.val
  | _, _ => s

/-- EVENT_DISPATCH (R61, R62). -/
def execEventDispatch (m : SmithId) (s : State) : Out :=
  .next (if s.byReference m then s.dispatchReference m else s.dispatch m)

/-! ### The rows -/

/-- The reference Master Smith image is IDLE and takes event 2 next. -/
def State.mboxServed (s : State) : Bool :=
  s.byReference masterSmith && s.smiths[masterSmith].run == .idle && s.smiths[masterSmith].readyEvent == some 2

/-- Event 2 is dispatched, and the command is answered with what the surroundings tell. -/
def State.mboxServe (s : State) (t : Told) : State :=
  if s.mboxServed then ((s.takeEvent masterSmith 2).mboxHandler t).clobber masterSmith else s

/-- SMI_MBOX_CMD is written while BUSY is 0, so the command enters the mailbox (R274). -/
def State.mboxEnters (s : State) : Bool := (s.hostCause true aMBOX_CMD).isNone && !s.flag aMBOX_STATUS 31

/-- Host software writes the arguments and then SMI_MBOX_CMD; the reference image, where it waits for it, answers. -/
def State.mboxIssue (s : State) (seq : Byte) (code : Nat) (args : List Word) (t : Told) : State :=
  let s := args.zipIdx.foldl (fun s e => s.hostWrite (aMBOX_ARG e.2) e.1) s
  let enters := s.mboxEnters
  let s := s.hostWrite aMBOX_CMD (BitVec.ofNat 32 (seq.toNat * 2 ^ 8 + code))
  if enters then s.mboxServe t else s

/-- The host accesses of a mailbox command. -/
def mboxAccesses (seq : Byte) (code : Nat) (args : List Word) : List (Nat × Option Word) :=
  args.zipIdx.map (fun e => (aMBOX_ARG e.2, some e.1)) ++ [(aMBOX_CMD, some (BitVec.ofNat 32 (seq.toNat * 2 ^ 8 + code)))]

/-- A mailbox command. -/
def mboxRow (seq : Byte) (code : Nat) (args : List Word) (t : Told) (s : State) : Out :=
  hostRow (mboxAccesses seq code args) true (fun s => s.mboxIssue seq code args t) s

/-- A mailbox command whose answer is written at timebase `now`. -/
def mboxRowAt (now : Nat) (seq : Byte) (code : Nat) (args : List Word) (t : Told) (s : State) : Out :=
  hostRowAt now (mboxAccesses seq code args) true (fun s => s.mboxIssue seq code args t) s

/-- PING (R278). -/
def execPing (seq : Byte) (s : State) : Out := mboxRow seq 0x01 [] Told.nothing s

/-- KINDLE_RUN (R278, R283); the host may write ARG1 too, which the command does not read. -/
def execKindleRun (seq : Byte) (arg0 arg1 : Word) (now : Nat) (s : State) : Out :=
  mboxRowAt now seq 0x02 [arg0, arg1] Told.nothing s

/-- SLOT_COMMIT (12 R423, 17 R553). -/
def execSlotCommit (seq : Byte) (arg0 arg1 arg2 : Word) (votes : List (Fin 4 × Word)) (late : Bool) (now : Nat)
    (s : State) : Out :=
  mboxRowAt now seq 0x04 [arg0, arg1, arg2] { votes := votes, late := late, heard := some [] } s

/-- SET_TARGET (12 R424). -/
def execSetTarget (seq : Byte) (arg0 arg1 : Word) (s : State) : Out := mboxRow seq 0x05 [arg0, arg1] Told.nothing s

/-- SHED_FLOOR (R278, R282). -/
def execShedFloor (seq : Byte) (arg0 : Word) (s : State) : Out := mboxRow seq 0x06 [arg0] Told.nothing s

/-- STEWARD (R278, R281). -/
def execSteward (seq : Byte) (arg0 arg1 : Word) (s : State) : Out := mboxRow seq 0x07 [arg0, arg1] Told.nothing s

/-- TEMPER_NOW (R278, 13 R459). -/
def execTemperNow (seq : Byte) (now : Nat) (s : State) : Out := mboxRowAt now seq 0x08 [] Told.nothing s

/-- GANG_REJOIN (17 R543). -/
def execGangRejoin (seq : Byte) (heard : List (Fin 3 × BitVec 128)) (now : Nat) (s : State) : Out :=
  mboxRowAt now seq 0x09 [] { Told.nothing with heard := some heard } s

/-- MARGIN (R278); the host may write ARG1 to ARG3 too, which the command does not read. -/
def execMargin (seq : Byte) (arg0 arg1 arg2 arg3 : Word) (now : Nat) (s : State) : Out :=
  mboxRowAt now seq 0x0A [arg0, arg1, arg2, arg3] Told.nothing s

/-- PARK (R285). -/
def execPark (seq : Byte) (arg0 : Word) (now : Nat) (s : State) : Out := mboxRowAt now seq 0x0B [arg0] Told.nothing s

end Sys2Proof.Machine
end

