-- ==== Sys2Proof/Machine/SmithMem.lean ====
section
/-! DEFINITION. Smith instructions of memory and register access (02 Table 2.8, R53 to R59, R67). -/

namespace Sys2Proof.Machine

/-! ### Data memory (R67) -/

/-- A byte address of the Smith's data memory that LDW and STW may use. -/
def dmemGood (m : SmithId) (x : Nat) : Bool := x % 4 == 0 && decide (x < dmemBytes m)

/-- g[a] + simm. -/
def State.effAddr (s : State) (m : SmithId) (a : RegNo) (imm : BitVec 14) : Nat := (s.g m a + simm imm).toNat

/-- LDW (Table 2.8, R67). -/
def execLdw (m : SmithId) (d a : RegNo) (imm : BitVec 14) (s : State) : Out :=
  .next (occur (s.ready m { op := 0x18, d := some d, a := some a, imm := some imm }) s (
    let x := s.effAddr m a imm
    if dmemGood m x then s.setDone m d (s.smiths[m].dmem.get (x / 4)) else s.smithFault m 3 0))

/-- STW (Table 2.8, R67). -/
def execStw (m : SmithId) (d a : RegNo) (imm : BitVec 14) (s : State) : Out :=
  .next (occur (s.ready m { op := 0x19, d := some d, a := some a, imm := some imm }) s (
    let x := s.effAddr m a imm
    if dmemGood m x then (s.onSmith m (fun h => { h with dmem := h.dmem.set (x / 4) (s.g m d) })).smithDone m
    else s.smithFault m 3 0))

/-! ### Local registers (Tables 2.3 and 2.4) -/

/-- The first address of the local registers. -/
def localBase : Nat := 0xFFFF00

/-- A named local register. -/
def localAt (x : Nat) : Bool :=
  x % 4 == 0 && (decide (localBase ≤ x ∧ x ≤ localBase + 0x14) || decide (localBase + 0x40 ≤ x ∧ x ≤ localBase + 0x7C))

/-- VEC n. -/
def vecIndex (x : Nat) : Fin 16 := ⟨(x - (localBase + 0x40)) / 4 % 16, by omega⟩

/-- A local register as it reads. -/
def State.localRead (s : State) (m : SmithId) (x : Nat) : Word :=
  let h := s.smiths[m]
  let o := x - localBase
  if o = 0x00 then (if isMaster m then 0x100 else BitVec.ofNat 32 m.val)
  else if o = 0x04 then h.evpend.setWidth 32
  else if o = 0x08 then h.evmask.setWidth 32
  else if o = 0x0C then h.evcause.setWidth 32
  else if o = 0x10 then h.tick.setWidth 32
  else if o = 0x14 then h.sigset.setWidth 32
  else h.vec[vecIndex x] &&& 0x80001FFF

/-- A write of a local register: EVPEND and SIGSET clear bits written 1, a write of TICK restarts the count (R59,
R60). -/
def State.localWrite (s : State) (m : SmithId) (x : Nat) (w : Word) : State :=
  let o := x - localBase
  s.onSmith m (fun h =>
    if o = 0x04 then { h with evpend := h.evpend &&& ~~~ w.setWidth 16 }
    else if o = 0x08 then { h with evmask := w.setWidth 16 }
    else if o = 0x10 then { h with tick := w.setWidth 14, tickFrom := s.timebase }
    else if o = 0x14 then { h with sigset := h.sigset &&& ~~~ w.setWidth 25 }
    else if 0x40 ≤ o then { h with vec := upd h.vec (vecIndex x) (fun _ => w &&& 0x80001FFF) }
    else h)

/-! ### CSR reach (R53, Table 2.2) -/

/-- Key material of the fuse shadow (14 R466). -/
def keyMaterial (x : Nat) : Bool := decide (aFUSE 91 ≤ x ∧ x ≤ aFUSE 98)

/-- The part of the host space an Anvil Smith reaches. -/
def anvilReach (c : Nat) (x : Nat) (write : Bool) : Bool :=
  (decide (x < 0x005000) && !write) ||
  decide (aAnv c 0 ≤ x ∧ x < aAnv c 0x800) ||
  decide (0x120000 + c * 0x1000 ≤ x ∧ x < 0x120000 + (c + 1) * 0x1000) ||
  decide (0x200000 + c * 0x800 ≤ x ∧ x < 0x200000 + (c + 1) * 0x800)

/-- A CSR access is permitted. -/
def csrReach (m : SmithId) (x : Nat) (write : Bool) : Bool :=
  localAt x ||
  (x % 4 == 0 && populatedAt x && !keyMaterial x && (isMaster m || anvilReach m.val x write))

/-- x := (g[a] + simm) mod 2^24. -/
def State.csrAddr (s : State) (m : SmithId) (a : RegNo) (imm : BitVec 14) : Nat := s.effAddr m a imm % 2 ^ 24

/-- A permitted CSR read. -/
def State.csrRead (s : State) (m : SmithId) (x : Nat) : Word × State :=
  if localAt x then (s.localRead m x, s) else s.regRead (.smith m) x

/-- A permitted CSR write. -/
def State.csrWrite (s : State) (m : SmithId) (x : Nat) (w : Word) : State :=
  if localAt x then s.localWrite m x w else s.regWrite (.smith m) x w

/-- The instruction completes where its write has not stopped the Smith (R91). -/
def State.doneIfRunning (s : State) (m : SmithId) : State :=
  if s.smiths[m].run = .running then s.smithDone m else s

/-- CSRR (R53, R54, R58). -/
def execCsrr (m : SmithId) (d a : RegNo) (imm : BitVec 14) (now : Nat) (s : State) : Out :=
  .next (timed now (fun s => s.ready m { op := 0x1C, d := some d, a := some a, imm := some imm }) (fun s =>
    let x := s.csrAddr m a imm
    if csrReach m x false then let r := s.csrRead m x; r.2.setDone m d r.1 else s.smithFault m 2 x) s)

/-- CSRW (R53 to R56). -/
def execCsrw (m : SmithId) (a b : RegNo) (imm : BitVec 14) (now : Nat) (s : State) : Out :=
  .next (timed now (fun s => s.ready m { op := 0x1D, a := some a, b := some b, imm := some imm }) (fun s =>
    let x := s.csrAddr m a imm
    if csrReach m x true then (s.csrWrite m x (s.g m b)).doneIfRunning m else s.smithFault m 2 x) s)

/-- The W1C bits of a register. -/
def w1cMask (x : Nat) : Word :=
  if localAt x then (if x - localBase = 0x04 ∨ x - localBase = 0x14 then 0xFFFFFFFF else 0)
  else ((regInfo x).map RegInfo.w1c).getD 0

/-- The word that CSRS or CSRC writes: W1C bits outside the mask are 0, and CSRC leaves every W1C field (R57). -/
def rmwWord (set : Bool) (x : Nat) (old mask : Word) : Word :=
  let c := w1cMask x
  if set then ((old ||| mask) &&& ~~~ c) ||| (mask &&& c) else (old &&& ~~~ mask) &&& ~~~ c

/-- An indexed window that one access steps once (07 R251, R253; DEDUCED, log entry 27). -/
def steppedWindow (x : Nat) : Bool := decide (0x020000 ≤ x ∧ x < 0x02C000) && (x % 0x800 == 0x414 || x % 0x800 == 0x41C)

/-- CSRS or CSRC as one indivisible access (R57). -/
def State.rmw (s : State) (set : Bool) (m : SmithId) (d b : RegNo) (x : Nat) : State :=
  if csrReach m x true then
    let r := s.csrRead m x
    let w := rmwWord set x r.1 (s.g m b)
    let s := (if steppedWindow x then s else r.2).csrWrite m x w
    (s.setG m d r.1).doneIfRunning m
  else s.smithFault m 2 x

/-- CSRS (R53, R57). -/
def execCsrs (m : SmithId) (d a b : RegNo) (imm : BitVec 14) (now : Nat) (s : State) : Out :=
  .next (timed now (fun s => s.ready m { op := 0x1E, d := some d, a := some a, b := some b, imm := some imm })
    (fun s => s.rmw true m d b (s.csrAddr m a imm)) s)

/-- CSRC (R53, R57). -/
def execCsrc (m : SmithId) (d a b : RegNo) (imm : BitVec 14) (now : Nat) (s : State) : Out :=
  .next (timed now (fun s => s.ready m { op := 0x1F, d := some d, a := some a, b := some b, imm := some imm })
    (fun s => s.rmw false m d b (s.csrAddr m a imm)) s)

end Sys2Proof.Machine
end

