-- ==== Sys2Proof/Machine/Dispatch.lean ====
section
/-! DEFINITION. One arm per command of UF24: each a direct call of its meaning. -/

namespace Sys2Proof.Machine

/-- The effect of a command on everything but the queue. -/
def exec (i : Instr) (s : State) : Host.Outcome State Fault Refusal :=
  match i with
  | .add m d a b => Sys2Proof.Machine.execAdd m d a b s
  | .sub m d a b => Sys2Proof.Machine.execSub m d a b s
  | .and m d a b => Sys2Proof.Machine.execAnd m d a b s
  | .or m d a b => Sys2Proof.Machine.execOr m d a b s
  | .xor m d a b => Sys2Proof.Machine.execXor m d a b s
  | .shl m d a b => Sys2Proof.Machine.execShl m d a b s
  | .shr m d a b => Sys2Proof.Machine.execShr m d a b s
  | .sra m d a b => Sys2Proof.Machine.execSra m d a b s
  | .mul m d a b => Sys2Proof.Machine.execMul m d a b s
  | .slt m d a b => Sys2Proof.Machine.execSlt m d a b s
  | .sltu m d a b => Sys2Proof.Machine.execSltu m d a b s
  | .addi m d a imm => Sys2Proof.Machine.execAddi m d a imm s
  | .andi m d a imm => Sys2Proof.Machine.execAndi m d a imm s
  | .ori m d a imm => Sys2Proof.Machine.execOri m d a imm s
  | .xori m d a imm => Sys2Proof.Machine.execXori m d a imm s
  | .shli m d a imm => Sys2Proof.Machine.execShli m d a imm s
  | .shri m d a imm => Sys2Proof.Machine.execShri m d a imm s
  | .lui m d imm => Sys2Proof.Machine.execLui m d imm s
  | .ldw m d a imm => Sys2Proof.Machine.execLdw m d a imm s
  | .stw m d a imm => Sys2Proof.Machine.execStw m d a imm s
  | .csrr m d a imm now => Sys2Proof.Machine.execCsrr m d a imm now s
  | .csrw m a b imm now => Sys2Proof.Machine.execCsrw m a b imm now s
  | .csrs m d a b imm now => Sys2Proof.Machine.execCsrs m d a b imm now s
  | .csrc m d a b imm now => Sys2Proof.Machine.execCsrc m d a b imm now s
  | .beq m a b imm => Sys2Proof.Machine.execBeq m a b imm s
  | .bne m a b imm => Sys2Proof.Machine.execBne m a b imm s
  | .blt m a b imm => Sys2Proof.Machine.execBlt m a b imm s
  | .bge m a b imm => Sys2Proof.Machine.execBge m a b imm s
  | .jal m d imm => Sys2Proof.Machine.execJal m d imm s
  | .jr m a imm => Sys2Proof.Machine.execJr m a imm s
  | .halt m => Sys2Proof.Machine.execHalt m s
  | .cmd m d a imm => Sys2Proof.Machine.execCmd m d a imm s
  | .rdmr m d imm => Sys2Proof.Machine.execRdmr m d imm s
  | .pause m d a imm now => Sys2Proof.Machine.execPause m d a imm now s
  | .endp m d a => Sys2Proof.Machine.execEndp m d a s
  | .dly m a b => Sys2Proof.Machine.execDly m a b s
  | .dlyEffect m ck => Sys2Proof.Machine.execDlyEffect m ck s
  | .eye m d a b => Sys2Proof.Machine.execEye m d a b s
  | .eyeEnd m samples => Sys2Proof.Machine.execEyeEnd m samples s
  | .osc m d a => Sys2Proof.Machine.execOsc m d a s
  | .oscEnd m lower upper => Sys2Proof.Machine.execOscEnd m lower upper s
  | .wck m a imm ck => Sys2Proof.Machine.execWck m a imm ck s
  | .wckEnd m ck => Sys2Proof.Machine.execWckEnd m ck s
  | .wns m a imm now => Sys2Proof.Machine.execWns m a imm now s
  | .wnsEnd m now => Sys2Proof.Machine.execWnsEnd m now s
  | .wev m d a imm now => Sys2Proof.Machine.execWev m d a imm now s
  | .wevEnd m now => Sys2Proof.Machine.execWevEnd m now s
  | .sig m a imm => Sys2Proof.Machine.execSig m a imm s
  | .wsig m d a imm now => Sys2Proof.Machine.execWsig m d a imm now s
  | .wsigEnd m now => Sys2Proof.Machine.execWsigEnd m now s
  | .slw m a b imm => Sys2Proof.Machine.execSlw m a b imm s
  | .slc m d a b imm now => Sys2Proof.Machine.execSlc m d a b imm now s
  | .raise m d a b imm => Sys2Proof.Machine.execRaise m d a b imm s
  | .eventDispatch m => Sys2Proof.Machine.execEventDispatch m s
  | .tick m now => Sys2Proof.Machine.execTick m now s
  | .msStart w => Sys2Proof.Machine.execMsStart w s
  | .msStop w => Sys2Proof.Machine.execMsStop w s
  | .asStart w => Sys2Proof.Machine.execAsStart w s
  | .asStop w => Sys2Proof.Machine.execAsStop w s
  | .go w => Sys2Proof.Machine.execGo w s
  | .verifyEnd reference => Sys2Proof.Machine.execVerifyEnd reference s
  | .instructionMemoryWrite addr w => Sys2Proof.Machine.execInstructionMemoryWrite addr w s
  | .smiEvset w => Sys2Proof.Machine.execSmiEvset w s
  | .ping seq => Sys2Proof.Machine.execPing seq s
  | .kindleRun seq arg0 arg1 now => Sys2Proof.Machine.execKindleRun seq arg0 arg1 now s
  | .slotCommit seq arg0 arg1 arg2 votes late now => Sys2Proof.Machine.execSlotCommit seq arg0 arg1 arg2 votes late now s
  | .setTarget seq arg0 arg1 => Sys2Proof.Machine.execSetTarget seq arg0 arg1 s
  | .shedFloor seq arg0 => Sys2Proof.Machine.execShedFloor seq arg0 s
  | .steward seq arg0 arg1 => Sys2Proof.Machine.execSteward seq arg0 arg1 s
  | .temperNow seq now => Sys2Proof.Machine.execTemperNow seq now s
  | .gangRejoin seq heard now => Sys2Proof.Machine.execGangRejoin seq heard now s
  | .margin seq arg0 arg1 arg2 arg3 now => Sys2Proof.Machine.execMargin seq arg0 arg1 arg2 arg3 now s
  | .park seq arg0 now => Sys2Proof.Machine.execPark seq arg0 now s
  | .read p op addr len tag label colour attr => Sys2Proof.Machine.execRead p op addr len tag label colour attr s
  | .write p addr len tag label colour attr => Sys2Proof.Machine.execWrite p addr len tag label colour attr s
  | .writeMasked p addr len tag label colour attr => Sys2Proof.Machine.execWriteMasked p addr len tag label colour attr s
  | .seal p tag => Sys2Proof.Machine.execSeal p tag s
  | .hint p addr len tag label colour attr => Sys2Proof.Machine.execHint p addr len tag label colour attr s
  | .writeBeat p data be wpoison wlast => Sys2Proof.Machine.execWriteBeat p data be wpoison wlast s
  | .responseBeat p => Sys2Proof.Machine.execResponseBeat p s
  | .panic p level => Sys2Proof.Machine.execPanic p level s
  | .sealDone p => Sys2Proof.Machine.execSealDone p s
  | .portEnable k w => Sys2Proof.Machine.execPortEnable k w s
  | .portDisable k w => Sys2Proof.Machine.execPortDisable k w s
  | .portDrainEnd p => Sys2Proof.Machine.execPortDrainEnd p s
  | .requestAccept p now => Sys2Proof.Machine.execRequestAccept p now s
  | .shaperWheelDue p now => Sys2Proof.Machine.execShaperWheelDue p now s
  | .windowBoundary p now => Sys2Proof.Machine.execWindowBoundary p now s
  | .release p now => Sys2Proof.Machine.execRelease p now s
  | .tongsGrant ret output now => Sys2Proof.Machine.execTongsGrant ret output now s
  | .tongsWatchdogBite ret output now => Sys2Proof.Machine.execTongsWatchdogBite ret output now s
  | .responseEnter p now => Sys2Proof.Machine.execResponseEnter p now s
  | .haltClear p w => Sys2Proof.Machine.execHaltClear p w s
  | .loftRead c errs now => Sys2Proof.Machine.execLoftRead c errs now s
  | .loftWrite c met => Sys2Proof.Machine.execLoftWrite c met s
  | .loftHint c met => Sys2Proof.Machine.execLoftHint c met s
  | .loftPrefetch read => Sys2Proof.Machine.execLoftPrefetch read s
  | .loftFill read => Sys2Proof.Machine.execLoftFill read s
  | .lineDrop c => Sys2Proof.Machine.execLineDrop c s
  | .mergeTimer c entry now => Sys2Proof.Machine.execMergeTimer c entry now s
  | .blockingModeEnd c now => Sys2Proof.Machine.execBlockingModeEnd c now s
  | .invall w => Sys2Proof.Machine.execInvall w s
  | .sweepStart c => Sys2Proof.Machine.execSweepStart c s
  | .sweepEnd c => Sys2Proof.Machine.execSweepEnd c s
  | .wgEn w => Sys2Proof.Machine.execWgEn w s
  | .rickEn w => Sys2Proof.Machine.execRickEn w s
  | .pfEn w => Sys2Proof.Machine.execPfEn w s
  | .loftFunctionStarted f => Sys2Proof.Machine.execLoftFunctionStarted f s
  | .loftFunctionStopped f => Sys2Proof.Machine.execLoftFunctionStopped f s
  | .lineReadAccept c err now => Sys2Proof.Machine.execLineReadAccept c err now s
  | .mergeFlushAccept c errs now => Sys2Proof.Machine.execMergeFlushAccept c errs now s
  | .commandSelect c parity => Sys2Proof.Machine.execCommandSelect c parity s
  | .act c ck => Sys2Proof.Machine.execAct c ck s
  | .pre c ck => Sys2Proof.Machine.execPre c ck s
  | .prea c ck => Sys2Proof.Machine.execPrea c ck s
  | .rd c ck => Sys2Proof.Machine.execRd c ck s
  | .wr c ck => Sys2Proof.Machine.execWr c ck s
  | .refpb c ck => Sys2Proof.Machine.execRefpb c ck s
  | .refab c ck => Sys2Proof.Machine.execRefab c ck s
  | .rfm c ck => Sys2Proof.Machine.execRfm c ck s
  | .mrw c ck => Sys2Proof.Machine.execMrw c ck s
  | .mrr c ck => Sys2Proof.Machine.execMrr c ck s
  | .mpc c ck => Sys2Proof.Machine.execMpc c ck s
  | .sre c ck => Sys2Proof.Machine.execSre c ck s
  | .srx c ck now => Sys2Proof.Machine.execSrx c ck now s
  | .pde c ck => Sys2Proof.Machine.execPde c ck s
  | .pdx c ck => Sys2Proof.Machine.execPdx c ck s
  | .readDataReturn c err now => Sys2Proof.Machine.execReadDataReturn c err now s
  | .mrrResult c lower upper => Sys2Proof.Machine.execMrrResult c lower upper s
  | .mr4Poll c now => Sys2Proof.Machine.execMr4Poll c now s
  | .mr4Result c rank0 rank1 => Sys2Proof.Machine.execMr4Result c rank0 rank1 s
  | .refreshDebtTick c rank now => Sys2Proof.Machine.execRefreshDebtTick c rank now s
  | .holdSet c w => Sys2Proof.Machine.execHoldSet c w s
  | .pauseGrant c ck now => Sys2Proof.Machine.execPauseGrant c ck now s
  | .pauseForce c now => Sys2Proof.Machine.execPauseForce c now s
  | .pauseExpire c ck => Sys2Proof.Machine.execPauseExpire c ck s
  | .retrain c now => Sys2Proof.Machine.execRetrain c now s
  | .retrainIntervalWrite c w now => Sys2Proof.Machine.execRetrainIntervalWrite c w now s
  | .zqCalibration h now => Sys2Proof.Machine.execZqCalibration h now s
  | .zqCodeApply edge => Sys2Proof.Machine.execZqCodeApply edge s
  | .zqLatchDue c rank now => Sys2Proof.Machine.execZqLatchDue c rank now s
  | .pllEnable c w => Sys2Proof.Machine.execPllEnable c w s
  | .fspChange c w => Sys2Proof.Machine.execFspChange c w s
  | .rateChange c w => Sys2Proof.Machine.execRateChange c w s
  | .pllLock h => Sys2Proof.Machine.execPllLock h s
  | .pllLockLoss h => Sys2Proof.Machine.execPllLockLoss h s
  | .dlydatAccess c w => Sys2Proof.Machine.execDlydatAccess c w s
  | .patdatAccess c w => Sys2Proof.Machine.execPatdatAccess c w s
  | .slotBoundary c ck => Sys2Proof.Machine.execSlotBoundary c ck s
  | .slotTableSwitch c ck now => Sys2Proof.Machine.execSlotTableSwitch c ck now s
  | .stgo c w => Sys2Proof.Machine.execStgo c w s
  | .selfTestEnd c failing => Sys2Proof.Machine.execSelfTestEnd c failing s
  | .gleanerEn c w => Sys2Proof.Machine.execGleanerEn c w s
  | .gleanerVisit c now => Sys2Proof.Machine.execGleanerVisit c now s
  | .gleanerVisitEnd c now => Sys2Proof.Machine.execGleanerVisitEnd c now s
  | .gleanerTransitionEnd c => Sys2Proof.Machine.execGleanerTransitionEnd c s
  | .lapOverdue c now => Sys2Proof.Machine.execLapOverdue c now s
  | .patrolAdvance c now => Sys2Proof.Machine.execPatrolAdvance c now s
  | .modeRequest w => Sys2Proof.Machine.execModeRequest w s
  | .modeComplete w now => Sys2Proof.Machine.execModeComplete w now s
  | .bankedQueuesEmpty => Sys2Proof.Machine.execBankedQueuesEmpty s
  | .quarterEnd signatureGood findings => Sys2Proof.Machine.execQuarterEnd signatureGood findings s
  | .faultDrainTimeout now => Sys2Proof.Machine.execFaultDrainTimeout now s
  | .shedLevelChange w => Sys2Proof.Machine.execShedLevelChange w s
  | .shedStepTimer now => Sys2Proof.Machine.execShedStepTimer now s
  | .comparatorCrossing level => Sys2Proof.Machine.execComparatorCrossing level s
  | .sagRelease comparator level now => Sys2Proof.Machine.execSagRelease comparator level now s
  | .rateMonitor period now => Sys2Proof.Machine.execRateMonitor period now s
  | .pmSag level => Sys2Proof.Machine.execPmSag level s
  | .bankedSagRelease now => Sys2Proof.Machine.execBankedSagRelease now s
  | .temperGo w => Sys2Proof.Machine.execTemperGo w s
  | .temperRound now => Sys2Proof.Machine.execTemperRound now s
  | .temperRoundEnd counts now => Sys2Proof.Machine.execTemperRoundEnd counts now s
  | .vreqCodeWrite w => Sys2Proof.Machine.execVreqCodeWrite w s
  | .pmVack level => Sys2Proof.Machine.execPmVack level s
  | .pmOffreq level => Sys2Proof.Machine.execPmOffreq level s
  | .powerGateAck => Sys2Proof.Machine.execPowerGateAck s
  | .resetAssert => Sys2Proof.Machine.execResetAssert s
  | .resetDeassert gangId gangSize => Sys2Proof.Machine.execResetDeassert gangId gangSize s
  | .fuseImageRead first second => Sys2Proof.Machine.execFuseImageRead first second s
  | .loadK1 beats => Sys2Proof.Machine.execLoadK1 beats s
  | .loadK2 beats => Sys2Proof.Machine.execLoadK2 beats s
  | .erase beats => Sys2Proof.Machine.execErase beats s
  | .keyctlErase w => Sys2Proof.Machine.execKeyctlErase w s
  | .regionStartingEnd r => Sys2Proof.Machine.execRegionStartingEnd r s
  | .regionStoppingEnd r => Sys2Proof.Machine.execRegionStoppingEnd r s
  | .bufferRelease base size claim owner => Sys2Proof.Machine.execBufferRelease base size claim owner s
  | .releaseHonour now => Sys2Proof.Machine.execReleaseHonour now s
  | .faultAccept pos => Sys2Proof.Machine.execFaultAccept pos s
  | .faultMessageTransfer => Sys2Proof.Machine.execFaultMessageTransfer s
  | .faultPulseEnd => Sys2Proof.Machine.execFaultPulseEnd s
  | .forceMessage k w => Sys2Proof.Machine.execForceMessage k w s
  | .firstvRearm w => Sys2Proof.Machine.execFirstvRearm w s
  | .injectionArm w => Sys2Proof.Machine.execInjectionArm w s
  | .injectionDisarm w => Sys2Proof.Machine.execInjectionDisarm w s
  | .evqPutHdr w now => Sys2Proof.Machine.execEvqPutHdr w now s
  | .evqPutLo w => Sys2Proof.Machine.execEvqPutLo w s
  | .evqPutHi w now => Sys2Proof.Machine.execEvqPutHi w now s
  | .evqDataLo => Sys2Proof.Machine.execEvqDataLo s
  | .evqDataHi now => Sys2Proof.Machine.execEvqDataHi now s
  | .flush w now => Sys2Proof.Machine.execFlush w now s
  | .evqTimeout now => Sys2Proof.Machine.execEvqTimeout now s
  | .timebaseLoRead now => Sys2Proof.Machine.execTimebaseLoRead now s
  | .slotTloRead c => Sys2Proof.Machine.execSlotTloRead c s
  | .lapLoRead c => Sys2Proof.Machine.execLapLoRead c s
  | .capturedHiRead addr now => Sys2Proof.Machine.execCapturedHiRead addr now s
  | .rcRead addr => Sys2Proof.Machine.execRcRead addr s
  | .adjacencyMapWrite k w => Sys2Proof.Machine.execAdjacencyMapWrite k w s
  | .registerWrite addr w now => Sys2Proof.Machine.execRegisterWrite addr w now s
  | .unalignedAccess addr w => Sys2Proof.Machine.execUnalignedAccess addr w s
  | .unpopulatedAccess addr w => Sys2Proof.Machine.execUnpopulatedAccess addr w s
  | .bankedAccessRefused addr w => Sys2Proof.Machine.execBankedAccessRefused addr w s
  | .anvilTransitionEnd c => Sys2Proof.Machine.execAnvilTransitionEnd c s
  | .directRun w => Sys2Proof.Machine.execDirectRun w s
  | .clrrep w => Sys2Proof.Machine.execClrrep w s
  | .tapInstruction op => Sys2Proof.Machine.execTapInstruction op s
  | .xchg w now => Sys2Proof.Machine.execXchg w now s
  | .linkWordReceive k word => Sys2Proof.Machine.execLinkWordReceive k word s
  | .linkTrained k delay => Sys2Proof.Machine.execLinkTrained k delay s
  | .credentials k now => Sys2Proof.Machine.execCredentials k now s
  | .heartbeatSend now => Sys2Proof.Machine.execHeartbeatSend now s
  | .heartbeat k now => Sys2Proof.Machine.execHeartbeat k now s
  | .heartbeatTimeout peer now => Sys2Proof.Machine.execHeartbeatTimeout peer now s
  | .peerStartingEnd peer now => Sys2Proof.Machine.execPeerStartingEnd peer now s
  | .peerStoppingEnd peer => Sys2Proof.Machine.execPeerStoppingEnd peer s
  | .smsgSend w => Sys2Proof.Machine.execSmsgSend w s
  | .smithMessage k => Sys2Proof.Machine.execSmithMessage k s
  | .smsgRxLo => Sys2Proof.Machine.execSmsgRxLo s
  | .smsgRxHi => Sys2Proof.Machine.execSmsgRxHi s
  | .zqCalibrationEnd h pcode ncode => Sys2Proof.Machine.execZqCalibrationEnd h pcode ncode s
  | .alwaysOnPowerUp => Sys2Proof.Machine.execAlwaysOnPowerUp s

end Sys2Proof.Machine
end

