-- ==== Sys2Proof/Safety.lean ====
section
/-! DEFINITION. The words that statements about the machine are written in: which parts of the machine a command may
touch, when a Smith goes on, and the canonical form that every memory of the machine keeps. -/

namespace Sys2Proof.Machine

/-! ### Parts of the machine -/

/-- A part of the machine. `reg a` is the register whose home is host byte address `a` (`regHome`). -/
inductive Part where
  | time | reg (a : Nat) | hrp | rvalid | held | hostCaps | smith (m : SmithId) | imageMS | imageAS | verify
  | port (p : PortId) | pieces | tongs | slice (c : Chan) | detect | loftFns | fullInv
  | anvil (c : Chan) | hearth (h : HearthId) | hedge | faults | evq | modes | temper | assay | gang | prog | queue
deriving DecidableEq, Repr

/-- The part holds in `t` what it held in `s`. -/
def Part.kept (x : Part) (s t : State) : Prop :=
  match x with
  | .time => t.timebase = s.timebase ∧ t.clock = s.clock
  | .reg a => SMap.get resetWord t.regs a = SMap.get resetWord s.regs a
  | .hrp => t.hrpRdata = s.hrpRdata
  | .rvalid => t.hrpRvalid = s.hrpRvalid
  | .held => t.hrpHeld = s.hrpHeld
  | .hostCaps => t.hostCaps = s.hostCaps
  | .smith m => t.smiths[m] = s.smiths[m]
  | .imageMS => t.imageMS = s.imageMS
  | .imageAS => t.imageAS = s.imageAS
  | .verify => t.verify = s.verify
  | .port p => t.ports[p] = s.ports[p]
  | .pieces => t.pieces = s.pieces
  | .tongs => t.tongs = s.tongs
  | .slice c => t.slices[c] = s.slices[c]
  | .detect => t.detect = s.detect
  | .loftFns => t.loftFns = s.loftFns
  | .fullInv => t.fullInv = s.fullInv
  | .anvil c => t.anvils[c] = s.anvils[c]
  | .hearth h => t.hearths[h] = s.hearths[h]
  | .hedge => t.hedge = s.hedge
  | .faults => t.faults = s.faults
  | .evq => t.evq = s.evq
  | .modes => t.modes = s.modes
  | .temper => t.temper = s.temper
  | .assay => t.assay = s.assay
  | .gang => t.gang = s.gang
  | .prog => t.prog = s.prog
  | .queue => t.pending = s.pending

/-- Every part outside `P` is unchanged: the frame of a command that may touch the parts of `P`. -/
def Only (P : Part → Prop) (s t : State) : Prop := ∀ x, ¬ P x → x.kept s t

/-- The frame of a host access: beside the parts of `P` it raises HRP_RVALID (19 Table 19.1). -/
def HostOnly (P : Part → Prop) (s t : State) : Prop := t.hrpRvalid = true ∧ Only (fun x => P x ∨ x = .rvalid) s t

/-! ### Smiths -/

/-- Nothing keeps Smith `m` from going on at instruction index `pc`: no stop waits for it, the index lies inside the
accepted image (R68), and the word there has an opcode of Table 2.7 (R65). -/
def GoesOn (s : State) (m : SmithId) (pc : Nat) : Prop :=
  s.smiths[m].stopReq = false ∧ (wrapPc m pc).toNat < (s.image m).length ∧
  opcodes.contains (opcodeOf ((s.image m).mem.get (wrapPc m pc).toNat)) = true

/-- What an instruction that reaches its end leaves behind in its Smith: the program counter at `pc`, register `d`
holding `v` (a write of g0 is discarded, R47), every other register as it was, and a Smith that runs on; nothing else in
the machine differs. -/
def Finished (s t : State) (m : SmithId) (d : RegNo) (v : Word) (pc : Nat) : Prop :=
  (∀ x, t.g m x = if x = d ∧ x ≠ 0 then v else s.g m x) ∧
  t.smiths[m] = { s.smiths[m] with g := t.smiths[m].g, pc := wrapPc m pc, run := .running, wait := none } ∧
  Only (· = .smith m) s t

/-- A host access is answered without an error (18 R557 to R559): HRP_RDATA is all that the access itself changes. -/
def Instr.isHostRow (i : Instr) : Bool :=
  match i with
  | .unalignedAccess .. | .unpopulatedAccess .. | .bankedAccessRefused .. => true
  | _ => false

/-! ### Canonical memories -/

/-- A word memory is in canonical form: addresses strictly rising, no listed 0. -/
def WMem.wf (m : WMem) : Bool := Memory.wf (fun _ => 0) m

/-- A byte memory of a slot table bank is in canonical form. -/
def bankWf (m : List (Nat × Byte)) : Bool := Memory.wf (fun _ => 0) m

/-- Every sparse memory of the machine is in canonical form. -/
structure State.Canonical (s : State) : Prop where
  regs : Memory.wf resetWord s.regs = true
  dmem : ∀ m : SmithId, WMem.wf s.smiths[m].dmem = true
  imageMS : WMem.wf s.imageMS.mem = true
  imageAS : WMem.wf s.imageAS.mem = true
  banks : ∀ c : Chan, bankWf s.anvils[c].bank0 = true ∧ bankWf s.anvils[c].bank1 = true
  dram : ∀ c : Chan, SMap.rising s.anvils[c].dram = true

end Sys2Proof.Machine
end

