-- ==== Sys2Proof/Certificates/Slice0/Obligations.lean ====
section
/-! DEFINITION. The statements about UF24: one definition per obligation, each citing the rules of the spec that it
formalises. `Only P s t` says that nothing outside the parts `P` of the machine differs between `s` and `t`. -/

open Sys2Proof Sys2Proof.Machine

/-- 02 R66, Table 2.8 with R47 and R64: the arithmetic instructions of a Smith that goes on at pc + 1. -/
def Obligations.SmithArithmeticWritesResultOfTable28 : Prop :=
  ∀ (s : State) (m : SmithId) (d a b : RegNo) (imm : BitVec 14) (i18 : BitVec 18),
    let x := s.g m a
    let y := s.g m b
    let n := y.toNat % 32
    let simmV : Word := BitVec.ofInt 32 imm.toInt
    let next := s.smiths[m].pc.toNat + 1
    let rrr (op : Nat) (i : Instr) (v : Word) : Prop :=
      s.ready m { op := op, d := some d, a := some a, b := some b } = true → GoesOn s m next →
        ∃ t, exec i s = .next t ∧ Finished s t m d v next
    let rri (op : Nat) (i : Instr) (v : Word) : Prop :=
      s.ready m { op := op, d := some d, a := some a, imm := some imm } = true → GoesOn s m next →
        ∃ t, exec i s = .next t ∧ Finished s t m d v next
    rrr 0x01 (.add m d a b) (BitVec.ofNat 32 (x.toNat + y.toNat)) ∧
    rrr 0x02 (.sub m d a b) (BitVec.ofInt 32 ((x.toNat : Int) - y.toNat)) ∧
    rrr 0x03 (.and m d a b) (x &&& y) ∧
    rrr 0x04 (.or m d a b) (x ||| y) ∧
    rrr 0x05 (.xor m d a b) (x ^^^ y) ∧
    rrr 0x06 (.shl m d a b) (BitVec.ofNat 32 (x.toNat * 2 ^ n)) ∧
    rrr 0x07 (.shr m d a b) (BitVec.ofNat 32 (x.toNat / 2 ^ n)) ∧
    rrr 0x08 (.sra m d a b) (BitVec.ofInt 32 (x.toInt / 2 ^ n)) ∧
    rrr 0x09 (.mul m d a b) (BitVec.ofNat 32 (x.toNat % 2 ^ 16 * (y.toNat % 2 ^ 16))) ∧
    rrr 0x0A (.slt m d a b) (if x.toInt < y.toInt then 1 else 0) ∧
    rrr 0x0B (.sltu m d a b) (if x.toNat < y.toNat then 1 else 0) ∧
    rri 0x10 (.addi m d a imm) (x + simmV) ∧
    rri 0x11 (.andi m d a imm) (BitVec.ofNat 32 (x.toNat &&& imm.toNat)) ∧
    rri 0x12 (.ori m d a imm) (BitVec.ofNat 32 (x.toNat ||| imm.toNat)) ∧
    rri 0x13 (.xori m d a imm) (BitVec.ofNat 32 (x.toNat ^^^ imm.toNat)) ∧
    rri 0x14 (.shli m d a imm) (BitVec.ofNat 32 (x.toNat * 2 ^ (imm.toNat % 32))) ∧
    rri 0x15 (.shri m d a imm) (BitVec.ofNat 32 (x.toNat / 2 ^ (imm.toNat % 32))) ∧
    (s.ready m { op := 0x16, d := some d, imm18 := some i18 } = true → GoesOn s m next →
      ∃ t, exec (.lui m d i18) s = .next t ∧ Finished s t m d (BitVec.ofNat 32 (i18.toNat * 2 ^ 14)) next)

/-- 02 R66, Table 2.8 with R47: branches, jumps and HALT. A conditional branch writes no register, which `Finished` says
with g0 as its register. -/
def Obligations.SmithBranchesAndJumpsSetPc : Prop :=
  ∀ (s : State) (m : SmithId) (d a b : RegNo) (imm : BitVec 14),
    let x := s.g m a
    let y := s.g m b
    let next := s.smiths[m].pc.toNat + 1
    let away := (((next : Int) + imm.toInt) % 2 ^ 32).toNat
    let branch (op : Nat) (i : Instr) (taken : Prop) : Prop :=
      s.ready m { op := op, a := some a, b := some b, imm := some imm } = true →
        (taken → GoesOn s m away → ∃ t, exec i s = .next t ∧ Finished s t m 0 0 away) ∧
        (¬ taken → GoesOn s m next → ∃ t, exec i s = .next t ∧ Finished s t m 0 0 next)
    branch 0x20 (.beq m a b imm) (x = y) ∧
    branch 0x21 (.bne m a b imm) (x ≠ y) ∧
    branch 0x22 (.blt m a b imm) (x.toInt < y.toInt) ∧
    branch 0x23 (.bge m a b imm) (y.toInt ≤ x.toInt) ∧
    (s.ready m { op := 0x24, d := some d, imm := some imm } = true → GoesOn s m away →
      ∃ t, exec (.jal m d imm) s = .next t ∧
        Finished s t m d (BitVec.ofNat 32 (next % imemWords m)) away) ∧
    (s.ready m { op := 0x25, a := some a, imm := some imm } = true →
      let to_ := (x + BitVec.ofInt 32 imm.toInt).toNat
      GoesOn s m to_ → ∃ t, exec (.jr m a imm) s = .next t ∧ Finished s t m 0 0 to_) ∧
    (s.ready m { op := 0x27 } = true → s.smiths[m].stopReq = false →
      ∃ t, exec (.halt m) s = .next t ∧
        t.smiths[m] = { s.smiths[m] with run := .idle, pc := wrapPc m next } ∧ Only (· = .smith m) s t)

/-- 02 R89 with R68, R65, R67 and R53, and 15 R493: what a Smith fault sends and leaves, and the stop that follows. -/
def Obligations.SmithFaultStopsAndReports : Prop :=
  ∀ (s : State) (m : SmithId) (d a b : RegNo) (imm : BitVec 14) (now j : Nat) (taken : Msg),
    let h := s.smiths[m]
    let pc := h.pc.toNat
    let message (cause addr at_ : Nat) : Msg :=
      { source := if m = masterSmith then 0x50 else BitVec.ofNat 8 m.val, kind := 0x17, sev := 2, addr := BitVec.ofNat 41 addr,
        detail := BitVec.ofNat 23 (m.val * 2 ^ 18 + cause * 2 ^ 14 + at_), raiser := some m }
    let faults (i : Instr) (regs : RegNo → Word) (cause addr at_ : Nat) : Prop :=
      ∃ t, exec i s = .next t ∧ (∀ y, t.g m y = regs y) ∧
        t.smiths[m] = { h with g := t.smiths[m].g, pc := BitVec.ofNat 13 at_, run := .waiting, wait := some (.raise true) } ∧
        t.faults = { s.faults with arriving := s.faults.arriving ++ [message cause addr at_] } ∧
        Only (fun e => e = .smith m ∨ e = .faults ∨ e = .time) s t
    let x := (s.g m a + BitVec.ofInt 32 imm.toInt).toNat
    let sum (y : RegNo) : Word := if y = d ∧ y ≠ 0 then s.g m a + s.g m b else s.g m y
    let next := (wrapPc m (pc + 1)).toNat
    (s.ready m { op := 0x01, d := some d, a := some a, b := some b } = true → h.stopReq = false →
      (s.image m).length ≤ next → faults (.add m d a b) sum 1 0 next) ∧
    (s.ready m { op := 0x01, d := some d, a := some a, b := some b } = true → h.stopReq = false →
      next < (s.image m).length → opcodes.contains (opcodeOf ((s.image m).mem.get next)) = false →
      faults (.add m d a b) sum 0 0 next) ∧
    (x % 4 ≠ 0 ∨ dmemBytes m ≤ x →
      (s.ready m { op := 0x18, d := some d, a := some a, imm := some imm } = true → faults (.ldw m d a imm) (s.g m) 3 0 pc) ∧
      (s.ready m { op := 0x19, d := some d, a := some a, imm := some imm } = true → faults (.stw m d a imm) (s.g m) 3 0 pc)) ∧
    (csrReach m (x % 2 ^ 24) false = false →
      s.ready m { op := 0x1C, d := some d, a := some a, imm := some imm } = true →
      faults (.csrr m d a imm now) (s.g m) 2 (x % 2 ^ 24) pc) ∧
    (csrReach m (x % 2 ^ 24) true = false →
      s.ready m { op := 0x1D, a := some a, b := some b, imm := some imm } = true →
      faults (.csrw m a b imm now) (s.g m) 2 (x % 2 ^ 24) pc) ∧
    (s.faults.arriving[j]? = some taken → taken.raiser = some m → h.wait = some (.raise true) →
      (∀ e ∈ s.faults.arriving.take j, e.source ≠ taken.source) → (taken.sev.toNat < 2 ∨ s.faults.queue.length < 64) →
      ∃ t, exec (.faultAccept j) s = .next t ∧ t.smiths[m].run = .stopped ∧ t.smiths[m].wait = none ∧ (∀ y, t.g m y = s.g m y) ∧
        t.smiths[m].evmask = h.evmask ∧ t.smiths[m].sigset = h.sigset ∧ t.smiths[m].vec = h.vec ∧ t.smiths[m].dmem = h.dmem)

/-- 02 R66, Table 2.8: LDW and STW on the Smith's own data memory, and the words that a store leaves alone. -/
def Obligations.SmithDataMemoryLoadAndStore : Prop :=
  ∀ (s : State) (m : SmithId) (d a : RegNo) (imm : BitVec 14),
    let x := (s.g m a + BitVec.ofInt 32 imm.toInt).toNat
    let next := s.smiths[m].pc.toNat + 1
    x % 4 = 0 → x < dmemBytes m → GoesOn s m next →
      (s.ready m { op := 0x18, d := some d, a := some a, imm := some imm } = true →
        ∃ t, exec (.ldw m d a imm) s = .next t ∧ Finished s t m d (s.smiths[m].dmem.get (x / 4)) next) ∧
      (s.ready m { op := 0x19, d := some d, a := some a, imm := some imm } = true →
        ∃ t, exec (.stw m d a imm) s = .next t ∧
          (∀ k, t.smiths[m].dmem.get k = if k = x / 4 then s.g m d else s.smiths[m].dmem.get k) ∧
          t.smiths[m] = { s.smiths[m] with dmem := t.smiths[m].dmem, pc := wrapPc m next, run := .running, wait := none } ∧
          Only (· = .smith m) s t)

/-- 02 R59 (Table 2.4) and R57: where CSR instructions complete, what they do to GLB_SCRATCH0 to 3, and what they do to the
Smith's own local registers. -/
def Obligations.SmithCsrAccessesOfLocalRegisters : Prop :=
  ∀ (s : State) (m : SmithId) (d a b : RegNo) (imm : BitVec 14) (now : Nat) (n : Fin 16),
    let h := s.smiths[m]
    let x := (s.g m a + BitVec.ofInt 32 imm.toInt).toNat % 2 ^ 24
    let v := s.g m b
    let next := h.pc.toNat + 1
    let quiet (t : State) : Prop := Only (fun p => p = .smith m ∨ p = .time) s t ∧ t.timebase = s.timeAt now ∧
      t.smiths[m].pc = wrapPc m next ∧ t.smiths[m].dmem = h.dmem
    let got (t : State) (w : Word) : Prop := t.g m d = if d = 0 then 0 else w
    let goes (t : State) : Prop := t.smiths[m].run = .running ∧ t.smiths[m].pc = wrapPc m next
    let read := (s.at now).csrRead m x
    let written := (s.at now).csrWrite m x v
    let modified (set : Bool) := (if steppedWindow x then s.at now else read.2).csrWrite m x (rmwWord set x read.1 v)
    let lets (u : State) : Prop := u.smiths[m].run = .running ∧ u.smiths[m].pc = h.pc ∧ GoesOn u m next
    (s.ready m { op := 0x1C, d := some d, a := some a, imm := some imm } = true → csrReach m x false = true →
      GoesOn s m next → ∃ t, exec (.csrr m d a imm now) s = .next t ∧ got t read.1 ∧ goes t ∧
        Only (· = .smith m) read.2 t) ∧
    (csrReach m x true = true →
      (s.ready m { op := 0x1D, a := some a, b := some b, imm := some imm } = true → lets written →
        ∃ t, exec (.csrw m a b imm now) s = .next t ∧ goes t ∧ Only (· = .smith m) written t ∧
          ∀ y, t.g m y = written.g m y) ∧
      (s.ready m { op := 0x1E, d := some d, a := some a, b := some b, imm := some imm } = true → lets (modified true) →
        ∃ t, exec (.csrs m d a b imm now) s = .next t ∧ got t read.1 ∧ goes t ∧ Only (· = .smith m) (modified true) t) ∧
      (s.ready m { op := 0x1F, d := some d, a := some a, b := some b, imm := some imm } = true → lets (modified false) →
        ∃ t, exec (.csrc m d a b imm now) s = .next t ∧ got t read.1 ∧ goes t ∧ Only (· = .smith m) (modified false) t)) ∧
    (∀ k : Fin 4, m = masterSmith → x = 0x200 + 4 * k.val → GoesOn s m next →
      let reg := s.rd x
      let scratch (t : State) (w : Word) : Prop := t.rd x = w ∧ goes t ∧ t.smiths[m].dmem = h.dmem ∧
        Only (fun p => p = .smith m ∨ p = .time ∨ p = .reg x) s t
      (s.ready m { op := 0x1C, d := some d, a := some a, imm := some imm } = true →
        ∃ t, exec (.csrr m d a imm now) s = .next t ∧ got t reg ∧ scratch t reg) ∧
      (s.ready m { op := 0x1D, a := some a, b := some b, imm := some imm } = true →
        ∃ t, exec (.csrw m a b imm now) s = .next t ∧ scratch t v) ∧
      (s.ready m { op := 0x1E, d := some d, a := some a, b := some b, imm := some imm } = true →
        ∃ t, exec (.csrs m d a b imm now) s = .next t ∧ got t reg ∧ scratch t (reg ||| v)) ∧
      (s.ready m { op := 0x1F, d := some d, a := some a, b := some b, imm := some imm } = true →
        ∃ t, exec (.csrc m d a b imm now) s = .next t ∧ got t reg ∧ scratch t (reg &&& ~~~ v))) ∧
    (GoesOn s m next →
      (s.ready m { op := 0x1C, d := some d, a := some a, imm := some imm } = true →
        (x = 0xFFFF00 → ∃ t, exec (.csrr m d a imm now) s = .next t ∧ quiet t ∧
          got t (if m = masterSmith then 0x100 else BitVec.ofNat 32 m.val)) ∧
        (x = 0xFFFF04 → ∃ t, exec (.csrr m d a imm now) s = .next t ∧ quiet t ∧ got t (h.evpend.setWidth 32)) ∧
        (x = 0xFFFF08 → ∃ t, exec (.csrr m d a imm now) s = .next t ∧ quiet t ∧ got t (h.evmask.setWidth 32)) ∧
        (x = 0xFFFF0C → ∃ t, exec (.csrr m d a imm now) s = .next t ∧ quiet t ∧ got t (h.evcause.setWidth 32)) ∧
        (x = 0xFFFF10 → ∃ t, exec (.csrr m d a imm now) s = .next t ∧ quiet t ∧ got t (h.tick.setWidth 32)) ∧
        (x = 0xFFFF14 → ∃ t, exec (.csrr m d a imm now) s = .next t ∧ quiet t ∧ got t (h.sigset.setWidth 32)) ∧
        (x = 0xFFFF40 + 4 * n.val → ∃ t, exec (.csrr m d a imm now) s = .next t ∧ quiet t ∧ got t (h.vec[n] &&& 0x80001FFF))) ∧
      (s.ready m { op := 0x1D, a := some a, b := some b, imm := some imm } = true →
        (x = 0xFFFF00 ∨ x = 0xFFFF0C → ∃ t, exec (.csrw m a b imm now) s = .next t ∧ quiet t ∧
          t.smiths[m] = { h with pc := wrapPc m next, run := .running, wait := none }) ∧
        (x = 0xFFFF04 → ∃ t, exec (.csrw m a b imm now) s = .next t ∧ quiet t ∧
          t.smiths[m].evpend = h.evpend &&& ~~~ v.setWidth 16) ∧
        (x = 0xFFFF08 → ∃ t, exec (.csrw m a b imm now) s = .next t ∧ quiet t ∧ t.smiths[m].evmask = v.setWidth 16) ∧
        (x = 0xFFFF10 → ∃ t, exec (.csrw m a b imm now) s = .next t ∧ quiet t ∧ t.smiths[m].tick = v.setWidth 14 ∧
          t.smiths[m].tickFrom = s.timeAt now) ∧
        (x = 0xFFFF14 → ∃ t, exec (.csrw m a b imm now) s = .next t ∧ quiet t ∧
          t.smiths[m].sigset = h.sigset &&& ~~~ v.setWidth 25) ∧
        (x = 0xFFFF40 + 4 * n.val → ∃ t, exec (.csrw m a b imm now) s = .next t ∧ quiet t ∧
          ∀ k : Fin 16, t.smiths[m].vec[k] = if k = n then v &&& 0x80001FFF else h.vec[k])) ∧
      (s.ready m { op := 0x1E, d := some d, a := some a, b := some b, imm := some imm } = true →
        (x = 0xFFFF08 → ∃ t, exec (.csrs m d a b imm now) s = .next t ∧ quiet t ∧
          t.smiths[m].evmask = h.evmask ||| v.setWidth 16 ∧ got t (h.evmask.setWidth 32)) ∧
        (x = 0xFFFF04 → ∃ t, exec (.csrs m d a b imm now) s = .next t ∧ quiet t ∧
          t.smiths[m].evpend = h.evpend &&& ~~~ v.setWidth 16 ∧ got t (h.evpend.setWidth 32))) ∧
      (s.ready m { op := 0x1F, d := some d, a := some a, b := some b, imm := some imm } = true →
        (x = 0xFFFF08 → ∃ t, exec (.csrc m d a b imm now) s = .next t ∧ quiet t ∧
          t.smiths[m].evmask = h.evmask &&& ~~~ v.setWidth 16 ∧ got t (h.evmask.setWidth 32)) ∧
        (x = 0xFFFF04 → ∃ t, exec (.csrc m d a b imm now) s = .next t ∧ quiet t ∧
          t.smiths[m].evpend = h.evpend ∧ got t (h.evpend.setWidth 32))))

/-- Table 2.13: where a CMD with this code and operand is permitted. -/
def cmdAllowed (s : State) (m : SmithId) (c : Chan) (k : Code) (op : Nat) : Prop :=
  let plain := k = .mrr ∨ (k = .mpc ∧ Config.oscOps.contains op = true)
  let power := k = .sre ∨ k = .srx ∨ k = .pde ∨ k = .pdx
  let normal := s.modes.mode = .forge ∨ s.modes.mode = .lowfire ∨ s.modes.mode = .assay
  s.modes.mode = .kindle ∨ s.modes.step = .bankIn ∨ s.modes.step = .bankOut ∨
    (normal ∧ (plain ∨ (¬ power ∧ s.pausedBy m c = true)))

/-- 02 R71 to R80: CMD, RDMR, PAUSE and ENDP. -/
def Obligations.SmithDramCommandAndPauseInstructions : Prop :=
  ∀ (s : State) (m : SmithId) (d a : RegNo) (imm : BitVec 14) (c : Chan) (now : Nat),
    let w := s.g m a
    let next := s.smiths[m].pc.toNat + 1
    let here (t : State) : Prop := Only (fun p => p = .smith m ∨ p = .anvil c) s t
    GoesOn s m next →
      (∀ k, s.ready m { op := 0x28, d := some d, a := some a, imm := some imm } = true →
        chanFor m (imm.toNat % 32) = some c → codeOf (w.toNat / 2 ^ 28) = some k → cmdAllowed s m c k (w.toNat % 256) →
        (evenOnes w = true → ¬ (k = .mrr ∧ 4 ≤ s.smiths[m].mrrOn c) → ∃ t, exec (.cmd m d a imm) s = .next t ∧ here t ∧
          t.smiths[m] = { s.smiths[m] with run := .waiting, wait := some (.cmd d c) } ∧
          t.anvils[c].heat7.map Prod.fst = s.anvils[c].heat7.map Prod.fst ++
            [{ cmdOfWord k w (.smith m) with bound := (k == .mrr || k == .mpc) && !s.heldAny c }] ∧
          t.anvils[c].hist = s.anvils[c].hist) ∧
        (evenOnes w = false → s.populated c.val = true → ∃ t, exec (.cmd m d a imm) s = .next t ∧ t.anvils[c].heat7 = s.anvils[c].heat7 ∧
          t.g m d = (if d = 0 then 0 else 1) ∧
          ∃ e, t.faults.arriving = s.faults.arriving ++ [e] ∧ e.kind = 0x05 ∧ e.source = BitVec.ofNat 8 c.val)) ∧
      (∀ x before after, s.ready m { op := 0x29, d := some d, imm := some imm } = true →
        chanFor m (imm.toNat % 32) = some c → (∀ r ∈ before, r.chan ≠ c) →
        s.smiths[m].mrr = before ++ { chan := c, value := some x } :: after →
        ∃ t, exec (.rdmr m d imm) s = .next t ∧ t.g m d = (if d = 0 then 0 else x.setWidth 32) ∧
          t.smiths[m].mrr = before ++ after ∧ t.smiths[m].run = .running ∧ t.smiths[m].pc = wrapPc m next ∧
          Only (· = .smith m) s t) ∧
      (s.ready m { op := 0x2C, d := some d, a := some a, imm := some imm } = true →
        chanFor m (w.toNat % 32) = some c → 1 ≤ imm.toNat → imm.toNat ≤ 512 → s.pausedBy m c = false →
        (s.modes.mode = .kindle → ∃ t, exec (.pause m d a imm now) s = .next t ∧
          t.anvils[c].granted = s.anvils[c].granted ++ [{ smith := m, n := imm.toNat, start := s.anvils[c].ck }] ∧
          t.g m d = (if d = 0 then 0 else BitVec.ofNat 32 (s.timeAt now)) ∧ t.smiths[m].run = .running ∧
          t.smiths[m].pc = wrapPc m next ∧ Only (fun p => p = .smith m ∨ p = .anvil c ∨ p = .time) s t) ∧
        ((s.modes.mode = .forge ∨ s.modes.mode = .lowfire) → s.modes.step = .none →
          ∃ t, exec (.pause m d a imm now) s = .next t ∧
          t.anvils[c].pauses = s.anvils[c].pauses ++
            [{ smith := m, n := imm.toNat, time := s.timeAt now, prep := false, forced := false }] ∧
          t.anvils[c].granted = s.anvils[c].granted ∧
          t.smiths[m] = { s.smiths[m] with run := .waiting, wait := some (.pause d c) } ∧
          Only (fun p => p = .smith m ∨ p = .anvil c ∨ p = .time) s t)) ∧
      (∀ expired, s.ready m { op := 0x2D, d := some d, a := some a } = true → chanFor m (w.toNat % 32) = some c →
        s.anvils[c].owed.find? (fun o => o.1 == m) = some (m, expired) →
        ∃ t, exec (.endp m d a) s = .next t ∧ here t ∧ t.pausedBy m c = false ∧
          t.g m d = (if d = 0 ∨ s.modes.mode = .kindle ∨ expired = false then 0 else 1) ∧
          t.smiths[m].run = .running ∧ t.smiths[m].pc = wrapPc m next)

/-- 02 R81 to R84 and 07 R252: DLY, EYE, OSC and the events that end them. -/
def Obligations.SmithPhyInstructionsAndTheirEnds : Prop :=
  ∀ (s : State) (m : SmithId) (d a b : RegNo) (c : Chan) (ck : Nat),
    let l := lanesOf (s.g m a)
    let next := s.smiths[m].pc.toNat + 1
    (s.ready m { op := 0x30, a := some a, b := some b } = true → chanFor m l.chan = some c → s.holds m c = true →
      ¬ (l.cls = 0 ∧ l.all = false ∧ l.bitNo = 7) →
      ∃ t, exec (.dly m a b) s = .next t ∧ Only (· = .smith m) s t ∧ t.smiths[m] = { s.smiths[m] with
        run := .waiting, wait := some (.dly c l.offsets ((s.g m b).setWidth 10) (s.anvils[c].ck + 6)) }) ∧
    (∀ offsets code due, s.smiths[m].wait = some (.dly c offsets code due) → s.pllLock c = true → due ≤ ck →
      GoesOn s m next → ∃ t, exec (.dlyEffect m ck) s = .next t ∧
        (∀ o, dlyOffset o = true → o ∈ offsets → SMap.get (fun _ => 0) t.anvils[c].live o = code ∧
          t.anvils[c].dlyGet (128 * s.fsp c + o) = code) ∧
        (∀ o, o ∉ offsets → SMap.get (fun _ => 0) t.anvils[c].live o = SMap.get (fun _ => 0) s.anvils[c].live o) ∧
        t.anvils[c].dram = s.anvils[c].dram ∧ t.smiths[m].run = .running ∧ t.smiths[m].pc = wrapPc m next ∧
        Only (fun p => p = .smith m ∨ p = .anvil c) s t) ∧
    (s.ready m { op := 0x31, d := some d, a := some a, b := some b } = true → chanFor m l.chan = some c →
      s.holds m c = true → ¬ (l.cls = 0 ∧ l.all = false ∧ l.bitNo = 7) →
      (patternClasses ((s.g m b).toNat % 16)).contains l.cls = true →
      ∃ t, exec (.eye m d a b) s = .next t ∧ Only (· = .smith m) s t ∧
        t.smiths[m] = { s.smiths[m] with run := .waiting, wait := some (.eye d c l.rank ((s.g m b).toNat % 16) l.mask) }) ∧
    (∀ rank pattern mask samples, s.smiths[m].wait = some (.eye d c rank pattern mask) → s.working m = false →
      s.pllLock c = true → samples.length = s.fld (aEYECFG c.val) 7 0 + 1 → GoesOn s m next →
      ∃ t w, exec (.eyeEnd m samples) s = .next t ∧ Finished s t m d w next ∧
        ∀ i, w.getLsbD i = (mask.getLsbD i && samples.all (fun x => (s.anvils[c].eyeMap rank pattern x).getLsbD i))) ∧
    (s.ready m { op := 0x32, d := some d, a := some a } = true → chanFor m l.chan = some c →
      cmdAllowed s m c .mrr 0 → ∃ t, exec (.osc m d a) s = .next t ∧
        t.smiths[m] = { s.smiths[m] with run := .waiting, wait := some (.osc d c l.rank l.osc) } ∧
        (∃ e, t.anvils[c].heat7.map Prod.fst = s.anvils[c].heat7.map Prod.fst ++ [e] ∧ e.code = .mpc ∧ e.rank = l.rank ∧
          e.op = Config.oscStart l.osc ∧ e.src = .osc m) ∧ Only (fun p => p = .smith m ∨ p = .anvil c) s t) ∧
    (∀ rank dqo lower upper, s.smiths[m].wait = some (.osc d c rank dqo) → s.working m = false →
      (s.anvils[c].bursts.filter (fun x => x.cmd.code == .mrr && x.cmd.src == .osc m)).length = 2 → GoesOn s m next →
      ∃ t, exec (.oscEnd m lower upper) s = .next t ∧
        t.g m d = (if d = 0 then 0
          else BitVec.ofNat 32 (lower.toNat + 2 ^ 16 * (if Config.byteMode c.val then upper.toNat else 0))) ∧
        t.smiths[m] = { s.smiths[m] with g := t.smiths[m].g, pc := wrapPc m next, run := .running, wait := none } ∧
        t.anvils[c].bursts = s.anvils[c].bursts.filter (fun x => !(x.cmd.code == .mrr && x.cmd.src == .osc m)) ∧
        Only (fun p => p = .smith m ∨ p = .anvil c) s t)

/-- Event `n` is the lowest one of `mask` that is pending in a Smith. -/
def lowestPending (h : Smith) (mask : BitVec 16) (n : Fin 16) : Prop :=
  (h.evpend &&& mask).getLsbD n.val = true ∧ ∀ k : Fin 16, k < n → (h.evpend &&& mask).getLsbD k.val = false

/-- 02 R85: the waits of a Smith that goes on at pc + 1. -/
def Obligations.SmithWaitsEndAtTheirTimeOrEvent : Prop :=
  ∀ (s : State) (m : SmithId) (d a : RegNo) (imm : BitVec 14) (c : Chan) (now ck : Nat) (n : Fin 16),
    let h := s.smiths[m]
    let w := s.g m a
    let next := h.pc.toNat + 1
    let u := s.timeAt now
    let ns := (w.toNat + imm.toNat) % 2 ^ 32
    let timed_ (t : State) : Prop := Only (fun p => p = .smith m ∨ p = .time) s t
    let woken (t : State) : Prop := timed_ t ∧ t.timebase = u ∧ t.smiths[m].run = .running ∧
      t.smiths[m].pc = wrapPc m next ∧ t.smiths[m].dmem = h.dmem
    GoesOn s m next →
      (s.ready m { op := 0x34, a := some a, imm := some imm } = true → chanFor m (w.toNat % 32) = some c →
        (imm.toNat = 0 → ∃ t, exec (.wck m a imm ck) s = .next t ∧ Finished s t m 0 0 next) ∧
        (imm.toNat ≠ 0 → ∃ t, exec (.wck m a imm ck) s = .next t ∧ Only (· = .smith m) s t ∧
          t.smiths[m] = { h with run := .waiting, wait := some (.wck c (ck + imm.toNat)) })) ∧
      (∀ due, h.wait = some (.wck c due) → due ≤ ck →
        ∃ t, exec (.wckEnd m ck) s = .next t ∧ Finished s t m 0 0 next) ∧
      (s.ready m { op := 0x35, a := some a, imm := some imm } = true →
        (ns = 0 → ∃ t, exec (.wns m a imm now) s = .next t ∧ woken t ∧ ∀ x, t.g m x = s.g m x) ∧
        (ns ≠ 0 → ∃ t, exec (.wns m a imm now) s = .next t ∧ timed_ t ∧
          t.smiths[m] = { h with run := .waiting, wait := some (.wns (u + ns)) })) ∧
      (∀ due, h.wait = some (.wns due) → due ≤ u →
        ∃ t, exec (.wnsEnd m now) s = .next t ∧ woken t ∧ ∀ x, t.g m x = s.g m x) ∧
      (s.ready m { op := 0x36, d := some d, a := some a, imm := some imm } = true →
        (lowestPending h (w.setWidth 16) n → ∃ t, exec (.wev m d a imm now) s = .next t ∧ woken t ∧
          t.g m d = (if d = 0 then 0 else BitVec.ofNat 32 n.val) ∧
          ∀ k : Fin 16, t.smiths[m].evpend.getLsbD k.val = (decide (k ≠ n) && h.evpend.getLsbD k.val)) ∧
        (h.evpend &&& w.setWidth 16 = 0 → ∃ t, exec (.wev m d a imm now) s = .next t ∧ timed_ t ∧
          t.smiths[m] = { h with run := .waiting, wait := some (.wev d (w.setWidth 16)
            (if imm.toNat = 0 then none else some (u + 1000 * imm.toNat))) })) ∧
      (∀ mask limit, h.wait = some (.wev d mask limit) →
        (lowestPending h mask n → ∃ t, exec (.wevEnd m now) s = .next t ∧ woken t ∧
          t.g m d = (if d = 0 then 0 else BitVec.ofNat 32 n.val) ∧
          ∀ k : Fin 16, t.smiths[m].evpend.getLsbD k.val = (decide (k ≠ n) && h.evpend.getLsbD k.val)) ∧
        (∀ e, h.evpend &&& mask = 0 → limit = some e → e ≤ u → ∃ t, exec (.wevEnd m now) s = .next t ∧ woken t ∧
          t.g m d = (if d = 0 then 0 else 16) ∧ t.smiths[m].evpend = h.evpend))

/-- 02 R61, with the period of event 0 (R60). -/
def Obligations.SmithEventsDispatchLowestAndTickOccurs : Prop :=
  ∀ (s : State) (m : SmithId) (n : Fin 16) (now : Nat),
    let h := s.smiths[m]
    let taken := h.evpend &&& ~~~ BitVec.ofNat 16 (2 ^ n.val)
    let entry := h.vec[n].toNat % 2 ^ 13
    ((s.image m).reference = false → h.run = .idle → lowestPending h h.evmask n →
      (h.vec[n].getLsbD 31 = true → GoesOn s m entry → ∃ t, exec (.eventDispatch m) s = .next t ∧
        t.smiths[m] = { h with run := .running, pc := wrapPc m entry, wait := none, evpend := taken,
                               evcause := BitVec.ofNat 5 n.val } ∧ Only (· = .smith m) s t) ∧
      (h.vec[n].getLsbD 31 = false → ∃ t, exec (.eventDispatch m) s = .next t ∧
        t.smiths[m] = { h with evpend := taken, evcause := BitVec.ofNat 5 n.val } ∧ Only (· = .smith m) s t)) ∧
    (h.tick ≠ 0 → h.tickFrom + 1000 * h.tick.toNat ≤ s.timeAt now → ∃ t, exec (.tick m now) s = .next t ∧
      t.smiths[m] = { h with evpend := h.evpend ||| 1, tickFrom := h.tickFrom + 1000 * h.tick.toNat } ∧
      t.timebase = s.timeAt now ∧ Only (fun p => p = .smith m ∨ p = .time) s t)

/-- 02 R86 to R88 and 12 R418: signals, slot table instructions and RAISE. -/
def Obligations.SmithSignalsSlotTablesAndRaise : Prop :=
  ∀ (s : State) (m k : SmithId) (d a b : RegNo) (imm : BitVec 14) (c : Chan) (now : Nat),
    let h := s.smiths[m]
    let x := s.g m a
    let next := h.pc.toNat + 1
    let u := s.timeAt now
    let mask : BitVec 25 := x.setWidth 25
    let quiet (t : State) : Prop := Only (fun p => p = .smith m ∨ p = .time) s t
    GoesOn s m next →
      (s.ready m { op := 0x38, a := some a, imm := some imm } = true → (m = masterSmith ↔ k ≠ masterSmith) →
        x + BitVec.ofInt 32 imm.toInt = BitVec.ofNat 32 k.val → ∃ t, exec (.sig m a imm) s = .next t ∧
          t.smiths[k] = { s.smiths[k] with sigset := s.smiths[k].sigset ||| BitVec.ofNat 25 (2 ^ m.val),
                                           evpend := s.smiths[k].evpend ||| 2 } ∧
          t.smiths[m].pc = wrapPc m next ∧ Only (fun p => p = .smith m ∨ p = .smith k) s t) ∧
      (s.ready m { op := 0x38, a := some a, imm := some imm } = true → m = masterSmith →
        x + BitVec.ofInt 32 imm.toInt = 31 → ∃ t, exec (.sig m a imm) s = .next t ∧
          (∀ c, t.smiths[anvilSmith c] = { s.smiths[anvilSmith c] with
            sigset := s.smiths[anvilSmith c].sigset ||| BitVec.ofNat 25 (2 ^ 24),
            evpend := s.smiths[anvilSmith c].evpend ||| 2 }) ∧ t.smiths[m].pc = wrapPc m next) ∧
      (s.ready m { op := 0x39, d := some d, a := some a, imm := some imm } = true →
        (h.sigset &&& mask = mask → ∃ t, exec (.wsig m d a imm now) s = .next t ∧ quiet t ∧
          t.smiths[m].sigset = h.sigset &&& ~~~ mask ∧ t.g m d = 0 ∧ t.smiths[m].pc = wrapPc m next) ∧
        (h.sigset &&& mask ≠ mask → ∃ t, exec (.wsig m d a imm now) s = .next t ∧ quiet t ∧
          t.smiths[m] = { h with run := .waiting, wait := some (.wsig d mask
            (if imm.toNat = 0 then none else some (u + 1000 * imm.toNat))) })) ∧
      (∀ awaited limit, h.wait = some (.wsig d awaited limit) →
        (h.sigset &&& awaited = awaited → ∃ t, exec (.wsigEnd m now) s = .next t ∧ quiet t ∧
          t.smiths[m].sigset = h.sigset &&& ~~~ awaited ∧ t.g m d = 0 ∧ t.smiths[m].pc = wrapPc m next) ∧
        (∀ e, h.sigset &&& awaited ≠ awaited → limit = some e → e ≤ u → ∃ t, exec (.wsigEnd m now) s = .next t ∧
          quiet t ∧ t.smiths[m].sigset = h.sigset ∧ t.g m d = (if d = 0 then 0 else 1) ∧
          t.smiths[m].pc = wrapPc m next)) ∧
      (s.ready m { op := 0x3A, a := some a, b := some b, imm := some imm } = true →
        chanFor m (imm.toNat % 32) = some c → s.slotPend c.val = false → ∃ t, exec (.slw m a b imm) s = .next t ∧
          (∀ bank i, t.anvils[c].slotEntry bank i =
            if bank = !s.slotAct c.val ∧ i = x.toNat % 1024 then (s.g m b).setWidth 8 else s.anvils[c].slotEntry bank i) ∧
          t.smiths[m].pc = wrapPc m next ∧ Only (fun p => p = .smith m ∨ p = .anvil c) s t) ∧
      (s.ready m { op := 0x3B, d := some d, a := some a, b := some b, imm := some imm } = true →
        chanFor m (imm.toNat % 32) = some c → s.slotPend c.val = false →
        u + 32 ≤ (s.g m b).toNat * 2 ^ 32 + x.toNat → ∃ t, exec (.slc m d a b imm now) s = .next t ∧
          t.rd (aTLO c.val) = x ∧ t.rd (aTHI c.val) = s.g m b ∧ t.slotPend c.val = true ∧ t.g m d = 0 ∧
          t.smiths[m].pc = wrapPc m next ∧
          Only (fun p => p = .smith m ∨ p = .time ∨ p = .reg (aTLO c.val) ∨ p = .reg (aTHI c.val) ∨ p = .reg (aSLOT c.val)) s t) ∧
      (s.ready m { op := 0x3E, d := some d, a := some a, b := some b, imm := some imm } = true →
        1 ≤ imm.toNat % 256 → imm.toNat % 256 ≤ 0x1E → ∃ t, exec (.raise m d a b imm) s = .next t ∧
          t.smiths[m] = { h with run := .waiting, wait := some (.raise (imm.getLsbD 10)) } ∧
          (∃ e, t.faults.arriving = s.faults.arriving ++ [e] ∧ e.kind = imm.setWidth 8 ∧ e.sev.toNat = imm.toNat / 256 % 4 ∧
            e.addr.toNat = (s.g m b).toNat % 512 * 2 ^ 32 + x.toNat ∧ e.detail.toNat = (s.g m d).toNat % 2 ^ 23 ∧
            e.source = (if m = masterSmith then 0x50 else BitVec.ofNat 8 m.val)) ∧
          Only (fun p => p = .smith m ∨ p = .faults) s t)

/-- A Smith right after a start (02 R90). -/
def startedSmith (h : Smith) (entry : BitVec 13) (now : Nat) : Smith :=
  { h with run := .running, pc := entry, g := Vector.replicate 16 0, evpend := 0, evmask := 0, evcause := 0, tick := 0,
           tickFrom := now, sigset := 0, vec := Vector.replicate 16 0, wait := none, stopReq := false, mrr := [] }

/-- 02 R90, with R91 and Table 2.21: host control of the Smiths. -/
def Obligations.HostStartsStopsAndSignalsSmiths : Prop :=
  ∀ (s : State) (w : Word) (c : Chan) (k : SmithId) (j : Fin 3),
    let ms := s.smiths[masterSmith]
    let as := s.smiths[anvilSmith c]
    let entered (i : Image) : Prop := i.accepted = true ∧ i.reference = false ∧ i.entry.toNat < i.length ∧
      opcodes.contains (opcodeOf (i.mem.get i.entry.toNat)) = true
    s.modes.mode ≠ .cold → (s.modes.mode ≠ .banked) →
      (w = 1 → ms.run = .stopped → entered s.imageMS → ∃ t, exec (.msStart w) s = .next t ∧
        t.smiths[masterSmith] = startedSmith ms s.imageMS.entry s.timebase ∧ t.flag aSTATE1 18 = false ∧
        HostOnly (fun p => p = .smith masterSmith ∨ p = .reg aSTATE1) s t) ∧
      (w = 1 → s.imageMS.accepted = false → ∃ t, exec (.msStart w) s = .next t ∧
        t.flag aLOAD 13 = true ∧ HostOnly (· = .reg aLOAD) s t) ∧
      (w = 4 → s.imageAS.accepted = false → (∃ x : Chan, s.flag aAS_SEL x.val = true) → ∃ t, exec (.asStart w) s = .next t ∧
        t.flag aLOAD 13 = true ∧ HostOnly (· = .reg aLOAD) s t) ∧
      (w = 1 → s.imageMS.accepted = true → ms.run ≠ .stopped → ∃ t, exec (.msStart w) s = .next t ∧
        HostOnly (fun _ => False) s t) ∧
      (w = 4 → s.imageAS.accepted = true → (∀ x : Chan, s.flag aAS_SEL x.val = true → s.smiths[anvilSmith x].run ≠ .stopped) →
        ∃ t, exec (.asStart w) s = .next t ∧ HostOnly (fun _ => False) s t) ∧
      (w = 2 → (ms.run = .idle ∨ ms.run = .running) → ∃ t, exec (.msStop w) s = .next t ∧
        t.smiths[masterSmith] = { ms with run := .stopped, wait := none, stopReq := false, mrr := [] } ∧
        ∀ c, t.smiths[anvilSmith c] = s.smiths[anvilSmith c]) ∧
      (w = 4 → as.run = .stopped → entered s.imageAS → ∃ t, exec (.asStart w) s = .next t ∧
        t.smiths[anvilSmith c] = (if s.flag aAS_SEL c.val then startedSmith as s.imageAS.entry s.timebase else as) ∧
        t.smiths[masterSmith] = ms) ∧
      (w = 8 → (as.run = .idle ∨ as.run = .running) → ∃ t, exec (.asStop w) s = .next t ∧
        t.smiths[anvilSmith c] = (if s.flag aAS_SEL c.val then
          { as with run := .stopped, wait := none, stopReq := false, mrr := [] } else as) ∧ t.smiths[masterSmith] = ms) ∧
      (∃ t, exec (.smiEvset w) s = .next t ∧
        (t.smiths[k].evpend.getLsbD (13 + j.val) = (s.smiths[k].evpend.getLsbD (13 + j.val) ||
          (w.getLsbD (24 + j.val) && w.getLsbD (if k = masterSmith then 31 else k.val)))) ∧
        (∀ n, n < 13 → t.smiths[k].evpend.getLsbD n = s.smiths[k].evpend.getLsbD n) ∧
        HostOnly (fun p => ∃ m, p = .smith m) s t)

/-- 02 R95 to R97 and 18 R570: the images of the Smiths. `anvil` selects the Anvil Smith image. -/
def Obligations.ImageVerificationAcceptsOrRefuses : Prop :=
  ∀ (s : State) (anvil reference : Bool) (w : Word) (i : Nat),
    let image (s : State) : Image := if anvil then s.imageAS else s.imageMS
    let idle : Prop := if anvil then ∀ c : Chan, s.smiths[anvilSmith c].run = .stopped
      else s.smiths[masterSmith].run = .stopped
    (s.modes.mode ≠ .cold → s.modes.mode ≠ .banked →
      (w = (if anvil then 3 else 1) → s.verify = none →
        (idle → ∃ t, exec (.go w) s = .next t ∧ t.verify = some anvil ∧ t.fld aLOAD 6 4 = 1 ∧ (image t).accepted = false ∧
          (image t).mem = (image s).mem ∧
          HostOnly (fun p => p = .verify ∨ p = .reg aLOAD ∨ p = (if anvil then .imageAS else .imageMS) ∨ p = .reg (aVer anvil)) s t) ∧
        (¬ idle → ∃ t, exec (.go w) s = .next t ∧ t.fld aLOAD 6 4 = 6 ∧ HostOnly (· = .reg aLOAD) s t)) ∧
      (i < (if anvil then 0x1000 else 0x2000) →
        let addr : BitVec 24 := BitVec.ofNat 24 ((if anvil then 0x110000 else 0x100000) + 4 * i)
        (idle → s.verify ≠ some anvil → ∃ t, exec (.instructionMemoryWrite addr w) s = .next t ∧
          (∀ k, (image t).mem.get k = if k = i then w else (image s).mem.get k) ∧ (image t).accepted = false ∧
          HostOnly (fun p => p = (if anvil then .imageAS else .imageMS) ∨ p = .reg (aVer anvil)) s t) ∧
        (¬ idle ∨ s.verify = some anvil → ∃ t, exec (.instructionMemoryWrite addr w) s = .next t ∧
          t.flag aLOAD 12 = true ∧ HostOnly (· = .reg aLOAD) s t))) ∧
    (s.modes.gated = false → s.verify = some anvil →
      (s.headerGood anvil = true → s.tagMatches anvil = true → ∃ t, exec (.verifyEnd reference) s = .next t ∧
        t.fld aLOAD 6 4 = 2 ∧ t.verify = none ∧ (image t).accepted = true ∧ (image t).length = s.hdrLength ∧
        (image t).entry.toNat = s.hdrEntry ∧ (image t).mem = (image s).mem ∧ t.rd (aVer anvil) = s.rd (aHDR 3) ∧
        t.faults = s.faults) ∧
      (s.headerGood anvil = false → ∃ t, exec (.verifyEnd reference) s = .next t ∧ t.fld aLOAD 6 4 = 5 ∧
        t.verify = none ∧ (image t).accepted = false ∧ t.rd (aVer anvil) = 0 ∧ t.faults = s.faults))

/-- A request as it stands right after its transfer (03 R108). -/
def newReq (v : Port) (op : BitVec 4) (addr len : Nat) (tag : BitVec 9) (label : Nat) (colour : BitVec 2)
    (attr : BitVec 4) (stage : Stage) : Req :=
  { id := v.nextId, op := op, addr := addr, len := len, tag := tag, label := label, colour := colour, attr := attr,
    beats := [], stage := stage, cause := 0, refusal := none, dropInj := false, time := 0, epoch := 0, booked := 0, heat := 0,
    overBud := false, sent := 0, parts := [], flip := Flip.none }

/-- No write of the port has all its beats and still awaits an answer for what the port adapter found. -/
def noneUnjudged (v : Port) : Prop :=
  ∀ r ∈ v.reqs, isWriteOp r.op = true → r.len < r.beats.length →
    r.stage ≠ .draining ∧ (r.stage = .crossing → r.cause = 0 ∧ r.refusal = none ∧ r.dropInj = false) ∧
    (r.stage = .crossing ∨ r.stage = .queued → lastGood r.beats = true)

/-- 03 R101, R108, R111, R117 and R119: requests at the request channel of port `p`. -/
def Obligations.ClientRequestsBecomeOutstanding : Prop :=
  ∀ (s : State) (p : PortId) (op : BitVec 4) (addr : BitVec 41) (len : BitVec 6) (tag : BitVec 9) (label : BitVec 5)
    (colour : BitVec 2) (attr : BitVec 4),
    let v := s.ports[p]
    let fits : Bool := decide (addr.toNat / 64 * 64 % 4096 + 64 * (len.toNat + 1) ≤ 4096)
    let refused := s.adapterRefusal addr.toNat len.toNat
    let joins (i : Instr) (r : Req) : Prop := ∃ t, exec i s = .next t ∧
      t.ports[p] = { v with reqs := v.reqs ++ [r], nextId := v.nextId + 1 } ∧ Only (· = .port p) s t
    let new (op : BitVec 4) : Req := newReq v op addr.toNat len.toNat tag label.toNat colour attr .crossing
    let write (op : BitVec 4) : Req :=
      { new op with stage := if fits && refused.isNone then .crossing else .draining, cause := if fits then 0 else 2, refusal := refused }
    let reply (status : BitVec 4) : List Resp :=
      v.respq ++ [{ req := v.nextId, tag := tag, status := status, data := false, beats := [(0, false)] }]
    let answered (i : Instr) (st : Status) : Prop := ∃ t, exec i s = .next t ∧ t.ports[p].respq = reply (BitVec.ofNat 4 st.code) ∧
      Only (· = .port p) s t
    let wrong (i : Instr) (cause : Nat) : Prop := ∃ t, exec i s = .next t ∧ t.ports[p].respq = reply 7 ∧
      (∃ e, t.faults.arriving = s.faults.arriving ++ [e] ∧ e.kind = 0x0C ∧ e.source = 0x41 ∧
        e.addr = BitVec.ofNat 41 (addr.toNat / 64 * 64) ∧ e.detail = BitVec.ofNat 23 (p.val + cause * 2 ^ 8)) ∧
      Only (fun x => x = .port p ∨ x = .faults ∨ x = .reg aPERR) s t
    s.reqReady p = true → s.armed false p.val 1 = false → v.early = [] → noneUnjudged v →
      joins (.write p addr len tag label colour attr) (write 1) ∧
      joins (.writeMasked p addr len tag label colour attr) (write 2) ∧
      (fits = true → refused = none →
        joins (.read p 0 addr len tag label colour attr) (new 0) ∧ joins (.hint p addr len tag label colour attr) (new 4)) ∧
      (s.modes.mode ≠ .quench → joins (.seal p tag) (newReq v 3 0 0 tag 0 0 0 .seal)) ∧
      ((∀ r ∈ v.reqs, r.id ≠ v.nextId) →
        (∀ st, fits = true → refused = some st →
          answered (.read p 0 addr len tag label colour attr) st ∧ answered (.hint p addr len tag label colour attr) st) ∧
        (s.modes.mode = .quench → answered (.seal p tag) .denied) ∧
        (5 ≤ op.toNat → wrong (.read p op addr len tag label colour attr) 1) ∧
        (fits = false → wrong (.read p 0 addr len tag label colour attr) 2 ∧ wrong (.hint p addr len tag label colour attr) 2))

/-- 03 R109, R110, R127 and 01 R40: beats, PANIC and SEAL on port `p`. -/
def Obligations.WriteAndResponseBeatsTransferInOrder : Prop :=
  ∀ (s : State) (p : PortId) (data : Sector) (be : BitVec 64) (wpoison wlast : Bool) (level : BitVec 2)
    (before after : List Req) (r : Req),
    let v := s.ports[p]
    let b : Beat := { data := data, be := be, wpoison := wpoison, wlast := wlast }
    let becomes (i : Instr) (v' : Port) : Prop := ∃ t, exec i s = .next t ∧ t.ports[p] = v' ∧ Only (· = .port p) s t
    (s.wReady p = true → noneUnjudged v →
      ((∀ q ∈ v.reqs, q.owes = false) → becomes (.writeBeat p data be wpoison wlast) { v with early := v.early ++ [b] }) ∧
      (v.reqs = before ++ r :: after → (∀ q ∈ before, q.owes = false) → r.owes = true → r.beats.length < r.len →
        (∀ q ∈ before ++ after, q.id ≠ r.id) → becomes (.writeBeat p data be wpoison wlast)
          { v with reqs := before ++ { r with beats := r.beats ++ [b] } :: after }) ∧
      (∀ st, v.reqs = before ++ r :: after → (∀ q ∈ before, q.owes = false) → (∀ q ∈ before ++ after, q.id ≠ r.id) →
        r.stage = .draining → isWriteOp r.op = true → r.beats.length = r.len → lastGood (r.beats ++ [b]) = true → r.cause = 0 →
        r.dropInj = false → r.refusal = some st → r.flip = Flip.none → becomes (.writeBeat p data be wpoison wlast)
          { v with reqs := before ++ { r with stage := .answered, beats := [] } :: after,
                   respq := v.respq ++ [{ req := r.id, tag := r.tag, status := BitVec.ofNat 4 st.code, data := false,
                                          beats := [(0, false)] }] })) ∧
    (∀ (q : Resp) (rest : List Resp) (x : Sector × Bool) (more : List (Sector × Bool)),
      s.armed false p.val 2 = false → s.armed false p.val 3 = false → v.respq = q :: rest → q.beats = x :: more →
      becomes (.responseBeat p) { v with
        out := some { tag := q.tag, status := q.status, data := x.1, rpoison := x.2, rlast := decide (more = []) },
        reserved := if q.data then v.reserved - 1 else v.reserved,
        respq := if more = [] then rest else { q with beats := more } :: rest,
        reqs := if more = [] then v.reqs.filter (fun y => y.id != q.req) else v.reqs }) ∧
    (s.portEn p = true ∨ s.portActive p = true → (s.staticHeat p).isSome = true → becomes (.panic p level) { v with panic := level }) ∧
    (v.reqs = before ++ r :: after → (∀ q ∈ before, q.openWrite = false ∧ q.stage ≠ .seal ∧ q.id ≠ r.id) →
      (∀ q ∈ after, q.id ≠ r.id) → r.stage = .seal → isWriteOp r.op = false → r.flip = Flip.none →
      becomes (.sealDone p) { v with
        reqs := before ++ { r with stage := .answered, beats := [] } :: after,
        respq := v.respq ++ [{ req := r.id, tag := r.tag, status := 11, data := false, beats := [(0, false)] }] })

/-- 03 R104, with R101 and R132: the port registers. -/
def Obligations.PortEnableDisableAndHaltRegisters : Prop :=
  ∀ (s : State) (p : PortId) (k : Fin 4) (w : Word),
    let written (t : State) : Prop := t.rd (aSWD_EN k.val) = w ∧
      t.rd (aSWD_ACTIVE k.val) = s.rd (aSWD_ACTIVE k.val) ||| w ∧
      HostOnly (fun x => x = .reg (aSWD_EN k.val) ∨ x = .reg (aSWD_ACTIVE k.val)) s t
    (s.modes.mode ≠ .cold → s.modes.mode ≠ .banked →
      (∃ t, exec (.portEnable k w) s = .next t ∧ written t) ∧ (∃ t, exec (.portDisable k w) s = .next t ∧ written t) ∧
      (∃ t, exec (.haltClear p w) s = .next t ∧ t.rd (aHALT p.val) = s.rd (aHALT p.val) &&& ~~~ w ∧
        HostOnly (· = .reg (aHALT p.val)) s t)) ∧
    (s.portEn p = false → s.portActive p = true → s.ports[p].reqs = [] → s.ports[p].early = [] →
      ∃ t, exec (.portDrainEnd p) s = .next t ∧
        (∀ q : PortId, t.portActive q = (decide (q ≠ p) && s.portActive q)) ∧
        Only (· = .reg (aSWD_ACTIVE (p.val / 32))) s t)

/-- 11 R377, R380, R384 and R390: acceptance, the wheel and the window of port `p`. -/
def Obligations.BellowsAcceptsCountsAndHalts : Prop :=
  ∀ (s : State) (p : PortId) (now : Nat) (before after : List Req) (r : Req) (l : Fin 32),
    let v := s.ports[p]
    let u := s.timeAt now
    let n := u / 64
    let here (t : State) : Prop := Only (fun x => x = .port p ∨ x = .time) s t ∧ t.timebase = u
    let counted := 64 * (r.len + 1) +
      8 * (if isWriteOp r.op then s.fld (aLabel p.val r.label 1) 19 16 else s.fld (aLabel p.val r.label 1) 15 12)
    let budget := 16384 * s.fld (aBLW_CFG p.val) 29 16
    let beyond (count : Nat) : Bool := budget != 0 && decide (budget < count)
    let answered (t : State) (status : BitVec 4) (q : Req) : Prop :=
      t.ports[p].respq = v.respq ++ [{ req := r.id, tag := r.tag, status := status, data := false, beats := [(0, false)] }] ∧
      t.ports[p].reqs = before ++ { q with stage := .answered, beats := [] } :: after
    (v.reqs = before ++ r :: after → (∀ q ∈ before, q.stage ≠ .crossing ∧ q.id ≠ r.id) → (∀ q ∈ after, q.id ≠ r.id) →
      r.stage = .crossing → r.label < 32 → r.flip = Flip.none → u ≤ v.boundary →
      (s.flag (aHALT p.val) r.label = true → ∃ t, exec (.requestAccept p now) s = .next t ∧ here t ∧
        t.ports[p].count = v.count ∧ (r.lacksBeats = false → answered t 4 r) ∧
        (r.lacksBeats = true → t.ports[p].respq = v.respq ∧
          t.ports[p].reqs = before ++ { r with stage := .draining, refusal := some .halted } :: after)) ∧
      (s.flag (aHALT p.val) r.label = false → s.fld (aLabel p.val r.label 1) 21 20 = 0 →
        ∃ t, exec (.requestAccept p now) s = .next t ∧ here t ∧ t.ports[p].count = v.count + counted ∧
          t.ports[p].respq = v.respq ∧
          t.ports[p].reqs = before ++
            { r with stage := .queued, time := u, epoch := v.epoch, booked := counted, colour := 0, overBud := beyond (v.count + counted) } :: after) ∧
      (s.flag (aHALT p.val) r.label = false → s.fld (aLabel p.val r.label 1) 21 20 = 1 → (r.op = 4 ∨ bit r.attr.toNat 3 = true) →
        r.lacksBeats = false →
        v.labels[labelOf r.label].tp + (n - v.labels[labelOf r.label].npol) *
          rateQ (s.fld (aLabel p.val r.label 0) 15 8) < 16 * counted →
        ∃ t, exec (.requestAccept p now) s = .next t ∧ here t ∧ answered t 9 { r with epoch := v.epoch, booked := counted } ∧ t.ports[p].count = v.count + counted)) ∧
    (v.boundary ≤ u → ∃ t, exec (.windowBoundary p now) s = .next t ∧ here t ∧
      t.ports[p] = { v with epoch := v.epoch + 1, count := 0, window := s.fld (aBLW_CFG p.val) 15 6 + 1,
                            boundary := v.boundary + 1000 * (s.fld (aBLW_CFG p.val) 15 6 + 1) }) ∧
    (∀ k, v.labels[l].parked = some k → k ≤ n →
      (s.head p l.val = none → ∃ t, exec (.shaperWheelDue p now) s = .next t ∧ here t ∧
        t.ports[p].labels[l].parked = none ∧ t.ports[p].reqs = v.reqs) ∧
      (s.head p l.val = some r → s.flag (aLabel p.val l.val 1) 22 = true →
        let q := s.shapeQ p.val l.val
        let ts := min (burstSize (s.fld (aLabel p.val l.val 1) 3 0)) (v.labels[l].ts + (n - v.labels[l].nsh) * q)
        ∃ t, exec (.shaperWheelDue p now) s = .next t ∧ here t ∧ t.ports[p].reqs = v.reqs ∧
          t.ports[p].labels[l].ts = ts ∧ t.ports[p].labels[l].nsh = n ∧
          t.ports[p].labels[l].parked = (if s.counted16 p.val r ≤ ts then none
            else some (n + min 255 (ceilDiv (s.counted16 p.val r - ts) q)))))

/-- 11 R375, R387, R389, R398 with 01 R24 and R27: the release of a request of one piece. -/
def Obligations.ReleaseSendsPieceIntoTheTongs : Prop :=
  ∀ (s : State) (p : PortId) (now : Nat) (r : Req) (a n tag : Nat),
    let v := s.ports[p]
    let s' := s.at now
    let chosen : Prop :=
      (v.selected = some r.id ∧ v.reqs.find? (fun q => q.id == r.id && s'.inQueue q) = some r) ∨
      (v.selected = none ∧
        (List.range (s.strict p.val)).findSome? (fun l => s'.eligible p l) = some r ∧
        v.reqs.find? (fun q => q.id == r.id && s'.inQueue q) = some r)
    s.tongs.bitten = none → s'.tagFirst p = true → chosen → r.sent = 0 → s.piecesOf r = [(a, n)] → s.freeTag = some tag → r.label < 32 →
      s.peerLost a = false →
      v.reserved + pieceBeats r n ≤ 128 → (∀ q ∈ v.reqs, q.id = r.id → q = r) →
      ∃ t x, exec (.release p now) s = .next t ∧ t.pieces = s.pieces ++ [x] ∧
        x.tag = tag ∧ x.origin = .port p r.id 0 ∧ x.op = r.op ∧ x.addr = a ∧ x.sectors = n ∧ x.label = r.label ∧
        x.attr = r.attr ∧ x.heat = s'.heatOf p r ∧ x.beats = r.beats.take n ∧
        t.tongs.reqNet = s.tongs.reqNet ++ [{ output := s.outputOf a, input := p.val, heat := x.heat, tag := tag }] ∧
        t.ports[p].reserved = v.reserved + pieceBeats r n ∧ t.ports[p].selected = none ∧
        (∀ q ∈ t.ports[p].reqs, q.id = r.id → q.stage = .flying ∧ q.sent = 1) ∧
        Only (fun y => y = .port p ∨ y = .pieces ∨ y = .tongs ∨ y = .time) s t

/-- 01 R29: the grants of both networks of the Tongs. -/
def Obligations.TongsGrantsHighestHeatFirst : Prop :=
  ∀ (s : State) (o : Fin 131) (now : Nat),
    let best (ret : Bool) (w : Waiting) : Prop := w ∈ s.tongs.at ret o.val ∧ ∀ w' ∈ s.tongs.at ret o.val,
      w'.heat ≤ w.heat ∧ (w'.heat = w.heat → s.tongs.turn ret o.val w ≤ s.tongs.turn ret o.val w')
    s.tongs.bitten = none →
      (o.val < 24 → s.tongs.at false o.val ≠ [] → (∀ w ∈ s.tongs.at false o.val, (s.piece w.tag).isSome = true) →
        ∃ t w, exec (.tongsGrant false o now) s = .next t ∧ best false w ∧ t.tongs.reqNet = s.tongs.reqNet.erase w ∧
          t.tongs.retNet = s.tongs.retNet ∧ t.tongs.last.lookup (false, o.val, w.heat) = some w.input ∧
          t.slices[chanOf o.val].inq = s.slices[chanOf o.val].inq ++ [w.tag] ∧
          Only (fun y => y = .tongs ∨ y = .time ∨ y = .slice (chanOf o.val)) s t) ∧
      (o.val < 128 → s.tongs.at true o.val ≠ [] →
        (∀ w ∈ s.tongs.at true o.val, ∃ x p id i, s.piece w.tag = some x ∧ x.origin = .port p id i) →
        ∃ t w x p id i, exec (.tongsGrant true o now) s = .next t ∧ best true w ∧ s.piece w.tag = some x ∧
          x.origin = .port p id i ∧ t.tongs.retNet = s.tongs.retNet.erase w ∧ t.tongs.reqNet = s.tongs.reqNet ∧
          t.ports[p].reqs = s.ports[p].reqs.map (fun r => if r.id = id then
            { r with parts := r.parts ++ [(i, x.answer, x.results.map Prod.snd)], flip := r.flip.xor x.flip } else r) ∧
          Only (fun y => y = .tongs ∨ y = .time ∨ y = .port p) s t)

/-- 01 R32 to R34: the watchdog of the Tongs. -/
def Obligations.TongsWatchdogBitesAtItsLimit : Prop :=
  ∀ (s : State) (ret : Bool) (o : Fin 131) (p : PortId) (now t0 : Nat),
    (s.tongs.bitten = none → s.tongs.since.lookup (ret, o.val) = some t0 →
      let due := max (t0 + (s.rd aWDOG).toNat) s.tongs.limitFrom
      due ≤ s.timeAt now →
      ∃ t e, exec (.tongsWatchdogBite ret o now) s = .next t ∧ t.tongs.bitten = some due ∧
        t.flag aHANG 31 = true ∧ t.fld aHANG 7 0 = o.val ∧ t.flag aHANG 8 = ret ∧
        t.fld aHANG 11 9 = s.tongs.hottest ret o.val % 8 ∧
        t.faults.arriving = s.faults.arriving ++ [e] ∧ e.kind = 0x0B ∧ e.source = 0x40 ∧ e.sev = 3 ∧
        e.detail = BitVec.ofNat 23 (o.val + (if ret then 256 else 0)) ∧
        Only (fun y => y = .tongs ∨ y = .time ∨ y = .faults ∨ y = .reg aHANG) s t) ∧
    (s.tongs.bitten ≠ none → exec (.tongsGrant ret o now) s = .next s ∧ exec (.release p now) s = .next s)

/-- 01 R27, R38 and 03 R110, R122, R124: a piece's answer enters the response queue of port `p`. -/
def Obligations.ResponseEnterFreesTagAndAnswers : Prop :=
  ∀ (s : State) (p : PortId) (now idx : Nat) (x : Piece) (r : Req),
    let v := s.ports[p]
    let freed : State := { s.at now with pieces := s.pieces.filter (fun y => y.tag != x.tag) }
    s.enterable p = some x → x.origin = .port p r.id idx → v.reqs.find? (fun q => q.id == r.id) = some r → r.flip = Flip.none →
      (freed.complete p r = false → exec (.responseEnter p now) s = .next freed) ∧
      (freed.complete p r = true → (∀ e ∈ r.parts, e.2.1 = .ok) →
        (r.op ≠ 0 → ∃ t, exec (.responseEnter p now) s = .next t ∧ t.pieces = freed.pieces ∧
          t.ports[p].respq = v.respq ++ [{ req := r.id, tag := r.tag, status := 0, data := false, beats := [(0, false)] }] ∧
          Only (fun y => y = .port p ∨ y = .pieces ∨ y = .time) s t) ∧
        (r.op = 0 → (∀ y ∈ r.sectors, y.status = .ok ∧ y.poisoned = false) →
          ∃ t, exec (.responseEnter p now) s = .next t ∧ t.pieces = freed.pieces ∧
            t.ports[p].respq = v.respq ++ [{ req := r.id, tag := r.tag, status := 0, data := true,
                                             beats := r.sectors.map (fun y => (y.data, false)) }] ∧
            Only (fun y => y = .port p ∨ y = .pieces ∨ y = .time) s t))

/-- The piece `x` stands at the head of slice `c`, has passed Hedge, and the slice may take a line of it. -/
def atHead (s : State) (c : Chan) (x : Piece) (rest : List Nat) : Prop :=
  s.tongs.bitten = none ∧ s.slices[c].inq = x.tag :: rest ∧ s.piece x.tag = some x ∧ x.judged = true ∧
  x.next = 0 ∧ x.results = [] ∧ x.status = none ∧ s.lineOpen c = true

/-- The answer of a piece joins the return network: it waits at the output of its port or link. -/
def leaves (s t : State) (c : Chan) (x : Piece) : Prop :=
  t.tongs.retNet = s.tongs.retNet ++ [{ output := x.returnOutput, input := c.val, heat := x.heat, tag := x.tag }]

/-- No searched way and no rick place holds the line, and no sweep covers it. -/
def absentLine (s : State) (c : Chan) (line : Nat) : Prop :=
  s.sweeping c line = false ∧ s.findWay c line = none ∧ s.findRick c line = none

/-- 10 R339 to R341, R372: the head of a slice is a READ of one sector. -/
def Obligations.LoftAnswersReadsFromHeldLines : Prop :=
  ∀ (s : State) (c : Chan) (now : Nat) (x : Piece) (rest : List Nat),
    let line := s.pieceLa x 0 / 128
    let hi := decide (s.pieceLa x 0 / 64 % 2 = 1)
    let ask : Waiter := { tag := x.tag, secs := (!hi, hi) }
    atHead s c x rest → x.op = 0 → x.sectors = 1 →
      (∀ y, s.sweeping c line = false → s.findWay c line = some y →
        let bad := if hi then y.pois.2 else y.pois.1
        let data := if hi then y.data.2 else y.data.1
        ∃ t, exec (.loftRead c [] now) s = .next t ∧ t.slices[c].inq = rest ∧ leaves s t c x ∧
          t.piece x.tag = some { x with next := 1, results :=
            [(0, { status := if bad then .poison else .ok, data := data, poisoned := bad })] } ∧
          t.slices[c].ways = s.slices[c].ways.map (fun z => if z.line = line then { z with pref := false } else z) ∧
          t.slices[c].miss = s.slices[c].miss ∧
          Only (fun e => e = .slice c ∨ e = .pieces ∨ e = .tongs ∨ e = .time ∨ e = .reg (aPF c.val)) s t) ∧
      (∀ err, (∀ w, err ≠ .tag w) → absentLine s c line →
        (∀ m ∈ s.slices[c].miss, m.line ≠ line) → s.slices[c].miss.length < 64 →
        ∃ t, exec (.loftRead c [err] now) s = .next t ∧ t.slices[c] = { s.slices[c] with
            inq := rest, nextId := s.slices[c].nextId + 1, miss := s.slices[c].miss ++
              [{ id := s.slices[c].nextId, line := line, sent := false, drop := false, keyDrop := s.keysGone c x line,
                 opener := .read x.tag, waiters := [ask], heat := x.heat, pin := bit x.attr.toNat 0, port := x.client }] } ∧
          t.piece x.tag = some { x with next := 1 } ∧
          Only (fun e => e = .slice c ∨ e = .pieces ∨ e = .time) s t) ∧
      (∀ before after m, absentLine s c line → s.slices[c].miss = before ++ m :: after →
        (∀ n ∈ before ++ after, n.line ≠ line ∧ n.id ≠ m.id) → m.line = line → m.drop = false → m.waiters.length < 16 →
        ∃ t, exec (.loftRead c [] now) s = .next t ∧ t.slices[c].inq = rest ∧ t.slices[c].miss =
            before ++ { m with waiters := m.waiters ++ [ask], heat := max m.heat x.heat,
                               keyDrop := m.keyDrop || s.keysGone c x line } :: after ∧
          Only (fun e => e = .slice c ∨ e = .anvil c ∨ e = .pieces ∨ e = .time) s t) ∧
      (∀ y lo up, s.findWay c line = some y → s.findRick c line = none → s.slices[c].last01 = none →
        (∀ m ∈ s.slices[c].miss, m.line ≠ line) → s.slices[c].miss.length < 64 →
        ∃ t, exec (.loftRead c [.double lo up] now) s = .next t ∧ t.slices[c].inq = rest ∧
          t.slices[c].ways = s.slices[c].ways.filter (fun z => z.line != line) ∧
          (∃ m, t.slices[c].miss = s.slices[c].miss ++ [m] ∧ m.line = line ∧ m.waiters = [ask]) ∧
          (∃ e, t.faults.arriving = s.faults.arriving ++ [e] ∧ e.source = BitVec.ofNat 8 (0x20 + c.val) ∧ e.kind = 0x01 ∧
            e.sev = 1 ∧ e.addr = BitVec.ofNat 41 (s.sysAddr c.val (128 * line)) ∧
            e.detail = BitVec.ofNat 23 (y.way * 2 ^ 2 + lineSet line * 2 ^ 6)) ∧
          Only (fun e => e = .slice c ∨ e = .pieces ∨ e = .faults ∨ e = .time) s t)

/-- 10 R342, R343, R345, R347 to R349 and R357, with 03 R118: writes, hints, prefetches and the merge timer. -/
def Obligations.LoftWritesMergeAndHintsFetch : Prop :=
  ∀ (s : State) (c : Chan) (now : Nat) (x : Piece) (rest : List Nat) (b : Beat),
    let line := s.pieceLa x 0 / 128
    let hi := decide (s.pieceLa x 0 / 64 % 2 = 1)
    let u := s.timeAt now
    let answered (t : State) (st : Status) : Prop := t.slices[c].inq = rest ∧ leaves s t c x ∧
      ∃ y, t.piece x.tag = some y ∧ y.status = some st ∧ y.results = []
    let here (e : Part) : Prop := e = .slice c ∨ e = .pieces ∨ e = .tongs ∨ e = .time
    (atHead s c x rest → (x.op = 1 ∨ x.op = 2) → x.sectors = 1 → x.beats = [b] →
      let stream := bit x.attr.toNat 2
      let be := if x.op = 1 then BitVec.allOnes 64 else b.be
      let whole := decide (be = BitVec.allOnes 64)
      let half {α : Type} (f : α → α) (q : α × α) : α × α := if hi then (q.1, f q.2) else (f q.1, q.2)
      let pois (old : Bool) : Bool := b.wpoison || (!whole && old)
      let copied (z : Line) : Line :=
        { z with data := half (fun d => mergeBytes d b.data be) z.data, pois := half pois z.pois }
      let merged (m : Merge) : Merge :=
        { m with stream := m.stream || stream, heat := max m.heat x.heat, data := half (fun d => mergeBytes d b.data be) m.data,
                 mask := half (fun k => k ||| be) m.mask, smask := half (fun _ => true) m.smask, pset := half pois m.pset,
                 pclr := half (fun old => !b.wpoison && (whole || old)) m.pclr }
      let settled (l : List Merge) : List Merge :=
        if s.fld (aMERGE c.val) 15 0 = 0 then l.map (fun m => if m.opener = x.tag then { m with flush := true } else m) else l
      let fresh : Merge :=
        { id := s.slices[c].nextId, line := line, data := (0, 0), mask := (0, 0), pset := (false, false), pclr := (false, false),
          smask := (false, false), stream := false, heat := x.heat, start := u, opener := x.tag, port := x.client, flush := false,
          group := none, split := false }
      let enters (l : List Merge) : Prop :=
        ∃ t, exec (.loftWrite c (now, [])) s = .next t ∧ answered t .ok ∧ t.slices[c].merge = settled l ∧
          t.slices[c].miss = s.slices[c].miss.map (fun r => if r.line = line then { r with drop := true } else r) ∧
          t.slices[c].ways = s.slices[c].ways.map (fun z => if z.line = line ∧ s.waySearched z.way = true then copied z else z) ∧
          t.slices[c].rick = s.slices[c].rick.map (fun z => if z.line = line then copied z else z) ∧ Only here s t
      (be = 0 → b.wpoison = false → ∃ t, exec (.loftWrite c (now, [])) s = .next t ∧ answered t .ok ∧
        t.slices[c] = { s.slices[c] with inq := rest, merge := settled s.slices[c].merge } ∧ Only here s t) ∧
      (be ≠ 0 ∨ b.wpoison = true → (∀ m ∈ s.slices[c].miss, m.line = line → m.sent = true) →
        (∀ before m after, s.slices[c].merge = before ++ m :: after → m.line = line → m.flush = false →
          (∀ n ∈ before ++ after, n.line = line → n.flush = true) → (s.swath = false ∨ (stream || m.stream) = false) →
          enters (before ++ merged m :: after)) ∧
        ((∀ m ∈ s.slices[c].merge, m.line ≠ line) → s.slices[c].mergeCount < 32 → (s.swath = false ∨ stream = false) →
          enters (s.slices[c].merge ++ [merged fresh])))) ∧
    (∀ before m after, s.tongs.bitten = none → s.slices[c].merge = before ++ m :: after → m.flush = false →
      m.start + s.fld (aMERGE c.val) 15 0 ≤ u → (∀ n ∈ before ++ after, n.id ≠ m.id) → (s.swath = false ∨ m.stream = false) →
      ∃ t, exec (.mergeTimer c m.id now) s = .next t ∧
        t.slices[c] = { s.slices[c] with merge := before ++ { m with flush := true } :: after } ∧
        Only (fun e => e = .slice c ∨ e = .time) s t) ∧
    (atHead s c x rest → x.op = 4 →
      (1 ≤ s.shed → ∃ t, exec (.loftHint c (now, [])) s = .next t ∧ answered t .dropped ∧
        t.slices[c].miss = s.slices[c].miss ∧ Only here s t) ∧
      (s.shed = 0 → x.sectors = 1 → s.sweeping c line = false → s.findWay c line ≠ none → ∃ t,
        exec (.loftHint c (now, [])) s = .next t ∧ answered t .ok ∧ t.slices[c].miss = s.slices[c].miss ∧
        t.slices[c].ways = s.slices[c].ways ∧ Only here s t) ∧
      (s.shed = 0 → x.sectors = 1 → absentLine s c line → (∀ m ∈ s.slices[c].miss, m.line ≠ line) →
        (s.slices[c].miss.length < 64 → ∃ t m, exec (.loftHint c (now, [])) s = .next t ∧ answered t .ok ∧
          t.slices[c].miss = s.slices[c].miss ++ [m] ∧ m.line = line ∧ m.opener = .hint ∧ m.waiters = [] ∧ m.sent = false ∧
          Only here s t) ∧
        (64 ≤ s.slices[c].miss.length → ∃ t, exec (.loftHint c (now, [])) s = .next t ∧ answered t .dropped ∧
          t.slices[c].miss = s.slices[c].miss ∧ Only here s t))) ∧
    (∀ (q : Prefetch) (more : List Prefetch), s.tongs.bitten = none → s.slices[c].inq = [] → s.slices[c].pfq = q :: more →
      (s.findWay c q.line ≠ none → ∃ t, exec (.loftPrefetch (c, .none)) s = .next t ∧
        t.slices[c] = { s.slices[c] with pfq := more } ∧ Only (· = .slice c) s t) ∧
      (s.loftState fnPf = .on → s.blocking c = false → s.findWay c q.line = none → s.findRick c q.line = none →
        (∀ m ∈ s.slices[c].miss, m.line ≠ q.line) → s.slices[c].miss.length ≤ 56 → s.prefetchRefused c q = false →
        ∃ t, exec (.loftPrefetch (c, .none)) s = .next t ∧ t.slices[c] = { s.slices[c] with
            pfq := more, nextId := s.slices[c].nextId + 1, miss := s.slices[c].miss ++
              [{ id := s.slices[c].nextId, line := q.line, sent := false, drop := false, keyDrop := false,
                 opener := .prefetch, waiters := [], heat := 0, pin := q.pin, port := some q.port }] } ∧
          Only (· = .slice c) s t))

/-- 10 R344, R346, R367 to R371: fills, dropped lines and sweeps of slice `c`. -/
def Obligations.LoftFillsDropsAndSweeps : Prop :=
  ∀ (s : State) (c : Chan) (now : Nat) (f : Fill) (more : List Fill) (a b : SecRes) (m : Miss) (x : Piece),
    let l := s.slices[c]
    let here (e : Part) : Prop := e = .slice c
    let good (r : SecRes) : Prop := r.status = .ok ∨ r.status = .okCorrected ∨ r.status = .poison
    let arrives : Prop := s.tongs.bitten = none ∧ l.fills = f :: more ∧ f.res = (some a, some b) ∧ m ∈ l.miss ∧
      m.id = f.miss ∧ (∀ n ∈ l.miss, n.id = f.miss → n = m)
    let freed (t : State) : Prop := t.slices[c].fills = more ∧ t.slices[c].miss = l.miss.filter (fun n => n.id != f.miss)
    (arrives → m.waiters = [] →
      (m.drop = true → ∃ t, exec (.loftFill (c, .none)) s = .next t ∧ freed t ∧ t.slices[c].ways = l.ways ∧ Only here s t) ∧
      (m.drop = false → f.fresh = false → good a → good b → s.sweeping c m.line = false → s.eligibleWays c m.pin ≠ [] →
        ∃ t y, exec (.loftFill (c, .none)) s = .next t ∧ freed t ∧ y ∈ t.slices[c].ways ∧ y.line = m.line ∧
          y.data = (a.data, b.data) ∧ y.pois = (a.poisoned, b.poisoned) ∧ y.way ∈ s.eligibleWays c m.pin ∧
          (∀ z ∈ t.slices[c].ways, z = y ∨ (z ∈ l.ways ∧ (z.way ≠ y.way ∨ lineSet z.line ≠ lineSet y.line))) ∧
          Only (fun e => e = .slice c ∨ e = .reg (aPF c.val)) s t)) ∧
    (arrives → m.drop = true → m.waiters = [{ tag := x.tag, secs := (true, false) }] → s.piece x.tag = some x →
      x.status = none → x.results = [] → x.sectors = 1 → s.pieceLa x 0 = 128 * m.line → m.opener = .read x.tag →
      ∃ t, exec (.loftFill (c, .none)) s = .next t ∧ freed t ∧ leaves s t c x ∧
        (m.keyDrop = false → a.status ≠ .keyAbsent → t.piece x.tag = some { x with results := [(0, a)] }) ∧
        (m.keyDrop = true → t.piece x.tag = some { x with status := some .keyAbsent, results := [] }) ∧
        Only (fun e => e = .slice c ∨ e = .pieces ∨ e = .tongs) s t) ∧
    (∀ d rest, l.drops = d :: rest → ∃ t, exec (.lineDrop c) s = .next t ∧
      t.slices[c] = { l with drops := rest, ways := l.ways.filter (fun y => y.line != d), rick := l.rick.filter (fun y => y.line != d) } ∧
      Only here s t) ∧
    (∀ (r : Range) rest,
      let inside (n : Nat) : Bool := decide (r.base ≤ s.sysAddr c.val (128 * n) ∧ s.sysAddr c.val (128 * n) < r.base + r.size)
      (l.ranges = r :: rest → l.sweep = none → ∃ t, exec (.sweepStart c) s = .next t ∧
        t.pieces.map (fun y => { y with erased := [] }) = s.pieces.map (fun y => { y with erased := [] }) ∧
        (r.key = false → t.pieces = s.pieces) ∧
        (r.key = true → ∀ y ∈ t.pieces, (y.judged = true ∧ y.tag ∈ l.inq ∧ r ∈ y.erased) ∨
          ((y.judged = false ∨ y.tag ∉ l.inq) ∧ y ∈ s.pieces)) ∧ t.slices[c] = { l with
          ranges := rest ++ l.waiting.take 1, waiting := l.waiting.drop 1, sweep := some r, ways := l.ways.filter (fun y => !inside y.line),
          rick := l.rick.filter (fun y => !inside y.line),
          miss := l.miss.map (fun n => if inside n.line then { n with drop := true, keyDrop := n.keyDrop || r.key } else n) } ∧
        Only (fun e => e = .slice c ∨ e = .pieces) s t) ∧
      (l.sweep = some r → ∃ t, exec (.sweepEnd c) s = .next t ∧ t.slices[c] = { l with sweep := none } ∧
        t.fullInv = (if r.full then s.fullInv.filter (· != c) else s.fullInv) ∧
        Only (fun e => e = .slice c ∨ e = .fullInv) s t)) ∧
    (∀ from_, l.settle = some from_ → from_ + 100000 ≤ s.timeAt now → ∃ t, exec (.blockingModeEnd c now) s = .next t ∧
      t.slices[c] = { l with settle := none } ∧ Only (fun e => e = .slice c ∨ e = .time) s t)

/-- 10 R358, R359, R364, R368 and 13 R455: the functions of the Loft. -/
def Obligations.LoftFunctionsFollowTheirRequests : Prop :=
  ∀ (s : State) (w : Word) (f : LoftFn),
    let wanted (k : Fin 6) : Bool := w.getLsbD k.val && (if k = 0 then true else if k = 4 then decide (s.shed < 3)
      else if k = 5 then decide (s.shed < 1) else decide (s.shed < 4))
    let next (k : Fin 6) : FnState :=
      if s.loftFns[k].state = .off ∧ wanted k = true then .starting
      else if s.loftFns[k].state = .on ∧ wanted k = false then .stopping else s.loftFns[k].state
    let written (t : State) : Prop := t.fld aLOFT_CTL 5 0 = bits w.toNat 5 0 ∧
      ∀ k : Fin 6, t.loftFns[k] = { state := next k, want := wanted k }
    let mine (e : Part) : Prop := e = .reg aLOFT_CTL ∨ e = .loftFns ∨ ∃ c, e = .slice c
    let k := LoftFn.index f
    (s.modes.mode ≠ .cold → s.modes.mode ≠ .banked →
      (w.getLsbD 6 = false →
        (∃ t, exec (.wgEn w) s = .next t ∧ written t ∧ HostOnly mine s t) ∧
        (∃ t, exec (.rickEn w) s = .next t ∧ written t ∧ HostOnly mine s t) ∧
        (∃ t, exec (.pfEn w) s = .next t ∧ written t ∧ HostOnly mine s t)) ∧
      (w.getLsbD 6 = true → s.fullInv = [] → ∃ t, exec (.invall w) s = .next t ∧ written t ∧
        (∀ c : Chan, s.populated c.val = true → t.slices[c].ranges.length ≤ max 4 s.slices[c].ranges.length ∧
          t.slices[c].ranges ++ t.slices[c].waiting = s.slices[c].ranges ++ s.slices[c].waiting ++
            [{ base := 0, size := 2 ^ 41, key := false, full := true }]) ∧
        (∀ c : Chan, c ∈ t.fullInv ↔ s.populated c.val = true) ∧ HostOnly (fun e => mine e ∨ e = .fullInv) s t)) ∧
    (s.loftFns[k].state = .starting → ∃ t, exec (.loftFunctionStarted f) s = .next t ∧
      t.loftFns[k] = { s.loftFns[k] with state := if s.loftFns[k].want then .on else .stopping } ∧
      (∀ j, j ≠ k → t.loftFns[j] = s.loftFns[j]) ∧
      (k.val < 4 → ∀ c : Chan, ∀ y ∈ t.slices[c].ways, y.way / 4 ≠ k.val) ∧
      Only (fun e => e = .loftFns ∨ e = .detect ∨ ∃ c, e = .slice c) s t) ∧
    (s.loftFns[k].state = .stopping → s.fnDone k = true → ∃ t, exec (.loftFunctionStopped f) s = .next t ∧
      t.loftFns[k] = { s.loftFns[k] with state := if s.loftFns[k].want then .starting else .off } ∧
      (∀ j, j ≠ k → t.loftFns[j] = s.loftFns[j]) ∧
      (k.val < 4 → ∀ c : Chan, ∀ y ∈ t.slices[c].ways, y.way / 4 ≠ k.val) ∧ (k = 4 → ∀ c : Chan, t.slices[c].rick = []) ∧
      (k = 5 → t.detect = []) ∧ Only (fun e => e = .loftFns ∨ e = .detect ∨ ∃ c, e = .slice c) s t)

/-- 05 R173, R175, R177, R192, R199 and 09 R316: what anvil `c` takes from its slice. -/
def Obligations.LineReadsAndFlushesEnterTheAnvilQueue : Prop :=
  ∀ (s : State) (c : Chan) (now : Nat) (q : Place) (n0 n1 : Nat),
    let u := s.timeAt now
    let v := s.anvils[c]
    let l := s.slices[c]
    s.anvilOpen c = true →
    (∀ before m after, l.miss = before ++ m :: after → (∀ x ∈ before, x.sent = true) → m.sent = false →
      (∀ x ∈ before ++ after, x.id ≠ m.id) → l.drops.contains m.line = false →
      s.secPlace c (128 * m.line) = (q, n0) → s.secPlace c (128 * m.line + 64) = (q, n1) →
      let sent := before ++ { m with sent := true } :: after
      (160 ≤ v.rdq → ∃ t, exec (.lineReadAccept c .none now) s = .next t ∧ Only (· = .time) s t) ∧
      (v.rdq < 160 → v.writes = [] → v.fills = [] → v.feed = [] → (∀ x ∈ l.merge, x.line ≠ m.line) →
        (s.secWritten c q n0 = false → s.secWritten c q n1 = false → (∀ f ∈ l.fills, f.miss ≠ m.id) →
          ∃ t, exec (.lineReadAccept c .none now) s = .next t ∧
            t.slices[c] = { l with miss := sent, fills := l.fills ++ [{ miss := m.id, fresh := false, res := (some { status := .ok, data := 0, poisoned := false }, some { status := .ok, data := 0, poisoned := false }) }] } ∧
            Only (fun e => e = .slice c ∨ e = .time) s t) ∧
        (s.secWritten c q n0 = true → ∃ t, exec (.lineReadAccept c .none now) s = .next t ∧
          t.slices[c].miss = sent ∧ t.slices[c].fills = l.fills ∧
          t.anvils[c] = { v with seq := v.seq + 1, reads := v.reads ++
            [{ seq := v.seq, stamp := u / 64, kind := .demand m.id (true, true), place := q, secs := [n0, n1],
               todo := [n0, n1], flying := [], got := [], heat := m.heat, port := m.port, waits := [], waitsM := [],
               locate := false }] } ∧
          Only (fun e => e = .slice c ∨ e = .anvil c ∨ e = .time) s t))) ∧
    (∀ before m after, l.merge = before ++ m :: after → (∀ x ∈ before, x.flush = false) → m.flush = true →
      m.smask = (true, false) → (∀ x ∈ before ++ after, x.id ≠ m.id) → s.secPlace c (128 * m.line) = (q, n0) →
      (96 ≤ v.wrq → ∃ t, exec (.mergeFlushAccept c (.none, .none) now) s = .next t ∧ Only (· = .time) s t) ∧
      (v.wrq < 96 → s.secWritten c q n0 = true → v.written (128 * m.line / 65536) = true →
        ∃ t, exec (.mergeFlushAccept c (.none, .none) now) s = .next t ∧ t.slices[c].merge = before ++ after ∧
          (∃ w ∈ t.anvils[c].writes, w.seq = v.seq ∧ w.kind = .data ∧ w.place = q ∧ w.heat = m.heat ∧ w.port = m.port ∧
            w.stamp = u / 64 ∧ w.fill = false ∧ w.group = m.group ∧
            w.secs = [{ pos := n0, data := m.data.1, mask := m.mask.1, pset := m.pset.1, pclr := m.pclr.1 }]) ∧
          Only (fun e => e = .slice c ∨ e = .anvil c ∨ e = .hedge ∨ e = .time) s t))

/-- 05 R181, R182, R202 to R204 and 06 R214: the selection of channel `c`. -/
def Obligations.CommandSelectTakesHeatSevenWorkFirst : Prop :=
  ∀ (s : State) (c : Chan) (e : ReadEnt) (n : Nat) (more : List Nat),
    let v := s.anvils[c]
    v.slot = [] → v.writes = [] → v.fills = [] → v.visit = none → v.granted = [] → v.pauses = [] → s.keptOff c.val = false →
    s.flag (aREFRESH c.val) 31 = false → s.flag aRFM 30 = false → (∀ e ∈ v.reads, s.readComplete c e = false) →
      (∀ (l : Cmd) (late : Bool) rest, v.heat7 = (l, late) :: rest → l.code = .refab → l.src = .refresh →
        l.bound = false → l.due ≤ v.ck →
        ((∀ b < 16, v.page l.rank b = none) → ∃ t, exec (.commandSelect c .good) s = .next t ∧
          t.anvils[c].slot = [{ l with seen := false }] ∧ t.anvils[c].heat7 = rest ∧ Only (· = .anvil c) s t) ∧
        ((∃ b < 16, v.page l.rank b ≠ none) → ∃ t, exec (.commandSelect c .good) s = .next t ∧
          t.anvils[c].slot = [plainCmd .prea l.rank 0 0 .close] ∧ t.anvils[c].heat7 = v.heat7 ∧ Only (· = .anvil c) s t)) ∧
      (∀ (i : Nat) (half : Bool × Bool), v.heat7 = [] → s.flag (aCMDERR c.val) 30 = false → s.modes.mode ≠ .quench →
        v.dir = .read → v.reads = [e] → e.kind = .demand i half → e.todo = n :: more → e.waits = [] → e.waitsM = [] →
        e.place.rank < 2 → e.place.bank < 16 → v.neighbour = [] → v.sweep = [] → s.tongs.bitten = none → s.secWritten c e.place n = true →
        let src := CmdSrc.readEnt e.seq n
        let puts (l : Cmd) : Prop := ∃ t, exec (.commandSelect c .good) s = .next t ∧ t.anvils[c].slot = [l] ∧
          t.anvils[c].reads = v.reads ∧ Only (· = .anvil c) s t
        (v.page e.place.rank e.place.bank = some e.place.row →
          puts { plainCmd .rd e.place.rank e.place.bank e.place.row src with col := 2 * n }) ∧
        (∀ r, v.page e.place.rank e.place.bank = some r → r ≠ e.place.row →
          puts (plainCmd .pre e.place.rank e.place.bank r src)) ∧
        (v.page e.place.rank e.place.bank = none → puts (plainCmd .act e.place.rank e.place.bank e.place.row src)) ∧
        (∃ t, exec (.commandSelect c .cacheBad) s = .next t ∧ t.anvils[c].reads = v.reads ∧ t.anvils[c].slot = [] ∧
          Only (· = .anvil c) s t) ∧
        (s.populated c.val = true → half = (true, false) → ∃ t, exec (.commandSelect c .entryBad) s = .next t ∧
          t.anvils[c].reads = [] ∧ t.anvils[c].slot = [] ∧
          (∃ m, t.faults.arriving = s.faults.arriving ++ [m] ∧ m.kind = 0x05 ∧ m.source = BitVec.ofNat 8 c.val ∧ m.sev = 2 ∧
            m.detail = BitVec.ofNat 23 (1 + e.place.rank * 2 ^ 4 + e.place.bank * 2 ^ 5)) ∧
          (∃ f ∈ t.slices[c].fills, f.miss = i ∧ ∃ r, f.res.1 = some r ∧ r.status = .cmdError) ∧
          t.smiths[masterSmith].evpend = s.smiths[masterSmith].evpend ||| 0x80 ∧
          t.smiths[anvilSmith c].evpend = s.smiths[anvilSmith c].evpend ||| 0x80 ∧
          t.flag (aCMDERR c.val) 31 = true))

/-- Every command row of Table 2.12 at a CK edge. -/
def commandRows (c : Chan) (ck now : Nat) : List Instr :=
  [.act c ck, .pre c ck, .prea c ck, .rd c ck, .wr c ck, .refpb c ck, .refab c ck, .rfm c ck, .mrw c ck, .mrr c ck,
   .mpc c ck, .sre c ck, .srx c ck now, .pde c ck, .pdx c ck]

/-- 05 R182, R204, R206 and 07 R244: what keeps a command from issuing. -/
def Obligations.NoCommandIssuesAgainstTheTimingRules : Prop :=
  ∀ (s : State) (c : Chan) (ck now : Nat), ∀ i ∈ commandRows c ck now,
    ((∀ l ∈ s.anvils[c].slot, s.mayIssue c l ck = false) → exec i s = .next s) ∧
    (s.pllLock c = false → exec i s = .next s) ∧
    (∀ l e, s.anvils[c].slot = [l] → (l.code = .rd ∨ l.code = .wr) → e ∈ s.anvils[c].hist → e.code = .act →
      e.rank = l.rank → e.bank = l.bank → ck < e.ck + s.anvils[c].trcd → exec i s = .next s)

/-- The Smith that waits for a command of the slot, if one does, goes on after it. -/
def driver (s : State) (l : Cmd) : Prop :=
  ∀ m, l.src = .smith m → ∃ d x, s.smiths[m].wait = some (.cmd d x) ∧ GoesOn s m (s.smiths[m].pc.toNat + 1)

/-- A Smith's CMD completes with result 0 at the issue of its command (Table 2.9). -/
def completes (s t : State) (l : Cmd) : Prop :=
  ∀ m d x, l.src = .smith m → s.smiths[m].wait = some (.cmd d x) →
    (∀ y, t.g m y = if y = d ∧ y ≠ 0 then 0 else s.g m y) ∧ t.smiths[m].run = .running ∧ t.smiths[m].wait = none ∧
    t.smiths[m].pc = wrapPc m (s.smiths[m].pc.toNat + 1)

/-- What the issue of a command may touch: its anvil and the Smith that waits for it. -/
def issueParts (c : Chan) (l : Cmd) (e : Part) : Prop := e = .anvil c ∨ ∃ m, l.src = .smith m ∧ e = .smith m

/-- 05 R174, R206 and 06 R228 to R240: the row and refresh commands of channel `c`. -/
def Obligations.RowAndRefreshCommandsIssue : Prop :=
  ∀ (s : State) (c : Chan) (ck : Nat) (l : Cmd) (q : Place),
    let v := s.anvils[c]
    let left (t : State) : Prop := t.anvils[c].slot = v.slotAfter l ∧ t.anvils[c].hist = (v.note l ck).hist ∧ t.anvils[c].ck = ck
    let on := s.flag aRFM 30
    let client : Prop := l.client = true
    let row := tallyAct (v.table l.rank l.bank) l.row
    l.rank < 2 → l.bank < 16 → driver s l →
    (s.issuing c .act ck = some l → s.raaBlocks c l.rank l.bank = true → ∃ t, exec (.act c ck) s = .next t ∧
      t.anvils[c].slot = v.slot.erase l ∧ t.anvils[c].hist = v.hist ∧ t.anvils[c].pages = v.pages ∧ Only (· = .anvil c) s t) ∧
    (s.issuing c .act ck = some l → s.raaBlocks c l.rank l.bank = false →
      (client → (∀ e ∈ row, e.1 = l.row → e.2 < s.thresh c) → ∃ t, exec (.act c ck) s = .next t ∧ left t ∧
        t.anvils[c].page l.rank l.bank = some l.row ∧ t.anvils[c].table l.rank l.bank = row ∧
        t.anvils[c].raaOf l.rank l.bank = v.raaOf l.rank l.bank + (if on then 1 else 0) ∧ Only (· = .anvil c) s t) ∧
      (∀ x rest n, client → (l.row, n) ∈ row → s.thresh c ≤ n → s.victims c l.row = x :: rest →
        let agg : Place := { rank := l.rank, bank := l.bank, row := l.row }
        ∃ t, exec (.act c ck) s = .next t ∧ left t ∧ t.anvils[c].page l.rank l.bank = some l.row ∧
          t.anvils[c].table l.rank l.bank = row.map (fun e => if e.1 = l.row then (e.1, 0) else e) ∧
          t.anvils[c].neighbour = v.neighbour ++ [(agg, x :: rest, false)] ∧
          t.anvils[c].heat7 = v.heat7 ++ [(plainCmd .act l.rank l.bank x (.neighbour agg), decide (v.granted ≠ []))] ∧
          Only (· = .anvil c) s t) ∧
      (l.src = .neighbour q → ∃ t, exec (.act c ck) s = .next t ∧ left t ∧ t.anvils[c].page l.rank l.bank = some l.row ∧
        t.anvils[c].hammer = v.hammer + 1 ∧
        t.anvils[c].heat7 = (plainCmd .pre q.rank q.bank 0 (.neighbour q), false) :: v.heat7 ∧
        Only (fun e => e = .anvil c ∨ e = .reg (aRFSTAT c.val)) s t) ∧
      (∀ m, l.src = .smith m → v.page l.rank l.bank = none → ∃ t, exec (.act c ck) s = .next t ∧ left t ∧ completes s t l ∧
        t.anvils[c].page l.rank l.bank = some l.row ∧ t.anvils[c].lost = v.lost ∧ Only (issueParts c l) s t)) ∧
    (s.issuing c .pre ck = some l → (∀ p, l.src ≠ .neighbour p) → ∃ t, exec (.pre c ck) s = .next t ∧ left t ∧ completes s t l ∧
      t.anvils[c].page l.rank l.bank = none ∧
      (∀ r b, r < 2 → b < 16 → (r, b) ≠ (l.rank, l.bank) → t.anvils[c].page r b = v.page r b) ∧ Only (issueParts c l) s t) ∧
    (s.issuing c .prea ck = some l → ∃ t, exec (.prea c ck) s = .next t ∧ left t ∧ completes s t l ∧
      (∀ r b, r < 2 → b < 16 → t.anvils[c].page r b = if r = l.rank then none else v.page r b) ∧ Only (issueParts c l) s t) ∧
    (s.issuing c .refpb ck = some l → ∃ t, exec (.refpb c ck) s = .next t ∧ completes s t l ∧
      (∀ r b, r < 2 → b < 16 → t.anvils[c].raaOf r b =
        v.raaOf r b - if on && r == l.rank && b % 8 == l.bank % 8 then s.raaimt else 0) ∧ Only (issueParts c l) s t) ∧
    (s.issuing c .refab ck = some l → ∃ t, exec (.refab c ck) s = .next t ∧ completes s t l ∧
      (∀ r b, r < 2 → b < 16 → t.anvils[c].raaOf r b = v.raaOf r b - if on && r == l.rank then s.raaimt else 0) ∧
      Only (issueParts c l) s t) ∧
    (s.issuing c .rfm ck = some l → ∃ t, exec (.rfm c ck) s = .next t ∧ left t ∧ completes s t l ∧
      (∀ r b, r < 2 → b < 16 → t.anvils[c].raaOf r b =
        v.raaOf r b - if on && r == l.rank && b % 8 == l.bank % 8 then s.rfmdec else 0) ∧
      t.anvils[c].hammer = v.hammer + 1 ∧ Only (fun e => issueParts c l e ∨ e = .reg (aRFSTAT c.val)) s t)

/-- 05 R184, R191, R302, 06 R216, 07 R253, 02 R71 to R74: bursts and mode commands of channel `c`. -/
def Obligations.BurstAndModeCommandsIssue : Prop :=
  ∀ (s : State) (c : Chan) (ck now : Nat) (l : Cmd) (seq pos row : Nat) (m : SmithId),
    let v := s.anvils[c]
    let ends (i : Instr) (more : State → Prop) : Prop :=
      ∃ t, exec i s = .next t ∧ completes s t l ∧ t.anvils[c].slot = v.slotAfter l ∧ more t ∧ Only (issueParts c l) s t
    let here (e : Part) : Prop := issueParts c l e ∨ e = .reg (aPATPTR c.val)
    let open_ : Place := { rank := l.rank, bank := l.bank, row := row }
    l.rank < 2 → l.bank < 16 → driver s l →
    (s.issuing c .rd ck = some l →
      (∀ e, l.src = .readEnt seq pos → v.reads.find? (fun x => x.seq == seq) = some e →
        ∃ t b, exec (.rd c ck) s = .next t ∧ t.anvils[c].bursts = v.bursts ++ [b] ∧ b.ck = ck ∧ b.cmd.src = l.src ∧
          b.data = some (v.fromDram c l.rank (v.cell c e.place pos)) ∧
          (∃ x ∈ t.anvils[c].reads, x.seq = seq ∧ x.todo = e.todo.erase pos ∧ x.flying = e.flying ++ [pos]) ∧
          t.anvils[c].dram = v.dram ∧ Only (· = .anvil c) s t) ∧
      (l.src = .smith m → l.bl16 = false → l.ap = false → v.page l.rank l.bank = some row →
        let p := s.fld (aPATPTR c.val) 11 8
        ∃ t, exec (.rd c ck) s = .next t ∧ completes s t l ∧
          (∀ w < 16, t.anvils[c].patGet p w = ((v.dramOut l.rank (v.cell c open_ (l.col / 2))).1 >>> (32 * w)).setWidth 32) ∧
          t.fld (aPATPTR c.val) 11 8 = (p + 1) % 16 ∧ Only here s t)) ∧
    (s.issuing c .wr ck = some l →
      (∀ w, l.src = .writeEnt seq pos → v.writes.find? (fun x => x.seq == seq) = some w → s.burstsLeft c w pos = [] →
        w.fill = false → v.reads = [] → v.feed = [] →
        ∃ t, exec (.wr c ck) s = .next t ∧ t.anvils[c].cell c w.place pos = v.toDram l.rank (s.wrContent c w pos) ∧
          (∀ q p, cellKey q p ≠ cellKey w.place pos → t.anvils[c].cell c q p = v.cell c q p) ∧
          (∀ x ∈ t.anvils[c].writes, x.seq ≠ seq) ∧ Only (· = .anvil c) s t) ∧
      (l.src = .smith m → l.bl16 = false → l.ap = false → v.page l.rank l.bank = some row →
        let p := s.fld (aPATPTR c.val) 3 0
        ∃ t, exec (.wr c ck) s = .next t ∧ completes s t l ∧ 
          t.anvils[c].cell c open_ (l.col / 2) = v.dramIn l.rank (v.patData p) (SMap.get (fun _ => 0) v.patDmi p) ∧
          (∀ q x, cellKey q x ≠ cellKey open_ (l.col / 2) → t.anvils[c].cell c q x = v.cell c q x) ∧
          t.fld (aPATPTR c.val) 3 0 = (p + 1) % 16 ∧ Only here s t)) ∧
    (s.issuing c .mrw ck = some l → ends (.mrw c ck) (fun t => t.anvils[c].dram = v.dram ∧
      t.anvils[c].mr l.rank l.ma = BitVec.ofNat 8 l.op)) ∧
    (s.issuing c .mpc ck = some l → ends (.mpc c ck) (fun t => t.anvils[c].dram = v.dram)) ∧
    (s.issuing c .mrr ck = some l → ends (.mrr c ck) (fun t =>
      t.anvils[c].bursts = v.bursts ++ [{ ck := ck, cmd := l, data := none }] ∧
      (l.src = .smith m → t.smiths[m].mrr = s.smiths[m].mrr ++ [{ chan := c, value := none }]))) ∧
    (s.issuing c .sre ck = some l → ends (.sre c ck) (fun t =>
      ∀ k : Fin 2, t.anvils[c].selfRef[k] = (decide (k.val = l.rank) || v.selfRef[k]))) ∧
    (s.issuing c .pde ck = some l → ends (.pde c ck) (fun t =>
      ∀ k : Fin 2, t.anvils[c].pdown[k] = (decide (k.val = l.rank) || v.pdown[k]))) ∧
    (s.issuing c .pdx ck = some l → ends (.pdx c ck) (fun t =>
      ∀ k : Fin 2, t.anvils[c].pdown[k] = (decide (k.val ≠ l.rank) && v.pdown[k]))) ∧
    (s.issuing c .srx ck = some l → ∃ t, exec (.srx c ck now) s = .next t ∧ completes s t l ∧
      (∀ k : Fin 2, t.anvils[c].selfRef[k] = (decide (k.val ≠ l.rank) && v.selfRef[k]) ∧ t.anvils[c].ranks[k].debt = 0) ∧
      Only (fun e => issueParts c l e ∨ e = .time) s t)

/-- 02 R74, R75 and 09 R294, R296: what crosses back from channel `c`. -/
def Obligations.ReadDataAndMrrResultsReturn : Prop :=
  ∀ (s : State) (c : Chan) (now : Nat) (err : Sector) (b : Burst) (seq pos : Nat) (d : Sector) (e : ReadEnt)
    (lower upper : Byte) (m : SmithId),
    let v := s.anvils[c]
    (v.bursts.find? (fun x => x.cmd.code == .rd) = some b → b.cmd.src = .readEnt seq pos → b.data = some d →
      v.reads = [e] → e.seq = seq → s.tongs.bitten = none →
      (e.flying.erase pos ≠ [] → ∃ t x, exec (.readDataReturn c err now) s = .next t ∧
        t.anvils[c].reads = [x] ∧ x = { e with flying := e.flying.erase pos, got := e.got ++ [(pos, d ^^^ err)] } ∧
        t.anvils[c].bursts = v.bursts.erase b ∧ t.anvils[c].dram = v.dram ∧
        Only (fun p => p = .anvil c ∨ p = .time) s t) ∧
      (∀ i, e.kind = .demand i (true, false) → e.secs = [pos] → e.flying = [pos] → e.todo = [] → s.readBlocked c e = false → s.isCheck pos = false →
        (∀ p ∈ s.readChecks c e, (e.got.lookup p).isSome = true) → ((e.got.lookup 31).isSome = true ∨ v.held e.place 31 = none) →
        s.secWritten c e.place pos = true → (∀ f ∈ s.slices[c].fills, f.miss ≠ i) →
        let got := e.got ++ [(pos, d ^^^ err)]
        (s.decode c e.place got pos).found = .good → s.needsLocate c e.place got pos = false →
        s.needsBitmap c e.place got pos = false →
        ∃ t, exec (.readDataReturn c err now) s = .next t ∧ t.anvils[c].reads = [] ∧
          t.slices[c].fills = s.slices[c].fills ++ [{ miss := i, fresh := false, res := (some
            { status := .ok, data := s.decrypt c (s.secLa c e.place pos) (s.decode c e.place got pos).data, poisoned := false }, none) }] ∧
          Only (fun p => p = .anvil c ∨ p = .slice c ∨ p = .time) s t)) ∧
    (v.mrrBurst = some b → b.cmd.src = .smith m →
      let x : BitVec 16 := (if Config.byteMode c.val then upper else 0).setWidth 16 <<< 8 ||| lower.setWidth 16
      ((∀ g y, s.smiths[m].wait ≠ some (.rdmr g y)) → ∃ t, exec (.mrrResult c lower upper) s = .next t ∧
        t.smiths[m] = { s.smiths[m] with mrr := fillMrr c x s.smiths[m].mrr } ∧
        Only (fun p => p = .anvil c ∨ p = .smith m) s t) ∧
      (∀ g, s.smiths[m].wait = some (.rdmr g c) → s.smiths[m].mrr = [{ chan := c, value := none }] →
        GoesOn s m (s.smiths[m].pc.toNat + 1) → ∃ t, exec (.mrrResult c lower upper) s = .next t ∧
          (∀ y, t.g m y = if y = g ∧ y ≠ 0 then x.setWidth 32 else s.g m y) ∧ t.smiths[m].mrr = [] ∧
          t.smiths[m].run = .running ∧ t.smiths[m].pc = wrapPc m (s.smiths[m].pc.toNat + 1) ∧
          Only (fun p => p = .anvil c ∨ p = .smith m) s t))

/-- 06 R217, R221 to R224: refresh debt and temperature of channel `c`. -/
def Obligations.RefreshDebtPollsAndTheirCommands : Prop :=
  ∀ (s : State) (c : Chan) (k : Fin 2) (now : Nat),
    let u := s.timeAt now
    let v := s.anvils[c]
    let r := v.ranks[k]
    let urgent : Int := s.urgent c
    let period := 4 * s.fld (aREFRESH c.val) 11 0 / 2 ^ v.mult
    let here (e : Part) : Prop := e = .anvil c ∨ e = .time
    let told (t : State) (n : Nat) : Prop :=
      t.smiths[masterSmith].evpend = s.smiths[masterSmith].evpend ||| BitVec.ofNat 16 (2 ^ n) ∧
      t.smiths[anvilSmith c].evpend = s.smiths[anvilSmith c].evpend ||| BitVec.ofNat 16 (2 ^ n)
    (s.refreshing c = true → v.fn.state = .on → k ∈ s.ranksOf c → v.selfRef[k] = false → r.next ≤ 32 * u →
      (v.slot.length = 2 → r.debt + 1 < 64 → ∃ t, exec (.refreshDebtTick c k now) s = .next t ∧
        t.anvils[c].ranks[k] = { r with debt := r.debt + 1, next := r.next + period } ∧
        (∀ j, j ≠ k → t.anvils[c].ranks[j] = v.ranks[j]) ∧ t.anvils[c].heat7 = v.heat7 ∧ Only here s t) ∧
      (v.slot.length = 2 → r.debt = 63 → r.overdue = false → ∃ t, exec (.refreshDebtTick c k now) s = .next t ∧
        t.anvils[c].ranks[k] = { r with debt := 64, next := r.next + period, overdue := true } ∧
        t.flag (aRFSTAT c.val) 31 = true ∧ told t 12 ∧
        ∃ e, t.faults.arriving = s.faults.arriving ++ [e] ∧ e.kind = 0x09 ∧ e.sev = 2 ∧ e.source = BitVec.ofNat 8 c.val ∧
          e.detail = BitVec.ofNat 23 (k.val * 2 ^ 4 + 64 * 2 ^ 8)) ∧
      (∀ b < 8, v.slot.length < 2 → v.granted = [] → s.inService = true → urgent ≤ r.debt + 1 → r.debt + 1 < 64 →
        (∀ x < b, r.marks.getLsbD x = true) → r.marks.getLsbD b = false → r.marks ||| BitVec.ofNat 8 (2 ^ b) ≠ 0xFF →
        ∃ t, exec (.refreshDebtTick c k now) s = .next t ∧
          t.anvils[c].heat7 = v.heat7 ++ [(plainCmd .refpb k.val b 0 .refresh, false)] ∧
          t.anvils[c].ranks[k].debt = r.debt ∧ t.anvils[c].ranks[k].marks = r.marks ||| BitVec.ofNat 8 (2 ^ b) ∧ Only here s t) ∧
      (v.slot.length < 2 → v.granted = [] → (s.modes.mode = .kindle ∨ s.modes.mode = .assay) → r.debt = 7 →
        ∃ t, exec (.refreshDebtTick c k now) s = .next t ∧
          t.anvils[c].heat7 = v.heat7 ++ [(plainCmd .refab k.val 0 0 .refresh, false)] ∧ t.anvils[c].ranks[k].debt = 0 ∧ Only here s t)) ∧
    (∀ due, s.refreshing c = true → v.fn.state = .on → v.mr4Due = some due → due ≤ u → ∃ t, exec (.mr4Poll c now) s = .next t ∧
      t.anvils[c] = { v with mr4Due := some (due + 16000), heat7 := v.heat7 ++
        ((s.ranksOf c).filter (fun j => !v.selfRef[j])).map (fun j =>
          ({ plainCmd .mrr j.val 0 0 .mr4 with ma := 4, bound := true }, decide (v.granted ≠ []))) } ∧ Only here s t) ∧
    (∀ (a b : List (BitVec 5)), v.mr4Back = true →
      let x := s.mr4Value c a b
      let shown : Nat := if s.fld (aREFRESH c.val) 25 21 ≤ x then 2 else if s.fld (aREFRESH c.val) 20 16 ≤ x then 1 else 0
      ∃ t, exec (.mr4Result c a b) s = .next t ∧ t.fld (aRFSTAT c.val) 12 8 = x ∧
        (v.mult < shown → t.anvils[c].mult = shown ∧ t.anvils[c].mr4Lower = [] ∧ told t 5) ∧
        (v.mult = shown → t.anvils[c].mult = v.mult ∧ t.anvils[c].mr4Lower = []) ∧
        (shown < v.mult → v.mr4Lower.length < 3 → t.anvils[c].mult = v.mult ∧ t.anvils[c].mr4Lower = v.mr4Lower ++ [shown]) ∧
        (shown < v.mult → v.mr4Lower.length = 3 → t.anvils[c].mult = (v.mr4Lower ++ [shown]).foldl max 0 ∧
          t.anvils[c].mr4Lower = []) ∧
        (v.mult < 2 → shown < 2 → (∀ y ∈ v.mr4Lower, y < 2) → Only (fun e => e = .anvil c ∨ e = .reg (aRFSTAT c.val) ∨ e = .smith masterSmith ∨
          e = .smith (anvilSmith c)) s t))

/-- 02 R77, R78, 05 R204, R205, R210 and 07 R264, R266: pauses and holds of channel `c`. -/
def Obligations.PausesAreGrantedForcedAndExpire : Prop :=
  ∀ (s : State) (c : Chan) (ck now : Nat) (r : PauseReq) (rest : List PauseReq) (d : RegNo) (w : Word),
    let u := s.timeAt now
    let v := s.anvils[c]
    let m := r.smith
    let limit := if s.fld (aRETRAIN c.val) 15 0 = 0 then 200000 else 4 * (1000 * s.fld (aRETRAIN c.val) 15 0)
    (s.modes.mode ≠ .kindle → v.granted = [] → v.pauses = r :: rest → r.prep = true → v.ck ≤ ck → v.slot = [] →
      (∀ b ∈ v.bursts, b.cmd.client = false) → v.dqEnded ck = true → (∀ p ∈ v.pages, p = none) →
      s.smiths[m].wait = some (.pause d c) → s.working m = false → GoesOn s m (s.smiths[m].pc.toNat + 1) →
      ∃ t, exec (.pauseGrant c ck now) s = .next t ∧
        t.anvils[c].granted = [{ smith := m, n := r.n, start := ck }] ∧ t.anvils[c].pauses = rest ∧
        (∀ n : Fin 9, t.anvils[c].tim[n] = s.rd (if n.val = 8 then aDERATE c.val else aTIM c.val n.val)) ∧
        t.fld (aPSTAT c.val) 15 0 = min 65535 (s.fld (aPSTAT c.val) 15 0 + 1) ∧
        (∀ y, t.g m y = if y = d ∧ y ≠ 0 then BitVec.ofNat 32 u else s.g m y) ∧
        t.smiths[m].run = .running ∧ t.smiths[m].pc = wrapPc m (s.smiths[m].pc.toNat + 1) ∧
        Only (fun e => e = .anvil c ∨ e = .smith m ∨ e = .reg (aPSTAT c.val) ∨ e = .time) s t) ∧
    (s.inService = true → v.granted = [] → v.pauses = r :: rest → r.prep = false → r.forced = false → r.time + limit ≤ u →
      ∃ t, exec (.pauseForce c now) s = .next t ∧
        t.anvils[c] = { v with pauses := { r with forced := true } :: rest } ∧
        t.fld (aPSTAT c.val) 23 16 = min 255 (s.fld (aPSTAT c.val) 23 16 + 1) ∧
        Only (fun e => e = .anvil c ∨ e = .reg (aPSTAT c.val) ∨ e = .time) s t) ∧
    (∀ g : PauseGrant, v.granted = [g] →
      (g.start + g.n ≤ ck → ∃ t, exec (.pauseExpire c ck) s = .next t ∧
        t.anvils[c] = { v with
          granted := [], heat7 := orderAfterPause v.heat7,
          owed := v.owed.map (fun o => if o.1 = g.smith then (g.smith, true) else o) } ∧ Only (· = .anvil c) s t) ∧
      (ck < g.start + g.n → ∃ t, exec (.pauseExpire c ck) s = .next t ∧ t.anvils[c] = v ∧ Only (· = .anvil c) s t)) ∧
    (s.modes.mode ≠ .cold → s.modes.mode ≠ .banked →
      (w.getLsbD 30 = true → s.flag (aCMDERR c.val) 30 = false → s.flag (aCMDERR c.val) 31 = false →
        ∃ t, exec (.holdSet c w) s = .next t ∧ t.flag (aCMDERR c.val) 30 = true ∧ t.flag (aCMDERR c.val) 31 = true ∧
          t.fld (aCMDERR c.val) 3 0 = 6 ∧ t.fld (aCMDERR c.val) 23 16 = min 255 (s.fld (aCMDERR c.val) 23 16 + 1) ∧
          t.smiths[masterSmith].evpend = s.smiths[masterSmith].evpend ||| 0x80 ∧
          t.smiths[anvilSmith c].evpend = s.smiths[anvilSmith c].evpend ||| 0x80 ∧
          HostOnly (fun e => e = .reg (aCMDERR c.val) ∨ e = .smith masterSmith ∨ e = .smith (anvilSmith c)) s t) ∧
      (w.getLsbD 30 = false → ∃ t, exec (.holdSet c w) s = .next t ∧ t.flag (aCMDERR c.val) 30 = false ∧
        t.flag (aCMDERR c.val) 31 = (s.flag (aCMDERR c.val) 31 && !w.getLsbD 31) ∧
        t.fld (aCMDERR c.val) 23 16 = s.fld (aCMDERR c.val) 23 16 ∧ HostOnly (· = .reg (aCMDERR c.val)) s t))

/-- 07 R259, R267 and R268: intervals of channel `c` and hearth `h`. -/
def Obligations.RetrainingAndZqFollowTheirIntervals : Prop :=
  ∀ (s : State) (c : Chan) (h : HearthId) (rank : Fin 2) (now due : Nat) (w : Word) (p n : BitVec 6),
    let u := s.timeAt now
    let v := s.anvils[c]
    let zq := aZQ (6 * h.val)
    let interval := 1000 * s.fld (aRETRAIN c.val) 15 0
    (0 < interval → v.fn.state = .on → (s.inService = true ∨ s.modes.mode = .assay) → v.retrainAt + interval ≤ u →
      ∃ t, exec (.retrain c now) s = .next t ∧ t.anvils[c] = { v with retrainAt := v.retrainAt + interval } ∧
        t.smiths[anvilSmith c] = { s.smiths[anvilSmith c] with evpend := s.smiths[anvilSmith c].evpend ||| 0x40 } ∧
        Only (fun e => e = .anvil c ∨ e = .smith (anvilSmith c) ∨ e = .time) s t) ∧
    (s.modes.mode ≠ .cold → s.modes.mode ≠ .banked → ∃ t, exec (.retrainIntervalWrite c w now) s = .next t ∧
      t.fld (aRETRAIN c.val) 15 0 = (let x := bits w.toNat 15 0; if 1 ≤ x ∧ x ≤ 9 then s.fld (aRETRAIN c.val) 15 0 else x) ∧
      t.anvils[c] = { v with retrainAt := u } ∧ HostOnly (fun e => e = .anvil c ∨ e = .reg (aRETRAIN c.val) ∨ e = .time) s t) ∧
    (s.modes.mode ≠ .cold → s.modes.mode ≠ .banked → s.flag zq 31 = false →
      (s.hearths[h].zqDone = false ∨ s.hearths[h].zqFrom + 1000000 * s.fld zq 7 0 ≤ u) → ∃ t, exec (.zqCalibration h now) s = .next t ∧
        t.flag zq 31 = true ∧ t.fld zq 29 0 = s.fld zq 29 0 ∧ t.hearths[h] = { s.hearths[h] with zqFrom := u } ∧
        Only (fun e => e = .reg zq ∨ e = .hearth h ∨ e = .time) s t) ∧
    (s.flag zq 31 = true → ∃ t, exec (.zqCalibrationEnd h p n) s = .next t ∧ t.flag zq 31 = false ∧
      t.fld zq 29 24 = p.toNat ∧ t.fld zq 21 16 = n.toNat ∧ t.fld zq 15 0 = s.fld zq 15 0 ∧
      (∀ x : Chan, t.anvils[x] = if x.val / 6 = h.val then { s.anvils[x] with zqApply := true } else s.anvils[x]) ∧
      t.hearths[h] = { s.hearths[h] with zqDone := true } ∧
      Only (fun e => e = .reg zq ∨ e = .hearth h ∨ ∃ x : Chan, x.val / 6 = h.val ∧ e = .anvil x) s t) ∧
    (∀ ck, v.zqApply = true → v.ck ≤ ck → v.idle4 ck = true → ∃ t, exec (.zqCodeApply (c, ck)) s = .next t ∧ t.anvils[c] = { v with
      ck := ck, zqApply := false, zqUsed := (BitVec.ofNat 6 (s.fld (aZQ c.val) 29 24), BitVec.ofNat 6 (s.fld (aZQ c.val) 21 16)) } ∧
      Only (· = .anvil c) s t) ∧
    (s.inService = true → s.populated c.val = true → v.zqDue[rank] = some due → due ≤ u →
      ∃ t, exec (.zqLatchDue c rank now) s = .next t ∧
        t.anvils[c].zqDue[rank] = some (due + 1000000 * s.fld (aZQ c.val) 15 8) ∧
        t.anvils[c].heat7 = v.heat7 ++ [({ plainCmd .mpc rank.val 0 0 .zq with op := Config.zqLatchOp }, decide (v.granted ≠ []))] ∧
        Only (fun e => e = .anvil c ∨ e = .time) s t)

/-- 07 R243 to R248, R251 and R253: the PLL, the set points and the windows of the hearth of channel `c`. -/
def Obligations.PllSetPointsAndStoresOfAHearth : Prop :=
  ∀ (s : State) (c : Chan) (h : HearthId) (w : Word) (n : Fin 3),
    let v := s.anvils[c]
    let pll := aPLL c.val
    let fsp := aFSP c.val
    let hc := hearthOf c
    let new := bits w.toNat 5 4
    let mine (e : Part) : Prop := e = .reg (regHome pll) ∨ e = .hearth hc ∨ ∃ x : Chan, hearthOf x = hc ∧ e = .anvil x
    let top := aPLL (6 * h.val)
    (s.modes.mode ≠ .cold → s.modes.mode ≠ .banked →
      (new = s.fld pll 5 4 → w.getLsbD 8 ≠ s.flag pll 8 → ∃ t, exec (.pllEnable c w) s = .next t ∧
        t.flag pll 8 = w.getLsbD 8 ∧ t.flag pll 31 = false ∧ t.hearths[hc] = { s.hearths[hc] with locking := w.getLsbD 8 } ∧
        HostOnly mine s t) ∧
      (new < 3 → new ≠ s.fld pll 5 4 → w.getLsbD 8 = s.flag pll 8 → s.modes.mode = .kindle →
        ∃ t, exec (.fspChange c w) s = .next t ∧ t.fld pll 5 4 = new ∧ t.fld pll 2 0 = s.fld fsp (4 * new + 2) (4 * new) ∧
          t.flag pll 31 = false ∧ t.hearths[hc].locking = w.getLsbD 8 ∧
          (∀ x : Chan, hearthOf x = hc → ∀ o < 128, dlyOffset o = true →
            SMap.get (fun _ => 0) t.anvils[x].live o = s.anvils[x].dlyGet (128 * new + o)) ∧ HostOnly mine s t) ∧
      (new < 3 → new ≠ s.fld pll 5 4 → w.getLsbD 8 = s.flag pll 8 → s.modes.mode ≠ .kindle → s.modes.step ≠ .bankOut →
        ∃ t, exec (.fspChange c w) s = .next t ∧ t.fld pll 5 4 = s.fld pll 5 4 ∧ t.flag pll 30 = true ∧
          t.flag pll 31 = s.flag pll 31 ∧ HostOnly (· = .reg (regHome pll)) s t) ∧
      (let code := bits w.toNat (4 * n.val + 2) (4 * n.val)
       code < 6 → code ≠ s.fld fsp (4 * n.val + 2) (4 * n.val) → s.fld pll 5 4 ≠ n.val →
        ∃ t, exec (.rateChange c w) s = .next t ∧ t.fld fsp (4 * n.val + 2) (4 * n.val) = code ∧
          t.flag fsp (16 + n.val) = false ∧ HostOnly (fun e => mine e ∨ e = .reg (regHome fsp)) s t) ∧
      (let i := s.fld (aDLYIDX c.val) 8 0
       let stepped := if s.flag (aDLYIDX c.val) 16 then (if 383 ≤ i then 0 else i + 1) else i
       (∃ t, exec (.dlydatAccess c none) s = .next t ∧ t.hrpRdata = (v.dlyGet i).setWidth 32 ∧
          t.fld (aDLYIDX c.val) 8 0 = stepped ∧ HostOnly (fun e => e = .hrp ∨ e = .reg (aDLYIDX c.val)) s t) ∧
       (∃ t, exec (.dlydatAccess c (some w)) s = .next t ∧ t.fld (aDLYIDX c.val) 8 0 = stepped ∧
          (∀ j, t.anvils[c].dlyGet j = if j = i ∧ dlyOffset (i % 128) = true then w.setWidth 10 else v.dlyGet j) ∧
          HostOnly (fun e => e = .anvil c ∨ e = .reg (aDLYIDX c.val)) s t)) ∧
      (let e := s.fld (aPATIDX c.val) 3 0
       let k := s.fld (aPATIDX c.val) 8 4
       k < 18 →
       (∃ t, exec (.patdatAccess c none) s = .next t ∧ t.hrpRdata = v.patGet e k ∧
          (s.flag (aPATIDX c.val) 16 = true → t.fld (aPATIDX c.val) 8 4 = (k + 1) % 18 ∧
            t.fld (aPATIDX c.val) 3 0 = if k = 17 then (e + 1) % 16 else e) ∧
          HostOnly (fun x => x = .hrp ∨ x = .reg (aPATIDX c.val)) s t) ∧
       (∃ t, exec (.patdatAccess c (some w)) s = .next t ∧ t.anvils[c].patGet e k = w ∧
          (∀ e' k', e' < 16 → k' < 18 → (e', k') ≠ (e, k) → t.anvils[c].patGet e' k' = v.patGet e' k') ∧
          HostOnly (fun x => x = .anvil c ∨ x = .reg (aPATIDX c.val)) s t))) ∧
    (s.hearths[h].locking = true → s.flag top 8 = true → ∃ t, exec (.pllLock h) s = .next t ∧ t.flag top 31 = true ∧
      t.hearths[h] = { s.hearths[h] with locking := false, lockAt := s.timebase } ∧
      Only (fun e => e = .reg top ∨ e = .hearth h ∨ ∃ x : Chan, hearthOf x = h ∧ e = .anvil x) s t) ∧
    (s.flag top 8 = true → s.flag top 31 = true → s.hearths[h].locking = false → hearthOf c = h → s.populated c.val = true →
      (∀ x : Chan, hearthOf x = h → s.populated x.val = true → c ≤ x) →
      ∃ t e, exec (.pllLockLoss h) s = .next t ∧ t.flag top 31 = false ∧ t.faults.arriving = s.faults.arriving ++ [e] ∧
        e.kind = 0x08 ∧ e.sev = 3 ∧ e.source = BitVec.ofNat 8 c.val ∧ e.detail = BitVec.ofNat 23 (0xF + h.val * 2 ^ 8) ∧
        Only (fun x => x = .reg top ∨ x = .faults) s t)

/-- 12 R407, R409, R413 to R420, R428: the slots of channel `c`. -/
def Obligations.SlotBoundariesGrantAndTablesSwitch : Prop :=
  ∀ (s : State) (c : Chan) (ck now : Nat) (p : Nat),
    let v := s.anvils[c]
    let len := s.fld (aSLOT c.val) 21 11
    let i := (ck - v.slotStart) / 4 % len
    let entry := v.slotEntry (s.flag (aSLOT c.val) 28) i
    let w : Anvil := { v.admit7 ck with boundAt := some ck, hammer := if i = 0 then 0 else v.hammer }
    let last := v.boundAt.getD 0
    ((s.flag (aPLL c.val) 31 = false ∨ (v.slotFresh = false ∧ (ck < v.slotStart ∨ (ck - v.slotStart) % 4 ≠ 0)) ∨
      (∃ b, v.boundAt = some b ∧ ck ≤ b)) →
      exec (.slotBoundary c ck) s = .next s) ∧
    (s.flag (aPLL c.val) 31 = true → v.slotFresh = false → v.slotStart ≤ ck → (ck - v.slotStart) % 4 = 0 →
      (∀ b, v.boundAt = some b → b < ck) → v.granted = [] → (v.grant = .none ∨ ∃ q, v.grant = .owner q) →
      (len = 0 → v.pauses = [] → ∃ t, exec (.slotBoundary c ck) s = .next t ∧ t.anvils[c].grant = .none ∧ Only (· = .anvil c) s t) ∧
      (0 < len → v.pauses = [] → entry.toNat = 128 + p → s.flag (aLAPSE (p / 32)) (p % 32) = false → s.portEligible c p = true →
        (v.heat7 = [] → ∃ t, exec (.slotBoundary c ck) s = .next t ∧
          t.anvils[c] = { w with grant := .owner p } ∧ Only (· = .anvil c) s t) ∧
        ((∃ e ∈ v.heat7, e.1.due ≤ ck) → ∃ t, exec (.slotBoundary c ck) s = .next t ∧
          t.anvils[c] = { w with grant := .none } ∧
          t.fld (aLOST c.val) 31 16 = min 65535 (s.fld (aLOST c.val) 31 16 + 1) ∧
          t.fld (aLOST c.val) 15 0 = s.fld (aLOST c.val) 15 0 ∧
          Only (fun e => e = .anvil c ∨ e = .reg (aLOST c.val)) s t)) ∧
      (0 < len → v.pauses = [] → entry.toNat < 128 → v.heat7 = [] → s.backgroundPort c = none →
        ∃ t, exec (.slotBoundary c ck) s = .next t ∧ t.anvils[c] = { w with grant := .none } ∧
          Only (· = .anvil c) s t) ∧
      (∀ r rest, 0 < len → s.modes.mode ≠ .kindle → v.pauses = r :: rest → r.prep = false → r.forced = true →
        ∃ t, exec (.slotBoundary c ck) s = .next t ∧
          t.anvils[c] = { w with grant := .none, pauses := { r with prep := true } :: rest } ∧
          Only (fun e => e = .anvil c ∨ e = .reg (aLOST c.val)) s t)) ∧
    (s.flag (aSLOT c.val) 30 = true → s.flag (aPLL c.val) 31 = true →
      (s.rd (aTLO c.val)).toNat + (s.rd (aTHI c.val)).toNat * 2 ^ 32 ≤ s.timeAt now →
      (∀ (m : SmithId) (k : Nat) (x : Byte), s.smiths[m].wait ≠ some (.slw c k x)) → ∃ t, exec (.slotTableSwitch c ck now) s = .next t ∧
        t.flag (aSLOT c.val) 28 = !s.flag (aSLOT c.val) 28 ∧ t.fld (aSLOT c.val) 21 11 = s.fld (aSLOT c.val) 10 0 ∧
        t.flag (aSLOT c.val) 30 = false ∧ t.anvils[c].slotStart = ck ∧ t.anvils[c].slotFresh = false ∧
        (v.grant = .none → t.anvils[c].grant = .none) ∧
        (s.fld (aSLOT c.val) 10 0 = 0 → t.anvils[c].grant = .none) ∧
        (0 < s.fld (aSLOT c.val) 10 0 → v.grant = .owner p →
          t.anvils[c].grant = if ck < last + 4 then .carried p (last + 4) false else .none) ∧
        t.anvils[c].bank0 = v.bank0 ∧ t.anvils[c].bank1 = v.bank1 ∧
        (∀ q : PortId, t.ports[q] = s.ports[q] ∨
          (5 ≤ s.shed ∧ s.ownsSlot q.val = true ∧ t.ports[q] = { s.ports[q] with throttle := 2 ^ 17 })) ∧
        Only (fun e => e = .anvil c ∨ e = .reg (aSLOT c.val) ∨ e = .time ∨ ∃ q, e = .port q) s t)

/-- 09 R319, R320, 18 R569, 19 R581 and 13 R455: self-tests and transitions of the anvil of channel `c`. -/
def Obligations.SelfTestsAndAnvilTransitions : Prop :=
  ∀ (s : State) (c : Chan) (w : Word) (failing : Option (Fin 96)),
    let v := s.anvils[c]
    let ecc := aECC_STAT c.val
    let off := failing.isSome || v.macroOff
    (s.modes.mode ≠ .cold → s.modes.mode ≠ .banked →
      (w.getLsbD 0 = true → (s.modes.mode = .kindle ∨ s.modes.mode = .assay) → ∃ t, exec (.stgo c w) s = .next t ∧
        t.flag ecc 31 = false ∧ t.anvils[c] = { v with testing := true } ∧
        HostOnly (fun e => e = .anvil c ∨ e = .reg ecc) s t) ∧
      ((w.getLsbD 0 = false ∨ (s.modes.mode ≠ .kindle ∧ s.modes.mode ≠ .assay)) →
        ∃ t, exec (.stgo c w) s = .next t ∧ HostOnly (fun _ => False) s t)) ∧
    (v.testing = true →
      (s.modes.mode ≠ .kindle → ∃ t, exec (.selfTestEnd c failing) s = .next t ∧ t.flag ecc 31 = true ∧
        t.flag ecc 30 = failing.isSome ∧ t.anvils[c] = { v.unsee with testing := false } ∧
        (failing = none → Only (fun e => e = .anvil c ∨ e = .reg ecc) s t) ∧
        (∀ f, failing = some f → t.fld ecc 22 16 = f.val ∧ Only (fun e => e = .anvil c ∨ e = .reg ecc ∨ e = .faults) s t ∧
          ∃ e, t.faults.arriving = s.faults.arriving ++ [e] ∧ e.kind = 0x16 ∧ e.sev = 2 ∧ e.source = BitVec.ofNat 8 c.val ∧
            e.detail = BitVec.ofNat 23 f.val)) ∧
      (s.modes.mode = .kindle → ∃ t, exec (.selfTestEnd c failing) s = .next t ∧ t.flag ecc 31 = true ∧
        t.flag (aSTAT c.val) 28 = off ∧ t.anvils[c].testing = false ∧
        t.anvils[c].fn = v.fn.request (s.populated c.val && !off) ∧
        Only (fun e => e = .anvil c ∨ e = .reg ecc ∨ e = .reg (aSTAT c.val) ∨ e = .faults) s t)) ∧
    (v.fn.state = .starting → ∃ t, exec (.anvilTransitionEnd c) s = .next t ∧
      t.anvils[c].fn = { v.fn with state := if v.fn.want then .on else .stopping } ∧ t.anvils[c].reads = [] ∧
      t.anvils[c].writes = [] ∧ t.anvils[c].slot = [] ∧ t.anvils[c].heat7 = [] ∧
      t.anvils[c].dram = v.dram ∧ t.anvils[c].retrainAt = s.timebase ∧
      (s.modes.mode ≠ .kindle → t.anvils[c].tim = v.tim ∧ t.anvils[c].ranks = v.ranks) ∧
      (s.modes.mode = .kindle → ∀ n : Fin 9, t.anvils[c].tim[n] = s.rd (if n.val = 8 then aDERATE c.val else aTIM c.val n.val)) ∧
      (s.modes.mode = .kindle → s.refreshing c = true →
        t.anvils[c].mr4Due = some s.timebase ∧ ∀ k : Fin 2, t.anvils[c].ranks[k].debt = 0) ∧
      Only (· = .anvil c) s t) ∧
    (v.fn.state = .stopping → ∃ t, exec (.anvilTransitionEnd c) s = .next t ∧
      t.anvils[c].fn = { v.fn with state := if v.fn.want then .starting else .off } ∧
      t.anvils[c].resetN = false ∧
      (∀ k : Fin 2, t.anvils[c].lost[k] = v.lost[k] + 1 ∧ t.anvils[c].selfRef[k] = false) ∧ Only (· = .anvil c) s t)

/-- 09 R321 to R329: the Gleaner and the patrol of channel `c`. -/
def Obligations.GleanerAndPatrolWalk : Prop :=
  ∀ (s : State) (c : Chan) (now : Nat) (w : Word) (x : Visit) (ri : Nat),
    let v := s.anvils[c]
    let u := s.timeAt now
    let here (p : Part) : Prop := p = .anvil c ∨ p = .slice c ∨ p = .time
    let ctl := aGLN_CTL c.val
    let pat := aPAT_CTL c.val
    let pos := aPAT_POS c.val
    let q := s.place c.val ri
    (s.modes.mode ≠ .cold → s.modes.mode ≠ .banked → ∃ t, exec (.gleanerEn c w) s = .next t ∧
      t.flag ctl 31 = w.getLsbD 31 ∧ t.fld ctl 15 0 = bits w.toNat 15 0 ∧
      t.anvils[c] = { v with gln := v.gln.request (w.getLsbD 31) } ∧ HostOnly (fun p => p = .anvil c ∨ p = .reg ctl) s t) ∧
    (v.gln.state = .starting → ∃ t, exec (.gleanerTransitionEnd c) s = .next t ∧
      t.anvils[c] = { v with gln := { v.gln with state := if v.gln.want then .on else .stopping } } ∧ Only (· = .anvil c) s t) ∧
    (v.gln.state = .stopping → v.visit = none → v.glnWrites = false → ∃ t, exec (.gleanerTransitionEnd c) s = .next t ∧
      t.anvils[c] = { v with
        gln := { v.gln with state := if v.gln.want then .starting else .off }, walk := 0, lapStart := none, lapTold := false } ∧
      Only (· = .anvil c) s t) ∧
    (s.anvilOpen c = true → s.walking c = true → v.visit = none → v.fills = [] → v.mend = [] → s.fld (aFILL c.val) 13 0 = 0 →
      s.nextRow c v.walk = some ri → s.visitOpen c ri = true → (∀ r ∈ v.reads, r.kind ≠ .scrub) →
      ∃ t l y, exec (.gleanerVisit c now) s = .next t ∧
        t.anvils[c].reads = v.reads ++ l ∧ l ≠ [] ∧ l.length ≤ 4 ∧
        (∀ r ∈ l, r.kind = .scrub ∧ r.place = q ∧ r.heat = 0 ∧ r.port = none ∧ r.todo.length ≤ 2) ∧
        t.anvils[c].visit = some y ∧ y.row = ri ∧ y.got = [] ∧ y.dirty = false ∧ y.again = [] ∧
        ((l.map ReadEnt.todo ++ y.left).flatten).Perm (List.range 32) ∧
        t.anvils[c].lapStart = some (v.lapStart.getD u) ∧ Only here s t) ∧
    (s.visitRead c = some x →
      (x.dirty = true → ∃ t y, exec (.gleanerVisitEnd c now) s = .next t ∧
        t.anvils[c].visit = some y ∧ y.row = x.row ∧ y.got = [] ∧ y.dirty = false ∧ y.again = x.again ∧ t.anvils[c].walk = v.walk ∧ Only here s t) ∧
      (x.dirty = false → x.again = [] → x.mended = false → x.last = false →
        (∀ n ∈ s.rowNs, (s.decode c (s.place c.val x.row) x.got n).found = .good ∧ (s.decode c (s.place c.val x.row) x.got n).fixes = []) →
        (s.swath = true ∨ (s.flagBitmap c (s.place c.val x.row) x.got (s.rowNs.map (fun n => (n, s.decode c (s.place c.val x.row) x.got n))) =
          abBitmap (RowData.sec x.got 31) ∧ abBitmapSplit (RowData.sec x.got 31) = false)) →
        ∃ t, exec (.gleanerVisitEnd c now) s = .next t ∧ t.anvils[c].visit = none ∧ t.anvils[c].walk = x.row + 1 ∧
          t.anvils[c].reads = v.reads ∧ t.anvils[c].dram = v.dram ∧ Only here s t)) ∧
    (∀ from_, 0 < s.fld ctl 15 0 → v.lapTold = false → v.lapStart = some from_ → from_ + s.fld ctl 15 0 * 1000000000 ≤ u →
      ∃ t m, exec (.lapOverdue c now) s = .next t ∧ t.anvils[c] = { v with lapTold := true } ∧ t.flag ctl 25 = true ∧
        t.faults.arriving = s.faults.arriving ++ [m] ∧ m.kind = 0x1E ∧ m.sev = 0 ∧ m.source = BitVec.ofNat 8 c.val ∧
        Only (fun p => here p ∨ p = .reg ctl ∨ p = .faults) s t) ∧
    (s.patrolling c = true → v.patrolAt + 1000 ≤ u → s.fld pat 7 0 = 1 →
      let n := s.fld pos 27 0
      let last := s.fld (aPAT_END c.val) 27 0 ≤ n + 1
      let mine (p : Part) : Prop := here p ∨ p = .reg pat ∨ p = .reg pos
      let at_ := s.secPlace c (n * 64)
      let moved (t : State) : Prop :=
        t.anvils[c].patrolAt = (if u < v.patrolAt + 2000 then v.patrolAt + 1000 else u) ∧
        (¬ last → t.fld pos 27 0 = n + 1 ∧ t.rd pat = s.rd pat) ∧
        (last → t.flag pat 29 = true ∧ (s.flag pat 30 = true → t.fld pos 27 0 = s.fld (aPAT_START c.val) 27 0 ∧ t.flag pat 31 = true) ∧
          (s.flag pat 30 = false → t.flag pat 31 = false)) ∧ Only mine s t
      n < 2 ^ 28 - 1 →
      (v.written (n * 64 / 65536) = false → ∃ t, exec (.patrolAdvance c now) s = .next t ∧ moved t ∧
        t.anvils[c].reads = v.reads) ∧
      (v.written (n * 64 / 65536) = true → n * 64 < s.chanCap → v.rdq < 160 →
        ∃ t r, exec (.patrolAdvance c now) s = .next t ∧ moved t ∧ t.anvils[c].reads = v.reads ++ [r] ∧
          r.kind = .patrol false false ∧ r.place = at_.1 ∧ r.heat = 1 ∧
          r.secs = [at_.2] ∧ r.locate = s.swath ∧
          r.todo = (if s.swath then swathPositions at_.2 else [at_.2])))

/-- 13 R432 to R441 and 04 R171: requests and completions of modes. -/
def Obligations.ModeRequestsTransitionsAndQueues : Prop :=
  ∀ (s : State) (w : Word) (now : Nat),
    let req := bits w.toNat 2 0
    let ms := s.smiths[masterSmith]
    let runs : Prop := s.tongs.bitten = none ∧ s.flag aAST_STAT 27 = false ∧ ms.run ≠ .stopped ∧ s.flag aSTATE1 18 = false
    let barred : Prop := s.tongs.bitten ≠ none ∨ s.flag aAST_STAT 27 = true ∨ (s.modes.mode ≠ .banked ∧ ms.run = .stopped)
    let told (t : State) : Prop := t.smiths[masterSmith] = { ms with evpend := ms.evpend ||| 0x8 }
    (s.modes.mode ≠ .cold → (req = 0 ∨ req = 3 ∨ req = 6 ∨ req = 7) →
      ∃ t, exec (.modeRequest w) s = .next t ∧ t.flag aMODE 30 = true ∧ t.modes = s.modes ∧ HostOnly (· = .reg aMODE) s t) ∧
    (s.modes.mode ≠ .cold → barred → (req = 1 ∨ req = 2 ∨ req = 4) → ∃ t, exec (.modeRequest w) s = .next t ∧
      t.flag aMODE 30 = true ∧ t.modes = s.modes ∧ HostOnly (fun e => e = .reg aMODE ∨ e = .reg aMODE_REQ) s t) ∧
    (∀ m, s.modes.mode ≠ .cold → runs → s.flag aMODE 29 = true → Mode.code m = req → (req = 1 ∨ req = 2 ∨ req = 4 ∨ req = 5) →
      ∃ t, exec (.modeRequest w) s = .next t ∧ t.flag aMODE_REQ 31 = true ∧ t.fld aMODE_REQ 2 0 = req ∧
        t.modes = { s.modes with recorded := some m, recHost := true } ∧ HostOnly (fun e => e = .reg aMODE_REQ ∨ e = .modes) s t) ∧
    (s.modes.mode = .kindle → runs → s.flag aMODE 29 = false → req = 2 → s.flag aAST_STAT 29 = false →
      ∃ t, exec (.modeRequest w) s = .next t ∧ t.flag aMODE 29 = true ∧ t.fld aMODE 10 8 = 2 ∧ t.fld aMODE 2 0 = s.fld aMODE 2 0 ∧
        told t ∧ t.modes = s.modes ∧ HostOnly (fun e => e = .reg aMODE ∨ e = .reg aMODE_REQ ∨ e = .smith masterSmith) s t) ∧
    (s.inService = true → runs → s.flag aMODE 29 = false → req = 4 → (∀ p ∈ s.gang.peers, p.fn.want = false) →
      (∀ k : Fin 3, s.linkUp k = false) → (∀ c : Chan, s.flag (aSLOT c.val) 30 = false) →
      ∃ t, exec (.modeRequest w) s = .next t ∧ t.flag aMODE 29 = true ∧ t.fld aMODE 10 8 = 4 ∧ told t ∧
        t.modes = { s.modes with step := .draining, hostBank := true } ∧
        (∀ c : Chan, ∀ x ∈ t.slices[c].merge, x.flush = true) ∧
        HostOnly (fun e => e = .reg aMODE ∨ e = .reg aMODE_REQ ∨ e = .smith masterSmith ∨ e = .modes ∨ ∃ c, e = .slice c) s t) ∧
    (s.modes.mode = .kindle → s.masterWrites = true → s.flag aMODE 29 = true → s.fld aMODE 10 8 = 2 → req = 2 →
      s.modes.recorded = none → s.tongs.bitten = none → s.modes.offReq = false →
      (s.mapGood s.keptOff = true → s.thermal = false → ∃ t, exec (.modeComplete w now) s = .next t ∧
        t.modes.mode = (if s.shed = 0 then .forge else .lowfire) ∧ t.fld aMODE 2 0 = (if s.shed = 0 then 2 else 3) ∧
        t.flag aMODE 29 = false ∧ t.flag aMODE 31 = true ∧ t.flag aCAP 31 = true ∧ t.flag aCAP 29 = false ∧
        t.temper.round = true ∧ t.temper.base = some (s.timeAt now)) ∧
      (s.mapGood s.keptOff = false → ∃ t, exec (.modeComplete w now) s = .next t ∧ t.modes = s.modes ∧
        t.flag aCAP 29 = true ∧ t.flag aMODE 30 = true ∧ t.flag aMODE 29 = false ∧
        Only (fun e => e = .reg aMODE ∨ e = .reg aCAP ∨ e = .time ∨ e = .prog ∨ e = .smith masterSmith) s t)) ∧
    (s.masterWrites = true → req = Mode.code s.modes.mode → ∃ t, exec (.modeComplete w now) s = .next t ∧
      t.modes = s.modes ∧ Only (fun e => e = .reg aMODE ∨ e = .time) s t) ∧
    (s.masterWrites = false → exec (.modeComplete w now) s = .next s) ∧
    (s.modes.step = .draining → s.queuesEmpty = true → s.fld aMODE 10 8 = 4 → s.tongs.bitten = none →
      ∃ t, exec .bankedQueuesEmpty s = .next t ∧
      t.modes = { s.modes with step := .bankIn } ∧ t.assay.saveSeq = s.assay.saveSeq + 1 ∧
      (∀ c : Chan, s.populated c.val = true → t.anvils[c].drained = true))

/-- 13 R445 to R460: shed levels, sag, Temper and the supply request. -/
def Obligations.ShedSagAndTemperFollowTheirInputs : Prop :=
  ∀ (s : State) (w : Word) (now : Nat) (n : Fin 8) (pm : BitVec 3) (counts : List (Nat × Nat)),
    let u := s.timeAt now
    let ms := s.smiths[masterSmith]
    let lv := bits w.toNat 2 0
    let dwell := 1000 * s.fld aSAG 31 16
    let shown (t : State) : Prop := t.fld aSAG 6 4 = topLevel t.temper.vset ∧ t.fld aSAG 10 8 = topLevel t.temper.rset ∧
      t.fld aSAG 2 0 = max (max (topLevel t.temper.vset) (topLevel t.temper.rset)) (t.fld aSAG 14 12) ∧
      (t.fld aSAG 2 0 ≠ s.fld aSAG 2 0 → t.smiths[masterSmith].evpend = ms.evpend ||| 0x10) ∧
      (t.fld aSAG 2 0 = s.fld aSAG 2 0 → t.smiths[masterSmith] = ms)
    let sag (e : Part) : Prop := e = .reg aSAG ∨ e = .reg aRATE ∨ e = .temper ∨ e = .modes ∨ e = .smith masterSmith ∨ e = .time
    (s.inService = true → ms.run ≠ .stopped → s.flag aSHED 31 = false → lv ≠ s.shed → lv ≠ 7 →
      ∃ t m, exec (.shedLevelChange w) s = .next t ∧ t.shed = lv ∧ t.faults.arriving = s.faults.arriving ++ [m] ∧
        m.kind = 0x1A ∧ m.source = 0x50 ∧ m.sev = 0 ∧ m.detail = BitVec.ofNat 23 (lv + s.shed * 2 ^ 3) ∧
        t.modes.mode = (if lv = 0 then .forge else .lowfire) ∧ t.anvils = s.anvils) ∧
    (s.inService = true → ms.run ≠ .stopped → s.flag aSHED 31 = true → lv < 5 → s.shed = 5 →
      exec (.shedLevelChange w) s = .next s) ∧
    (s.inService = true → s.fld aSAG 2 0 < s.shed → s.modes.shedFrom + dwell ≤ u → ∃ t, exec (.shedStepTimer now) s = .next t ∧
      t.smiths[masterSmith] = { ms with evpend := ms.evpend ||| 0x10 } ∧
      t.modes = { s.modes with shedFrom := s.modes.shedFrom + dwell } ∧
      Only (fun e => e = .smith masterSmith ∨ e = .modes ∨ e = .time) s t) ∧
    (∀ supply, s.modes.pinsLow = false → n ≠ 0 →
      let vn := 400000 + 2500 * s.fld (aSAGV ((n.val - 1) / 4)) (8 * ((n.val - 1) % 4) + 7) (8 * ((n.val - 1) % 4))
      let release := vn + 2500 * s.fld (aSAGV 1) 31 24
      ∃ t, exec (.comparatorCrossing (supply, now)) s = .next t ∧
        t.temper.vset.getLsbD n.val = (s.temper.vset.getLsbD n.val || decide (supply < vn)) ∧
        t.temper.above[n] = (if release ≤ supply then some ((s.temper.above[n]).getD u) else none) ∧ shown t ∧ Only sag s t) ∧
    (∀ from_, s.modes.pinsLow = false → s.temper.vset.getLsbD n.val = true → s.temper.above[n] = some from_ → from_ + dwell ≤ u →
      ∃ t, exec (.sagRelease true n now) s = .next t ∧
        t.temper = { s.temper with vset := s.temper.vset &&& ~~~ BitVec.ofNat 8 (2 ^ n.val) } ∧ shown t ∧ Only sag s t) ∧
    (s.modes.mode ≠ .cold → s.modes.mode ≠ .banked → ∃ t, exec (.pmSag pm) s = .next t ∧ t.fld aSAG 14 12 = pm.toNat ∧
      t.temper = { s.temper with pmPin := pm } ∧ shown t ∧ Only sag s t) ∧
    (∀ period, s.modes.mode ≠ .cold → s.modes.mode ≠ .banked → ∃ t, exec (.rateMonitor period now) s = .next t ∧
      t.fld aRATE 7 0 = min 255 period ∧ shown t ∧
      (n ≠ 0 → t.temper.rset.getLsbD n.val = (s.temper.rset.getLsbD n.val || decide (s.rateThreshold n.val ≤ min 255 period))) ∧
      Only sag s t) ∧
    (∀ from_, s.modes.mode = .banked → s.flag aMODE 28 = true → s.flag aMODE 29 = false → s.assay.holdExit = false →
      s.temper.above[7] = some from_ → from_ + dwell ≤ u → ∃ t, exec (.bankedSagRelease now) s = .next t ∧ t.flag aMODE 29 = true ∧ t.fld aMODE 10 8 = 2 ∧
        t.temper.vset.getLsbD 7 = false ∧ (s.modes.step = .off → t.modes.step = .gateOn ∧ t.modes.pgReq = 2) ∧ (s.modes.step ≠ .off → t.modes.held = true)) ∧
    (s.modes.mode ≠ .cold → s.modes.mode ≠ .banked → s.temper.round = false → w.getLsbD 31 = true →
      bits w.toNat 15 0 = s.fld aTMP_CTL 15 0 → ∃ t, exec (.temperGo w) s = .next t ∧
        t.temper = { s.temper with round := true, roundAt := s.timebase } ∧ HostOnly (fun e => e = .temper ∨ e = .reg aTMP_CTL) s t) ∧
    (∀ base, 0 < s.fld aTMP_CTL 15 0 → s.temper.base = some base → base + 1000000000 * s.fld aTMP_CTL 15 0 ≤ u →
      ∃ t, exec (.temperRound now) s = .next t ∧ t.temper.base = some (base + 1000000000 * s.fld aTMP_CTL 15 0) ∧
        t.temper.round = (s.temper.round || decide (s.modes.mode ≠ .banked)) ∧ Only (fun e => e = .temper ∨ e = .time) s t) ∧
    (s.temper.round = true → s.modes.mode ≠ .cold → s.modes.mode ≠ .banked → counts.length = 32 →
      24 * (s.temper.roundAt + 10000) + 625 * 2 ^ (10 + s.fld aTMP_CTL 19 16) ≤ 24 * u →
      ∃ t, exec (.temperRoundEnd counts now) s = .next t ∧
        t.fld aAGE 31 24 = (s.fld aAGE 31 24 + 1) % 256 ∧ t.temper.round = s.temper.again ∧
        t.smiths[masterSmith] = { ms with evpend := ms.evpend ||| 0x800 } ∧
        (∃ k < 32, t.fld aAGE 20 16 = k ∧ t.fld aAGE 9 0 = min 1023 (s.shiftOf k (counts.getD k (0, 0))) ∧
          ∀ j < 32, s.shiftOf j (counts.getD j (0, 0)) ≤ s.shiftOf k (counts.getD k (0, 0)) ∧
            (j < k → s.shiftOf j (counts.getD j (0, 0)) ≠ s.shiftOf k (counts.getD k (0, 0)))) ∧
        Only (fun e => e = .reg aAGE ∨ e = .temper ∨ e = .smith masterSmith ∨ e = .time) s t) ∧
    (s.modes.mode ≠ .cold → ∃ t, exec (.vreqCodeWrite w) s = .next t ∧
      (t.fld aVREQ 5 0 ≠ s.fld aVREQ 5 0 → t.flag aVREQ 31 = false ∧ t.pmVreq = s.pmVreq ∧
        ∀ later, s.clock.refclk + 2 ≤ refCycle later → (t.at later).pmVreq = BitVec.ofNat 6 (t.fld aVREQ 5 0)) ∧
      (t.fld aVREQ 5 0 = s.fld aVREQ 5 0 → t.temper = s.temper ∧ t.flag aVREQ 31 = s.flag aVREQ 31) ∧
      HostOnly (fun e => e = .reg aVREQ ∨ e = .temper) s t) ∧
    (∀ level, ∃ t, exec (.pmVack (level, now)) s = .next t ∧ t.temper = { s.temper with vack := level } ∧
      (s.modes.pinsLow = true → Only (· = .temper) s t) ∧
      (s.modes.pinsLow = false → t.flag aVREQ 31 = ((level && !s.temper.vack &&
          s.temper.vreqs.all (fun e => decide (e.1 < max s.clock.refclk (refCycle now)))) || s.flag aVREQ 31) ∧
        Only (fun e => e = .reg aVREQ ∨ e = .temper ∨ e = .time) s t))

/-- 04 R144, 13 R443, 14 R464, 15 R497, 16 R519, 18 R566, 19 R574, R577, R580: power, reset and fuses. -/
def Obligations.PowerResetAndFuses : Prop :=
  ∀ (s : State) (now : Nat) (id size : BitVec 2) (first second : List Word),
    let u := s.timeAt now
    (s.modes.offReq = false → s.modes.step = .off → ∃ t, exec (.pmOffreq true) s = .next t ∧
      t.modes = { s.modes with offReq := true, offAck := true, offRun := false } ∧ Only (· = .modes) s t) ∧
    (s.modes.offReq = false → s.inService = true → s.modes.step = .none → s.flag aMODE 29 = false →
      s.tongs.bitten = none → s.flag aAST_STAT 27 = false → s.modes.offAck = false → ∃ t, exec (.pmOffreq true) s = .next t ∧ t.modes.offReq = true ∧ t.modes.offRun = true ∧ t.modes.step = .draining ∧
        t.flag aMODE 29 = true ∧ t.fld aMODE 10 8 = 4) ∧
    (∃ t, exec (.pmOffreq false) s = .next t ∧ t.modes = { s.modes with offReq := false, offAck := false } ∧ Only (· = .modes) s t) ∧
    (∀ from_, s.modes.step = .gateOff → s.modes.pgReq = 0 → s.modes.offRun = false → s.modes.gateFrom = some from_ →
      ((s.faults.queue = [] ∧ s.faults.arriving = []) ∨ from_ + 100000 ≤ u) →
      ∃ t, exec (.faultDrainTimeout now) s = .next t ∧ t.faults = { s.faults with queue := [], arriving := [] } ∧
        t.modes = { s.modes with pgReq := 1 } ∧ Only (fun e => e = .faults ∨ e = .modes ∨ e = .time) s t) ∧
    (s.modes.pgReq = 1 → ∃ t, exec .powerGateAck s = .next t ∧ t.modes.pgReq = 0 ∧ t.modes.step = .off ∧
      t.modes.mode = s.modes.mode ∧ t.modes.gated = true ∧ (∀ m : SmithId, t.smiths[m].run = .stopped) ∧ t.pieces = [] ∧ t.evq.recs = [] ∧
      t.faults.queue = [] ∧ (∀ c : Chan, t.anvils[c].reads = [] ∧ t.anvils[c].writes = [] ∧
        t.anvils[c].dram = s.anvils[c].dram ∧ t.anvils[c].bank0 = s.anvils[c].bank0) ∧
      (∀ r : RegionId, t.hedge.regions[r].engine = none) ∧ t.hedge.fuse = s.hedge.fuse ∧
      (∀ k : Fin 3, t.fld (aLINK k.val) 31 30 = 0) ∧ (∀ a, (∀ k : Fin 3, a ≠ aLINK k.val) → t.rd a = s.rd a)) ∧
    (s.modes.pgReq = 2 → Memory.wf resetWord s.regs = true → ∃ t, exec .powerGateAck s = .next t ∧ t.modes.pgReq = 0 ∧ t.modes.step = .bankOut ∧
      t.modes.mode = s.modes.mode ∧ (∀ c : Chan, s.populated c.val = true → t.anvils[c].drained = true)) ∧
    (s.modes.pinsLow = false → ∃ t, exec .resetAssert s = .next t ∧ t.modes.mode = .cold ∧ t.modes.pinsLow = true ∧ t.timebase = 0 ∧
      t.pending = s.pending ∧ (∀ m : SmithId, t.smiths[m].run = .stopped) ∧ t.pieces = [] ∧ t.faults = FaultUnit.reset ∧
      t.evq = Evq.reset ∧ t.flag aMODE 27 = decide (s.modes.mode = .banked) ∧
      (∀ a, a ≠ aMODE → a ≠ aAST_STAT → SMap.get resetWord t.regs a = resetWord a) ∧
      (∀ c : Chan, t.anvils[c].dram = if s.modes.mode = .banked then s.anvils[c].dram
        else s.anvils[c].dram.filter (fun e => e.1 / 2 ^ 27 != 0 && e.1 / 2 ^ 27 != 1)) ∧
      t.imageMS.mem = s.imageMS.mem ∧ t.imageMS.accepted = false ∧ t.imageAS.accepted = false ∧
      t.assay.repairs = s.assay.repairs ∧ t.assay.records = s.assay.records) ∧
    (s.modes.pinsLow = true → ∃ t, exec (.resetDeassert id size) s = .next t ∧ t.timebase = 0 ∧ t.modes.pinsLow = false ∧
      t.fld aGANG 5 4 = id.toNat ∧ t.fld aGANG 1 0 = size.toNat ∧
      Only (fun e => e = .time ∨ e = .modes ∨ e = .reg aGANG) s t) ∧
    (∃ t, exec .alwaysOnPowerUp s = .next t ∧ t.assay = Assay.reset ∧ t.imageMS = Image.reset ∧ t.imageAS = Image.reset ∧
      t.rd aAST_STAT = resetWord aAST_STAT ∧ t.flag aMODE 27 = false ∧
      (∀ c : Chan, t.anvils[c].resetN = false ∧
        ∀ k : Fin 2, t.anvils[c].selfRef[k] = false ∧ t.anvils[c].lost[k] = s.anvils[c].lost[k] + 1) ∧
      Only (fun e => e = .assay ∨ e = .imageMS ∨ e = .imageAS ∨ e = .reg aAST_STAT ∨ e = .reg aMODE ∨ ∃ c, e = .anvil c) s t) ∧
    (s.modes.mode = .cold → s.modes.pinsLow = false → s.modes.fuseRead = false → first.length = 128 → second.length = 128 → s.hrpHeld = [] →
      (first = second → fuseCrcGood first = true → (∃ lc, lifecycleOf (bits (first.getD 0 0).toNat 3 0) = some lc) →
        s.flag aAST_STAT 31 = true → ∃ t, exec (.fuseImageRead first second) s = .next t ∧ t.modes.mode = .kindle ∧
          t.flag aHDG_STAT 30 = true ∧ (∀ i : Fin 128, t.hedge.fuse[i] = first.getD i.val 0) ∧
          some (t.fld aHDG_STAT 2 0) = lifecycleOf (bits (first.getD 0 0).toNat 3 0) ∧
          (∀ c : Chan, t.anvils[c].testing = true)) ∧
      ((first ≠ second ∧ lifecycleOf (bits (first.getD 0 0).toNat 3 0) ≠ some 0) → s.hedge.alarm = false →
        s.tongs.bitten = none → ∃ t, exec (.fuseImageRead first second) s = .next t ∧ t.modes.mode = .quench ∧
          t.hedge.alarm = true ∧ t.flag aHDG_STAT 30 = false ∧ t.fld aHDG_STAT 29 26 = 8))

/-- 16 R520 to R532: the Assay engine. -/
def Obligations.AssayRunsRepairsAndDirectControl : Prop :=
  ∀ (s : State) (k : RunKind) (q : Nat) (rest : List Nat) (w : Word),
    let marked (t : State) : Prop := t.flag aAST_STAT q = true
    let started : List Nat := (List.range 4).filter (fun i => w.getLsbD (24 + i))
    (s.assay.run = some (k, q :: rest) → q < 4 → k ≠ .direct → s.hrpHeld = [] →
      (rest ≠ [] → ∃ t, exec (.quarterEnd true []) s = .next t ∧ marked t ∧ t.assay.run = some (k, rest) ∧
        t.assay.tested.getLsbD q = true ∧ t.flag aAST_STAT 29 = s.flag aAST_STAT 29 ∧
        t.gang = { s.gang with free := t.gang.free } ∧ Only (fun e => e = .assay ∨ e = .gang ∨ e = .reg aAST_STAT) s t) ∧
      (rest = [] → k = .automatic → s.fld aAST_STAT 3 0 ||| 2 ^ q = 15 → ∃ t, exec (.quarterEnd true []) s = .next t ∧
        marked t ∧ t.assay.run = none ∧ t.flag aAST_STAT 30 = false ∧ t.flag aAST_STAT 31 = true ∧
        t.modes = { s.modes with step := .gateOff, gateFrom := some s.timebase } ∧
        t.gang = { s.gang with free := t.gang.free } ∧ Only (fun e => e = .assay ∨ e = .gang ∨ e = .reg aAST_STAT ∨ e = .modes) s t) ∧
      (rest ≠ [] → k = .automatic → ∃ t m, exec (.quarterEnd false []) s = .next t ∧ marked t ∧ t.flag aAST_STAT 29 = true ∧
        t.fld aAST_STAT 15 8 = min 255 (s.fld aAST_STAT 15 8 + 1) ∧ t.faults.arriving = s.faults.arriving ++ [m] ∧
        m.kind = 0x15 ∧ m.source = 0x54 ∧ m.sev = 2 ∧ m.detail = BitVec.ofNat 23 (q + 2 * 2 ^ 10 + q * 2 ^ 12)) ∧
      (∀ f : MacroFinding, rest ≠ [] → k = .automatic → macroQuarter f.macroId = q → s.assay.repairs = [] →
        (∀ a b : Nat, f.cells = [(a, b)] → ∃ t m, exec (.quarterEnd true [f]) s = .next t ∧ marked t ∧
          t.assay.repairs = [{ macroId := f.macroId, rows := [a], cols := [], unrep := false }] ∧
          t.assay.records.lookup (4 * f.macroId) = some (BitVec.ofNat 32 (2 ^ 31 + 2 ^ 28 + min 65535 f.fails)) ∧
          t.flag aAST_STAT 28 = true ∧ t.fld aAST_STAT 23 16 = 1 ∧ t.faults.arriving = s.faults.arriving ++ [m] ∧
          m.kind = 0x15 ∧ m.sev = 1 ∧ m.detail = BitVec.ofNat 23 (f.macroId + q * 2 ^ 12)))) ∧
    (∀ good fs, s.assay.run = some (.direct, q :: rest) → s.hrpHeld = [] →
      (∃ c : Chan, c.val / 6 ∈ q :: rest ∧ s.populated c.val = true ∧ s.anvils[c].selfRef[0] = false) →
      exec (.quarterEnd good fs) s = .next s) ∧
    (s.modes.mode = .assay → w.getLsbD 31 = true → w.getLsbD 30 = false → s.assay.run = none → started ≠ [] →
      ∃ t, exec (.directRun w) s = .next t ∧ t.assay.run = some (.direct, started) ∧ t.flag aAST_STAT 27 = true ∧
        t.flag aAST_STAT 30 = true ∧ t.flag aAST_STAT 31 = false ∧
        (∀ c : Chan, c.val / 6 ∉ started → t.anvils[c] = s.anvils[c]) ∧ t.hrpRvalid = true) ∧
    (s.modes.mode = .assay → w.getLsbD 31 = false → w.getLsbD 30 = true → ∃ t, exec (.clrrep w) s = .next t ∧
      t.assay = { s.assay with repairs := [], records := [], tested := 0, saveSeq := 0 } ∧ t.fld aAST_STAT 23 16 = 0 ∧
      HostOnly (fun e => e = .assay ∨ e = .reg aAST_STAT ∨ e = .reg aAST_CTL) s t) ∧
    (s.modes.mode ≠ .assay → s.modes.mode ≠ .banked → s.modes.mode ≠ .cold →
      (w.getLsbD 31 = true → ∃ t, exec (.directRun w) s = .next t ∧ HostOnly (fun _ => False) s t) ∧
      (w.getLsbD 30 = true → ∃ t, exec (.clrrep w) s = .next t ∧ HostOnly (fun _ => False) s t)) ∧
    (s.modes.mode = .assay → s.hrpHeld = [] →
      (∃ t, exec (.tapInstruction .shift) s = .next t ∧ t.assay = { s.assay with tap := false } ∧ Only (· = .assay) s t) ∧
      (∃ t, exec (.tapInstruction (.seed w)) s = .next t ∧ t.rd aAST_SEED = w ∧
        Only (fun e => e = .assay ∨ e = .reg aAST_SEED) s t) ∧
      (w.getLsbD 31 = true → w.getLsbD 30 = false → s.assay.run = none → started ≠ [] →
        ∃ t, exec (.tapInstruction (.ctl w)) s = .next t ∧ t.assay.run = some (.direct, started) ∧
          t.flag aAST_STAT 27 = true ∧ t.flag aAST_STAT 30 = true)) ∧
    (s.modes.mode ≠ .assay → s.modes.gated = false → s.hrpHeld = [] → s.classA 7 = false → s.hedge.lastB = none →
      ∃ t m, exec (.tapInstruction .engine) s = .next t ∧ t.assay = { s.assay with tap := true } ∧
        t.faults.arriving = s.faults.arriving ++ [m] ∧ m.kind = 0x0C ∧ m.source = 0x51 ∧ m.detail = BitVec.ofNat 23 (7 * 2 ^ 8))

/-- 14 R474 to R478, R485, R486: keys and regions. -/
def Obligations.KeyOperationsLoadEraseAndStopRegions : Prop :=
  ∀ (s : State) (beats : List KeyBeat) (r : RegionId) (w : Word),
    let x := s.hedge.regions[r]
    let framed (op : BitVec 2) : Prop := beats.length = 8 ∧ ∀ b ∈ beats, b.op = op ∧ b.region = r
    let open_ : Prop := (s.lifecycle = 1 ∨ s.lifecycle = 2) ∧ s.xts r = true ∧ (x.fn.state = .off ∨ x.fn.state = .stopping)
    let viol (e : Part) : Prop := e = .reg aKEYHELD ∨ e = .reg aVIOL ∨ e = .reg aVCNT ∨ e = .hedge ∨ e = .faults
    let others (t : State) : Prop := ∀ q : RegionId, q ≠ r → t.hedge.regions[q] = s.hedge.regions[q]
    let went (y : Region) (want : Bool) : Prop := y.fn.want = want ∧ y.engine = x.engine ∧
      y.fn.state = (if x.fn.state = .off ∧ want = true then .starting else x.fn.state)
    let swept (t : State) : Prop := ∀ c : Chan, s.populated c.val = true →
      t.slices[c].rangesLeft = s.slices[c].rangesLeft ++
        [{ base := (s.regionSpan r).1, size := (s.regionSpan r).2, key := true, full := false }] ∧
      (s.slices[c].rangeRoom = true → t.slices[c].waiting = s.slices[c].waiting) ∧
      (s.slices[c].rangeRoom = false → t.slices[c].ranges = s.slices[c].ranges) ∧
      ∀ m ∈ t.slices[c].merge, s.covers r (s.lineAddr c m.line) = true → m.flush = true
    let stop (e : Part) : Prop := e = .hedge ∨ ∃ c, e = .slice c
    (s.kpReady = false → exec (.loadK1 beats) s = .next s ∧ exec (.loadK2 beats) s = .next s ∧ exec (.erase beats) s = .next s) ∧
    (s.kpReady = true → framed 0 → open_ → ∃ t, exec (.loadK1 beats) s = .next t ∧ t.hedge.regions[r].k1 = some (keyOf beats) ∧
      t.hedge.regions[r].k2 = x.k2 ∧ went t.hedge.regions[r] x.k2.isSome ∧ others t ∧ Only (· = .hedge) s t) ∧
    (s.kpReady = true → framed 1 → open_ → ∃ t, exec (.loadK2 beats) s = .next t ∧ t.hedge.regions[r].k2 = some (keyOf beats) ∧
      t.hedge.regions[r].k1 = x.k1 ∧ went t.hedge.regions[r] x.k1.isSome ∧ others t ∧ Only (· = .hedge) s t) ∧
    (s.kpReady = true → ¬ open_ → s.classA 4 = false → s.hedge.lastB = none →
      (framed 0 → ∃ t m, exec (.loadK1 beats) s = .next t ∧ t.flag aKEYHELD (24 + r.val) = true ∧
        t.hedge.regions = s.hedge.regions ∧ t.faults.arriving = s.faults.arriving ++ [m] ∧ m.kind = 0x0C ∧ m.source = 0x51 ∧
        m.sev = 0 ∧ m.detail = BitVec.ofNat 23 (2 ^ 7 + 4 * 2 ^ 8 + r.val * 2 ^ 12 + 2 ^ 15) ∧ Only viol s t) ∧
      (framed 1 → ∃ t, exec (.loadK2 beats) s = .next t ∧ t.flag aKEYHELD (24 + r.val) = true ∧
        t.hedge.regions = s.hedge.regions ∧ Only viol s t)) ∧
    (∀ b l, beats = b :: l → b.op = 0 → l.length ≠ 7 → s.kpReady = true → s.classA 10 = false → s.hedge.lastB = none →
      ∃ t m, exec (.loadK1 beats) s = .next t ∧ t.hedge.regions = s.hedge.regions ∧
        t.faults.arriving = s.faults.arriving ++ [m] ∧ m.kind = 0x0C ∧ m.detail = BitVec.ofNat 23 (10 * 2 ^ 8) ∧
        t.fld aVCNT 15 0 = min 65535 (s.fld aVCNT 15 0 + 1) ∧ Only viol s t) ∧
    (∀ b, beats = [b] → b.op = 2 → b.region = r → s.kpReady = true → ∃ t, exec (.erase beats) s = .next t ∧
      t.hedge.regions[r].k1 = none ∧ t.hedge.regions[r].k2 = none ∧ others t ∧
      (x.fn.state ≠ .on → went t.hedge.regions[r] false ∧ Only (· = .hedge) s t) ∧
      (x.fn.state = .on → t.hedge.regions[r].fn = { state := .stopping, want := false } ∧
        t.hedge.regions[r].engine = x.engine ∧ swept t ∧ Only stop s t)) ∧
    (s.modes.mode ≠ .cold → s.modes.mode ≠ .banked → ∃ t, exec (.keyctlErase w) s = .next t ∧
      (w.getLsbD r.val = false → t.hedge.regions[r] = x) ∧
      (w.getLsbD r.val = true → t.hedge.regions[r].k1 = none ∧ t.hedge.regions[r].k2 = none ∧
        t.hedge.regions[r].fn = { state := if x.fn.state = .on then .stopping else x.fn.state, want := false } ∧
        t.hedge.regions[r].engine = x.engine) ∧ Only stop s t) ∧
    (x.fn.state = .starting → x.fn.want = true → x.k1.isSome = true → x.k2.isSome = true →
      ∃ t, exec (.regionStartingEnd r) s = .next t ∧ t.hedge.regions[r].fn = { state := .on, want := true } ∧
        (∃ a b, x.k1 = some a ∧ x.k2 = some b ∧ t.hedge.regions[r].engine = some (a, b)) ∧ others t ∧ Only (· = .hedge) s t) ∧
    (x.fn.state = .starting → x.fn.want = false → ∃ t, exec (.regionStartingEnd r) s = .next t ∧
      t.hedge.regions[r].fn = { state := .stopping, want := false } ∧ t.hedge.regions[r].k1 = none ∧
      t.hedge.regions[r].k2 = none ∧ swept t ∧ Only stop s t) ∧
    (x.fn.state = .stopping → (∀ c : Chan, s.populated c.val = true → s.sweepLeft c r = false ∧ s.writesLeft c r = false) →
      ∃ t, exec (.regionStoppingEnd r) s = .next t ∧ t.hedge.regions[r].engine = none ∧ t.hedge.regions[r].k1 = x.k1 ∧
        t.hedge.regions[r].fn = { state := if x.fn.want then .starting else .off, want := x.fn.want } ∧ others t ∧
        Only (· = .hedge) s t)

/-- 14 R481 to R484, 10 R369: buffer releases. -/
def Obligations.ReleasesAreRefusedIdempotentOrHonoured : Prop :=
  ∀ (s : State) (base : BitVec 35) (size : BitVec 30) (claim owner : PortId) (now : Nat) (r : Release),
    let row := exec (.bufferRelease base size claim owner) s
    let at_ := base.toNat * 64
    let told (t : State) (kind : Byte) (detail : Nat) : Prop := t.hedge = { s.hedge with queue := [], honour := false } ∧
      ∃ m, t.faults.arriving = s.faults.arriving ++ [m] ∧ m.kind = kind ∧ m.source = 0x51 ∧ m.sev = 0 ∧
        m.addr = BitVec.ofNat 41 at_ ∧ m.detail = BitVec.ofNat 23 detail
    let counts (e : Part) : Prop := e = .hedge ∨ e = .faults ∨ e = .reg aRELSTAT
    let inRange (a : Nat) : Prop := at_ ≤ a ∧ a < at_ + 64 * size.toNat
    let msg : Release := { base := at_, size := size.toNat, claim := claim.val, owner := owner.val, writes := [], merges := [] }
    let room : Prop := ∀ c : Chan, s.populated c.val = true → s.slices[c].rangeRoom = true
    (s.relReady = false → row = .next s) ∧
    (s.relReady = true → s.hedge.queue = [] → s.hedge.honour = false →
      (claim ≠ owner → ∃ t, row = .next t ∧ told t 0x0D (claim.val + owner.val * 2 ^ 7) ∧
        t.fld aRELSTAT 15 8 = min 255 (s.fld aRELSTAT 15 8 + 1) ∧ Only counts s t) ∧
      (claim = owner → size = 0 → ∃ t, row = .next t ∧ told t 0x0D (claim.val + owner.val * 2 ^ 7 + 2 * 2 ^ 14) ∧
        t.fld aRELSTAT 15 8 = min 255 (s.fld aRELSTAT 15 8 + 1) ∧ Only counts s t) ∧
      (s.releaseRefused msg = none → (∀ c : Chan, s.populated c.val = true → ∀ p < s.nPlots, ∀ n < 1024,
          p * 65536 + n * 64 < s.chanCap → inRange (s.sysAddr c.val (p * 65536 + n * 64)) → s.anvils[c].written p = false) →
        ∃ t, row = .next t ∧ told t 0x0E owner.val ∧ t.fld aRELSTAT 23 16 = min 255 (s.fld aRELSTAT 23 16 + 1) ∧
          Only counts s t) ∧
      (s.releaseRefused msg = none → (∃ c : Chan, s.populated c.val = true ∧ ∃ p < s.nPlots, ∃ n < 1024,
          p * 65536 + n * 64 < s.chanCap ∧ inRange (s.sysAddr c.val (p * 65536 + n * 64)) ∧ s.anvils[c].written p = true) →
        ∃ t q, row = .next t ∧ t.hedge = { s.hedge with queue := [q], honour := true } ∧ q.base = at_ ∧ q.size = size.toNat ∧
          q.owner = owner.val ∧ Only (· = .hedge) s t)) ∧
    (s.hedge.queue = [r] → s.hedge.honour = true → s.releaseSettled r = true → room →
      ∃ t, exec (.releaseHonour now) s = .next t ∧ t.hedge.queue = [] ∧ t.hedge.honour = false ∧
        (∀ c : Chan, s.populated c.val = true →
          t.slices[c].ranges = s.slices[c].ranges ++ [{ base := r.base, size := 64 * r.size, key := false, full := false }] ∧
          ∀ p < s.nPlots, s.whollyIn c r p = true → t.anvils[c].written p = false) ∧
        t.fld aRELSTAT 7 0 = min 255 (s.fld aRELSTAT 7 0 + 1) ∧ t.regs = (s.count aRELSTAT 7 0).regs) ∧
    (s.hedge.queue = [r] → s.hedge.honour = true → (s.releaseSettled r = false ∨ ¬ room) → exec (.releaseHonour now) s = .next s)

/-- 15 R488, R491 to R494, R496, R498, R500, R503, 01 R36: the fault unit. -/
def Obligations.FaultMessagesAreAcceptedLatchedAndSent : Prop :=
  ∀ (s : State) (i : Nat) (m : Msg) (k : Fin 3) (w : Word),
    let ms := s.smiths[masterSmith]
    let n := s.faults.queue.length
    let seq := s.fld aQSTAT 31 20
    let serious : Prop := 2 ≤ m.sev.toNat
    let numbered (t : State) : Prop := t.fld aQSTAT 31 20 = (seq + 1) % 4096 ∧ t.faults.arriving = s.faults.arriving.eraseIdx i
    let entered (t : State) (x : BitVec 96) : Prop := numbered t ∧ t.faults.queue = s.faults.queue ++ [x] ∧
      x.extractLsb' 0 8 = m.source ∧ x.extractLsb' 8 8 = m.kind ∧ x.extractLsb' 16 2 = m.sev ∧ (x.extractLsb' 18 2).toNat = s.gid ∧
      (x.extractLsb' 20 12).toNat = seq ∧ x.extractLsb' 32 41 = m.addr ∧ x.extractLsb' 73 23 = m.detail ∧
      t.faults.pulse = (if s.modes.mode ≠ .banked ∧ s.fld aPIN_HOLD 1 0 ≤ m.sev.toNat then some s.timebase else s.faults.pulse)
    let bite (b : Nat × Nat) : Prop := m.source = 0x40 ∧ m.kind = 0x0B ∧ m.addr = 0 ∧ m.detail.toNat = b.1
    let first : Prop := ∀ x ∈ s.faults.arriving.take i, x.source ≠ m.source ∧ (x.forced = false ∨ m.forced = false)
    let noBite : Prop := ∀ b ∈ s.tongs.bites, ¬ bite b
    let unit (e : Part) : Prop := e = .faults ∨ e = .reg aQSTAT ∨ e = .reg aPIN_HOLD
    let latch (e : Part) : Prop := unit e ∨ e = .smith masterSmith ∨ e = .reg aOVF ∨ ∃ j < 3, e = .reg (aFIRST j)
    let host : Prop := s.modes.mode ≠ .cold ∧ s.modes.mode ≠ .banked
    let forcedFrom (b : Nat) : Nat := if k = 0 then b else if k = 1 then 0x20 + b
      else [0x40, 0x41, 0x50, 0x51, 0x52, 0x53, 0x54, 0x55, 0x56].getD b 0
    let forcedMsg (b : Nat) : Msg :=
      { source := BitVec.ofNat 8 (forcedFrom b), kind := BitVec.ofNat 8 (s.fld aFORCE_MSG 7 0),
        sev := BitVec.ofNat 2 (s.fld aFORCE_MSG 17 16), addr := 0x1FFFFFFFFFF, detail := 0, raiser := none }
    let forced : List Msg := ((List.range (if k = 2 then 9 else 24)).filter (fun b => w.getLsbD b)).map forcedMsg
    (s.faults.arriving[i]? = some m → ¬ first → exec (.faultAccept i) s = .next s) ∧
    (s.faults.arriving[i]? = some m → first → m.raiser = none → noBite →
      (¬ serious → n ≤ 56 → ∃ t x, exec (.faultAccept i) s = .next t ∧ entered t x ∧ Only unit s t) ∧
      (¬ serious → 56 < n → ∃ t, exec (.faultAccept i) s = .next t ∧ numbered t ∧ t.faults.queue = s.faults.queue ∧
        t.faults.pulse = s.faults.pulse ∧ t.fld aQSTAT 15 8 = min 255 (s.fld aQSTAT 15 8 + 1) ∧
        Only (fun e => e = .faults ∨ e = .reg aQSTAT) s t) ∧
      (serious → n < 64 → ∃ t x, exec (.faultAccept i) s = .next t ∧ entered t x ∧
        t.smiths[masterSmith] = { ms with evpend := ms.evpend ||| 0x100 } ∧ t.flag aOVF 31 = true ∧
        (s.flag aOVF 31 = false → t.rd (aFIRST 0) = x.extractLsb' 0 32 ∧ t.rd (aFIRST 1) = x.extractLsb' 32 32 ∧
          t.rd (aFIRST 2) = x.extractLsb' 64 32 ∧ t.flag aOVF 30 = s.flag aOVF 30 ∧ t.fld aOVF 15 0 = s.fld aOVF 15 0) ∧
        (s.flag aOVF 31 = true → (∀ j < 3, t.rd (aFIRST j) = s.rd (aFIRST j)) ∧ t.flag aOVF 30 = true ∧
          t.fld aOVF 15 0 = min 65535 (s.fld aOVF 15 0 + 1)) ∧
        (m.sev = 3 → s.flag aPIN_HOLD 2 = true → s.modes.mode ≠ .banked → t.flag aPIN_HOLD 31 = true) ∧
        Only latch s t) ∧
      (serious → 64 ≤ n → exec (.faultAccept i) s = .next s)) ∧
    (∀ b, s.faults.arriving[i]? = some m → first → m.raiser = none → s.tongs.bites = [b] → bite b → n < 64 → m.sev = 3 →
      ∃ t x, exec (.faultAccept i) s = .next t ∧ entered t x ∧ t.tongs = { s.tongs with bites := [], hung := true } ∧
        (s.tongs.hung = true → t.rd aHANG = s.rd aHANG) ∧
        (s.tongs.hung = false → t.flag aHANG 31 = true ∧ t.fld aHANG 11 9 = b.2 % 8 ∧ t.fld aHANG 8 0 = b.1 % 512) ∧
        Only (fun e => latch e ∨ e = .tongs ∨ e = .reg aHANG) s t) ∧
    (∀ q : SmithId, s.faults.arriving[i]? = some m → first → m.raiser = some q → s.smiths[q].wait = some (.raise false) →
      GoesOn s q (s.smiths[q].pc.toNat + 1) → (¬ serious ∨ n < 64) → ∃ t, exec (.faultAccept i) s = .next t ∧ numbered t ∧
        t.smiths[q].run = .running ∧ t.smiths[q].wait = none ∧ t.smiths[q].pc = wrapPc q (s.smiths[q].pc.toNat + 1)) ∧
    (∀ x rest, s.faults.queue = x :: rest →
      (s.modes.mode ≠ .cold → ∃ t, exec .faultMessageTransfer s = .next t ∧
        t.faults = { s.faults with queue := rest, sent := some x } ∧ Only (· = .faults) s t) ∧
      (s.modes.mode = .cold → exec .faultMessageTransfer s = .next s)) ∧
    (∀ from_, s.faults.pulse = some from_ →
      (24 * from_ + 625 * (2 + s.fld aPIN_WIDTH 15 0) ≤ 24 * s.timebase → ∃ t, exec .faultPulseEnd s = .next t ∧
        t.faults = { s.faults with pulse := none } ∧ Only (· = .faults) s t) ∧
      (24 * s.timebase < 24 * from_ + 625 * (2 + s.fld aPIN_WIDTH 15 0) → exec .faultPulseEnd s = .next s)) ∧
    (host → ∃ t, exec (.forceMessage k w) s = .next t ∧
      t.faults = { s.faults with arriving := s.faults.arriving ++ forced } ∧ HostOnly (· = .faults) s t) ∧
    (host → ∃ t, exec (.firstvRearm w) s = .next t ∧ t.flag aOVF 31 = (s.flag aOVF 31 && !w.getLsbD 31) ∧
      t.flag aOVF 30 = (s.flag aOVF 30 && !w.getLsbD 30) ∧ t.fld aOVF 15 0 = s.fld aOVF 15 0 ∧ HostOnly (· = .reg aOVF) s t) ∧
    (host → s.modes.mode ≠ .quench → bits w.toNat 17 16 ≠ 0 → s.flag aLINKINJ 31 = false →
      ∃ t, exec (.injectionArm w) s = .next t ∧ t.flag aLINKINJ 31 = true ∧ t.fld aLINKINJ 17 16 = bits w.toNat 17 16 ∧
        t.fld aLINKINJ 8 0 = bits w.toNat 8 0 % 2 ^ 7 + bits w.toNat 8 8 * 2 ^ 8 + s.fld aLINKINJ 7 7 * 2 ^ 7 ∧
        t.fld aLINKINJ 27 18 = (if bits w.toNat 27 18 < 526 then bits w.toNat 27 18 else s.fld aLINKINJ 27 18) ∧
        HostOnly (· = .reg aLINKINJ) s t) ∧
    (host → bits w.toNat 17 16 ≠ 0 → s.flag aLINKINJ 31 = true → ∃ t, exec (.injectionArm w) s = .next t ∧ HostOnly (fun _ => False) s t) ∧
    (host → s.modes.mode ≠ .quench → bits w.toNat 17 16 = 0 → ∃ t, exec (.injectionDisarm w) s = .next t ∧
      t.flag aLINKINJ 31 = false ∧ t.fld aLINKINJ 17 16 = 0 ∧ HostOnly (· = .reg aLINKINJ) s t) ∧
    (s.modes.mode = .quench →
      (bits w.toNat 17 16 ≠ 0 → ∃ t, exec (.injectionArm w) s = .next t ∧ HostOnly (fun _ => False) s t) ∧
      (bits w.toNat 17 16 = 0 → ∃ t, exec (.injectionDisarm w) s = .next t ∧ HostOnly (fun _ => False) s t))

/-- 15 R506, R508 to R515: the event FIFO. -/
def Obligations.EventRecordsEnterAreReadAndFlushed : Prop :=
  ∀ (s : State) (w : Word) (now : Nat) (r : Rec) (before after : List Rec),
    let u := s.timeAt now
    let q := s.evq
    let len := bits w.toNat 2 0 + 1
    let used := (q.recs.map Rec.len).sum
    let us := s.fld aEVQ_TIMEOUT 15 0
    let runs : Prop := s.smiths[masterSmith].run ≠ .stopped
    let host : Prop := s.modes.mode ≠ .cold ∧ s.modes.mode ≠ .banked
    let fresh : Prop := ∀ x ∈ q.recs, x.id < q.nextId
    let noneReady : Prop := ∀ x ∈ q.recs, x.complete = false
    let header (h : BitVec 64) : Prop := h.extractLsb' 0 3 = w.extractLsb' 0 3 ∧ h.extractLsb' 3 2 = w.extractLsb' 3 2 ∧
      h.extractLsb' 5 3 = 0 ∧ h.extractLsb' 8 8 = w.extractLsb' 8 8 ∧ h.extractLsb' 16 8 = 0x50 ∧
      h.extractLsb' 24 8 = w.extractLsb' 24 8 ∧ h.extractLsb' 32 32 = BitVec.ofNat 32 u
    let fifo (e : Part) : Prop := e = .evq ∨ e = .time
    let irq (e : Part) : Prop := fifo e ∨ e = .reg aEVQ_STATUS
    let isNext : Prop := q.reading = none ∧ r.complete = true ∧ (∀ x ∈ before, x.prio ≠ r.prio) ∧
      ∀ p, r.prio < p → ∀ b x a, q.recs = b ++ x :: a → x.prio = p → (∀ y ∈ b, y.prio ≠ p) → x.complete = false
    (runs → fresh → q.writing = none → len + 1 + used ≤ 64 → ∃ t h, exec (.evqPutHdr w now) s = .next t ∧ header h ∧
      t.evq.recs = q.recs ++ [{ id := q.nextId, len := len, words := [h], complete := decide (len = 1), gap := false }] ∧
      t.evq.nextId = q.nextId + 1 ∧ t.evq.writing = (if len = 1 then none else some q.nextId) ∧ t.evq.reading = q.reading ∧
      t.flag aEVQ_STATUS 31 = (s.flag aEVQ_STATUS 31 || decide (len = 1 ∧ (bits w.toNat 4 3 = 3 ∨ us = 0))) ∧
      t.evq.timer = (if len = 1 ∧ noneReady then some u else q.timer) ∧ Only irq s t) ∧
    (runs → fresh → q.writing = none → 64 < len + 1 + used →
      (q.recs = before ++ [r] → r.gap = false → ∃ t m h, exec (.evqPutHdr w now) s = .next t ∧
        t.evq.recs = q.recs ++ [{ id := q.nextId, len := 1, words := [h], complete := true, gap := true }] ∧
        h.extractLsb' 0 32 = 0x01550018#32 ∧ t.evq.ignore = len - 1 ∧ t.evq.writing = none ∧
        t.fld aEVQ_STATUS 23 16 = min 255 (s.fld aEVQ_STATUS 23 16 + 1) ∧ t.flag aEVQ_STATUS 31 = true ∧
        t.faults.arriving = s.faults.arriving ++ [m] ∧ m.kind = 0x1C ∧ m.source = 0x55 ∧ m.sev = 0 ∧ m.addr = 0 ∧
        m.detail = BitVec.ofNat 23 (bits w.toNat 15 8 + 0x5000) ∧ Only (fun e => irq e ∨ e = .faults) s t) ∧
      (q.recs = before ++ [r] → r.gap = true → ∃ t x, exec (.evqPutHdr w now) s = .next t ∧ t.evq.recs = before ++ [x] ∧
        x.words = [x.words.headD 0] ∧ ((x.words.headD 0).extractLsb' 24 8).toNat = min 255 (((r.words.headD 0).extractLsb' 24 8).toNat + 1) ∧
        (x.words.headD 0).extractLsb' 32 32 = (r.words.headD 0).extractLsb' 32 32 ∧ t.evq.ignore = len - 1 ∧
        t.fld aEVQ_STATUS 23 16 = min 255 (s.fld aEVQ_STATUS 23 16 + 1) ∧ Only irq s t)) ∧
    (runs → ∃ t, exec (.evqPutLo w) s = .next t ∧ t.evq = { q with putLo := w } ∧ Only (· = .evq) s t) ∧
    (runs → q.writing = some r.id → q.recs = before ++ r :: after → (∀ x ∈ before ++ after, x.id ≠ r.id) → r.complete = false →
      ∃ t, exec (.evqPutHi w now) s = .next t ∧
        t.evq.recs = before ++ { r with words := r.words ++ [w ++ q.putLo], complete := decide (r.words.length + 1 = r.len) } :: after ∧
        t.evq.writing = (if r.words.length + 1 = r.len then none else some r.id) ∧
        (r.words.length + 1 ≠ r.len → Only fifo s t) ∧ Only irq s t) ∧
    (runs → q.writing = none → ∃ t, exec (.evqPutHi w now) s = .next t ∧ t.evq = { q with ignore := q.ignore - 1 } ∧
      Only fifo s t) ∧
    (host → q.recs = before ++ r :: after → isNext → ∃ t, exec .evqDataLo s = .next t ∧
      t.hrpRdata = (r.words.headD 0).extractLsb' 0 32 ∧
      t.hostCaps = { s.hostCaps with evq := some (r.id, (r.words.headD 0).extractLsb' 32 32) } ∧
      HostOnly (fun e => e = .hrp ∨ e = .hostCaps) s t) ∧
    (host → noneReady → q.reading = none → ∃ t, exec .evqDataLo s = .next t ∧ t.flag aEVQ_STATUS 30 = true ∧
      t.hrpRdata = s.hostCaps.evqLast.extractLsb' 0 32 ∧ HostOnly (fun e => e = .hrp ∨ e = .reg aEVQ_STATUS) s t) ∧
    (∀ hi, host → q.recs = before ++ r :: after → (∀ x ∈ before ++ after, x.id ≠ r.id) → s.hostCaps.evq = some (r.id, hi) →
      (q.reading = none ∨ q.reading = some (r.id, .host)) → ∃ t, exec (.evqDataHi now) s = .next t ∧ t.hrpRdata = hi ∧
        t.hostCaps = { s.hostCaps with evq := none, evqLast := r.words.headD 0 } ∧
        (1 < r.words.length → t.evq.recs = before ++ { r with words := r.words.tail, len := r.len - 1 } :: after ∧
          t.evq.reading = some (r.id, .host)) ∧
        (r.words.length ≤ 1 → q.flushP = false → t.evq.recs = before ++ after ∧ t.evq.reading = none) ∧
        (r.words.length ≤ 1 → q.flushP = true → t.evq.recs = (before ++ after).filter (fun x => !x.complete) ∧
          t.evq.flushP = false) ∧ HostOnly (fun e => e = .hrp ∨ e = .hostCaps ∨ fifo e) s t) ∧
    (host → s.hostCaps.evq = none → ∃ t, exec (.evqDataHi now) s = .next t ∧ t.flag aEVQ_STATUS 30 = true ∧
      t.hrpRdata = s.hostCaps.evqLast.extractLsb' 32 32 ∧ HostOnly (fun e => e = .hrp ∨ e = .reg aEVQ_STATUS ∨ e = .time) s t) ∧
    (host → w.getLsbD 0 = true → ∃ t, exec (.flush w now) s = .next t ∧ HostOnly fifo s t ∧
      (q.reading = none → t.evq = { q with recs := q.recs.filter (fun x => !x.complete), flushP := false, timer := none }) ∧
      (q.reading ≠ none → t.evq = { q with flushP := true })) ∧
    (∀ from_, q.timer = some from_ → 0 < us → (∃ x ∈ q.recs, x.complete = true) →
      (from_ + 1000 * us ≤ u → ∃ t, exec (.evqTimeout now) s = .next t ∧ t.flag aEVQ_STATUS 31 = true ∧
        t.evq = { q with timer := none } ∧ Only irq s t) ∧
      (u < from_ + 1000 * us → exec (.evqTimeout now) s = .next s))

/-- 18 R560, R562, R563: host reads. -/
def Obligations.CapturePairsAndReadsGiveTheirValues : Prop :=
  ∀ (s : State) (c : Chan) (a : BitVec 24) (now : Nat) (r : RegInfo),
    let u := s.timeAt now
    let k := s.hostCaps
    let up : Prop := s.modes.mode ≠ .cold
    let host : Prop := up ∧ s.modes.mode ≠ .banked
    let read (e : Part) : Prop := e = .hrp ∨ e = .hostCaps
    let readAt (e : Part) : Prop := read e ∨ e = .time
    let pairs : List Nat := [aTB_LO, aTB_HI, aEVQ_LO, aEVQ_HI, aRX_LO, aRX_HI, aRX_SRC]
    let anvil : List Nat := [0x054, 0x058, 0x204, 0x208, 0x414, 0x41C]
    let n := a.toNat
    (up → ∃ t, exec (.timebaseLoRead now) s = .next t ∧ t.hrpRdata = BitVec.ofNat 32 u ∧
      t.hostCaps = { k with timebase := some (BitVec.ofNat 32 (u / 2 ^ 32)) } ∧ HostOnly readAt s t) ∧
    (host → ∃ t, exec (.slotTloRead c) s = .next t ∧ t.hrpRdata = s.rd (aTLO c.val) ∧
      t.hostCaps = { k with slot := k.slot.set c (some (s.rd (aTHI c.val))) } ∧ HostOnly read s t) ∧
    (host → ∃ t, exec (.lapLoRead c) s = .next t ∧ t.hrpRdata = s.rd (aLAP_LO c.val) ∧
      t.hostCaps = { k with lap := k.lap.set c (some (s.rd (aLAP_HI c.val))) } ∧ HostOnly read s t) ∧
    (up → n = aTB_HI → ∃ t, exec (.capturedHiRead a now) s = .next t ∧
      t.hrpRdata = k.timebase.getD (BitVec.ofNat 32 (u / 2 ^ 32)) ∧ t.hostCaps = { k with timebase := none } ∧ HostOnly readAt s t) ∧
    (host → n = aTHI c.val → ∃ t, exec (.capturedHiRead a now) s = .next t ∧
      t.hrpRdata = k.slot[c].getD (s.rd (aTHI c.val)) ∧ t.hostCaps = { k with slot := k.slot.set c none } ∧ HostOnly readAt s t) ∧
    (host → n = aLAP_HI c.val → ∃ t, exec (.capturedHiRead a now) s = .next t ∧
      t.hrpRdata = k.lap[c].getD (s.rd (aLAP_HI c.val)) ∧ t.hostCaps = { k with lap := k.lap.set c none } ∧ HostOnly readAt s t) ∧
    (host → n % 4 = 0 → windowAt n = false → regInfo n = some r → n ∉ pairs →
      ¬ (0x020000 ≤ n ∧ n < 0x02C000 ∧ n % 0x800 ∈ anvil) → ∃ t, exec (.rcRead a) s = .next t ∧ t.hrpRdata = s.regView n ∧
        t.rd n = (s.rd n &&& ~~~ r.rc) ||| (r.reset &&& r.rc) ∧ HostOnly (fun e => e = .hrp ∨ e = .reg (regHome n)) s t) ∧
    (host → n = aOVF → ∃ t, exec (.rcRead a) s = .next t ∧ t.hrpRdata = s.rd aOVF ∧ t.fld aOVF 15 0 = 0 ∧
      t.fld aOVF 31 16 = s.fld aOVF 31 16 ∧ HostOnly (fun e => e = .hrp ∨ e = .reg aOVF) s t) ∧
    (s.modes.mode = .cold → ∃ t, exec (.rcRead a) s = .next t ∧ t.hrpHeld = s.hrpHeld ++ [(n, none)] ∧ Only (· = .held) s t)

/-- 01 R44, 04 R170, 06 R235, 18 R559: host writes of registers. -/
def Obligations.RegisterWritesFollowTheirFieldTypes : Prop :=
  ∀ (s : State) (a : BitVec 24) (w : Word) (now : Nat) (r : RegInfo) (k : Fin 2),
    let n := a.toNat
    let host : Prop := s.modes.mode ≠ .cold ∧ s.modes.mode ≠ .banked
    let plain : List Nat := [aHERR, aAS_SEL, aPERR, aWDOG, aFORCE_MSG, aPIN_WIDTH, aPIN_HOLD, aEVQ_STATUS, aEVQ_TIMEOUT,
      aKEYHELD, aVIOL, aVCNT, aRELSTAT, aSAG, aSAGV 0, aSAGV 1, aSAGR 0, aSAGR 1, aGUARD, aGNG_STAT, aAST_SEED, aRESIDX, aOVF,
      aID, aTB_LO, aEVQ_LO, aRESDAT, aSCRATCH 0, aSCRATCH 1, aSCRATCH 2, aSCRATCH 3, aGRANK 0, aGRANK 15, aLAPSE 0, aLAPSE 3]
    let limited (t : State) : Prop := n = aWDOG →
      t.tongs = { s.tongs with limitFrom := if s.tongs.bitten = none then s.timeAt now else s.tongs.limitFrom }
    let adj (t : State) (i : Nat) : Nat := t.fld (aADJ (i / 8)) (4 * (i % 8) + 3) (4 * (i % 8))
    (host → n ∈ plain → regInfo n = some r → (∀ f ∈ r.resv, f.2.2 (bits w.toNat f.1 f.2.1) = false) →
      ∃ t, exec (.registerWrite a w now) s = .next t ∧
        t.rd n = ((s.rd n &&& ~~~ r.rw) ||| (w &&& r.rw)) &&& ~~~ (w &&& r.w1c) ∧ limited t ∧
        HostOnly (fun e => e = .reg n ∨ e = .time ∨ (n = aWDOG ∧ e = .tongs)) s t) ∧
    (host → n = aWDOG → w.toNat < 1000 → ∃ t, exec (.registerWrite a w now) s = .next t ∧ t.rd aWDOG = s.rd aWDOG ∧ limited t ∧
      HostOnly (fun e => e = .time ∨ e = .tongs) s t) ∧
    (host → n ∈ [aGANG, aFURROW, aCHMAP 0, aCHMAP 1, aCHMAP 2, aCHMAP 3] → s.flag aCAP 31 = true →
      ∃ t, exec (.registerWrite a w now) s = .next t ∧ t.rd n = s.rd n ∧ t.flag aCAP 31 = true ∧ t.slices = s.slices) ∧
    (host → 0x108000 ≤ n → n < 0x10C000 → n % 4 = 0 → ∃ t, exec (.registerWrite a w now) s = .next t ∧
      (∀ i, t.smiths[masterSmith].dmem.get i = if i = (n - 0x108000) / 4 then w else s.smiths[masterSmith].dmem.get i) ∧
      t.smiths[masterSmith] = { s.smiths[masterSmith] with dmem := t.smiths[masterSmith].dmem } ∧
      HostOnly (fun e => e = .smith masterSmith ∨ e = .time) s t) ∧
    (s.modes.mode = .cold → ∃ t, exec (.registerWrite a w now) s = .next t ∧ t.hrpHeld = s.hrpHeld ++ [(n, some w)] ∧
      Only (· = .held) s t) ∧
    (host → ∃ t, exec (.adjacencyMapWrite k w) s = .next t ∧ t.rd (aADJ k.val) = w ∧
      (t.flag aRFM 31 = false ↔ ∀ i < 16, ∀ j < 16, i ^^^ adj t i = j ^^^ adj t j → i = j) ∧
      t.fld aRFM 30 0 = s.fld aRFM 30 0 ∧ HostOnly (fun e => e = .reg (aADJ k.val) ∨ e = .reg aRFM) s t)

/-- 18 R557, R558, R564, R568: refused host accesses. -/
def Obligations.RefusedHostAccessesAreRecorded : Prop :=
  ∀ (s : State) (a : BitVec 24) (w : Option Word),
    let n := a.toNat
    let recorded (t : State) (cause : Nat) : Prop :=
      (w = none → t.hrpRdata = 0) ∧ (w ≠ none → t.hrpRdata = s.hrpRdata) ∧
      (s.flag aHERR 31 = false → t.flag aHERR 31 = true ∧ t.fld aHERR 11 8 = cause ∧ t.flag aHERR 0 = w.isSome ∧
        t.flag aHERR 30 = s.flag aHERR 30 ∧ t.fld aHERR_ADDR 23 0 = n) ∧
      (s.flag aHERR 31 = true → t.flag aHERR 31 = true ∧ t.flag aHERR 30 = true ∧ t.fld aHERR 11 0 = s.fld aHERR 11 0 ∧
        t.rd aHERR_ADDR = s.rd aHERR_ADDR) ∧
      t.faults = s.faults ∧ t.irqFault = s.irqFault ∧ t.irqEvent = s.irqEvent ∧ t.irqMode = s.irqMode ∧ t.irqAlarm = s.irqAlarm ∧
      HostOnly (fun e => e = .hrp ∨ e = .reg aHERR ∨ e = .reg aHERR_ADDR) s t
    let named : List (Nat × Nat) := [(0x2A00, 0x3000), (0x5000, 0x10000), (0x2C000, 0x30000), (0x36000, 0x100000),
      (0x10C000, 0x110000), (0x114000, 0x120000), (0x138000, 0x200000), (0x20C000, 0x1000000)]
    (s.modes.mode ≠ .cold → n % 4 ≠ 0 → ∃ t, exec (.unalignedAccess a w) s = .next t ∧ recorded t 3) ∧
    (s.modes.mode ≠ .cold → n % 4 = 0 → populatedAt n = false → ∃ t, exec (.unpopulatedAccess a w) s = .next t ∧ recorded t 1) ∧
    (s.modes.mode = .banked → n % 4 = 0 → populatedAt n = true → bankedReach n = false →
      (w ≠ none ∨ ¬ (0x100000 ≤ n ∧ n < 0x108000 ∨ 0x110000 ≤ n ∧ n < 0x114000)) →
      ∃ t, exec (.bankedAccessRefused a w) s = .next t ∧ recorded t 2) ∧
    (∀ e ∈ named, e.1 ≤ n → n < e.2 → populatedAt n = false)

/-- 17 R533 to R538, R543, 01 R34: gang links. -/
def Obligations.GangLinksTrainReceiveAndFail : Prop :=
  ∀ (s : State) (k : Fin 3) (word : BitVec 1024) (delay : BitVec 16) (w : Word) (now : Nat),
    let l := s.gang.links[k]
    let seq := word.extractLsb' 984 8
    let good : Prop := linkCrcGood word = true
    let ctrl := word.extractLsb' 832 128
    let h := word.extractLsb' 672 160
    let beat := (word.extractLsb' 0 512, word.getLsbD 973)
    let ack := word.extractLsb' 976 8
    let next : Link := { l with rxSeq := seq, started := true, nak := false, replays := 0, tries := 0
                                reqCr := min 256 (l.reqCr + (word.extractLsb' 968 4).toNat)
                                datCr := min 512 (l.datCr + (word.extractLsb' 960 8).toNat)
                                ctrl := if ctrl = 0 then l.ctrl else l.ctrl ++ [ctrl] }
    let sends (t : State) (x : Link) : Prop := t.gang = { s.gang with links := s.gang.links.set k x.sendWord }
    let beats : Nat := if word.getLsbD 974 then 1 else 0
    let taken (t : State) : Prop := sends t { next with reqBack := l.reqBack + 1, datBack := l.datBack + beats }
    let bare : Prop := h.extractLsb' 0 4 = 0 ∧ (word.extractLsb' 512 160).extractLsb' 0 4 = 0 ∧ word.getLsbD 974 = false
    let ready : Prop := s.linkUp k = true ∧ good ∧ (l.started = false ∨ seq = l.rxSeq + 1) ∧ l.items = []
    let inOrder : Prop := ready ∧ word.getLsbD 975 = false
    let writes : Prop := (h.extractLsb' 4 4).toNat = 1 ∨ (h.extractLsb' 4 4).toNat = 2
    let whole : Prop := (h.extractLsb' 0 4).toNat = 1 ∧ (word.extractLsb' 512 160).extractLsb' 0 4 = 0 ∧
      (writes ↔ word.getLsbD 974 = true) ∧ (writes → (h.extractLsb' 49 6).toNat = 0)
    let credentials (m : BitVec 128) : Prop := m.extractLsb' 0 4 = 1 ∧ m.extractLsb' 4 16 = 0x0102 ∧
      (m.extractLsb' 20 32).toNat = s.digest ∧ m.extractLsb' 52 64 = BitVec.ofNat 64 (s.timeAt now) ∧
      (m.extractLsb' 116 3).toNat = s.lifecycle ∧ (m.extractLsb' 119 2).toNat = s.fld aGANG 1 0 ∧
      (m.extractLsb' 121 2).toNat = s.gid ∧ m.extractLsb' 123 5 = 0
    let host : Prop := s.modes.mode ≠ .cold ∧ s.modes.mode ≠ .banked
    (s.wired k = true → s.flag aGNG_CTL 31 = true → (s.linkState k = 1 ∨ s.linkState k = 3) →
      ∃ t, exec (.linkTrained k delay) s = .next t ∧ t.linkState k = 2 ∧ t.fld (aLINK k.val) 15 0 = delay.toNat ∧
        t.gang.links[k] = { Link.reset with
          ctrl := l.ctrl, txCtrl := l.txCtrl, txHdr := l.txHdr, txData := l.txData.drop l.owed, late := l.late
          items := l.items.filter (fun it => it.beats.length == it.want) } ∧
        t.gang.links[k].reqCr = 256 ∧ t.gang.links[k].datCr = 512 ∧
        Only (fun e => e = .gang ∨ e = .reg (aLINK k.val)) s t) ∧
    (s.linkUp k = false → exec (.linkWordReceive k word) s = .next s) ∧
    (inOrder → bare → ∃ t, exec (.linkWordReceive k word) s = .next t ∧ sends t next ∧ Only (· = .gang) s t) ∧
    (ready → bare → word.getLsbD 975 = true → l.replay = [] →
      (l.asked ≠ ack + 1 ∨ l.tries < 16 → ∃ t, exec (.linkWordReceive k word) s = .next t ∧
        t.gang.links[k].asked = ack + 1 ∧ t.fld (aLINK k.val) 23 16 = min 255 (s.fld (aLINK k.val) 23 16 + 1) ∧
        (∀ v more, l.since (ack + 1) = v :: more → t.gang.links[k].out = some v ∧ t.gang.links[k].replay = more) ∧
        Only (fun e => e = .gang ∨ e = .reg (aLINK k.val)) s t) ∧
      (l.asked = ack + 1 → 16 ≤ l.tries → ∃ t, exec (.linkWordReceive k word) s = .next t ∧ t.linkState k = 3 ∧
        Only (fun e => e = .gang ∨ e = .reg (aLINK k.val)) s t)) ∧
    (∀ x : Link, x.replay = [] → ∃ v, x.sendWord.out = some v ∧ linkCrcGood v = true ∧ v.extractLsb' 984 8 = x.txSeq ∧
      v.extractLsb' 976 8 = x.rxSeq ∧ v.getLsbD 975 = x.nak ∧ x.sendWord.txSeq = x.txSeq + 1 ∧
      x.sendWord.store = (v :: x.store).take 128) ∧
    (inOrder → whole → s.tongs.bitten = none → s.member (s.linkPeer k) = false →
      ∃ t, exec (.linkWordReceive k word) s = .next t ∧ taken t ∧ Only (· = .gang) s t) ∧
    (inOrder → whole → s.tongs.bitten ≠ none → ∃ t it, exec (.linkWordReceive k word) s = .next t ∧
      t.gang.links[k].items = [it] ∧ it.hdr = h ∧ it.drop = false ∧ Only (· = .gang) s t) ∧
    (inOrder → whole → s.tongs.bitten = none → s.member (s.linkPeer k) = true → (s.joined (s.linkPeer k) = true → s.armed true k.val 1 = false) →
      ∃ t x y, exec (.linkWordReceive k word) s = .next t ∧ taken t ∧ t.pieces = s.pieces ++ [x] ∧
        x.tag = linkTag k (h.extractLsb' 55 13).toNat ∧ x.origin = .link k (h.extractLsb' 55 13).toNat ∧
        x.op = h.extractLsb' 4 4 ∧ x.addr = (h.extractLsb' 8 41).toNat ∧ x.sectors = (h.extractLsb' 49 6).toNat + 1 ∧
        x.port = (h.extractLsb' 68 7).toNat ∧ x.label = (h.extractLsb' 75 5).toNat ∧ x.heat = (h.extractLsb' 80 3).toNat ∧
        x.attr = h.extractLsb' 83 4 ∧ x.judged = false ∧ x.results = [] ∧ x.status = none ∧
        x.beats.map (fun b => (b.data, b.wpoison)) = (if word.getLsbD 974 then [beat] else []) ∧
        t.tongs.reqNet = s.tongs.reqNet ++ [y] ∧ y.tag = x.tag ∧ y.input = 128 + k.val ∧ y.heat = x.heat ∧
        Only (fun e => e = .gang ∨ e = .pieces ∨ e = .tongs) s t) ∧
    (s.linkUp k = true → good → l.started = true → seq ≠ l.rxSeq + 1 →
      ∃ t, exec (.linkWordReceive k word) s = .next t ∧ sends t l ∧ Only (· = .gang) s t) ∧
    (s.linkUp k = true → ¬ good → (l.nak = false ∨ seq = l.rxSeq + 1) →
      (l.replays < 16 → ∃ t, exec (.linkWordReceive k word) s = .next t ∧
        sends t { l with nak := true, replays := l.replays + 1 } ∧
        t.fld (aLINK k.val) 23 16 = min 255 (s.fld (aLINK k.val) 23 16 + 1) ∧ t.linkState k = 2 ∧
        Only (fun e => e = .gang ∨ e = .reg (aLINK k.val)) s t) ∧
      (16 ≤ l.replays → ∃ t, exec (.linkWordReceive k word) s = .next t ∧ t.linkState k = 3 ∧
        Only (fun e => e = .gang ∨ e = .reg (aLINK k.val)) s t)) ∧
    (host → w.getLsbD 30 = true → w.getLsbD 31 = s.flag aGNG_CTL 31 → ∃ t, exec (.xchg w now) s = .next t ∧
      t.fld aGNG_CTL 3 0 = bits w.toNat 3 0 ∧ HostOnly (fun e => e = .gang ∨ e = .reg aGNG_CTL ∨ e = .time) s t ∧
      (s.modes.mode = .kindle ∨ s.inService = true → s.linkUp k = true → s.gang.peers[s.linkPeer k].fn.state = .off →
        ∃ m, credentials m ∧ t.gang.links[k] = { l with txCtrl := m :: l.txCtrl }) ∧
      ((s.modes.mode ≠ .kindle ∧ s.inService = false) ∨ s.linkUp k = false ∨ s.gang.peers[s.linkPeer k].fn.state ≠ .off →
        t.gang.links[k] = l)) ∧
    (host → w.getLsbD 30 = true → w.getLsbD 31 = true → s.flag aGNG_CTL 31 = false → (∀ j : Fin 3, s.linkState j = 0) →
      ∃ t, exec (.xchg w now) s = .next t ∧ t.flag aGNG_CTL 31 = true ∧
        t.linkState k = (if s.wired k then 1 else 0) ∧ t.gang.links = s.gang.links)

/-- 17 R542 to R551: membership. -/
def Obligations.MembershipFollowsCredentialsAndHeartbeats : Prop :=
  ∀ (s : State) (k : Fin 3) (now : Nat) (m : BitVec 128) (rest : List (BitVec 128)),
    let u := s.timeAt now
    let i := s.linkPeer k
    let p := s.gang.peers[i]
    let ms := s.smiths[masterSmith]
    let dig := (m.extractLsb' 20 32).toNat
    let id := (m.extractLsb' 121 2).toNat
    let mode := (m.extractLsb' 4 3).toNat
    let sent := (m.extractLsb' 52 64).toNat
    let delay := s.fld (aLINK k.val) 15 0
    let skew : Int := (sent : Int) + delay - u
    let event (t : State) : Prop := t.smiths[masterSmith] = { ms with evpend := ms.evpend ||| 0x200 }
    let departed (t : State) (j : Fin 4) (cause : Nat) : Prop := t.gang.peers[j].fn.want = false ∧
      t.gang.peers[j].fn.state = (if s.gang.peers[j].fn.state = .on then .stopping else s.gang.peers[j].fn.state) ∧ event t ∧
      t.fld aPEER (8 * j.val + 4) (8 * j.val + 2) = cause ∧ ∃ f, t.faults.arriving = s.faults.arriving ++ [f] ∧
        f.source = 0x53 ∧ f.sev = 2 ∧ f.addr = 0 ∧ f.detail = BitVec.ofNat 23 (j.val + cause * 4) ∧
        f.kind = (if cause = 4 ∨ cause = 5 then 0x14 else 0x12)
    let agree : Prop := m.extractLsb' 4 16 = 0x0102 ∧ dig = s.digest ∧ (m.extractLsb' 116 3).toNat = s.lifecycle ∧
      id = i.val ∧ (m.extractLsb' 119 2).toNat = s.fld aGANG 1 0
    let waits (type : BitVec 4) : Prop := s.linkUp k = true ∧ s.gang.links[k].ctrl = m :: rest ∧ m.extractLsb' 0 4 = type
    let small (e : Part) : Prop := e = .gang ∨ e = .smith masterSmith ∨ e = .time
    let parted (e : Part) : Prop := small e ∨ e = .faults ∨ e = .reg aPEER
    let valid : Prop := dig = s.digest ∧ id = i.val ∧ mode < 4 ∧ (p.fn.state = .on → (m.extractLsb' 10 4).getLsbD s.gid = true)
    let noted (t : State) : Prop := ∃ e : Int, e.natAbs ≤ 8 ∧ t.gang.peers[i] =
      { p with hbAt := u, mode := m.extractLsb' 4 3, shed := m.extractLsb' 7 3
               view := m.extractLsb' 10 4, skew := skew + e, calm := if (skew + e).natAbs ≤ 50 then p.calm + 1 else 0 }
    let mag (t : State) : Nat := t.gang.peers[i].skew.natAbs
    (waits 1 → agree → ∃ t, exec (.credentials k now) s = .next t ∧ t.gang.peers[i].fn.want = true ∧ event t ∧
      t.gang.peers[i].fn.state = (if p.fn.state = .off then .starting else p.fn.state) ∧ t.gang.links[k].ctrl = rest ∧
      t.timebase = (if p.fn.state = .off ∧ s.modes.mode = .kindle ∧ i.val < s.gid then (sent + delay) % 2 ^ 64 else u) ∧ Only small s t) ∧
    (waits 1 → ¬ agree → ∃ t, exec (.credentials k now) s = .next t ∧
      departed t i (if m.extractLsb' 4 16 ≠ 0x0102 then 1 else if dig ≠ s.digest then 2 else 3) ∧
      (p.fn.state ≠ .on → Only parted s t)) ∧
    (s.gang.hbSent + 10000 ≤ u → ∃ t, exec (.heartbeatSend now) s = .next t ∧ t.gang.hbSent = u ∧
      Only (fun e => e = .gang ∨ e = .time) s t ∧ (s.linkUp k = false → t.gang.links[k] = s.gang.links[k]) ∧
      (s.linkUp k = true → ∃ x, t.gang.links[k] = { s.gang.links[k] with txCtrl := x :: s.gang.links[k].txCtrl } ∧
        x.extractLsb' 0 4 = 2 ∧ (x.extractLsb' 4 3).toNat = s.modes.mode.code ∧ (x.extractLsb' 7 3).toNat = s.shed ∧
        (x.extractLsb' 20 32).toNat = s.digest ∧ x.extractLsb' 52 64 = BitVec.ofNat 64 u ∧ (x.extractLsb' 121 2).toNat = s.gid ∧
        ∀ j : Fin 4, (x.extractLsb' 10 4).getLsbD j.val = decide (s.tongs.bitten = none ∧
          (s.gang.peers[j].fn.state = .starting ∨ s.gang.peers[j].fn.state = .on)))) ∧
    (waits 2 → p.fn.want = true → valid →
      (p.fn.state ≠ .on → ∃ t, exec (.heartbeat k now) s = .next t ∧ noted t ∧ t.gang.links[k].ctrl = rest ∧ Only small s t) ∧
      (p.fn.state = .on → s.flag aSKEW 31 = false → ∃ t, exec (.heartbeat k now) s = .next t ∧ noted t ∧
        t.flag aSKEW 31 = decide (200 < mag t) ∧ (mag t ≤ 200 → Only (fun e => small e ∨ e = .reg aSKEW) s t)) ∧
      (p.fn.state = .on → skew.natAbs ≤ 192 → s.flag aSKEW 31 = false → ∃ t, exec (.heartbeat k now) s = .next t ∧ noted t ∧
        t.flag aSKEW 31 = false ∧ Only (fun e => small e ∨ e = .reg aSKEW) s t) ∧
      (p.fn.state = .on → 208 < skew.natAbs → s.flag aSKEW 31 = false → ∃ t f, exec (.heartbeat k now) s = .next t ∧ noted t ∧
        event t ∧ t.flag aSKEW 31 = true ∧ t.faults.arriving = s.faults.arriving ++ [f] ∧ f.kind = 0x13 ∧ f.source = 0x53 ∧
        f.sev = 0 ∧ f.detail = BitVec.ofNat 23 (i.val + min 32767 (mag t) * 2 ^ 8) ∧
        Only (fun e => small e ∨ e = .faults ∨ e = .reg aSKEW) s t)) ∧
    (waits 2 → p.fn.want = true → ¬ valid → ∃ t, exec (.heartbeat k now) s = .next t ∧
      departed t i (if dig ≠ s.digest then 2 else if id ≠ i.val then 3
        else if p.fn.state = .on ∧ (m.extractLsb' 10 4).getLsbD s.gid = false then 5 else 6)) ∧
    (waits 2 → p.fn.want = false → ∃ t, exec (.heartbeat k now) s = .next t ∧ t.gang.peers = s.gang.peers ∧
      t.gang.links[k].ctrl = rest ∧ Only (fun e => e = .gang ∨ e = .time) s t) ∧
    (∀ j : Fin 4, s.gang.peers[j].fn = { state := .on, want := true } → s.gang.peers[j].hbAt + 35000 ≤ u →
      ∃ t, exec (.heartbeatTimeout j now) s = .next t ∧ departed t j 4 ∧ t.gang.peers[j].fn.state = .stopping ∧
        ∀ c : Chan, s.populated c.val = true → ∃ r, t.slices[c].rangesLeft = s.slices[c].rangesLeft ++ [r] ∧ r.base = 0 ∧ r.size = s.gangCap) ∧
    (∀ j : Fin 4, s.gang.peers[j].fn = { state := .on, want := true } → u < s.gang.peers[j].hbAt + 35000 →
      exec (.heartbeatTimeout j now) s = .next s) ∧
    (∀ j : Fin 4, s.gang.peers[j].fn = { state := .starting, want := true } →
      (s.gang.peers[j].view.getLsbD s.gid = true → ∃ t, exec (.peerStartingEnd j now) s = .next t ∧ event t ∧
        t.gang.peers[j] = { s.gang.peers[j] with fn := { state := .on, want := true } } ∧ Only small s t) ∧
      (s.gang.peers[j].view.getLsbD s.gid = false → s.gang.peers[j].since + 35000 ≤ u →
        ∃ t f, exec (.peerStartingEnd j now) s = .next t ∧ t.gang.peers[j].fn = { state := .stopping, want := false } ∧ event t ∧
          t.faults.arriving = s.faults.arriving ++ [f] ∧ f.kind = 0x14 ∧ f.detail = BitVec.ofNat 23 (j.val + 16))) ∧
    (∀ j : Fin 4, s.gang.peers[j].fn.state = .stopping → s.peerGone j = true → ∃ t, exec (.peerStoppingEnd j) s = .next t ∧
      event t ∧ t.gang.peers[j].fn = { state := if s.gang.peers[j].fn.want then .starting else .off, want := s.gang.peers[j].fn.want } ∧
      Only (fun e => e = .gang ∨ e = .smith masterSmith) s t)

/-- 17 R552, 18 R562, R563: Smith messages. -/
def Obligations.SmithMessagesCrossAndAreRead : Prop :=
  ∀ (s : State) (w : Word) (k : Fin 3) (m : BitVec 128) (rest : List (BitVec 128)),
    let ms := s.smiths[masterSmith]
    let g := s.gang
    let cap := s.hostCaps
    let host : Prop := s.modes.mode ≠ .cold ∧ s.modes.mode ≠ .banked
    let i := s.linkPeer k
    let toPeer : Prop := i.val < s.gangSize ∧ g.peers[i].fn = { state := .on, want := true } ∧ s.flag aGNG_CTL i.val = true
    let waits : Prop := s.linkUp k = true ∧ g.links[k].ctrl = m :: rest ∧ m.extractLsb' 0 4 = 3
    let read (e : Part) : Prop := e = .hrp ∨ e = .hostCaps
    (ms.run ≠ .stopped → ∃ t, exec (.smsgSend w) s = .next t ∧ Only (· = .gang) s t ∧
      (¬ toPeer → t.gang.links[k] = g.links[k]) ∧
      (toPeer → ∃ x, t.gang.links[k] = { g.links[k] with txCtrl := x :: g.links[k].txCtrl } ∧ x.extractLsb' 0 4 = 3 ∧
        x.extractLsb' 52 64 = w ++ g.txLo ∧ (x.extractLsb' 121 2).toNat = s.gid)) ∧
    (waits → g.fifo.length < 8 → ∃ t, exec (.smithMessage k) s = .next t ∧
      t.gang.fifo = g.fifo ++ [(m.extractLsb' 52 64, m.extractLsb' 121 2)] ∧ t.gang.links[k].ctrl = rest ∧
      t.smiths[masterSmith] = { ms with evpend := ms.evpend ||| 0x200 } ∧
      Only (fun e => e = .gang ∨ e = .smith masterSmith) s t) ∧
    (waits → 8 ≤ g.fifo.length → ∃ t, exec (.smithMessage k) s = .next t ∧ t.gang.fifo = g.fifo ∧
      t.gang.links[k].ctrl = rest ∧ t.flag aGNG_STAT 15 = true ∧ Only (fun e => e = .gang ∨ e = .reg aGNG_STAT) s t) ∧
    (∀ x more, host → g.fifo = x :: more → ∃ t, exec .smsgRxLo s = .next t ∧ t.hrpRdata = x.1.extractLsb' 0 32 ∧
      t.hostCaps = { cap with smsg := some (x.1.extractLsb' 32 32), smsgSrc := x.2 } ∧ HostOnly read s t) ∧
    (host → g.fifo = [] → ∃ t, exec .smsgRxLo s = .next t ∧ t.gang = { g with free := t.gang.free } ∧
      HostOnly (fun e => e = .hrp ∨ e = .gang) s t) ∧
    (∀ x more, host → g.fifo = x :: more → cap.smsg = some (x.1.extractLsb' 32 32) → cap.smsgSrc = x.2 →
      ∃ t, exec .smsgRxHi s = .next t ∧ t.hrpRdata = x.1.extractLsb' 32 32 ∧ t.gang = { g with fifo := more } ∧
        t.hostCaps = { cap with smsg := none } ∧ HostOnly (fun e => read e ∨ e = .gang) s t) ∧
    (host → cap.smsg = none → ∃ t, exec .smsgRxHi s = .next t ∧ t.hrpRdata = 0 ∧ HostOnly (· = .hrp) s t)

/-- 08 R272 to R279, R285: the mailbox, with the reference image at program level (log entries 32 and 33). -/
def Obligations.MailboxCommandsAreAnsweredOrRefused : Prop :=
  ∀ (s : State) (seq : Byte) (a b d e : Word) (now : Nat) (c : Chan),
    let u := s.timeAt now
    let ms := s.smiths[masterSmith]
    let word (i : Nat) : Word := ms.dmem.get i
    let rows : List (Instr × Nat × Word) :=
      [(.ping seq, 0x01, 0xFFFFFFFF), (.kindleRun seq a b now, 0x02, 0x137), (.slotCommit seq a b d [] false now, 0x04, 0x11F),
       (.setTarget seq a b, 0x05, 0x1F7F), (.shedFloor seq a, 0x06, 0x7), (.steward seq a b, 0x07, 0x7),
       (.temperNow seq now, 0x08, 0xFFFFFFFF), (.gangRejoin seq [] now, 0x09, 0xFFFFFFFF),
       (.margin seq a b d e now, 0x0A, 0x11F), (.park seq a now, 0x0B, 0x3)]
    let host : Prop := s.modes.mode ≠ .cold ∧ s.modes.mode ≠ .banked
    let free : Prop := host ∧ s.flag aMBOX_STATUS 31 = false
    let serves : Prop := free ∧ s.imageMS.reference = true ∧ ms.run = .idle ∧ ms.evpend = 0 ∧ ms.evmask.getLsbD 2 = true
    let service : Prop := s.modes.mode = .forge ∨ s.modes.mode = .lowfire
    let modeOk (code : Nat) : Prop := code = 0x01 ∨ (code = 0x02 ∧ s.modes.mode = .kindle) ∨ (code = 0x07 ∧ s.modes.mode ≠ .quench) ∨
      ((code = 0x05 ∨ code = 0x0B) ∧ (s.modes.mode = .kindle ∨ service)) ∨ (code ≠ 0x02 ∧ service)
    let registers (e : Part) : Prop := e = .reg aMBOX_CMD ∨ e = .reg aMBOX_STATUS ∨ (∃ n < 4, e = .reg (aMBOX_ARG n)) ∨ e = .time
    let arg (t : State) (n : Nat) : Word := t.rd (aMBOX_ARG n)
    let program (e : Part) : Prop := registers e ∨ e = .smith masterSmith ∨ e = .gang ∨ e = .prog
    let ended (t : State) : Prop := t.prog = { s.prog with task := none }
    let event (n : Nat) : Prop := s.imageMS.reference = true ∧ ms.run = .idle ∧ ms.evpend = BitVec.ofNat 16 (2 ^ n) ∧ ms.evmask.getLsbD n = true
    let replied (t : State) (result : Nat) : Prop := t.prog.task = none ∧ t.flag aMBOX_STATUS 31 = false ∧
      t.fld aMBOX_STATUS 23 16 = s.fld aMBOX_CMD 15 8 ∧ t.fld aMBOX_STATUS 7 0 = result
    let serve := exec (.eventDispatch masterSmith) s
    let an := s.smiths[anvilSmith c]
    let runs (q : Chan) : Prop := s.smiths[anvilSmith q].run ≠ .stopped
    let parked (t : State) : Prop := arg t 0 = t.smiths[masterSmith].dmem.get 5 ∧ (arg t 0).getLsbD 0 = a.getLsbD 0 ∧
      (a.getLsbD 0 = true → t.flag aSTATE1 18 = true ∧ t.smiths[masterSmith].evmask = 4) ∧ (a.getLsbD 1 = true → (arg t 0).getLsbD 1 = true)
    let answered (t : State) (result : Nat) : Prop := t.flag aMBOX_STATUS 31 = false ∧ t.fld aMBOX_STATUS 23 16 = seq.toNat ∧
      t.fld aMBOX_STATUS 7 0 = result
    (∀ r ∈ rows, host → s.flag aMBOX_STATUS 31 = true → ∃ t, exec r.1 s = .next t ∧ t.flag aMBOX_STATUS 30 = true ∧
      t.flag aMBOX_STATUS 31 = true ∧ t.fld aMBOX_STATUS 23 0 = s.fld aMBOX_STATUS 23 0 ∧
      HostOnly (fun e => e = .reg aMBOX_STATUS ∨ e = .time) s t) ∧
    (∀ r ∈ rows, free → ms.run = .stopped → ∃ t, exec r.1 s = .next t ∧ answered t 0xFE ∧
      t.fld aMBOX_CMD 15 0 = seq.toNat * 2 ^ 8 + r.2.1 ∧ HostOnly registers s t) ∧
    (∀ r ∈ rows, free → ms.run ≠ .stopped → s.imageMS.reference = false → ∃ t, exec r.1 s = .next t ∧
      t.flag aMBOX_STATUS 31 = true ∧ t.fld aMBOX_CMD 15 0 = seq.toNat * 2 ^ 8 + r.2.1 ∧
      t.smiths[masterSmith] = { ms with evpend := ms.evpend ||| 0x4 } ∧ HostOnly (fun e => registers e ∨ e = .smith masterSmith) s t) ∧
    (∀ r ∈ rows, serves → (word 5).getLsbD 0 = false → ¬ modeOk r.2.1 →
      ∃ t, exec r.1 s = .next t ∧ answered t 3 ∧ ended t ∧ HostOnly program s t) ∧
    (∀ r ∈ rows, serves → (word 5).getLsbD 0 = true → r.2.1 ≠ 0x01 →
      ∃ t, exec r.1 s = .next t ∧ answered t 3 ∧ ended t ∧ HostOnly program s t) ∧
    (∀ r ∈ rows, serves → (word 5).getLsbD 0 = false → modeOk r.2.1 → a &&& ~~~ r.2.2 ≠ 0 →
      ∃ t, exec r.1 s = .next t ∧ answered t 2 ∧ ended t ∧ HostOnly program s t) ∧
    (serves → ∃ t, exec (.ping seq) s = .next t ∧ answered t 0 ∧ arg t 0 = s.rd aVER_MS ∧ arg t 1 = s.rd aVER_AS ∧
      arg t 2 = s.rd aMODE ∧ arg t 3 = word 5 ∧ ended t ∧ HostOnly program s t) ∧
    (serves → (word 5).getLsbD 0 = false → s.modes.mode ≠ .quench → a &&& ~~~ 0x7#32 = 0 →
      10 ≤ bits b.toNat 15 0 → 10 ≤ bits b.toNat 31 16 → ∃ t, exec (.steward seq a b) s = .next t ∧ answered t 0 ∧
        t.prog = { s.prog with knobs := a.setWidth 3, bounds := b, task := none } ∧ (arg t 0).toNat = s.prog.knobs.toNat ∧
        arg t 1 = s.prog.bounds ∧ HostOnly program s t) ∧
    (serves → (word 5).getLsbD 0 = false → service → a &&& ~~~ 0x11F#32 = 0 → bits a.toNat 4 0 = c.val →
      ∃ t, exec (.margin seq a b d e now) s = .next t ∧ t.flag aMBOX_STATUS 31 = true ∧
        t.prog = { s.prog with task := some (.margin c (u + 20000000))
                               orders := s.prog.orders.set c (s.prog.orders[c] ++ [.margin [bits a.toNat 8 8] true]) } ∧
        t.smiths[anvilSmith c] = { an with evpend := an.evpend ||| 2, sigset := an.sigset ||| BitVec.ofNat 25 (2 ^ 24)
                                           dmem := t.smiths[anvilSmith c].dmem } ∧
        (∀ i, i ≠ Config.flagWord c.val % 1024 → t.smiths[anvilSmith c].dmem.get i = an.dmem.get i) ∧
        HostOnly (fun e => program e ∨ e = .smith (anvilSmith c)) s t) ∧
    (∀ limit x y z, event 1 → s.prog.task = some (.margin c limit) → s.timebase ≤ limit →
      s.prog.reports = [(c, .margin (x, y, z) true)] → ∃ t, serve = .next t ∧ replied t 0 ∧ t.prog.reports = [] ∧
        arg t 0 = BitVec.ofNat 32 x ∧ arg t 1 = BitVec.ofNat 32 y ∧ arg t 2 = BitVec.ofNat 32 z ∧
        t.prog.margins.lookup c.val = some (min x (min y z)) ∧ Only program s t) ∧
    (∀ limit, event 12 → s.prog.task = some (.margin c limit) → ∃ t, serve = .next t ∧ replied t 0x0B ∧ Only program s t) ∧
    (∀ task, event 1 → s.prog.task = some task → (∀ till, task ≠ .rejoin till) → task.limit < s.timebase →
      ∃ t, serve = .next t ∧ replied t 0x0B ∧ Only program s t) ∧
    (∀ till, event 1 → s.prog.task = some (.rejoin till) → till < s.timebase → ∃ t, serve = .next t ∧
      replied t (if s.gang.differs = 0 then 0 else 9) ∧ Only program s t) ∧
    (serves → (word 5).getLsbD 0 = false → (s.modes.mode = .kindle ∨ service) → a &&& ~~~ 0x3#32 = 0 →
      ((a.getLsbD 1 = false ∨ ∀ q, ¬ runs q) → ∃ t, exec (.park seq a now) s = .next t ∧ answered t 0 ∧ ended t ∧ parked t ∧
        HostOnly (fun e => program e ∨ e = .reg aSTATE1) s t) ∧
      (a.getLsbD 1 = true → runs c → ∃ t l, exec (.park seq a now) s = .next t ∧ t.flag aMBOX_STATUS 31 = true ∧
        t.prog.task = some (.park l (u + 2000000)) ∧ (∀ q, q ∈ l ↔ runs q) ∧ t.prog.orders[c] = s.prog.orders[c] ++ [.park] ∧
        t.smiths[anvilSmith c].evpend = an.evpend ||| 2 ∧ HostOnly (fun e => program e ∨ ∃ q, runs q ∧ e = .smith (anvilSmith q)) s t)) ∧
    (s.imageAS.reference = true → an.run = .idle → an.evpend = 2 → an.evmask.getLsbD 1 = true → s.prog.orders[c] = [.park] →
      ∃ t, exec (.eventDispatch (anvilSmith c)) s = .next t ∧ t.smiths[anvilSmith c].run = .idle ∧
        t.smiths[anvilSmith c].evmask = 2 ∧ t.pausedBy (anvilSmith c) c = false ∧ t.prog.orders[c] = [] ∧
        t.prog.reports = s.prog.reports ++ [(c, .parked)] ∧ t.smiths[masterSmith].evpend = ms.evpend ||| 2 ∧
        Only (fun e => e = .smith (anvilSmith c) ∨ e = .smith masterSmith ∨ e = .anvil c ∨ e = .prog ∨ e = .gang) s t) ∧
    (∀ limit, event 1 → s.prog.task = some (.park [c] limit) → s.timebase ≤ limit → s.prog.reports = [(c, .parked)] →
      a = arg s 0 → (word 5).getLsbD 0 = false → ∃ t, serve = .next t ∧ replied t 0 ∧ parked t ∧ Only (fun e => program e ∨ e = .reg aSTATE1) s t) ∧
    (∀ r ∈ rows, s.modes.mode = .cold → ∃ t l, exec r.1 s = .next t ∧ t.hrpHeld = s.hrpHeld ++ l ∧
      l.getLast? = some (aMBOX_CMD, some (BitVec.ofNat 32 (seq.toNat * 2 ^ 8 + r.2.1))) ∧ Only (· = .held) s t)

/-- 08 R273, R278 to R283, 07 R255, R257, 12 R422 to R424, 17 R543, 19 R579: commands of the reference image (log entries 32 and 33). -/
def Obligations.KindleCommitTargetShedTemperAndRejoin : Prop :=
  ∀ (s : State) (seq : Byte) (a b d : Word) (now : Nat) (c : Chan),
    let ms := s.smiths[masterSmith]
    let u := s.timeAt now
    let serves : Prop := s.modes.mode ≠ .cold ∧ s.modes.mode ≠ .banked ∧ s.flag aMBOX_STATUS 31 = false ∧
      s.imageMS.reference = true ∧ ms.run = .idle ∧ ms.evpend = 0 ∧ ms.evmask.getLsbD 2 = true ∧ (ms.dmem.get 5).getLsbD 0 = false
    let service : Prop := s.modes.mode = .forge ∨ s.modes.mode = .lowfire
    let answered (t : State) (result : Nat) : Prop := t.flag aMBOX_STATUS 31 = false ∧ t.fld aMBOX_STATUS 23 16 = seq.toNat ∧
      t.fld aMBOX_STATUS 7 0 = result
    let arg (t : State) (n : Nat) : Word := t.rd (aMBOX_ARG n)
    let small (e : Part) : Prop := e = .reg aMBOX_CMD ∨ e = .reg aMBOX_STATUS ∨ (∃ n < 4, e = .reg (aMBOX_ARG n)) ∨ e = .time ∨
      e = .smith masterSmith ∨ e = .gang ∨ e = .prog
    let layout (v : Word) : Nat × Nat := (bits v.toNat 31 24, bits v.toNat 23 16)
    let kindles : Prop := serves ∧ s.modes.mode = .kindle ∧ a &&& ~~~ 0x37#32 = 0 ∧ a.getLsbD (bits a.toNat 5 4) = true ∧
      bits a.toNat 5 4 < 3
    let points := (List.range 3).filter (fun n => a.getLsbD n)
    let limit := u + 10000000 * points.length
    let retain := s.flag aMODE 27
    let brings (q : Chan) : Prop := s.populated q.val = true ∧ s.keptOff q.val = false
    let settled (q : Chan) : Prop := s.fld (aPLL q.val) 5 4 = points.headD 0 ∧ s.flag (aPLL q.val) 8 = true ∧ s.flag (aPLL q.val) 31 = true ∧
      s.anvils[q].testing = false ∧ s.anvils[q].resetN = true ∧ (retain = true ∨ s.anvils[q].resetAt + 2000000 ≤ u)
    let an := s.smiths[anvilSmith c]
    let dispatched : Prop := s.imageAS.reference = true ∧ an.run = .idle ∧ an.evpend = 2 ∧ an.evmask.getLsbD 1 = true ∧ an.stopReq = false
    let reports (t : State) (r : Report) : Prop := t.smiths[anvilSmith c].run = .idle ∧ t.prog.jobs[c] = none ∧
      t.prog.reports = s.prog.reports ++ [(c, r)] ∧ t.smiths[masterSmith].evpend = ms.evpend ||| 2
    let block (t : State) (n : Nat) : Word := t.smiths[masterSmith].dmem.get n
    let start := b.toNat + d.toNat * 2 ^ 32
    let load := s.shadowLoad c
    let port := bits a.toNat 6 0
    let age := s.fld aAGE 9 0
    let eye : Prop := ∃ (q : Chan) (w : Nat), s.populated q.val = true ∧ s.prog.margins.lookup q.val = some w ∧ w < 32
    let code := max s.prog.code (min 50 (30 + age / 10))
    let guard := max s.prog.guard (min 15 (age / 20 + (if s.eyeFlag then 1 else 0)))
    let units := (b.toNat + 63) / 64
    (kindles → layout (s.rd aVER_MS) ≠ layout (s.rd aVER_AS) → ∃ t, exec (.kindleRun seq a b now) s = .next t ∧ answered t 8 ∧
      HostOnly small s t) ∧
    (kindles → layout (s.rd aVER_MS) = layout (s.rd aVER_AS) →
      (∀ q, brings q ∧ ¬ settled q → ∃ t, exec (.kindleRun seq a b now) s = .next t ∧ t.flag aMBOX_STATUS 31 = true ∧
        t.prog = { s.prog with task := some (.settle points limit) }) ∧
      (brings c → (∀ q, brings q → settled q) → ∃ t n rest cs, exec (.kindleRun seq a b now) s = .next t ∧ points = n :: rest ∧
        t.flag aMBOX_STATUS 31 = true ∧ t.prog.task = some (.kindle rest n cs [] limit) ∧ (∀ q, q ∈ cs ↔ brings q) ∧
        t.prog.orders[c] = s.prog.orders[c] ++ [.train n] ∧ t.smiths[anvilSmith c].evpend.getLsbD 1 = true ∧
        t.fld (aPLL c.val) 5 4 = n)) ∧
    (∀ n, dispatched → s.prog.orders[c] = [.train n] → s.populated c.val = true → s.hearths[hearthOf c].zqDone = true →
      (s.fld (aZQ c.val) 29 24 < 2 ∨ 61 < s.fld (aZQ c.val) 29 24 ∨ s.fld (aZQ c.val) 21 16 < 2 ∨ 61 < s.fld (aZQ c.val) 21 16) →
      ∃ t m, exec (.eventDispatch (anvilSmith c)) s = .next t ∧ t.fld (aTSTAT c.val) 31 30 = 1 ∧ t.fld (aTSTAT c.val) 27 24 = 1 ∧
        t.fld (aTSTAT c.val) 17 16 = n % 4 ∧ t.faults.arriving = s.faults.arriving ++ [m] ∧ m.kind = 0x08 ∧ m.source.toNat = c.val ∧
        m.sev = 2 ∧ m.detail = 1 ∧ reports t (.trained false)) ∧
    (∀ n rank dqo j lower upper d, an.wait = some (.osc d c rank dqo) → s.anvils[c].oscRead (anvilSmith c) = true →
      s.prog.jobs[c] = some j → j.kind = .train n → j.steps = [.count rank dqo, .baseline] → an.stopReq = false →
      ∃ t, exec (.oscEnd (anvilSmith c) lower upper) s = .next t ∧ t.fld (aTSTAT c.val) 31 30 = 2 ∧ t.fld (aTSTAT c.val) 27 24 = 6 ∧
        t.fld (aTSTAT c.val) 17 16 = n % 4 ∧ t.faults = s.faults ∧ reports t (.trained true)) ∧
    (∀ n failed till pass, s.imageMS.reference = true → ms.run = .idle → ms.evpend = 2 → ms.evmask.getLsbD 1 = true →
      s.prog.task = some (.kindle [] n [c] failed till) → s.timebase ≤ till → s.prog.reports = [(c, .trained pass)] →
      n < 3 → brings c →
      let bad := if pass then failed else failed ++ [c]
      ∃ t, exec (.eventDispatch masterSmith) s = .next t ∧ t.prog.task = none ∧ t.flag aMBOX_STATUS 31 = false ∧
        t.fld aMBOX_STATUS 23 16 = s.fld aMBOX_CMD 15 8 ∧ t.fld aMBOX_STATUS 7 0 = (if bad = [] then 0 else 7) ∧
        (∀ q : Chan, (arg t 0).getLsbD q.val = decide (q ∈ bad)) ∧
        (∀ q ∈ bad, (∀ q' ∈ bad, q ≤ q') → arg t 1 = t.rd (aTSTAT q.val)) ∧
        ((∀ q ∈ bad, q.val / 6 ≠ c.val / 6) → (∀ q : Chan, q.val / 6 = c.val / 6 → s.populated q.val = true → brings q) → t.flag (aFSP c.val) (16 + n) = true) ∧
        block t 1 = 50 ∧ block t 2 = 50 ∧ block t 3 = BitVec.ofNat 32 s.prog.ri ∧ block t 6 = BitVec.ofNat 32 s.prog.cap) ∧
    (serves → service → (a.toNat = c.val ∨ (a.toNat = c.val + 256 ∧ s.flag aSKEW 31 = false)) → load.2 < load.1 → ∃ t m, exec (.slotCommit seq a b d [] false now) s = .next t ∧ answered t 4 ∧
      arg t 0 = BitVec.ofNat 32 load.1 ∧ arg t 1 = BitVec.ofNat 32 load.2 ∧ m ∈ t.faults.arriving ∧ m.kind = 0x10 ∧
      m.source = 0x50 ∧ m.sev = 0 ∧ m.addr = 0 ∧ m.detail.toNat = c.val ∧ t.rd (aSLOT c.val) = s.rd (aSLOT c.val)) ∧
    (serves → service → a.toNat = c.val + 256 → s.flag aSKEW 31 = true → ∃ t, exec (.slotCommit seq a b d [] false now) s = .next t ∧
      answered t 0x0A ∧ arg t 0 = BitVec.ofNat 32 load.1 ∧ arg t 1 = BitVec.ofNat 32 load.2 ∧ t.rd (aSLOT c.val) = s.rd (aSLOT c.val)) ∧
    (serves → service → a.toNat = c.val →
      (load.1 ≤ load.2 → s.flag (aSLOT c.val) 30 = false → u + 32 ≤ start → ∃ t, exec (.slotCommit seq a b d [] false now) s = .next t ∧
        answered t 0 ∧ arg t 0 = BitVec.ofNat 32 load.1 ∧ arg t 1 = BitVec.ofNat 32 load.2 ∧
        t.flag (aSLOT c.val) 30 = true ∧ t.rd (aTLO c.val) = b ∧ t.rd (aTHI c.val) = d) ∧
      (load.1 ≤ load.2 → s.flag (aSLOT c.val) 30 = true → ∃ t, exec (.slotCommit seq a b d [] false now) s = .next t ∧
        answered t 6 ∧ t.rd (aSLOT c.val) = s.rd (aSLOT c.val))) ∧
    (serves → (s.modes.mode = .kindle ∨ service) → a &&& ~~~ 0x1F7F#32 = 0 → b.toNat ≤ 16320 →
      (s.belowFloor port (64 * units) = none → ∃ t, exec (.setTarget seq a b) s = .next t ∧ answered t 0 ∧
        t.fld (aLabel port (bits a.toNat 12 8) 1) 31 24 = units ∧
        t.fld (aLabel port (bits a.toNat 12 8) 1) 23 0 = s.fld (aLabel port (bits a.toNat 12 8) 1) 23 0) ∧
      (s.belowFloor port (64 * units) = some c → ∃ t m, exec (.setTarget seq a b) s = .next t ∧ answered t 4 ∧
        t.rd (aLabel port (bits a.toNat 12 8) 1) = s.rd (aLabel port (bits a.toNat 12 8) 1) ∧ m ∈ t.faults.arriving ∧
        m.kind = 0x10 ∧ m.detail.toNat = c.val + port * 2 ^ 5 + 2 ^ 12)) ∧
    (serves → service → a.toNat ≤ 6 → ∃ t, exec (.shedFloor seq a) s = .next t ∧ answered t 0 ∧ block t 4 = a ∧
      a.toNat ≤ t.shed ∧ arg t 0 = t.rd aSHED) ∧
    (s.eyeFlag = true ↔ eye) ∧
    (serves → service → ∃ t, exec (.temperNow seq now) s = .next t ∧ answered t 0 ∧ arg t 0 = t.rd aGUARD ∧ t.prog.code = code ∧
      t.fld aVREQ 5 0 = (if code % 64 ≤ 50 then code % 64 else s.fld aVREQ 5 0) ∧ t.fld aGUARD 7 0 = (250 - 5 * code) % 256 ∧ t.prog.guard = guard ∧
      (s.populated c.val = true → t.fld (aDERATE c.val) 11 0 = guard % 16 * 273)) ∧
    (serves → service → ∃ t, exec (.gangRejoin seq [] now) s = .next t ∧ answered t 0 ∧ HostOnly small s t ∧
        (∀ i : Fin 4, (arg t 0).getLsbD i.val = decide (s.gang.peers[i].fn.state = .on)) ∧
        ∀ k : Fin 3, s.linkUp k = true → s.gang.peers[s.linkPeer k].fn.state = .off →
          ∃ m, t.gang.links[k] = { s.gang.links[k] with txCtrl := m :: s.gang.links[k].txCtrl } ∧ m.extractLsb' 0 4 = 1 ∧
            (m.extractLsb' 20 32).toNat = s.digest)

/-- 18 R559 orders the accesses of the host; that the model's queue runs front first, and that an empty queue idles, is
the model's form (log entry 2). -/
def Obligations.StepRunsTheFrontCommand : Prop :=
  ∀ (s : State) (c : Instr) (rest : List Instr),
    (s.pending = c :: rest → step s = exec c { s with pending := rest }) ∧
    (s.pending = [] → step s = .next s.idle) ∧
    (s.modes.step ≠ .off ∨ s.modes.held = false → s.idle = { s with hrpRvalid := false }) ∧
    (s.modes.step = .off → s.modes.held = true → s.assay.holdExit = false →
      s.idle = { s with hrpRvalid := false, modes := { s.modes with step := .gateOn, pgReq := 2, held := false } })

/-- 01 R44 and 18 R559: every row of the table takes effect, in the order of the queue. -/
def Obligations.EveryCommandAnswersAndKeepsTheQueue : Prop :=
  (∀ (c : Instr) (s : State), ∃ t, exec c s = .next t ∧ t.pending = s.pending) ∧
  (∀ s t : State, step s = .next t → t.pending = s.pending.tail)

/-- 18 R556, 02 R51, R55, 12 R406: the memories of the machine; their canonical form is the model's. -/
def Obligations.EveryStepKeepsMemoriesCanonical : Prop :=
  ∀ s t : State, s.Canonical → step s = .next t → t.Canonical

/-- 13 R431, R434, R436 and 15 R492, R493. -/
def Obligations.EveryStepKeepsModeAndFaultQueueLegal : Prop :=
  ∀ s t : State, Memory.wf resetWord s.regs = true → s.fld aMODE 2 0 = s.modes.mode.code → s.faults.queue.length ≤ 64 →
    step s = .next t →
      t.fld aMODE 2 0 = t.modes.mode.code ∧ t.faults.queue.length ≤ 64 ∧
      (t.modes.mode ≠ s.modes.mode → s.pending.head? ≠ some .resetAssert → s.hrpHeld = [] → t.flag aMODE 31 = true)

/-- 04 R170: the lock of the mapping. -/
def Obligations.LockedMappingChangesOnlyAtReset : Prop :=
  ∀ s t : State, Memory.wf resetWord s.regs = true → s.flag aCAP 31 = true → step s = .next t →
    (s.pending.head? ≠ some .resetAssert → t.flag aCAP 31 = true ∧
      t.rd aGANG &&& 0x1F00 = s.rd aGANG &&& 0x1F00 ∧ t.rd aFURROW &&& 0x000F1700 = s.rd aFURROW &&& 0x000F1700 ∧
      (∀ n < 4, t.rd (aCHMAP n) &&& 0x3FFFFFFF = s.rd (aCHMAP n) &&& 0x3FFFFFFF) ∧
      t.rd aCAP &&& 0x1F = s.rd aCAP &&& 0x1F ∧
      ∀ c : Chan, t.rd (aMAP c.val) &&& 0x1F33 = s.rd (aMAP c.val) &&& 0x1F33) ∧
    (s.pending.head? = some .resetAssert → s.modes.pinsLow = false → t.flag aCAP 31 = false)

/-- 14 R466, R475: key material cannot be read. -/
def Obligations.HostReadsRevealNoKey : Prop :=
  ∀ (s : State) (a : BitVec 24) (fuse : Vector Word 128) (regions : Vector Region 8),
    let other : State := { s with hedge := { s.hedge with fuse := fuse, regions := regions } }
    (∀ i : Fin 128, (i.val < 91 ∨ 98 < i.val) → fuse[i] = s.hedge.fuse[i]) →
    (∀ r : RegionId, regions[r].fn = s.hedge.regions[r].fn ∧ regions[r].k1.isSome = s.hedge.regions[r].k1.isSome ∧
      regions[r].k2.isSome = s.hedge.regions[r].k2.isSome) →
    ∃ t u, exec (.rcRead a) s = .next t ∧ exec (.rcRead a) other = .next u ∧ t.hrpRdata = u.hrpRdata ∧
      (s.modes.mode ≠ .cold → a.toNat % 4 = 0 → 0x2800 + 4 * 91 ≤ a.toNat → a.toNat ≤ 0x2800 + 4 * 98 → t.hrpRdata = 0)

/-- 18 R566, 02 R48, 03 R101, 15 R491: the state after reset. -/
def Obligations.ResetLeavesTheSpecifiedState : Prop :=
  let s := State.reset
  s.modes.mode = .cold ∧ s.fld aMODE 2 0 = s.modes.mode.code ∧ (∀ a, SMap.get resetWord s.regs a = resetWord a) ∧
  s.rd aID = 0x01020000 ∧ (∀ c : Chan, s.rd (aTIM c.val 0) = 0x7F7F7F7F) ∧ s.rd aHDG_STAT = 0 ∧ (∀ k < 4, s.rd (aSWD_EN k) = 0) ∧
  (∀ m : SmithId, s.smiths[m].run = .stopped) ∧ s.imageMS.accepted = false ∧ s.imageAS.accepted = false ∧
  (∀ p : PortId, s.ports[p].reqs = []) ∧ s.pieces = [] ∧ s.faults.arriving = [] ∧ s.faults.queue = [] ∧
  s.faults.queue.length ≤ 64 ∧ s.fld aQSTAT 31 20 = 0 ∧ s.evq.recs = [] ∧ (∀ k : Fin 6, s.loftFns[k].state = .off) ∧
  (∀ c : Chan, s.anvils[c].fn.state = .off) ∧ s.timebase = 0 ∧ s.pending = [] ∧ s.faultN = true ∧ s.Canonical
end

