-- ==== Sys2Proof/Laws/Aes.lean ====
section
/-! SUPPORT. The tables of SubBytes and InvSubBytes agree with their definitions in FIPS 197. -/

namespace Sys2Proof.Machine

theorem sbox_eq_sboxOf : ∀ a < 256, sbox a = sboxOf a := by decide +kernel

theorem sboxInv_eq_sboxInvOf : ∀ a < 256, sboxInv a = sboxInvOf a := by decide +kernel

end Sys2Proof.Machine
end

