-- ==== Sys2Proof/Laws/Memory.lean ====
section
/-! SUPPORT. The laws of sparse memories: a read after a write, what a write leaves alone, and the canonical form. -/

namespace Sys2Proof.Machine

variable {β : Type}

@[simp] theorem SMap.get_nil (d : Nat → β) (k : Nat) : SMap.get d [] k = d k := rfl

/-- A read after an insertion. -/
theorem SMap.get_insert (d : Nat → β) (m : List (Nat × β)) (k k' : Nat) (v : β) :
    SMap.get d (SMap.insert m k v) k' = if k' = k then v else SMap.get d m k' := by
  induction m with
  | nil => simp [SMap.insert, SMap.get]
  | cons e m ih =>
    simp only [SMap.insert]
    split
    · simp only [SMap.get]
    · split
      · subst_vars
        simp only [SMap.get]
        split <;> rfl
      · simp only [SMap.get, ih]
        split <;> split <;> first | rfl | (subst_vars; contradiction)

/-- A read after an erasure of a key reads what an unlisted address reads as there, and the old value elsewhere. -/
theorem SMap.get_erase (d : Nat → β) (m : List (Nat × β)) (k k' : Nat) :
    SMap.get d (SMap.erase m k) k' = if k' = k then d k else SMap.get d m k' := by
  induction m with
  | nil => simp only [SMap.erase, List.filter_nil, SMap.get]; split <;> simp_all
  | cons e m ih =>
    obtain ⟨a, v⟩ := e
    by_cases h : a = k
    · subst h
      have : SMap.erase ((a, v) :: m) a = SMap.erase m a := by simp [SMap.erase]
      rw [this, ih]; simp only [SMap.get]
      split <;> rfl
    · have : SMap.erase ((a, v) :: m) k = (a, v) :: SMap.erase m k := by simp [SMap.erase, h]
      rw [this]; simp only [SMap.get, ih]
      split <;> split <;> first | rfl | (subst_vars; contradiction)

variable [DecidableEq β]

/-- A read after a write. -/
@[simp] theorem SMap.get_set (d : Nat → β) (m : List (Nat × β)) (k k' : Nat) (v : β) :
    SMap.get d (SMap.set d m k v) k' = if k' = k then v else SMap.get d m k' := by
  unfold SMap.set
  split
  · next h => rw [SMap.get_erase]; split <;> simp_all
  · exact SMap.get_insert d m k k' v

/-! ### Canonical form -/

omit [DecidableEq β] in
theorem SMap.rising_tail {e : Nat × β} {m : List (Nat × β)} (h : SMap.rising (e :: m) = true) : SMap.rising m = true := by
  cases m with
  | nil => rfl
  | cons b m => simp only [SMap.rising, Bool.and_eq_true] at h; exact h.2

omit [DecidableEq β] in
/-- A rising list has its first key below every other key. -/
theorem SMap.rising_head {e : Nat × β} {m : List (Nat × β)} (h : SMap.rising (e :: m) = true) :
    ∀ x ∈ m, e.1 < x.1 := by
  induction m generalizing e with
  | nil => simp
  | cons b m ih =>
    simp only [SMap.rising, Bool.and_eq_true, decide_eq_true_eq] at h
    intro x hx
    rcases List.mem_cons.mp hx with rfl | hx
    · exact h.1
    · exact Nat.lt_trans h.1 (ih h.2 x hx)

omit [DecidableEq β] in
/-- A key below every key of a rising list may stand in front of it. -/
theorem SMap.rising_cons {e : Nat × β} {m : List (Nat × β)} (hm : SMap.rising m = true) (h : ∀ x ∈ m, e.1 < x.1) :
    SMap.rising (e :: m) = true := by
  cases m with
  | nil => rfl
  | cons b m => simp only [SMap.rising, Bool.and_eq_true, decide_eq_true_eq]; exact ⟨h b (by simp), hm⟩

omit [DecidableEq β] in
/-- What `filter` keeps of a rising list is rising. -/
theorem SMap.rising_filter (p : Nat × β → Bool) {m : List (Nat × β)} (h : SMap.rising m = true) :
    SMap.rising (m.filter p) = true := by
  induction m with
  | nil => rfl
  | cons e m ih =>
    have ih := ih (SMap.rising_tail h)
    simp only [List.filter_cons]
    split
    · exact SMap.rising_cons ih (fun x hx => SMap.rising_head h x (List.mem_of_mem_filter hx))
    · exact ih

omit [DecidableEq β] in
theorem SMap.rising_erase {m : List (Nat × β)} (k : Nat) (h : SMap.rising m = true) :
    SMap.rising (SMap.erase m k) = true := SMap.rising_filter _ h

omit [DecidableEq β] in
theorem SMap.mem_insert {m : List (Nat × β)} {k : Nat} {v : β} {x : Nat × β} (h : x ∈ SMap.insert m k v) :
    x = (k, v) ∨ x ∈ m := by
  induction m with
  | nil => simpa [SMap.insert] using h
  | cons e m ih =>
    simp only [SMap.insert] at h
    split at h
    · simpa using h
    · split at h
      · rcases List.mem_cons.mp h with h | h
        · exact .inl h
        · exact .inr (List.mem_cons_of_mem _ h)
      · rcases List.mem_cons.mp h with h | h
        · exact .inr (by simp [h])
        · rcases ih h with h | h
          · exact .inl h
          · exact .inr (List.mem_cons_of_mem _ h)

omit [DecidableEq β] in
/-- An insertion keeps addresses rising. -/
theorem SMap.rising_insert {m : List (Nat × β)} (k : Nat) (v : β) (h : SMap.rising m = true) :
    SMap.rising (SMap.insert m k v) = true := by
  induction m with
  | nil => rfl
  | cons e m ih =>
    simp only [SMap.insert]
    split
    · next hk => exact SMap.rising_cons h (fun x hx => by
        rcases List.mem_cons.mp hx with rfl | hx
        · exact hk
        · exact Nat.lt_trans hk (SMap.rising_head h x hx))
    · split
      · next hk => exact SMap.rising_cons (SMap.rising_tail h) (fun x hx => by
          have := SMap.rising_head h x hx; simp only at this ⊢; omega)
      · exact SMap.rising_cons (ih (SMap.rising_tail h)) (fun x hx => by
          rcases SMap.mem_insert hx with rfl | hx
          · simp only; omega
          · exact SMap.rising_head h x hx)

/-- A write keeps the canonical form. -/
theorem Memory.wf_set {d : Nat → β} {m : List (Nat × β)} (k : Nat) (v : β) (h : Memory.wf d m = true) :
    Memory.wf d (SMap.set d m k v) = true := by
  simp only [Memory.wf, Bool.and_eq_true, List.all_eq_true, bne_iff_ne] at h ⊢
  unfold SMap.set
  split
  · exact ⟨SMap.rising_erase k h.1, fun x hx => h.2 x (List.mem_of_mem_filter hx)⟩
  · next hv =>
    refine ⟨SMap.rising_insert k v h.1, fun x hx => ?_⟩
    rcases SMap.mem_insert hx with rfl | hx
    · exact hv
    · exact h.2 x hx

/-- What `filter` keeps of a canonical memory is canonical. -/
theorem Memory.wf_filter {d : Nat → β} {m : List (Nat × β)} (p : Nat × β → Bool) (h : Memory.wf d m = true) :
    Memory.wf d (m.filter p) = true := by
  simp only [Memory.wf, Bool.and_eq_true, List.all_eq_true] at h ⊢
  exact ⟨SMap.rising_filter p h.1, fun x hx => h.2 x (List.mem_of_mem_filter hx)⟩

/-- A word memory: read after write. -/
@[simp] theorem WMem.get_set (m : WMem) (k k' : Nat) (w : Word) :
    (m.set k w).get k' = if k' = k then w else m.get k' := SMap.get_set _ m k k' w

/-- A write of a word memory keeps its canonical form. -/
theorem WMem.wf_set {m : WMem} (k : Nat) (w : Word) (h : m.wf = true) : (m.set k w).wf = true := Memory.wf_set k w h

end Sys2Proof.Machine
end

