-- ==== Sys2Proof/Laws/State.lean ====
section
/-! SUPPORT. One lemma per field of State per update: what an update leaves in a field, so that no proof unfolds a
record update. -/

namespace Sys2Proof.Machine

/-! ### Tables -/

/-- An entry of a table after a change of one entry, in simp normal form. -/
@[simp] theorem upd_getElem {α : Type} {n : Nat} (v : Vector α n) (i : Fin n) (f : α → α) (k : Nat) (h : k < n) :
    (upd v i f)[k] = if k = i.val then f v[i.val] else v[k] := by
  by_cases e : k = i.val
  · subst e; simp [upd]
  · have e' : ¬ i.val = k := fun x => e x.symm
    simp [upd, e, e']

/-- An entry of a table after a change of one entry. -/
theorem upd_get {α : Type} {n : Nat} (v : Vector α n) (i j : Fin n) (f : α → α) :
    (upd v i f)[j] = if j = i then f v[i] else v[j] := by
  simp [Fin.ext_iff]

/-! ### Fields of State -/

section
variable (s : State) (a : Nat) (w : Word)

@[simp] theorem State.wr_timebase : (s.wr a w).timebase = s.timebase := rfl
@[simp] theorem State.wr_clock : (s.wr a w).clock = s.clock := rfl
@[simp] theorem State.wr_regs : (s.wr a w).regs = SMap.set resetWord s.regs (regHome a) w := rfl
@[simp] theorem State.wr_hrpRdata : (s.wr a w).hrpRdata = s.hrpRdata := rfl
@[simp] theorem State.wr_hrpRvalid : (s.wr a w).hrpRvalid = s.hrpRvalid := rfl
@[simp] theorem State.wr_hrpHeld : (s.wr a w).hrpHeld = s.hrpHeld := rfl
@[simp] theorem State.wr_hostCaps : (s.wr a w).hostCaps = s.hostCaps := rfl
@[simp] theorem State.wr_smiths : (s.wr a w).smiths = s.smiths := rfl
@[simp] theorem State.wr_imageMS : (s.wr a w).imageMS = s.imageMS := rfl
@[simp] theorem State.wr_imageAS : (s.wr a w).imageAS = s.imageAS := rfl
@[simp] theorem State.wr_verify : (s.wr a w).verify = s.verify := rfl
@[simp] theorem State.wr_ports : (s.wr a w).ports = s.ports := rfl
@[simp] theorem State.wr_pieces : (s.wr a w).pieces = s.pieces := rfl
@[simp] theorem State.wr_tongs : (s.wr a w).tongs = s.tongs := rfl
@[simp] theorem State.wr_slices : (s.wr a w).slices = s.slices := rfl
@[simp] theorem State.wr_detect : (s.wr a w).detect = s.detect := rfl
@[simp] theorem State.wr_loftFns : (s.wr a w).loftFns = s.loftFns := rfl
@[simp] theorem State.wr_fullInv : (s.wr a w).fullInv = s.fullInv := rfl
@[simp] theorem State.wr_anvils : (s.wr a w).anvils = s.anvils := rfl
@[simp] theorem State.wr_hearths : (s.wr a w).hearths = s.hearths := rfl
@[simp] theorem State.wr_hedge : (s.wr a w).hedge = s.hedge := rfl
@[simp] theorem State.wr_faults : (s.wr a w).faults = s.faults := rfl
@[simp] theorem State.wr_evq : (s.wr a w).evq = s.evq := rfl
@[simp] theorem State.wr_modes : (s.wr a w).modes = s.modes := rfl
@[simp] theorem State.wr_temper : (s.wr a w).temper = s.temper := rfl
@[simp] theorem State.wr_assay : (s.wr a w).assay = s.assay := rfl
@[simp] theorem State.wr_gang : (s.wr a w).gang = s.gang := rfl
@[simp] theorem State.wr_prog : (s.wr a w).prog = s.prog := rfl
@[simp] theorem State.wr_pending : (s.wr a w).pending = s.pending := rfl

end

section
variable (s : State) (a hi lo v : Nat)

@[simp] theorem State.setFld_timebase : (s.setFld a hi lo v).timebase = s.timebase := rfl
@[simp] theorem State.setFld_clock : (s.setFld a hi lo v).clock = s.clock := rfl
@[simp] theorem State.setFld_regs : (s.setFld a hi lo v).regs = SMap.set resetWord s.regs (regHome a) (putBits (s.rd a) hi lo v) := rfl
@[simp] theorem State.setFld_hrpRdata : (s.setFld a hi lo v).hrpRdata = s.hrpRdata := rfl
@[simp] theorem State.setFld_hrpRvalid : (s.setFld a hi lo v).hrpRvalid = s.hrpRvalid := rfl
@[simp] theorem State.setFld_hrpHeld : (s.setFld a hi lo v).hrpHeld = s.hrpHeld := rfl
@[simp] theorem State.setFld_hostCaps : (s.setFld a hi lo v).hostCaps = s.hostCaps := rfl
@[simp] theorem State.setFld_smiths : (s.setFld a hi lo v).smiths = s.smiths := rfl
@[simp] theorem State.setFld_imageMS : (s.setFld a hi lo v).imageMS = s.imageMS := rfl
@[simp] theorem State.setFld_imageAS : (s.setFld a hi lo v).imageAS = s.imageAS := rfl
@[simp] theorem State.setFld_verify : (s.setFld a hi lo v).verify = s.verify := rfl
@[simp] theorem State.setFld_ports : (s.setFld a hi lo v).ports = s.ports := rfl
@[simp] theorem State.setFld_pieces : (s.setFld a hi lo v).pieces = s.pieces := rfl
@[simp] theorem State.setFld_tongs : (s.setFld a hi lo v).tongs = s.tongs := rfl
@[simp] theorem State.setFld_slices : (s.setFld a hi lo v).slices = s.slices := rfl
@[simp] theorem State.setFld_detect : (s.setFld a hi lo v).detect = s.detect := rfl
@[simp] theorem State.setFld_loftFns : (s.setFld a hi lo v).loftFns = s.loftFns := rfl
@[simp] theorem State.setFld_fullInv : (s.setFld a hi lo v).fullInv = s.fullInv := rfl
@[simp] theorem State.setFld_anvils : (s.setFld a hi lo v).anvils = s.anvils := rfl
@[simp] theorem State.setFld_hearths : (s.setFld a hi lo v).hearths = s.hearths := rfl
@[simp] theorem State.setFld_hedge : (s.setFld a hi lo v).hedge = s.hedge := rfl
@[simp] theorem State.setFld_faults : (s.setFld a hi lo v).faults = s.faults := rfl
@[simp] theorem State.setFld_evq : (s.setFld a hi lo v).evq = s.evq := rfl
@[simp] theorem State.setFld_modes : (s.setFld a hi lo v).modes = s.modes := rfl
@[simp] theorem State.setFld_temper : (s.setFld a hi lo v).temper = s.temper := rfl
@[simp] theorem State.setFld_assay : (s.setFld a hi lo v).assay = s.assay := rfl
@[simp] theorem State.setFld_gang : (s.setFld a hi lo v).gang = s.gang := rfl
@[simp] theorem State.setFld_prog : (s.setFld a hi lo v).prog = s.prog := rfl
@[simp] theorem State.setFld_pending : (s.setFld a hi lo v).pending = s.pending := rfl

end

section
variable (s : State) (a i : Nat) (b : Bool)

@[simp] theorem State.setFlag_timebase : (s.setFlag a i b).timebase = s.timebase := rfl
@[simp] theorem State.setFlag_clock : (s.setFlag a i b).clock = s.clock := rfl
@[simp] theorem State.setFlag_regs : (s.setFlag a i b).regs = SMap.set resetWord s.regs (regHome a) (putBits (s.rd a) i i (b2n b)) := rfl
@[simp] theorem State.setFlag_hrpRdata : (s.setFlag a i b).hrpRdata = s.hrpRdata := rfl
@[simp] theorem State.setFlag_hrpRvalid : (s.setFlag a i b).hrpRvalid = s.hrpRvalid := rfl
@[simp] theorem State.setFlag_hrpHeld : (s.setFlag a i b).hrpHeld = s.hrpHeld := rfl
@[simp] theorem State.setFlag_hostCaps : (s.setFlag a i b).hostCaps = s.hostCaps := rfl
@[simp] theorem State.setFlag_smiths : (s.setFlag a i b).smiths = s.smiths := rfl
@[simp] theorem State.setFlag_imageMS : (s.setFlag a i b).imageMS = s.imageMS := rfl
@[simp] theorem State.setFlag_imageAS : (s.setFlag a i b).imageAS = s.imageAS := rfl
@[simp] theorem State.setFlag_verify : (s.setFlag a i b).verify = s.verify := rfl
@[simp] theorem State.setFlag_ports : (s.setFlag a i b).ports = s.ports := rfl
@[simp] theorem State.setFlag_pieces : (s.setFlag a i b).pieces = s.pieces := rfl
@[simp] theorem State.setFlag_tongs : (s.setFlag a i b).tongs = s.tongs := rfl
@[simp] theorem State.setFlag_slices : (s.setFlag a i b).slices = s.slices := rfl
@[simp] theorem State.setFlag_detect : (s.setFlag a i b).detect = s.detect := rfl
@[simp] theorem State.setFlag_loftFns : (s.setFlag a i b).loftFns = s.loftFns := rfl
@[simp] theorem State.setFlag_fullInv : (s.setFlag a i b).fullInv = s.fullInv := rfl
@[simp] theorem State.setFlag_anvils : (s.setFlag a i b).anvils = s.anvils := rfl
@[simp] theorem State.setFlag_hearths : (s.setFlag a i b).hearths = s.hearths := rfl
@[simp] theorem State.setFlag_hedge : (s.setFlag a i b).hedge = s.hedge := rfl
@[simp] theorem State.setFlag_faults : (s.setFlag a i b).faults = s.faults := rfl
@[simp] theorem State.setFlag_evq : (s.setFlag a i b).evq = s.evq := rfl
@[simp] theorem State.setFlag_modes : (s.setFlag a i b).modes = s.modes := rfl
@[simp] theorem State.setFlag_temper : (s.setFlag a i b).temper = s.temper := rfl
@[simp] theorem State.setFlag_assay : (s.setFlag a i b).assay = s.assay := rfl
@[simp] theorem State.setFlag_gang : (s.setFlag a i b).gang = s.gang := rfl
@[simp] theorem State.setFlag_prog : (s.setFlag a i b).prog = s.prog := rfl
@[simp] theorem State.setFlag_pending : (s.setFlag a i b).pending = s.pending := rfl

end

section
variable (s : State) (a hi lo : Nat)

@[simp] theorem State.count_timebase : (s.count a hi lo).timebase = s.timebase := rfl
@[simp] theorem State.count_clock : (s.count a hi lo).clock = s.clock := rfl
@[simp] theorem State.count_regs : (s.count a hi lo).regs = SMap.set resetWord s.regs (regHome a) (putBits (s.rd a) hi lo (sat (2 ^ (hi - lo + 1) - 1) (s.fld a hi lo + 1))) := rfl
@[simp] theorem State.count_hrpRdata : (s.count a hi lo).hrpRdata = s.hrpRdata := rfl
@[simp] theorem State.count_hrpRvalid : (s.count a hi lo).hrpRvalid = s.hrpRvalid := rfl
@[simp] theorem State.count_hrpHeld : (s.count a hi lo).hrpHeld = s.hrpHeld := rfl
@[simp] theorem State.count_hostCaps : (s.count a hi lo).hostCaps = s.hostCaps := rfl
@[simp] theorem State.count_smiths : (s.count a hi lo).smiths = s.smiths := rfl
@[simp] theorem State.count_imageMS : (s.count a hi lo).imageMS = s.imageMS := rfl
@[simp] theorem State.count_imageAS : (s.count a hi lo).imageAS = s.imageAS := rfl
@[simp] theorem State.count_verify : (s.count a hi lo).verify = s.verify := rfl
@[simp] theorem State.count_ports : (s.count a hi lo).ports = s.ports := rfl
@[simp] theorem State.count_pieces : (s.count a hi lo).pieces = s.pieces := rfl
@[simp] theorem State.count_tongs : (s.count a hi lo).tongs = s.tongs := rfl
@[simp] theorem State.count_slices : (s.count a hi lo).slices = s.slices := rfl
@[simp] theorem State.count_detect : (s.count a hi lo).detect = s.detect := rfl
@[simp] theorem State.count_loftFns : (s.count a hi lo).loftFns = s.loftFns := rfl
@[simp] theorem State.count_fullInv : (s.count a hi lo).fullInv = s.fullInv := rfl
@[simp] theorem State.count_anvils : (s.count a hi lo).anvils = s.anvils := rfl
@[simp] theorem State.count_hearths : (s.count a hi lo).hearths = s.hearths := rfl
@[simp] theorem State.count_hedge : (s.count a hi lo).hedge = s.hedge := rfl
@[simp] theorem State.count_faults : (s.count a hi lo).faults = s.faults := rfl
@[simp] theorem State.count_evq : (s.count a hi lo).evq = s.evq := rfl
@[simp] theorem State.count_modes : (s.count a hi lo).modes = s.modes := rfl
@[simp] theorem State.count_temper : (s.count a hi lo).temper = s.temper := rfl
@[simp] theorem State.count_assay : (s.count a hi lo).assay = s.assay := rfl
@[simp] theorem State.count_gang : (s.count a hi lo).gang = s.gang := rfl
@[simp] theorem State.count_prog : (s.count a hi lo).prog = s.prog := rfl
@[simp] theorem State.count_pending : (s.count a hi lo).pending = s.pending := rfl

end

section
variable (s : State) (now : Nat)

@[simp] theorem State.at_timebase : (s.at now).timebase = s.timeAt now := rfl
@[simp] theorem State.at_clock : (s.at now).clock = s.clock.run (max s.clock.refclk (refCycle now)) (refNs (max s.clock.refclk (refCycle now)) - refNs s.clock.refclk) := rfl
@[simp] theorem State.at_regs : (s.at now).regs = s.regs := rfl
@[simp] theorem State.at_hrpRdata : (s.at now).hrpRdata = s.hrpRdata := rfl
@[simp] theorem State.at_hrpRvalid : (s.at now).hrpRvalid = s.hrpRvalid := rfl
@[simp] theorem State.at_hrpHeld : (s.at now).hrpHeld = s.hrpHeld := rfl
@[simp] theorem State.at_hostCaps : (s.at now).hostCaps = s.hostCaps := rfl
@[simp] theorem State.at_smiths : (s.at now).smiths = s.smiths := rfl
@[simp] theorem State.at_imageMS : (s.at now).imageMS = s.imageMS := rfl
@[simp] theorem State.at_imageAS : (s.at now).imageAS = s.imageAS := rfl
@[simp] theorem State.at_verify : (s.at now).verify = s.verify := rfl
@[simp] theorem State.at_ports : (s.at now).ports = s.ports := rfl
@[simp] theorem State.at_pieces : (s.at now).pieces = s.pieces := rfl
@[simp] theorem State.at_tongs : (s.at now).tongs = s.tongs := rfl
@[simp] theorem State.at_slices : (s.at now).slices = s.slices := rfl
@[simp] theorem State.at_detect : (s.at now).detect = s.detect := rfl
@[simp] theorem State.at_loftFns : (s.at now).loftFns = s.loftFns := rfl
@[simp] theorem State.at_fullInv : (s.at now).fullInv = s.fullInv := rfl
@[simp] theorem State.at_anvils : (s.at now).anvils = s.anvils := rfl
@[simp] theorem State.at_hearths : (s.at now).hearths = s.hearths := rfl
@[simp] theorem State.at_hedge : (s.at now).hedge = s.hedge := rfl
@[simp] theorem State.at_faults : (s.at now).faults = s.faults := rfl
@[simp] theorem State.at_evq : (s.at now).evq = s.evq := rfl
@[simp] theorem State.at_modes : (s.at now).modes = s.modes := rfl
@[simp] theorem State.at_temper : (s.at now).temper = s.temper := rfl
@[simp] theorem State.at_assay : (s.at now).assay = s.assay := rfl
@[simp] theorem State.at_gang : (s.at now).gang = s.gang := rfl
@[simp] theorem State.at_prog : (s.at now).prog = s.prog := rfl
@[simp] theorem State.at_pending : (s.at now).pending = s.pending := rfl

end

section
variable (s : State) (m : SmithId) (f : Smith → Smith)

@[simp] theorem State.onSmith_timebase : (s.onSmith m f).timebase = s.timebase := rfl
@[simp] theorem State.onSmith_clock : (s.onSmith m f).clock = s.clock := rfl
@[simp] theorem State.onSmith_regs : (s.onSmith m f).regs = s.regs := rfl
@[simp] theorem State.onSmith_hrpRdata : (s.onSmith m f).hrpRdata = s.hrpRdata := rfl
@[simp] theorem State.onSmith_hrpRvalid : (s.onSmith m f).hrpRvalid = s.hrpRvalid := rfl
@[simp] theorem State.onSmith_hrpHeld : (s.onSmith m f).hrpHeld = s.hrpHeld := rfl
@[simp] theorem State.onSmith_hostCaps : (s.onSmith m f).hostCaps = s.hostCaps := rfl
@[simp] theorem State.onSmith_smiths : (s.onSmith m f).smiths = upd s.smiths m f := rfl
@[simp] theorem State.onSmith_imageMS : (s.onSmith m f).imageMS = s.imageMS := rfl
@[simp] theorem State.onSmith_imageAS : (s.onSmith m f).imageAS = s.imageAS := rfl
@[simp] theorem State.onSmith_verify : (s.onSmith m f).verify = s.verify := rfl
@[simp] theorem State.onSmith_ports : (s.onSmith m f).ports = s.ports := rfl
@[simp] theorem State.onSmith_pieces : (s.onSmith m f).pieces = s.pieces := rfl
@[simp] theorem State.onSmith_tongs : (s.onSmith m f).tongs = s.tongs := rfl
@[simp] theorem State.onSmith_slices : (s.onSmith m f).slices = s.slices := rfl
@[simp] theorem State.onSmith_detect : (s.onSmith m f).detect = s.detect := rfl
@[simp] theorem State.onSmith_loftFns : (s.onSmith m f).loftFns = s.loftFns := rfl
@[simp] theorem State.onSmith_fullInv : (s.onSmith m f).fullInv = s.fullInv := rfl
@[simp] theorem State.onSmith_anvils : (s.onSmith m f).anvils = s.anvils := rfl
@[simp] theorem State.onSmith_hearths : (s.onSmith m f).hearths = s.hearths := rfl
@[simp] theorem State.onSmith_hedge : (s.onSmith m f).hedge = s.hedge := rfl
@[simp] theorem State.onSmith_faults : (s.onSmith m f).faults = s.faults := rfl
@[simp] theorem State.onSmith_evq : (s.onSmith m f).evq = s.evq := rfl
@[simp] theorem State.onSmith_modes : (s.onSmith m f).modes = s.modes := rfl
@[simp] theorem State.onSmith_temper : (s.onSmith m f).temper = s.temper := rfl
@[simp] theorem State.onSmith_assay : (s.onSmith m f).assay = s.assay := rfl
@[simp] theorem State.onSmith_gang : (s.onSmith m f).gang = s.gang := rfl
@[simp] theorem State.onSmith_prog : (s.onSmith m f).prog = s.prog := rfl
@[simp] theorem State.onSmith_pending : (s.onSmith m f).pending = s.pending := rfl

end

section
variable (s : State) (m : SmithId) (n : Nat)

@[simp] theorem State.event_timebase : (s.event m n).timebase = s.timebase := rfl
@[simp] theorem State.event_clock : (s.event m n).clock = s.clock := rfl
@[simp] theorem State.event_regs : (s.event m n).regs = s.regs := rfl
@[simp] theorem State.event_hrpRdata : (s.event m n).hrpRdata = s.hrpRdata := rfl
@[simp] theorem State.event_hrpRvalid : (s.event m n).hrpRvalid = s.hrpRvalid := rfl
@[simp] theorem State.event_hrpHeld : (s.event m n).hrpHeld = s.hrpHeld := rfl
@[simp] theorem State.event_hostCaps : (s.event m n).hostCaps = s.hostCaps := rfl
@[simp] theorem State.event_smiths : (s.event m n).smiths = upd s.smiths m (fun x => { x with evpend := x.evpend ||| BitVec.ofNat 16 (2 ^ n) }) := rfl
@[simp] theorem State.event_imageMS : (s.event m n).imageMS = s.imageMS := rfl
@[simp] theorem State.event_imageAS : (s.event m n).imageAS = s.imageAS := rfl
@[simp] theorem State.event_verify : (s.event m n).verify = s.verify := rfl
@[simp] theorem State.event_ports : (s.event m n).ports = s.ports := rfl
@[simp] theorem State.event_pieces : (s.event m n).pieces = s.pieces := rfl
@[simp] theorem State.event_tongs : (s.event m n).tongs = s.tongs := rfl
@[simp] theorem State.event_slices : (s.event m n).slices = s.slices := rfl
@[simp] theorem State.event_detect : (s.event m n).detect = s.detect := rfl
@[simp] theorem State.event_loftFns : (s.event m n).loftFns = s.loftFns := rfl
@[simp] theorem State.event_fullInv : (s.event m n).fullInv = s.fullInv := rfl
@[simp] theorem State.event_anvils : (s.event m n).anvils = s.anvils := rfl
@[simp] theorem State.event_hearths : (s.event m n).hearths = s.hearths := rfl
@[simp] theorem State.event_hedge : (s.event m n).hedge = s.hedge := rfl
@[simp] theorem State.event_faults : (s.event m n).faults = s.faults := rfl
@[simp] theorem State.event_evq : (s.event m n).evq = s.evq := rfl
@[simp] theorem State.event_modes : (s.event m n).modes = s.modes := rfl
@[simp] theorem State.event_temper : (s.event m n).temper = s.temper := rfl
@[simp] theorem State.event_assay : (s.event m n).assay = s.assay := rfl
@[simp] theorem State.event_gang : (s.event m n).gang = s.gang := rfl
@[simp] theorem State.event_prog : (s.event m n).prog = s.prog := rfl
@[simp] theorem State.event_pending : (s.event m n).pending = s.pending := rfl

end

section
variable (s : State) (n : Nat)

@[simp] theorem State.eventMS_timebase : (s.eventMS n).timebase = s.timebase := rfl
@[simp] theorem State.eventMS_clock : (s.eventMS n).clock = s.clock := rfl
@[simp] theorem State.eventMS_regs : (s.eventMS n).regs = s.regs := rfl
@[simp] theorem State.eventMS_hrpRdata : (s.eventMS n).hrpRdata = s.hrpRdata := rfl
@[simp] theorem State.eventMS_hrpRvalid : (s.eventMS n).hrpRvalid = s.hrpRvalid := rfl
@[simp] theorem State.eventMS_hrpHeld : (s.eventMS n).hrpHeld = s.hrpHeld := rfl
@[simp] theorem State.eventMS_hostCaps : (s.eventMS n).hostCaps = s.hostCaps := rfl
@[simp] theorem State.eventMS_smiths : (s.eventMS n).smiths = upd s.smiths masterSmith (fun x => { x with evpend := x.evpend ||| BitVec.ofNat 16 (2 ^ n) }) := rfl
@[simp] theorem State.eventMS_imageMS : (s.eventMS n).imageMS = s.imageMS := rfl
@[simp] theorem State.eventMS_imageAS : (s.eventMS n).imageAS = s.imageAS := rfl
@[simp] theorem State.eventMS_verify : (s.eventMS n).verify = s.verify := rfl
@[simp] theorem State.eventMS_ports : (s.eventMS n).ports = s.ports := rfl
@[simp] theorem State.eventMS_pieces : (s.eventMS n).pieces = s.pieces := rfl
@[simp] theorem State.eventMS_tongs : (s.eventMS n).tongs = s.tongs := rfl
@[simp] theorem State.eventMS_slices : (s.eventMS n).slices = s.slices := rfl
@[simp] theorem State.eventMS_detect : (s.eventMS n).detect = s.detect := rfl
@[simp] theorem State.eventMS_loftFns : (s.eventMS n).loftFns = s.loftFns := rfl
@[simp] theorem State.eventMS_fullInv : (s.eventMS n).fullInv = s.fullInv := rfl
@[simp] theorem State.eventMS_anvils : (s.eventMS n).anvils = s.anvils := rfl
@[simp] theorem State.eventMS_hearths : (s.eventMS n).hearths = s.hearths := rfl
@[simp] theorem State.eventMS_hedge : (s.eventMS n).hedge = s.hedge := rfl
@[simp] theorem State.eventMS_faults : (s.eventMS n).faults = s.faults := rfl
@[simp] theorem State.eventMS_evq : (s.eventMS n).evq = s.evq := rfl
@[simp] theorem State.eventMS_modes : (s.eventMS n).modes = s.modes := rfl
@[simp] theorem State.eventMS_temper : (s.eventMS n).temper = s.temper := rfl
@[simp] theorem State.eventMS_assay : (s.eventMS n).assay = s.assay := rfl
@[simp] theorem State.eventMS_gang : (s.eventMS n).gang = s.gang := rfl
@[simp] theorem State.eventMS_prog : (s.eventMS n).prog = s.prog := rfl
@[simp] theorem State.eventMS_pending : (s.eventMS n).pending = s.pending := rfl

end

section
variable (s : State) (p : PortId) (f : Port → Port)

@[simp] theorem State.onPort_timebase : (s.onPort p f).timebase = s.timebase := rfl
@[simp] theorem State.onPort_clock : (s.onPort p f).clock = s.clock := rfl
@[simp] theorem State.onPort_regs : (s.onPort p f).regs = s.regs := rfl
@[simp] theorem State.onPort_hrpRdata : (s.onPort p f).hrpRdata = s.hrpRdata := rfl
@[simp] theorem State.onPort_hrpRvalid : (s.onPort p f).hrpRvalid = s.hrpRvalid := rfl
@[simp] theorem State.onPort_hrpHeld : (s.onPort p f).hrpHeld = s.hrpHeld := rfl
@[simp] theorem State.onPort_hostCaps : (s.onPort p f).hostCaps = s.hostCaps := rfl
@[simp] theorem State.onPort_smiths : (s.onPort p f).smiths = s.smiths := rfl
@[simp] theorem State.onPort_imageMS : (s.onPort p f).imageMS = s.imageMS := rfl
@[simp] theorem State.onPort_imageAS : (s.onPort p f).imageAS = s.imageAS := rfl
@[simp] theorem State.onPort_verify : (s.onPort p f).verify = s.verify := rfl
@[simp] theorem State.onPort_ports : (s.onPort p f).ports = upd s.ports p f := rfl
@[simp] theorem State.onPort_pieces : (s.onPort p f).pieces = s.pieces := rfl
@[simp] theorem State.onPort_tongs : (s.onPort p f).tongs = s.tongs := rfl
@[simp] theorem State.onPort_slices : (s.onPort p f).slices = s.slices := rfl
@[simp] theorem State.onPort_detect : (s.onPort p f).detect = s.detect := rfl
@[simp] theorem State.onPort_loftFns : (s.onPort p f).loftFns = s.loftFns := rfl
@[simp] theorem State.onPort_fullInv : (s.onPort p f).fullInv = s.fullInv := rfl
@[simp] theorem State.onPort_anvils : (s.onPort p f).anvils = s.anvils := rfl
@[simp] theorem State.onPort_hearths : (s.onPort p f).hearths = s.hearths := rfl
@[simp] theorem State.onPort_hedge : (s.onPort p f).hedge = s.hedge := rfl
@[simp] theorem State.onPort_faults : (s.onPort p f).faults = s.faults := rfl
@[simp] theorem State.onPort_evq : (s.onPort p f).evq = s.evq := rfl
@[simp] theorem State.onPort_modes : (s.onPort p f).modes = s.modes := rfl
@[simp] theorem State.onPort_temper : (s.onPort p f).temper = s.temper := rfl
@[simp] theorem State.onPort_assay : (s.onPort p f).assay = s.assay := rfl
@[simp] theorem State.onPort_gang : (s.onPort p f).gang = s.gang := rfl
@[simp] theorem State.onPort_prog : (s.onPort p f).prog = s.prog := rfl
@[simp] theorem State.onPort_pending : (s.onPort p f).pending = s.pending := rfl

end

section
variable (s : State) (c : Chan) (f : Slice → Slice)

@[simp] theorem State.onSlice_timebase : (s.onSlice c f).timebase = s.timebase := rfl
@[simp] theorem State.onSlice_clock : (s.onSlice c f).clock = s.clock := rfl
@[simp] theorem State.onSlice_regs : (s.onSlice c f).regs = s.regs := rfl
@[simp] theorem State.onSlice_hrpRdata : (s.onSlice c f).hrpRdata = s.hrpRdata := rfl
@[simp] theorem State.onSlice_hrpRvalid : (s.onSlice c f).hrpRvalid = s.hrpRvalid := rfl
@[simp] theorem State.onSlice_hrpHeld : (s.onSlice c f).hrpHeld = s.hrpHeld := rfl
@[simp] theorem State.onSlice_hostCaps : (s.onSlice c f).hostCaps = s.hostCaps := rfl
@[simp] theorem State.onSlice_smiths : (s.onSlice c f).smiths = s.smiths := rfl
@[simp] theorem State.onSlice_imageMS : (s.onSlice c f).imageMS = s.imageMS := rfl
@[simp] theorem State.onSlice_imageAS : (s.onSlice c f).imageAS = s.imageAS := rfl
@[simp] theorem State.onSlice_verify : (s.onSlice c f).verify = s.verify := rfl
@[simp] theorem State.onSlice_ports : (s.onSlice c f).ports = s.ports := rfl
@[simp] theorem State.onSlice_pieces : (s.onSlice c f).pieces = s.pieces := rfl
@[simp] theorem State.onSlice_tongs : (s.onSlice c f).tongs = s.tongs := rfl
@[simp] theorem State.onSlice_slices : (s.onSlice c f).slices = upd s.slices c f := rfl
@[simp] theorem State.onSlice_detect : (s.onSlice c f).detect = s.detect := rfl
@[simp] theorem State.onSlice_loftFns : (s.onSlice c f).loftFns = s.loftFns := rfl
@[simp] theorem State.onSlice_fullInv : (s.onSlice c f).fullInv = s.fullInv := rfl
@[simp] theorem State.onSlice_anvils : (s.onSlice c f).anvils = s.anvils := rfl
@[simp] theorem State.onSlice_hearths : (s.onSlice c f).hearths = s.hearths := rfl
@[simp] theorem State.onSlice_hedge : (s.onSlice c f).hedge = s.hedge := rfl
@[simp] theorem State.onSlice_faults : (s.onSlice c f).faults = s.faults := rfl
@[simp] theorem State.onSlice_evq : (s.onSlice c f).evq = s.evq := rfl
@[simp] theorem State.onSlice_modes : (s.onSlice c f).modes = s.modes := rfl
@[simp] theorem State.onSlice_temper : (s.onSlice c f).temper = s.temper := rfl
@[simp] theorem State.onSlice_assay : (s.onSlice c f).assay = s.assay := rfl
@[simp] theorem State.onSlice_gang : (s.onSlice c f).gang = s.gang := rfl
@[simp] theorem State.onSlice_prog : (s.onSlice c f).prog = s.prog := rfl
@[simp] theorem State.onSlice_pending : (s.onSlice c f).pending = s.pending := rfl

end

section
variable (s : State) (c : Chan) (f : Anvil → Anvil)

@[simp] theorem State.onAnvil_timebase : (s.onAnvil c f).timebase = s.timebase := rfl
@[simp] theorem State.onAnvil_clock : (s.onAnvil c f).clock = s.clock := rfl
@[simp] theorem State.onAnvil_regs : (s.onAnvil c f).regs = s.regs := rfl
@[simp] theorem State.onAnvil_hrpRdata : (s.onAnvil c f).hrpRdata = s.hrpRdata := rfl
@[simp] theorem State.onAnvil_hrpRvalid : (s.onAnvil c f).hrpRvalid = s.hrpRvalid := rfl
@[simp] theorem State.onAnvil_hrpHeld : (s.onAnvil c f).hrpHeld = s.hrpHeld := rfl
@[simp] theorem State.onAnvil_hostCaps : (s.onAnvil c f).hostCaps = s.hostCaps := rfl
@[simp] theorem State.onAnvil_smiths : (s.onAnvil c f).smiths = s.smiths := rfl
@[simp] theorem State.onAnvil_imageMS : (s.onAnvil c f).imageMS = s.imageMS := rfl
@[simp] theorem State.onAnvil_imageAS : (s.onAnvil c f).imageAS = s.imageAS := rfl
@[simp] theorem State.onAnvil_verify : (s.onAnvil c f).verify = s.verify := rfl
@[simp] theorem State.onAnvil_ports : (s.onAnvil c f).ports = s.ports := rfl
@[simp] theorem State.onAnvil_pieces : (s.onAnvil c f).pieces = s.pieces := rfl
@[simp] theorem State.onAnvil_tongs : (s.onAnvil c f).tongs = s.tongs := rfl
@[simp] theorem State.onAnvil_slices : (s.onAnvil c f).slices = s.slices := rfl
@[simp] theorem State.onAnvil_detect : (s.onAnvil c f).detect = s.detect := rfl
@[simp] theorem State.onAnvil_loftFns : (s.onAnvil c f).loftFns = s.loftFns := rfl
@[simp] theorem State.onAnvil_fullInv : (s.onAnvil c f).fullInv = s.fullInv := rfl
@[simp] theorem State.onAnvil_anvils : (s.onAnvil c f).anvils = upd s.anvils c f := rfl
@[simp] theorem State.onAnvil_hearths : (s.onAnvil c f).hearths = s.hearths := rfl
@[simp] theorem State.onAnvil_hedge : (s.onAnvil c f).hedge = s.hedge := rfl
@[simp] theorem State.onAnvil_faults : (s.onAnvil c f).faults = s.faults := rfl
@[simp] theorem State.onAnvil_evq : (s.onAnvil c f).evq = s.evq := rfl
@[simp] theorem State.onAnvil_modes : (s.onAnvil c f).modes = s.modes := rfl
@[simp] theorem State.onAnvil_temper : (s.onAnvil c f).temper = s.temper := rfl
@[simp] theorem State.onAnvil_assay : (s.onAnvil c f).assay = s.assay := rfl
@[simp] theorem State.onAnvil_gang : (s.onAnvil c f).gang = s.gang := rfl
@[simp] theorem State.onAnvil_prog : (s.onAnvil c f).prog = s.prog := rfl
@[simp] theorem State.onAnvil_pending : (s.onAnvil c f).pending = s.pending := rfl

end

section
variable (s : State) (f : FaultUnit → FaultUnit)

@[simp] theorem State.onFaults_timebase : (s.onFaults f).timebase = s.timebase := rfl
@[simp] theorem State.onFaults_clock : (s.onFaults f).clock = s.clock := rfl
@[simp] theorem State.onFaults_regs : (s.onFaults f).regs = s.regs := rfl
@[simp] theorem State.onFaults_hrpRdata : (s.onFaults f).hrpRdata = s.hrpRdata := rfl
@[simp] theorem State.onFaults_hrpRvalid : (s.onFaults f).hrpRvalid = s.hrpRvalid := rfl
@[simp] theorem State.onFaults_hrpHeld : (s.onFaults f).hrpHeld = s.hrpHeld := rfl
@[simp] theorem State.onFaults_hostCaps : (s.onFaults f).hostCaps = s.hostCaps := rfl
@[simp] theorem State.onFaults_smiths : (s.onFaults f).smiths = s.smiths := rfl
@[simp] theorem State.onFaults_imageMS : (s.onFaults f).imageMS = s.imageMS := rfl
@[simp] theorem State.onFaults_imageAS : (s.onFaults f).imageAS = s.imageAS := rfl
@[simp] theorem State.onFaults_verify : (s.onFaults f).verify = s.verify := rfl
@[simp] theorem State.onFaults_ports : (s.onFaults f).ports = s.ports := rfl
@[simp] theorem State.onFaults_pieces : (s.onFaults f).pieces = s.pieces := rfl
@[simp] theorem State.onFaults_tongs : (s.onFaults f).tongs = s.tongs := rfl
@[simp] theorem State.onFaults_slices : (s.onFaults f).slices = s.slices := rfl
@[simp] theorem State.onFaults_detect : (s.onFaults f).detect = s.detect := rfl
@[simp] theorem State.onFaults_loftFns : (s.onFaults f).loftFns = s.loftFns := rfl
@[simp] theorem State.onFaults_fullInv : (s.onFaults f).fullInv = s.fullInv := rfl
@[simp] theorem State.onFaults_anvils : (s.onFaults f).anvils = s.anvils := rfl
@[simp] theorem State.onFaults_hearths : (s.onFaults f).hearths = s.hearths := rfl
@[simp] theorem State.onFaults_hedge : (s.onFaults f).hedge = s.hedge := rfl
@[simp] theorem State.onFaults_faults : (s.onFaults f).faults = f s.faults := rfl
@[simp] theorem State.onFaults_evq : (s.onFaults f).evq = s.evq := rfl
@[simp] theorem State.onFaults_modes : (s.onFaults f).modes = s.modes := rfl
@[simp] theorem State.onFaults_temper : (s.onFaults f).temper = s.temper := rfl
@[simp] theorem State.onFaults_assay : (s.onFaults f).assay = s.assay := rfl
@[simp] theorem State.onFaults_gang : (s.onFaults f).gang = s.gang := rfl
@[simp] theorem State.onFaults_prog : (s.onFaults f).prog = s.prog := rfl
@[simp] theorem State.onFaults_pending : (s.onFaults f).pending = s.pending := rfl

end

section
variable (s : State) (source kind sev addr detail : Nat)

@[simp] theorem State.send_timebase : (s.send source kind sev addr detail).timebase = s.timebase := rfl
@[simp] theorem State.send_clock : (s.send source kind sev addr detail).clock = s.clock := rfl
@[simp] theorem State.send_regs : (s.send source kind sev addr detail).regs = s.regs := rfl
@[simp] theorem State.send_hrpRdata : (s.send source kind sev addr detail).hrpRdata = s.hrpRdata := rfl
@[simp] theorem State.send_hrpRvalid : (s.send source kind sev addr detail).hrpRvalid = s.hrpRvalid := rfl
@[simp] theorem State.send_hrpHeld : (s.send source kind sev addr detail).hrpHeld = s.hrpHeld := rfl
@[simp] theorem State.send_hostCaps : (s.send source kind sev addr detail).hostCaps = s.hostCaps := rfl
@[simp] theorem State.send_smiths : (s.send source kind sev addr detail).smiths = s.smiths := rfl
@[simp] theorem State.send_imageMS : (s.send source kind sev addr detail).imageMS = s.imageMS := rfl
@[simp] theorem State.send_imageAS : (s.send source kind sev addr detail).imageAS = s.imageAS := rfl
@[simp] theorem State.send_verify : (s.send source kind sev addr detail).verify = s.verify := rfl
@[simp] theorem State.send_ports : (s.send source kind sev addr detail).ports = s.ports := rfl
@[simp] theorem State.send_pieces : (s.send source kind sev addr detail).pieces = s.pieces := rfl
@[simp] theorem State.send_tongs : (s.send source kind sev addr detail).tongs = s.tongs := rfl
@[simp] theorem State.send_slices : (s.send source kind sev addr detail).slices = s.slices := rfl
@[simp] theorem State.send_detect : (s.send source kind sev addr detail).detect = s.detect := rfl
@[simp] theorem State.send_loftFns : (s.send source kind sev addr detail).loftFns = s.loftFns := rfl
@[simp] theorem State.send_fullInv : (s.send source kind sev addr detail).fullInv = s.fullInv := rfl
@[simp] theorem State.send_anvils : (s.send source kind sev addr detail).anvils = s.anvils := rfl
@[simp] theorem State.send_hearths : (s.send source kind sev addr detail).hearths = s.hearths := rfl
@[simp] theorem State.send_hedge : (s.send source kind sev addr detail).hedge = s.hedge := rfl
@[simp] theorem State.send_evq : (s.send source kind sev addr detail).evq = s.evq := rfl
@[simp] theorem State.send_modes : (s.send source kind sev addr detail).modes = s.modes := rfl
@[simp] theorem State.send_temper : (s.send source kind sev addr detail).temper = s.temper := rfl
@[simp] theorem State.send_assay : (s.send source kind sev addr detail).assay = s.assay := rfl
@[simp] theorem State.send_gang : (s.send source kind sev addr detail).gang = s.gang := rfl
@[simp] theorem State.send_prog : (s.send source kind sev addr detail).prog = s.prog := rfl
@[simp] theorem State.send_pending : (s.send source kind sev addr detail).pending = s.pending := rfl

end

section
variable (s : State) (f : Evq → Evq)

@[simp] theorem State.onEvq_timebase : (s.onEvq f).timebase = s.timebase := rfl
@[simp] theorem State.onEvq_clock : (s.onEvq f).clock = s.clock := rfl
@[simp] theorem State.onEvq_regs : (s.onEvq f).regs = s.regs := rfl
@[simp] theorem State.onEvq_hrpRdata : (s.onEvq f).hrpRdata = s.hrpRdata := rfl
@[simp] theorem State.onEvq_hrpRvalid : (s.onEvq f).hrpRvalid = s.hrpRvalid := rfl
@[simp] theorem State.onEvq_hrpHeld : (s.onEvq f).hrpHeld = s.hrpHeld := rfl
@[simp] theorem State.onEvq_hostCaps : (s.onEvq f).hostCaps = s.hostCaps := rfl
@[simp] theorem State.onEvq_smiths : (s.onEvq f).smiths = s.smiths := rfl
@[simp] theorem State.onEvq_imageMS : (s.onEvq f).imageMS = s.imageMS := rfl
@[simp] theorem State.onEvq_imageAS : (s.onEvq f).imageAS = s.imageAS := rfl
@[simp] theorem State.onEvq_verify : (s.onEvq f).verify = s.verify := rfl
@[simp] theorem State.onEvq_ports : (s.onEvq f).ports = s.ports := rfl
@[simp] theorem State.onEvq_pieces : (s.onEvq f).pieces = s.pieces := rfl
@[simp] theorem State.onEvq_tongs : (s.onEvq f).tongs = s.tongs := rfl
@[simp] theorem State.onEvq_slices : (s.onEvq f).slices = s.slices := rfl
@[simp] theorem State.onEvq_detect : (s.onEvq f).detect = s.detect := rfl
@[simp] theorem State.onEvq_loftFns : (s.onEvq f).loftFns = s.loftFns := rfl
@[simp] theorem State.onEvq_fullInv : (s.onEvq f).fullInv = s.fullInv := rfl
@[simp] theorem State.onEvq_anvils : (s.onEvq f).anvils = s.anvils := rfl
@[simp] theorem State.onEvq_hearths : (s.onEvq f).hearths = s.hearths := rfl
@[simp] theorem State.onEvq_hedge : (s.onEvq f).hedge = s.hedge := rfl
@[simp] theorem State.onEvq_faults : (s.onEvq f).faults = s.faults := rfl
@[simp] theorem State.onEvq_evq : (s.onEvq f).evq = f s.evq := rfl
@[simp] theorem State.onEvq_modes : (s.onEvq f).modes = s.modes := rfl
@[simp] theorem State.onEvq_temper : (s.onEvq f).temper = s.temper := rfl
@[simp] theorem State.onEvq_assay : (s.onEvq f).assay = s.assay := rfl
@[simp] theorem State.onEvq_gang : (s.onEvq f).gang = s.gang := rfl
@[simp] theorem State.onEvq_prog : (s.onEvq f).prog = s.prog := rfl
@[simp] theorem State.onEvq_pending : (s.onEvq f).pending = s.pending := rfl

end

section
variable (s : State) (f : ModeCtl → ModeCtl)

@[simp] theorem State.onModes_timebase : (s.onModes f).timebase = s.timebase := rfl
@[simp] theorem State.onModes_clock : (s.onModes f).clock = s.clock := rfl
@[simp] theorem State.onModes_regs : (s.onModes f).regs = s.regs := rfl
@[simp] theorem State.onModes_hrpRdata : (s.onModes f).hrpRdata = s.hrpRdata := rfl
@[simp] theorem State.onModes_hrpRvalid : (s.onModes f).hrpRvalid = s.hrpRvalid := rfl
@[simp] theorem State.onModes_hrpHeld : (s.onModes f).hrpHeld = s.hrpHeld := rfl
@[simp] theorem State.onModes_hostCaps : (s.onModes f).hostCaps = s.hostCaps := rfl
@[simp] theorem State.onModes_smiths : (s.onModes f).smiths = s.smiths := rfl
@[simp] theorem State.onModes_imageMS : (s.onModes f).imageMS = s.imageMS := rfl
@[simp] theorem State.onModes_imageAS : (s.onModes f).imageAS = s.imageAS := rfl
@[simp] theorem State.onModes_verify : (s.onModes f).verify = s.verify := rfl
@[simp] theorem State.onModes_ports : (s.onModes f).ports = s.ports := rfl
@[simp] theorem State.onModes_pieces : (s.onModes f).pieces = s.pieces := rfl
@[simp] theorem State.onModes_tongs : (s.onModes f).tongs = s.tongs := rfl
@[simp] theorem State.onModes_slices : (s.onModes f).slices = s.slices := rfl
@[simp] theorem State.onModes_detect : (s.onModes f).detect = s.detect := rfl
@[simp] theorem State.onModes_loftFns : (s.onModes f).loftFns = s.loftFns := rfl
@[simp] theorem State.onModes_fullInv : (s.onModes f).fullInv = s.fullInv := rfl
@[simp] theorem State.onModes_anvils : (s.onModes f).anvils = s.anvils := rfl
@[simp] theorem State.onModes_hearths : (s.onModes f).hearths = s.hearths := rfl
@[simp] theorem State.onModes_hedge : (s.onModes f).hedge = s.hedge := rfl
@[simp] theorem State.onModes_faults : (s.onModes f).faults = s.faults := rfl
@[simp] theorem State.onModes_evq : (s.onModes f).evq = s.evq := rfl
@[simp] theorem State.onModes_modes : (s.onModes f).modes = f s.modes := rfl
@[simp] theorem State.onModes_temper : (s.onModes f).temper = s.temper := rfl
@[simp] theorem State.onModes_assay : (s.onModes f).assay = s.assay := rfl
@[simp] theorem State.onModes_gang : (s.onModes f).gang = s.gang := rfl
@[simp] theorem State.onModes_prog : (s.onModes f).prog = s.prog := rfl
@[simp] theorem State.onModes_pending : (s.onModes f).pending = s.pending := rfl

end

section
variable (s : State) (f : Hedge → Hedge)

@[simp] theorem State.onHedge_timebase : (s.onHedge f).timebase = s.timebase := rfl
@[simp] theorem State.onHedge_clock : (s.onHedge f).clock = s.clock := rfl
@[simp] theorem State.onHedge_regs : (s.onHedge f).regs = s.regs := rfl
@[simp] theorem State.onHedge_hrpRdata : (s.onHedge f).hrpRdata = s.hrpRdata := rfl
@[simp] theorem State.onHedge_hrpRvalid : (s.onHedge f).hrpRvalid = s.hrpRvalid := rfl
@[simp] theorem State.onHedge_hrpHeld : (s.onHedge f).hrpHeld = s.hrpHeld := rfl
@[simp] theorem State.onHedge_hostCaps : (s.onHedge f).hostCaps = s.hostCaps := rfl
@[simp] theorem State.onHedge_smiths : (s.onHedge f).smiths = s.smiths := rfl
@[simp] theorem State.onHedge_imageMS : (s.onHedge f).imageMS = s.imageMS := rfl
@[simp] theorem State.onHedge_imageAS : (s.onHedge f).imageAS = s.imageAS := rfl
@[simp] theorem State.onHedge_verify : (s.onHedge f).verify = s.verify := rfl
@[simp] theorem State.onHedge_ports : (s.onHedge f).ports = s.ports := rfl
@[simp] theorem State.onHedge_pieces : (s.onHedge f).pieces = s.pieces := rfl
@[simp] theorem State.onHedge_tongs : (s.onHedge f).tongs = s.tongs := rfl
@[simp] theorem State.onHedge_slices : (s.onHedge f).slices = s.slices := rfl
@[simp] theorem State.onHedge_detect : (s.onHedge f).detect = s.detect := rfl
@[simp] theorem State.onHedge_loftFns : (s.onHedge f).loftFns = s.loftFns := rfl
@[simp] theorem State.onHedge_fullInv : (s.onHedge f).fullInv = s.fullInv := rfl
@[simp] theorem State.onHedge_anvils : (s.onHedge f).anvils = s.anvils := rfl
@[simp] theorem State.onHedge_hearths : (s.onHedge f).hearths = s.hearths := rfl
@[simp] theorem State.onHedge_hedge : (s.onHedge f).hedge = f s.hedge := rfl
@[simp] theorem State.onHedge_faults : (s.onHedge f).faults = s.faults := rfl
@[simp] theorem State.onHedge_evq : (s.onHedge f).evq = s.evq := rfl
@[simp] theorem State.onHedge_modes : (s.onHedge f).modes = s.modes := rfl
@[simp] theorem State.onHedge_temper : (s.onHedge f).temper = s.temper := rfl
@[simp] theorem State.onHedge_assay : (s.onHedge f).assay = s.assay := rfl
@[simp] theorem State.onHedge_gang : (s.onHedge f).gang = s.gang := rfl
@[simp] theorem State.onHedge_prog : (s.onHedge f).prog = s.prog := rfl
@[simp] theorem State.onHedge_pending : (s.onHedge f).pending = s.pending := rfl

end

section
variable (s : State) (f : Gang → Gang)

@[simp] theorem State.onGang_timebase : (s.onGang f).timebase = s.timebase := rfl
@[simp] theorem State.onGang_clock : (s.onGang f).clock = s.clock := rfl
@[simp] theorem State.onGang_regs : (s.onGang f).regs = s.regs := rfl
@[simp] theorem State.onGang_hrpRdata : (s.onGang f).hrpRdata = s.hrpRdata := rfl
@[simp] theorem State.onGang_hrpRvalid : (s.onGang f).hrpRvalid = s.hrpRvalid := rfl
@[simp] theorem State.onGang_hrpHeld : (s.onGang f).hrpHeld = s.hrpHeld := rfl
@[simp] theorem State.onGang_hostCaps : (s.onGang f).hostCaps = s.hostCaps := rfl
@[simp] theorem State.onGang_smiths : (s.onGang f).smiths = s.smiths := rfl
@[simp] theorem State.onGang_imageMS : (s.onGang f).imageMS = s.imageMS := rfl
@[simp] theorem State.onGang_imageAS : (s.onGang f).imageAS = s.imageAS := rfl
@[simp] theorem State.onGang_verify : (s.onGang f).verify = s.verify := rfl
@[simp] theorem State.onGang_ports : (s.onGang f).ports = s.ports := rfl
@[simp] theorem State.onGang_pieces : (s.onGang f).pieces = s.pieces := rfl
@[simp] theorem State.onGang_tongs : (s.onGang f).tongs = s.tongs := rfl
@[simp] theorem State.onGang_slices : (s.onGang f).slices = s.slices := rfl
@[simp] theorem State.onGang_detect : (s.onGang f).detect = s.detect := rfl
@[simp] theorem State.onGang_loftFns : (s.onGang f).loftFns = s.loftFns := rfl
@[simp] theorem State.onGang_fullInv : (s.onGang f).fullInv = s.fullInv := rfl
@[simp] theorem State.onGang_anvils : (s.onGang f).anvils = s.anvils := rfl
@[simp] theorem State.onGang_hearths : (s.onGang f).hearths = s.hearths := rfl
@[simp] theorem State.onGang_hedge : (s.onGang f).hedge = s.hedge := rfl
@[simp] theorem State.onGang_faults : (s.onGang f).faults = s.faults := rfl
@[simp] theorem State.onGang_evq : (s.onGang f).evq = s.evq := rfl
@[simp] theorem State.onGang_modes : (s.onGang f).modes = s.modes := rfl
@[simp] theorem State.onGang_temper : (s.onGang f).temper = s.temper := rfl
@[simp] theorem State.onGang_assay : (s.onGang f).assay = s.assay := rfl
@[simp] theorem State.onGang_gang : (s.onGang f).gang = f s.gang := rfl
@[simp] theorem State.onGang_prog : (s.onGang f).prog = s.prog := rfl
@[simp] theorem State.onGang_pending : (s.onGang f).pending = s.pending := rfl

end

section
variable (s : State) (f : Temper → Temper)

@[simp] theorem State.onTemper_timebase : (s.onTemper f).timebase = s.timebase := rfl
@[simp] theorem State.onTemper_clock : (s.onTemper f).clock = s.clock := rfl
@[simp] theorem State.onTemper_regs : (s.onTemper f).regs = s.regs := rfl
@[simp] theorem State.onTemper_hrpRdata : (s.onTemper f).hrpRdata = s.hrpRdata := rfl
@[simp] theorem State.onTemper_hrpRvalid : (s.onTemper f).hrpRvalid = s.hrpRvalid := rfl
@[simp] theorem State.onTemper_hrpHeld : (s.onTemper f).hrpHeld = s.hrpHeld := rfl
@[simp] theorem State.onTemper_hostCaps : (s.onTemper f).hostCaps = s.hostCaps := rfl
@[simp] theorem State.onTemper_smiths : (s.onTemper f).smiths = s.smiths := rfl
@[simp] theorem State.onTemper_imageMS : (s.onTemper f).imageMS = s.imageMS := rfl
@[simp] theorem State.onTemper_imageAS : (s.onTemper f).imageAS = s.imageAS := rfl
@[simp] theorem State.onTemper_verify : (s.onTemper f).verify = s.verify := rfl
@[simp] theorem State.onTemper_ports : (s.onTemper f).ports = s.ports := rfl
@[simp] theorem State.onTemper_pieces : (s.onTemper f).pieces = s.pieces := rfl
@[simp] theorem State.onTemper_tongs : (s.onTemper f).tongs = s.tongs := rfl
@[simp] theorem State.onTemper_slices : (s.onTemper f).slices = s.slices := rfl
@[simp] theorem State.onTemper_detect : (s.onTemper f).detect = s.detect := rfl
@[simp] theorem State.onTemper_loftFns : (s.onTemper f).loftFns = s.loftFns := rfl
@[simp] theorem State.onTemper_fullInv : (s.onTemper f).fullInv = s.fullInv := rfl
@[simp] theorem State.onTemper_anvils : (s.onTemper f).anvils = s.anvils := rfl
@[simp] theorem State.onTemper_hearths : (s.onTemper f).hearths = s.hearths := rfl
@[simp] theorem State.onTemper_hedge : (s.onTemper f).hedge = s.hedge := rfl
@[simp] theorem State.onTemper_faults : (s.onTemper f).faults = s.faults := rfl
@[simp] theorem State.onTemper_evq : (s.onTemper f).evq = s.evq := rfl
@[simp] theorem State.onTemper_modes : (s.onTemper f).modes = s.modes := rfl
@[simp] theorem State.onTemper_temper : (s.onTemper f).temper = f s.temper := rfl
@[simp] theorem State.onTemper_assay : (s.onTemper f).assay = s.assay := rfl
@[simp] theorem State.onTemper_gang : (s.onTemper f).gang = s.gang := rfl
@[simp] theorem State.onTemper_prog : (s.onTemper f).prog = s.prog := rfl
@[simp] theorem State.onTemper_pending : (s.onTemper f).pending = s.pending := rfl

end

section
variable (s : State) (f : Assay → Assay)

@[simp] theorem State.onAssay_timebase : (s.onAssay f).timebase = s.timebase := rfl
@[simp] theorem State.onAssay_clock : (s.onAssay f).clock = s.clock := rfl
@[simp] theorem State.onAssay_regs : (s.onAssay f).regs = s.regs := rfl
@[simp] theorem State.onAssay_hrpRdata : (s.onAssay f).hrpRdata = s.hrpRdata := rfl
@[simp] theorem State.onAssay_hrpRvalid : (s.onAssay f).hrpRvalid = s.hrpRvalid := rfl
@[simp] theorem State.onAssay_hrpHeld : (s.onAssay f).hrpHeld = s.hrpHeld := rfl
@[simp] theorem State.onAssay_hostCaps : (s.onAssay f).hostCaps = s.hostCaps := rfl
@[simp] theorem State.onAssay_smiths : (s.onAssay f).smiths = s.smiths := rfl
@[simp] theorem State.onAssay_imageMS : (s.onAssay f).imageMS = s.imageMS := rfl
@[simp] theorem State.onAssay_imageAS : (s.onAssay f).imageAS = s.imageAS := rfl
@[simp] theorem State.onAssay_verify : (s.onAssay f).verify = s.verify := rfl
@[simp] theorem State.onAssay_ports : (s.onAssay f).ports = s.ports := rfl
@[simp] theorem State.onAssay_pieces : (s.onAssay f).pieces = s.pieces := rfl
@[simp] theorem State.onAssay_tongs : (s.onAssay f).tongs = s.tongs := rfl
@[simp] theorem State.onAssay_slices : (s.onAssay f).slices = s.slices := rfl
@[simp] theorem State.onAssay_detect : (s.onAssay f).detect = s.detect := rfl
@[simp] theorem State.onAssay_loftFns : (s.onAssay f).loftFns = s.loftFns := rfl
@[simp] theorem State.onAssay_fullInv : (s.onAssay f).fullInv = s.fullInv := rfl
@[simp] theorem State.onAssay_anvils : (s.onAssay f).anvils = s.anvils := rfl
@[simp] theorem State.onAssay_hearths : (s.onAssay f).hearths = s.hearths := rfl
@[simp] theorem State.onAssay_hedge : (s.onAssay f).hedge = s.hedge := rfl
@[simp] theorem State.onAssay_faults : (s.onAssay f).faults = s.faults := rfl
@[simp] theorem State.onAssay_evq : (s.onAssay f).evq = s.evq := rfl
@[simp] theorem State.onAssay_modes : (s.onAssay f).modes = s.modes := rfl
@[simp] theorem State.onAssay_temper : (s.onAssay f).temper = s.temper := rfl
@[simp] theorem State.onAssay_assay : (s.onAssay f).assay = f s.assay := rfl
@[simp] theorem State.onAssay_gang : (s.onAssay f).gang = s.gang := rfl
@[simp] theorem State.onAssay_prog : (s.onAssay f).prog = s.prog := rfl
@[simp] theorem State.onAssay_pending : (s.onAssay f).pending = s.pending := rfl

end

section
variable (s : State) (f : Prog → Prog)

@[simp] theorem State.onProg_timebase : (s.onProg f).timebase = s.timebase := rfl
@[simp] theorem State.onProg_clock : (s.onProg f).clock = s.clock := rfl
@[simp] theorem State.onProg_regs : (s.onProg f).regs = s.regs := rfl
@[simp] theorem State.onProg_hrpRdata : (s.onProg f).hrpRdata = s.hrpRdata := rfl
@[simp] theorem State.onProg_hrpRvalid : (s.onProg f).hrpRvalid = s.hrpRvalid := rfl
@[simp] theorem State.onProg_hrpHeld : (s.onProg f).hrpHeld = s.hrpHeld := rfl
@[simp] theorem State.onProg_hostCaps : (s.onProg f).hostCaps = s.hostCaps := rfl
@[simp] theorem State.onProg_smiths : (s.onProg f).smiths = s.smiths := rfl
@[simp] theorem State.onProg_imageMS : (s.onProg f).imageMS = s.imageMS := rfl
@[simp] theorem State.onProg_imageAS : (s.onProg f).imageAS = s.imageAS := rfl
@[simp] theorem State.onProg_verify : (s.onProg f).verify = s.verify := rfl
@[simp] theorem State.onProg_ports : (s.onProg f).ports = s.ports := rfl
@[simp] theorem State.onProg_pieces : (s.onProg f).pieces = s.pieces := rfl
@[simp] theorem State.onProg_tongs : (s.onProg f).tongs = s.tongs := rfl
@[simp] theorem State.onProg_slices : (s.onProg f).slices = s.slices := rfl
@[simp] theorem State.onProg_detect : (s.onProg f).detect = s.detect := rfl
@[simp] theorem State.onProg_loftFns : (s.onProg f).loftFns = s.loftFns := rfl
@[simp] theorem State.onProg_fullInv : (s.onProg f).fullInv = s.fullInv := rfl
@[simp] theorem State.onProg_anvils : (s.onProg f).anvils = s.anvils := rfl
@[simp] theorem State.onProg_hearths : (s.onProg f).hearths = s.hearths := rfl
@[simp] theorem State.onProg_hedge : (s.onProg f).hedge = s.hedge := rfl
@[simp] theorem State.onProg_faults : (s.onProg f).faults = s.faults := rfl
@[simp] theorem State.onProg_evq : (s.onProg f).evq = s.evq := rfl
@[simp] theorem State.onProg_modes : (s.onProg f).modes = s.modes := rfl
@[simp] theorem State.onProg_temper : (s.onProg f).temper = s.temper := rfl
@[simp] theorem State.onProg_assay : (s.onProg f).assay = s.assay := rfl
@[simp] theorem State.onProg_gang : (s.onProg f).gang = s.gang := rfl
@[simp] theorem State.onProg_prog : (s.onProg f).prog = f s.prog := rfl
@[simp] theorem State.onProg_pending : (s.onProg f).pending = s.pending := rfl

end

section
variable (s : State) (n : Nat)

@[simp] theorem State.drawn_timebase : (s.drawn n).timebase = s.timebase := rfl
@[simp] theorem State.drawn_clock : (s.drawn n).clock = s.clock := rfl
@[simp] theorem State.drawn_regs : (s.drawn n).regs = s.regs := rfl
@[simp] theorem State.drawn_hrpRdata : (s.drawn n).hrpRdata = s.hrpRdata := rfl
@[simp] theorem State.drawn_hrpRvalid : (s.drawn n).hrpRvalid = s.hrpRvalid := rfl
@[simp] theorem State.drawn_hrpHeld : (s.drawn n).hrpHeld = s.hrpHeld := rfl
@[simp] theorem State.drawn_hostCaps : (s.drawn n).hostCaps = s.hostCaps := rfl
@[simp] theorem State.drawn_smiths : (s.drawn n).smiths = s.smiths := rfl
@[simp] theorem State.drawn_imageMS : (s.drawn n).imageMS = s.imageMS := rfl
@[simp] theorem State.drawn_imageAS : (s.drawn n).imageAS = s.imageAS := rfl
@[simp] theorem State.drawn_verify : (s.drawn n).verify = s.verify := rfl
@[simp] theorem State.drawn_ports : (s.drawn n).ports = s.ports := rfl
@[simp] theorem State.drawn_pieces : (s.drawn n).pieces = s.pieces := rfl
@[simp] theorem State.drawn_tongs : (s.drawn n).tongs = s.tongs := rfl
@[simp] theorem State.drawn_slices : (s.drawn n).slices = s.slices := rfl
@[simp] theorem State.drawn_detect : (s.drawn n).detect = s.detect := rfl
@[simp] theorem State.drawn_loftFns : (s.drawn n).loftFns = s.loftFns := rfl
@[simp] theorem State.drawn_fullInv : (s.drawn n).fullInv = s.fullInv := rfl
@[simp] theorem State.drawn_anvils : (s.drawn n).anvils = s.anvils := rfl
@[simp] theorem State.drawn_hearths : (s.drawn n).hearths = s.hearths := rfl
@[simp] theorem State.drawn_hedge : (s.drawn n).hedge = s.hedge := rfl
@[simp] theorem State.drawn_faults : (s.drawn n).faults = s.faults := rfl
@[simp] theorem State.drawn_evq : (s.drawn n).evq = s.evq := rfl
@[simp] theorem State.drawn_modes : (s.drawn n).modes = s.modes := rfl
@[simp] theorem State.drawn_temper : (s.drawn n).temper = s.temper := rfl
@[simp] theorem State.drawn_assay : (s.drawn n).assay = s.assay := rfl
@[simp] theorem State.drawn_gang : (s.drawn n).gang = { s.gang with free := s.gang.free + n } := rfl
@[simp] theorem State.drawn_prog : (s.drawn n).prog = s.prog := rfl
@[simp] theorem State.drawn_pending : (s.drawn n).pending = s.pending := rfl

end

section
variable (s : State) (i : Nat) (w : Word)

@[simp] theorem State.setBlock_timebase : (s.setBlock i w).timebase = s.timebase := rfl
@[simp] theorem State.setBlock_clock : (s.setBlock i w).clock = s.clock := rfl
@[simp] theorem State.setBlock_regs : (s.setBlock i w).regs = s.regs := rfl
@[simp] theorem State.setBlock_hrpRdata : (s.setBlock i w).hrpRdata = s.hrpRdata := rfl
@[simp] theorem State.setBlock_hrpRvalid : (s.setBlock i w).hrpRvalid = s.hrpRvalid := rfl
@[simp] theorem State.setBlock_hrpHeld : (s.setBlock i w).hrpHeld = s.hrpHeld := rfl
@[simp] theorem State.setBlock_hostCaps : (s.setBlock i w).hostCaps = s.hostCaps := rfl
@[simp] theorem State.setBlock_smiths : (s.setBlock i w).smiths = upd s.smiths masterSmith (fun h => { h with dmem := h.dmem.set i w }) := rfl
@[simp] theorem State.setBlock_imageMS : (s.setBlock i w).imageMS = s.imageMS := rfl
@[simp] theorem State.setBlock_imageAS : (s.setBlock i w).imageAS = s.imageAS := rfl
@[simp] theorem State.setBlock_verify : (s.setBlock i w).verify = s.verify := rfl
@[simp] theorem State.setBlock_ports : (s.setBlock i w).ports = s.ports := rfl
@[simp] theorem State.setBlock_pieces : (s.setBlock i w).pieces = s.pieces := rfl
@[simp] theorem State.setBlock_tongs : (s.setBlock i w).tongs = s.tongs := rfl
@[simp] theorem State.setBlock_slices : (s.setBlock i w).slices = s.slices := rfl
@[simp] theorem State.setBlock_detect : (s.setBlock i w).detect = s.detect := rfl
@[simp] theorem State.setBlock_loftFns : (s.setBlock i w).loftFns = s.loftFns := rfl
@[simp] theorem State.setBlock_fullInv : (s.setBlock i w).fullInv = s.fullInv := rfl
@[simp] theorem State.setBlock_anvils : (s.setBlock i w).anvils = s.anvils := rfl
@[simp] theorem State.setBlock_hearths : (s.setBlock i w).hearths = s.hearths := rfl
@[simp] theorem State.setBlock_hedge : (s.setBlock i w).hedge = s.hedge := rfl
@[simp] theorem State.setBlock_faults : (s.setBlock i w).faults = s.faults := rfl
@[simp] theorem State.setBlock_evq : (s.setBlock i w).evq = s.evq := rfl
@[simp] theorem State.setBlock_modes : (s.setBlock i w).modes = s.modes := rfl
@[simp] theorem State.setBlock_temper : (s.setBlock i w).temper = s.temper := rfl
@[simp] theorem State.setBlock_assay : (s.setBlock i w).assay = s.assay := rfl
@[simp] theorem State.setBlock_gang : (s.setBlock i w).gang = s.gang := rfl
@[simp] theorem State.setBlock_prog : (s.setBlock i w).prog = s.prog := rfl
@[simp] theorem State.setBlock_pending : (s.setBlock i w).pending = s.pending := rfl

end


/-- A message joins the ones that have arrived. -/
theorem State.send_arriving (s : State) (source kind sev addr detail : Nat) :
    (s.send source kind sev addr detail).faults.arriving = s.faults.arriving ++
      [{ source := BitVec.ofNat 8 source, kind := BitVec.ofNat 8 kind, sev := BitVec.ofNat 2 sev,
         addr := BitVec.ofNat 41 addr, detail := BitVec.ofNat 23 detail, raiser := none }] := rfl
@[simp] theorem State.send_queue (s : State) (source kind sev addr detail : Nat) :
    (s.send source kind sev addr detail).faults.queue = s.faults.queue := rfl

end Sys2Proof.Machine
end

