-- ==== Sys2Proof/Laws/Ops.lean ====
section
/-! SUPPORT. One law for each shared operation: events that occur or not, bit fields, registers, and the parts of the
machine that an operation leaves alone. -/

namespace Sys2Proof.Machine

/-! ### Events -/

@[simp] theorem occur_true (s t : State) : occur true s t = t := rfl
@[simp] theorem occur_false (s t : State) : occur false s t = s := rfl

/-- An event that occurs or not: either nothing happens, or its condition holds and it has its effect. -/
theorem occur_cases (c : Bool) (s t : State) :
    (c = false ∧ occur c s t = s) ∨ (c = true ∧ occur c s t = t) := by cases c <;> simp

/-- A time-driven event whose condition holds has its effect on the state at that time. -/
theorem timed_pos {now : Nat} {c : State → Bool} {f : State → State} {s : State} (h : c (s.at now) = true) :
    timed now c f s = f (s.at now) := by simp [timed, h]

/-- A time-driven event whose condition does not hold changes nothing. -/
theorem timed_neg {now : Nat} {c : State → Bool} {f : State → State} {s : State} (h : c (s.at now) = false) :
    timed now c f s = s := by simp [timed, h]

/-- A property that the effect keeps is kept by the event. -/
theorem timed_keeps {now : Nat} {c : State → Bool} {f : State → State} {s : State} {P : State → Prop} (h : P s)
    (hf : c (s.at now) = true → P (f (s.at now))) : P (timed now c f s) := by
  cases hc : c (s.at now)
  · rw [timed_neg hc]; exact h
  · rw [timed_pos hc]; exact hf hc

/-- A property that each step of a fold keeps is kept by the fold. -/
theorem foldl_keeps {α : Type} {P : State → Prop} {f : State → α → State} (hf : ∀ s x, P s → P (f s x))
    (l : List α) {s : State} (h : P s) : P (l.foldl f s) := by
  induction l generalizing s with
  | nil => exact h
  | cons x l ih => exact ih (hf s x h)

/-! ### Bit fields -/

theorem wbits_lt (w : Word) (hi lo : Nat) : wbits w hi lo < 2 ^ (hi - lo + 1) := Nat.mod_lt _ (Nat.two_pow_pos _)

/-- Bit `i` of a number is its test bit. -/
theorem bit_eq_testBit (n i : Nat) : bit n i = n.testBit i := by
  simp only [bit, Nat.testBit_eq_decide_div_mod_eq]
  cases h : (n / 2 ^ i % 2 == 1) <;> simp_all

theorem wbit_eq_getLsbD (w : Word) (i : Nat) : wbit w i = w.getLsbD i := by
  simp [wbit, bit_eq_testBit, BitVec.getLsbD]

/-- Bit `i` of a field. -/
theorem bits_testBit (n hi lo i : Nat) : (bits n hi lo).testBit i = (decide (i < hi - lo + 1) && n.testBit (lo + i)) := by
  simp [bits, Nat.testBit_mod_two_pow, Nat.testBit_div_two_pow, Nat.add_comm]

theorem wbits_testBit (w : Word) (hi lo i : Nat) :
    (wbits w hi lo).testBit i = (decide (i < hi - lo + 1) && w.getLsbD (lo + i)) := by
  simp [wbits, bits_testBit, BitVec.getLsbD]

theorem maskBits_getLsbD (hi lo i : Nat) (h : lo ≤ hi) :
    (maskBits hi lo).getLsbD i = (decide (i < 32) && decide (lo ≤ i) && decide (i ≤ hi)) := by
  simp only [maskBits, BitVec.getLsbD_ofNat, Nat.testBit_mul_two_pow, Nat.testBit_two_pow_sub_one]
  by_cases h1 : i < 32 <;> by_cases h2 : lo ≤ i <;> simp [h1, h2]
  omega

/-- Bit `i` of a word after a field has been replaced. -/
theorem putBits_getLsbD (w : Word) (hi lo v i : Nat) (h : lo ≤ hi) :
    (putBits w hi lo v).getLsbD i =
      (decide (i < 32) && (if lo ≤ i ∧ i ≤ hi then v.testBit (i - lo) else w.getLsbD i)) := by
  simp only [putBits, BitVec.getLsbD_or, BitVec.getLsbD_and, BitVec.getLsbD_not, maskBits_getLsbD _ _ _ h,
    BitVec.getLsbD_ofNat, Nat.testBit_mul_two_pow, Nat.testBit_mod_two_pow]
  by_cases h1 : i < 32
  · by_cases h2 : lo ≤ i
    · by_cases h3 : i ≤ hi
      · have : i - lo < hi - lo + 1 := by omega
        simp [h1, h2, h3, this]
      · have : ¬ (i - lo < hi - lo + 1) := by omega
        simp [h1, h2, h3, this]
    · simp [h1, h2]
  · simp [h1, BitVec.getLsbD_of_ge w i (by omega)]

/-- The field that was replaced reads as the value put there. -/
theorem wbits_putBits (w : Word) (hi lo v : Nat) (h : lo ≤ hi) (h32 : hi < 32) :
    wbits (putBits w hi lo v) hi lo = v % 2 ^ (hi - lo + 1) := by
  apply Nat.eq_of_testBit_eq
  intro i
  rw [wbits_testBit, putBits_getLsbD _ _ _ _ _ h, Nat.testBit_mod_two_pow]
  by_cases hi' : i < hi - lo + 1
  · have h1 : lo + i < 32 := by omega
    have h2 : lo ≤ lo + i ∧ lo + i ≤ hi := ⟨by omega, by omega⟩
    have h3 : lo + i - lo = i := by omega
    simp [hi', h1, h2, h3]
  · simp [hi']

/-- A field that does not meet the replaced one reads as before. -/
theorem wbits_putBits_of_disjoint (w : Word) (hi lo v hi' lo' : Nat) (h : lo ≤ hi) (h' : lo' ≤ hi') (h32 : hi' < 32)
    (hd : hi' < lo ∨ hi < lo') : wbits (putBits w hi lo v) hi' lo' = wbits w hi' lo' := by
  apply Nat.eq_of_testBit_eq
  intro i
  rw [wbits_testBit, wbits_testBit, putBits_getLsbD _ _ _ _ _ h]
  by_cases hi' : i < hi' - lo' + 1
  · have h1 : lo' + i < 32 := by omega
    have h2 : ¬ (lo ≤ lo' + i ∧ lo' + i ≤ hi) := by omega
    simp [hi', h1, h2]
  · simp [hi']

theorem wbit_putBits (w : Word) (hi lo v i : Nat) (h : lo ≤ hi) (h32 : i < 32) :
    wbit (putBits w hi lo v) i = if lo ≤ i ∧ i ≤ hi then bit v (i - lo) else wbit w i := by
  rw [wbit_eq_getLsbD, putBits_getLsbD _ _ _ _ _ h, wbit_eq_getLsbD, bit_eq_testBit]
  simp [h32]

@[simp] theorem bit_b2n_zero (b : Bool) : bit (b2n b) 0 = b := by cases b <;> rfl

/-! ### Registers -/

/-- A register read after a register write: the same home reads the written word. -/
@[simp] theorem State.rd_wr (s : State) (a a' : Nat) (w : Word) :
    (s.wr a w).rd a' = if regHome a' = regHome a then w else s.rd a' := by
  simp [State.rd, State.wr]

theorem State.setFld_eq_wr (s : State) (a hi lo v : Nat) : s.setFld a hi lo v = s.wr a (putBits (s.rd a) hi lo v) := rfl
theorem State.setFlag_eq_wr (s : State) (a i : Nat) (b : Bool) :
    s.setFlag a i b = s.wr a (putBits (s.rd a) i i (b2n b)) := rfl

/-- A field that was set reads as the value. -/
theorem State.fld_setFld (s : State) (a hi lo v : Nat) (h : lo ≤ hi) (h32 : hi < 32) :
    (s.setFld a hi lo v).fld a hi lo = v % 2 ^ (hi - lo + 1) := by
  simp [State.fld, State.setFld_eq_wr, wbits_putBits _ _ _ _ h h32]

/-- A field of another register, or a field beside the one that was set, reads as before. -/
theorem State.fld_setFld_of_ne (s : State) (a hi lo v a' hi' lo' : Nat) (h : lo ≤ hi) (h' : lo' ≤ hi') (h32 : hi' < 32)
    (hne : regHome a' ≠ regHome a ∨ hi' < lo ∨ hi < lo') : (s.setFld a hi lo v).fld a' hi' lo' = s.fld a' hi' lo' := by
  simp only [State.fld, State.setFld_eq_wr, State.rd_wr]
  split
  · next he =>
    have hd : hi' < lo ∨ hi < lo' := by
      rcases hne with hne | hd
      · exact absurd he hne
      · exact hd
    rw [wbits_putBits_of_disjoint _ _ _ _ _ _ h h' h32 hd]
    simp only [State.rd, he]
  · rfl

/-- A bit that was set reads as the value. -/
theorem State.flag_setFlag (s : State) (a i : Nat) (b : Bool) (h : i < 32) : (s.setFlag a i b).flag a i = b := by
  simp [State.flag, State.setFlag_eq_wr, wbit_putBits _ _ _ _ _ (Nat.le_refl i) h]

/-! ### Frames -/

namespace Only

/-- Doing nothing touches nothing. -/
theorem refl (P : Part → Prop) (s : State) : Only P s s := fun x _ => by cases x <;> first | rfl | exact ⟨rfl, rfl⟩

theorem trans {P : Part → Prop} {s t u : State} (h : Only P s t) (h' : Only P t u) : Only P s u := by
  intro x hx
  have a := h x hx
  have b := h' x hx
  cases x <;> simp only [Part.kept] at a b ⊢ <;> first | rw [b, a] | exact ⟨b.1.trans a.1, b.2.trans a.2⟩

theorem mono {P Q : Part → Prop} {s t : State} (h : Only P s t) (hpq : ∀ x, P x → Q x) : Only Q s t :=
  fun x hx => h x (fun hp => hx (hpq x hp))

theorem ite {P : Part → Prop} {s t u : State} {c : Prop} [Decidable c] (h : Only P s t) (h' : Only P s u) :
    Only P s (if c then t else u) := by split <;> assumption

end Only

theorem wr_only (s : State) (a : Nat) (w : Word) : Only (· = .reg (regHome a)) s (s.wr a w) := by
  intro x hx
  cases x with
  | reg b =>
    have hb : b ≠ regHome a := fun e => hx (by rw [e])
    simp [Part.kept, hb]
  | _ => first | rfl | exact ⟨rfl, rfl⟩

theorem setFld_only (s : State) (a hi lo v : Nat) : Only (· = .reg (regHome a)) s (s.setFld a hi lo v) := wr_only s a _

theorem setFlag_only (s : State) (a i : Nat) (b : Bool) : Only (· = .reg (regHome a)) s (s.setFlag a i b) := wr_only s a _

theorem count_only (s : State) (a hi lo : Nat) : Only (· = .reg (regHome a)) s (s.count a hi lo) := wr_only s a _

theorem at_only (s : State) (now : Nat) : Only (· = .time) s (s.at now) := by
  intro x hx; cases x <;> first | rfl | exact ⟨rfl, rfl⟩ | exact absurd rfl hx

theorem onSmith_only (s : State) (m : SmithId) (f : Smith → Smith) : Only (· = .smith m) s (s.onSmith m f) := by
  intro x hx
  cases x with
  | smith n =>
    have : n ≠ m := fun e => hx (by rw [e])
    simp only [Part.kept, State.onSmith_smiths, upd_get, if_neg this]
  | _ => first | rfl | exact ⟨rfl, rfl⟩

theorem event_only (s : State) (m : SmithId) (n : Nat) : Only (· = .smith m) s (s.event m n) := onSmith_only s m _

theorem eventMS_only (s : State) (n : Nat) : Only (· = .smith masterSmith) s (s.eventMS n) := onSmith_only s _ _

theorem onPort_only (s : State) (p : PortId) (f : Port → Port) : Only (· = .port p) s (s.onPort p f) := by
  intro x hx
  cases x with
  | port q =>
    have : q ≠ p := fun e => hx (by rw [e])
    simp only [Part.kept, State.onPort_ports, upd_get, if_neg this]
  | _ => first | rfl | exact ⟨rfl, rfl⟩

theorem onSlice_only (s : State) (c : Chan) (f : Slice → Slice) : Only (· = .slice c) s (s.onSlice c f) := by
  intro x hx
  cases x with
  | slice d =>
    have : d ≠ c := fun e => hx (by rw [e])
    simp only [Part.kept, State.onSlice_slices, upd_get, if_neg this]
  | _ => first | rfl | exact ⟨rfl, rfl⟩

theorem onAnvil_only (s : State) (c : Chan) (f : Anvil → Anvil) : Only (· = .anvil c) s (s.onAnvil c f) := by
  intro x hx
  cases x with
  | anvil d =>
    have : d ≠ c := fun e => hx (by rw [e])
    simp only [Part.kept, State.onAnvil_anvils, upd_get, if_neg this]
  | _ => first | rfl | exact ⟨rfl, rfl⟩

theorem send_only (s : State) (source kind sev addr detail : Nat) :
    Only (· = .faults) s (s.send source kind sev addr detail) := by
  intro x hx; cases x <;> first | rfl | exact ⟨rfl, rfl⟩ | exact absurd rfl hx

theorem onFaults_only (s : State) (f : FaultUnit → FaultUnit) : Only (· = .faults) s (s.onFaults f) := by
  intro x hx; cases x <;> first | rfl | exact ⟨rfl, rfl⟩ | exact absurd rfl hx

theorem onEvq_only (s : State) (f : Evq → Evq) : Only (· = .evq) s (s.onEvq f) := by
  intro x hx; cases x <;> first | rfl | exact ⟨rfl, rfl⟩ | exact absurd rfl hx

theorem onModes_only (s : State) (f : ModeCtl → ModeCtl) : Only (· = .modes) s (s.onModes f) := by
  intro x hx; cases x <;> first | rfl | exact ⟨rfl, rfl⟩ | exact absurd rfl hx

theorem onHedge_only (s : State) (f : Hedge → Hedge) : Only (· = .hedge) s (s.onHedge f) := by
  intro x hx; cases x <;> first | rfl | exact ⟨rfl, rfl⟩ | exact absurd rfl hx

theorem onGang_only (s : State) (f : Gang → Gang) : Only (· = .gang) s (s.onGang f) := by
  intro x hx; cases x <;> first | rfl | exact ⟨rfl, rfl⟩ | exact absurd rfl hx

theorem onTemper_only (s : State) (f : Temper → Temper) : Only (· = .temper) s (s.onTemper f) := by
  intro x hx; cases x <;> first | rfl | exact ⟨rfl, rfl⟩ | exact absurd rfl hx

theorem onAssay_only (s : State) (f : Assay → Assay) : Only (· = .assay) s (s.onAssay f) := by
  intro x hx; cases x <;> first | rfl | exact ⟨rfl, rfl⟩ | exact absurd rfl hx

end Sys2Proof.Machine
end

