-- ==== Sys2Proof/Laws/Smith.lean ====
section
/-! SUPPORT. What the shared operations of a Smith do: register reads and writes, going on, and the results of the
instruction forms. -/

namespace Sys2Proof.Machine

/-- A register write is a change of its Smith alone. -/
theorem State.setG_eq (s : State) (m : SmithId) (d : RegNo) (v : Word) :
    s.setG m d v = s.onSmith m (fun h =>
      if d = 0 then h else { h with g := h.g.set d.toNat v (by have := d.isLt; omega) }) := by
  unfold State.setG
  split
  · simp [State.onSmith, upd]
  · rfl

/-- A change of a Smith leaves the images alone. -/
@[simp] theorem State.image_onSmith (s : State) (m n : SmithId) (f : Smith → Smith) :
    (s.onSmith m f).image n = s.image n := by
  unfold State.image; split <;> rfl

@[simp] theorem State.image_at (s : State) (now : Nat) (n : SmithId) : (s.at now).image n = s.image n := by
  unfold State.image; split <;> rfl

@[simp] theorem State.image_setG (s : State) (m n : SmithId) (d : RegNo) (v : Word) :
    (s.setG m d v).image n = s.image n := by rw [State.setG_eq, State.image_onSmith]

@[simp] theorem State.g_at (s : State) (now : Nat) (n : SmithId) (x : RegNo) : (s.at now).g n x = s.g n x := rfl

/-- Register `x` of a Smith after a register write: g0 reads 0, and a write of it is discarded (02 R46, R47). -/
theorem State.g_setG (s : State) (m : SmithId) (d x : RegNo) (v : Word) :
    (s.setG m d v).g m x = if x = d ∧ x ≠ 0 then v else s.g m x := by
  by_cases hd : d = 0
  · subst hd
    rw [show s.setG m 0 v = s from rfl, if_neg (fun h => h.2 h.1)]
  · rw [State.setG_eq]
    unfold State.g
    by_cases hx : x = 0
    · simp [hx]
    · simp only [hx, if_false, State.onSmith_smiths, Fin.getElem_fin, upd_getElem, if_true, hd]
      rw [Vector.getElem_set]
      by_cases hxd : x = d
      · subst hxd; simp only [if_true, true_and, ne_eq]; rw [if_pos hx]
      · have : ¬ d.toNat = x.toNat := fun e => hxd (BitVec.eq_of_toNat_eq e.symm)
        simp [hxd, this]

/-- The fields of a Smith that a register write leaves alone. -/
theorem State.setG_smith (s : State) (m : SmithId) (d : RegNo) (v : Word) :
    (s.setG m d v).smiths[m] = { s.smiths[m] with g := (s.setG m d v).smiths[m].g } := by
  rw [State.setG_eq]
  simp only [State.onSmith_smiths, Fin.getElem_fin, upd_getElem, if_true]
  split <;> rfl

/-- A Smith that goes on at `pc` runs there, and nothing else happens (02 R66). -/
theorem State.smithGo_goesOn {s : State} {m : SmithId} {pc : Nat} (h : GoesOn s m pc) :
    s.smithGo m pc = s.onSmith m (fun x => { x with run := .running, wait := none, pc := wrapPc m pc }) := by
  obtain ⟨h1, h2, h3⟩ := h
  unfold State.smithGo
  have hs : (s.onSmith m (fun x => { x with run := .running, wait := none, pc := wrapPc m pc })).smiths[m].stopReq = false := by
    simpa using h1
  simp only [hs]
  unfold State.fetchNext State.fetchWord
  rw [State.image_onSmith]
  simp only [State.onSmith_smiths, Fin.getElem_fin, upd_getElem, if_true]
  have : ¬ (s.image m).length ≤ (wrapPc m pc).toNat := by omega
  simp only [this, if_false, h3, if_true]
  rfl

/-- Going on depends on nothing that a register write changes. -/
theorem GoesOn.setG {s : State} {m : SmithId} {pc : Nat} (h : GoesOn s m pc) (d : RegNo) (v : Word) :
    GoesOn (s.setG m d v) m pc := by
  obtain ⟨h1, h2, h3⟩ := h
  refine ⟨?_, by rwa [State.image_setG], by rwa [State.image_setG]⟩
  rw [State.setG_smith]; exact h1

theorem GoesOn.at {s : State} {m : SmithId} {pc : Nat} (h : GoesOn s m pc) (now : Nat) : GoesOn (s.at now) m pc := by
  obtain ⟨h1, h2, h3⟩ := h
  exact ⟨h1, by rwa [State.image_at], by rwa [State.image_at]⟩

/-- A register write followed by going on leaves what `Finished` says. -/
theorem finished_setG {s : State} {m : SmithId} {pc : Nat} (h : GoesOn s m pc) (d : RegNo) (v : Word) :
    Finished s ((s.setG m d v).smithGo m pc) m d v pc := by
  rw [State.smithGo_goesOn (h.setG d v)]
  refine ⟨fun x => ?_, ?_, ?_⟩
  · rw [← State.g_setG]
    simp [State.g]
  · have := State.setG_smith s m d v
    simp only [Fin.getElem_fin] at this
    simp only [State.onSmith_smiths, Fin.getElem_fin, upd_getElem, if_true]
    rw [this]
  · rw [State.setG_eq]
    exact (onSmith_only _ _ _).trans (onSmith_only _ _ _)

/-- The end of an instruction with destination `d` that goes on at pc + 1 (02 R66). -/
theorem finished_setDone {s : State} {m : SmithId} (h : GoesOn s m (s.smiths[m].pc.toNat + 1)) (d : RegNo) (v : Word) :
    Finished s (s.setDone m d v) m d v (s.smiths[m].pc.toNat + 1) := by
  unfold State.setDone State.smithDone
  have e : (s.setG m d v).smiths[m].pc = s.smiths[m].pc := by rw [State.setG_smith]
  rw [e]; exact finished_setG h d v

/-- Going on without a register write. -/
theorem finished_go {s : State} {m : SmithId} {pc : Nat} (h : GoesOn s m pc) :
    Finished s (s.smithGo m pc) m 0 0 pc := by
  have := finished_setG h 0 0
  rwa [show s.setG m 0 0 = s from rfl] at this

/-- What touches the event FIFO and its status register. -/
def evqParts (x : Part) : Prop := x = .evq ∨ x = .reg (regHome aEVQ_STATUS)

theorem onEvq_evqParts (s : State) (f : Evq → Evq) : Only evqParts s (s.onEvq f) :=
  (onEvq_only s f).mono (fun _ h => .inl h)

theorem evqIrq_evqParts (s : State) : Only evqParts s s.evqIrq := (setFlag_only s _ _ _).mono (fun _ h => .inr h)

theorem evqComplete_evqParts (s : State) (id : Nat) : Only evqParts s (s.evqComplete id) := by
  unfold State.evqComplete
  exact Only.ite ((onEvq_evqParts s _).trans (evqIrq_evqParts _)) (onEvq_evqParts s _)

theorem evqEnter_evqParts (s : State) (id : Nat) (w : BitVec 64) : Only evqParts s (s.evqEnter id w) := by
  unfold State.evqEnter
  dsimp only
  split
  · split
    · exact (onEvq_evqParts s _).trans (evqComplete_evqParts _ _)
    · exact onEvq_evqParts s _
  · exact onEvq_evqParts s _

/-- The end of the Master Smith's record touches the event FIFO and its status register alone (15 R510). -/
theorem evqFinish_evqParts (s : State) : Only evqParts s s.evqFinish := by
  unfold State.evqFinish
  dsimp only
  split
  · exact onEvq_evqParts s _
  · refine Only.trans ?_ (onEvq_evqParts _ _)
    exact foldl_keeps (P := Only evqParts s) (fun u _ hu => hu.trans (evqEnter_evqParts u _ _)) _ (Only.refl _ s)

/-- The parts of what work a Smith has: the anvils, what the programs remember, and the messages that hold it. -/
def workParts (x : Part) : Prop := (∃ c, x = .anvil c) ∨ x = .prog ∨ x = .faults

/-- What a Smith's stop touches: its own state, the anvils, the program it ran, and for the Master Smith its event record
and the mailbox status. -/
def stopParts (m : SmithId) (x : Part) : Prop :=
  x = .smith m ∨ workParts x ∨ (isMaster m = true ∧ (evqParts x ∨ x = .reg (regHome aMBOX_STATUS)))

theorem mboxNoSmith_only (s : State) : Only (· = .reg (regHome aMBOX_STATUS)) s s.mboxNoSmith := by
  unfold State.mboxNoSmith
  split
  · exact ((setFld_only _ _ _ _ _).trans (setFld_only _ _ _ _ _)).trans (setFlag_only _ _ _ _)
  · exact Only.refl _ s

/-- A change of every anvil touches anvils alone. -/
theorem mapAnvils_only (s : State) (f : Anvil → Anvil) :
    Only (fun x => ∃ c, x = .anvil c) s { s with anvils := s.anvils.map f } := by
  intro x hx
  cases x with
  | anvil c => exact absurd ⟨c, rfl⟩ hx
  | _ => first | rfl | exact ⟨rfl, rfl⟩

/-- A change of every anvil, of what the programs remember and of the fault unit touches nothing else. -/
theorem mapWork_only (s : State) (f : Anvil → Anvil) (p : Prog) (u : FaultUnit) :
    Only workParts s { s with anvils := s.anvils.map f, prog := p, faults := u } := by
  intro x hx
  cases x with
  | anvil c => exact absurd (.inl ⟨c, rfl⟩) hx
  | prog => exact absurd (.inr (.inl rfl)) hx
  | faults => exact absurd (.inr (.inr rfl)) hx
  | _ => first | rfl | exact ⟨rfl, rfl⟩

/-- The frame of a Smith's stop. -/
theorem smithStop_only (s : State) (m : SmithId) : Only (stopParts m) s (s.smithStop m) := by
  unfold State.smithStop
  dsimp only
  have h1 := (onSmith_only s m (fun h => { h with run := .stopped, wait := none, stopReq := false, mrr := [] })).mono
    (Q := stopParts m) (fun _ h => .inl h)
  have h2 := h1.trans ((mapWork_only _ (fun v => v.dropSmith m) (s.prog.stop m) (s.faults.release m)).mono (Q := stopParts m) (fun _ h => .inr (.inl h)))
  split
  · next hm =>
    exact (h2.trans ((evqFinish_evqParts _).mono (fun _ h => .inr (.inr ⟨hm, .inl h⟩)))).trans
      ((mboxNoSmith_only _).mono (fun _ h => .inr (.inr ⟨hm, .inr h⟩)))
  · exact h2

/-- A Smith that has stopped: STOPPED, with its registers, events, signals and data memory kept (02 R89, R91). -/
theorem smithStop_smith (s : State) (m : SmithId) :
    (s.smithStop m).smiths[m] = { s.smiths[m] with run := .stopped, wait := none, stopReq := false, mrr := [] } := by
  unfold State.smithStop
  dsimp only
  split
  · have h := ((evqFinish_evqParts { s.onSmith m (fun h => { h with run := .stopped, wait := none, stopReq := false, mrr := [] })
        with anvils := s.anvils.map (fun v => v.dropSmith m), prog := s.prog.stop m, faults := s.faults.release m }).mono
        (Q := fun x => evqParts x ∨ x = .reg (regHome aMBOX_STATUS)) (fun _ h => .inl h)).trans
      ((mboxNoSmith_only _).mono (fun _ h => .inr h)) (.smith m) (by unfold evqParts; simp)
    simp only [Part.kept] at h
    exact h.trans (by simp)
  · simp

/-- A Smith fault: the message arrives, and its Smith waits until the unit takes it; then it stops (02 R88, R89, 15 R493). -/
theorem smithFault_eq (s : State) (m : SmithId) (cause addr : Nat) :
    s.smithFault m cause addr = (s.onFaults (fun u => { u with arriving := u.arriving ++ [smithFaultMsg s m cause addr] })).smithWait m
      (.raise true) := rfl

end Sys2Proof.Machine
end

