-- ==== Sys2Proof/WellFormed.lean ====
section
/-! DEFINITION. Which terms spell a command: operands that a row's own description rules out are ill-formed. The machine
is total on every term; a row whose description its operands contradict changes nothing, or is the access it spells. -/

namespace Sys2Proof

/-- A byte address of an instruction memory word (Table 18.13). -/
def imemByte (a : Nat) : Bool :=
  a % 4 == 0 && (decide (0x100000 ≤ a ∧ a < 0x108000) || decide (0x110000 ≤ a ∧ a < 0x114000))

/-- The OP codes of the row READ: READ itself and the reserved codes 5 to 15 (Table 3.2). -/
def readOp (op : BitVec 4) : Bool := op == 0 || decide (5 ≤ op.toNat)

/-- MR4 values of the dies of a rank: one or two dies (06 R223). -/
def dies (l : List (BitVec 5)) : Bool := decide (l.length ≤ 2)

/-- The beats of a key port operation: its first beat carries the operation or the reserved code (14 R474). -/
def keyBeats (op : BitVec 2) (beats : List KeyBeat) : Bool := beats.head?.any (fun b => b.op == op || b.op == 3)

/-- A finding names cells that fail, and at least as many failures as cells listed (16 R525). -/
def MacroFinding.wf (f : MacroFinding) : Bool := decide (f.cells.length ≤ f.fails)

/-- A time of a row is a value of the 64-bit timebase (00 R10, 19 R577). -/
def timeGood (now : Nat) : Bool := decide (now < 2 ^ 64)

/-- The operands of a command are those of its row. -/
def Instr.wf (i : Instr) : Bool :=
  match i with
  | .add .. => true
  | .sub .. => true
  | .and .. => true
  | .or .. => true
  | .xor .. => true
  | .shl .. => true
  | .shr .. => true
  | .sra .. => true
  | .mul .. => true
  | .slt .. => true
  | .sltu .. => true
  | .addi .. => true
  | .andi .. => true
  | .ori .. => true
  | .xori .. => true
  | .shli .. => true
  | .shri .. => true
  | .lui .. => true
  | .ldw .. => true
  | .stw .. => true
  | .csrr _ _ _ _ now => timeGood now
  | .csrw _ _ _ _ now => timeGood now
  | .csrs _ _ _ _ _ now => timeGood now
  | .csrc _ _ _ _ _ now => timeGood now
  | .beq .. => true
  | .bne .. => true
  | .blt .. => true
  | .bge .. => true
  | .jal .. => true
  | .jr .. => true
  | .halt .. => true
  | .cmd .. => true
  | .rdmr .. => true
  | .pause _ _ _ _ now => timeGood now
  | .endp .. => true
  | .dly .. => true
  | .dlyEffect .. => true
  | .eye .. => true
  | .eyeEnd .. => true
  | .osc .. => true
  | .oscEnd .. => true
  | .wck .. => true
  | .wckEnd .. => true
  | .wns _ _ _ now => timeGood now
  | .wnsEnd _ now => timeGood now
  | .wev _ _ _ _ now => timeGood now
  | .wevEnd _ now => timeGood now
  | .sig .. => true
  | .wsig _ _ _ _ now => timeGood now
  | .wsigEnd _ now => timeGood now
  | .slw .. => true
  | .slc _ _ _ _ _ now => timeGood now
  | .raise .. => true
  | .eventDispatch .. => true
  | .tick _ now => timeGood now
  | .msStart w => w.getLsbD 0
  | .msStop w => w.getLsbD 1
  | .asStart w => w.getLsbD 2
  | .asStop w => w.getLsbD 3
  | .go w => w.getLsbD 0
  | .verifyEnd .. => true
  | .instructionMemoryWrite addr _ => imemByte addr.toNat
  | .smiEvset .. => true
  | .ping .. => true
  | .kindleRun _ _ _ now => timeGood now
  | .slotCommit _ _ _ _ votes _ now => decide ((votes.map Prod.fst).Nodup) && timeGood now
  | .setTarget .. => true
  | .shedFloor .. => true
  | .steward .. => true
  | .temperNow _ now => timeGood now
  | .gangRejoin _ _ now => timeGood now
  | .margin _ _ _ _ _ now => timeGood now
  | .park _ _ now => timeGood now
  | .read _ op _ _ _ _ _ _ => readOp op
  | .write .. => true
  | .writeMasked .. => true
  | .seal .. => true
  | .hint .. => true
  | .writeBeat .. => true
  | .responseBeat .. => true
  | .panic .. => true
  | .sealDone .. => true
  | .portEnable .. => true
  | .portDisable .. => true
  | .portDrainEnd .. => true
  | .requestAccept _ now => timeGood now
  | .shaperWheelDue _ now => timeGood now
  | .windowBoundary _ now => timeGood now
  | .release _ now => timeGood now
  | .tongsGrant _ _ now => timeGood now
  | .tongsWatchdogBite _ _ now => timeGood now
  | .responseEnter _ now => timeGood now
  | .haltClear .. => true
  | .loftRead _ _ now => timeGood now
  | .loftWrite _ met => timeGood met.1
  | .loftHint _ met => timeGood met.1
  | .loftPrefetch .. => true
  | .loftFill .. => true
  | .lineDrop .. => true
  | .mergeTimer _ _ now => timeGood now
  | .blockingModeEnd _ now => timeGood now
  | .invall w => w.getLsbD 6
  | .sweepStart .. => true
  | .sweepEnd .. => true
  | .wgEn .. => true
  | .rickEn .. => true
  | .pfEn .. => true
  | .loftFunctionStarted .. => true
  | .loftFunctionStopped .. => true
  | .lineReadAccept _ _ now => timeGood now
  | .mergeFlushAccept _ _ now => timeGood now
  | .commandSelect .. => true
  | .act .. => true
  | .pre .. => true
  | .prea .. => true
  | .rd .. => true
  | .wr .. => true
  | .refpb .. => true
  | .refab .. => true
  | .rfm .. => true
  | .mrw .. => true
  | .mrr .. => true
  | .mpc .. => true
  | .sre .. => true
  | .srx _ _ now => timeGood now
  | .pde .. => true
  | .pdx .. => true
  | .readDataReturn _ _ now => timeGood now
  | .mrrResult .. => true
  | .mr4Poll _ now => timeGood now
  | .mr4Result _ rank0 rank1 => dies rank0 && dies rank1
  | .refreshDebtTick _ _ now => timeGood now
  | .holdSet .. => true
  | .pauseGrant _ _ now => timeGood now
  | .pauseForce _ now => timeGood now
  | .pauseExpire .. => true
  | .retrain _ now => timeGood now
  | .retrainIntervalWrite _ _ now => timeGood now
  | .zqCalibration _ now => timeGood now
  | .zqCodeApply .. => true
  | .zqLatchDue _ _ now => timeGood now
  | .pllEnable .. => true
  | .fspChange .. => true
  | .rateChange .. => true
  | .pllLock .. => true
  | .pllLockLoss .. => true
  | .dlydatAccess .. => true
  | .patdatAccess .. => true
  | .slotBoundary .. => true
  | .slotTableSwitch _ _ now => timeGood now
  | .stgo _ w => w.getLsbD 0
  | .selfTestEnd .. => true
  | .gleanerEn .. => true
  | .gleanerVisit _ now => timeGood now
  | .gleanerVisitEnd _ now => timeGood now
  | .gleanerTransitionEnd .. => true
  | .lapOverdue _ now => timeGood now
  | .patrolAdvance _ now => timeGood now
  | .modeRequest .. => true
  | .modeComplete _ now => timeGood now
  | .bankedQueuesEmpty .. => true
  | .quarterEnd _ findings => findings.all MacroFinding.wf
  | .faultDrainTimeout now => timeGood now
  | .shedLevelChange .. => true
  | .shedStepTimer now => timeGood now
  | .comparatorCrossing level => timeGood level.2
  | .sagRelease _ level now => level.val != 0 && timeGood now
  | .rateMonitor _ now => timeGood now
  | .pmSag .. => true
  | .bankedSagRelease now => timeGood now
  | .temperGo w => w.getLsbD 31
  | .temperRound now => timeGood now
  | .temperRoundEnd counts now => counts.length == 32 && timeGood now
  | .vreqCodeWrite .. => true
  | .pmVack level => timeGood level.2
  | .pmOffreq .. => true
  | .powerGateAck .. => true
  | .resetAssert .. => true
  | .resetDeassert .. => true
  | .fuseImageRead first second => first.length == 128 && second.length == 128
  | .loadK1 beats => keyBeats 0 beats
  | .loadK2 beats => keyBeats 1 beats
  | .erase beats => keyBeats 2 beats
  | .keyctlErase .. => true
  | .regionStartingEnd .. => true
  | .regionStoppingEnd .. => true
  | .bufferRelease .. => true
  | .releaseHonour now => timeGood now
  | .faultAccept .. => true
  | .faultMessageTransfer .. => true
  | .faultPulseEnd => true
  | .forceMessage .. => true
  | .firstvRearm .. => true
  | .injectionArm w => w.extractLsb' 16 2 != 0
  | .injectionDisarm w => w.extractLsb' 16 2 == 0
  | .evqPutHdr _ now => timeGood now
  | .evqPutLo .. => true
  | .evqPutHi _ now => timeGood now
  | .evqDataLo .. => true
  | .evqDataHi now => timeGood now
  | .flush w now => w.getLsbD 0 && timeGood now
  | .evqTimeout now => timeGood now
  | .timebaseLoRead now => timeGood now
  | .slotTloRead .. => true
  | .lapLoRead .. => true
  | .capturedHiRead _ now => timeGood now
  | .rcRead .. => true
  | .adjacencyMapWrite .. => true
  | .registerWrite _ _ now => timeGood now
  | .unalignedAccess addr _ => addr.toNat % 4 != 0
  | .unpopulatedAccess addr _ => addr.toNat % 4 == 0
  | .bankedAccessRefused addr _ => addr.toNat % 4 == 0
  | .anvilTransitionEnd .. => true
  | .directRun w => w.getLsbD 31
  | .clrrep w => w.getLsbD 30
  | .tapInstruction .. => true
  | .xchg w now => w.getLsbD 30 && timeGood now
  | .linkWordReceive .. => true
  | .linkTrained .. => true
  | .credentials _ now => timeGood now
  | .heartbeatSend now => timeGood now
  | .heartbeat _ now => timeGood now
  | .heartbeatTimeout _ now => timeGood now
  | .peerStartingEnd _ now => timeGood now
  | .peerStoppingEnd .. => true
  | .smsgSend .. => true
  | .smithMessage .. => true
  | .smsgRxLo .. => true
  | .smsgRxHi .. => true
  | .zqCalibrationEnd .. => true
  | .alwaysOnPowerUp .. => true

end Sys2Proof
end

