-- ==== Sys2Proof/Tests/Slice0.lean ====
section
/-! SUPPORT. The project's own tests: a term each check of well-formedness refuses, worked examples of the spec, single steps on
small states, and for every obligation with premises a theorem that shows a state and operands which meet the premises of each
of its clauses (obligation `X` has `test_premises_of_X`). -/

open Sys2Proof Sys2Proof.Machine

namespace Sys2Proof.Tests

set_option Elab.async false

/-! ### Small states -/

/-- The machine after reset in mode `m`. -/
def inMode (m : Mode) : State :=
  ({ State.reset with modes := { State.reset.modes with mode := m, pinsLow := false } }).setFld aMODE 2 0 m.code

/-- Both images accepted, sixteen words long: word 0 is `w`, every other one HALT. -/
def loaded (s : State) (w : Word) : State :=
  let mem := (List.range 15).foldl (fun a i => WMem.set a (i + 1) (encodeWord 0x27 0 0 0 0)) (WMem.set [] 0 w)
  let i (x : Image) : Image := { x with mem := mem, accepted := true, length := 16, entry := 1, reference := false }
  { s with imageMS := i s.imageMS, imageAS := i s.imageAS }

/-- Smith `m` runs the word `w` at pc 0, with g2 = `x` and g3 = `y`. -/
def smithOn (s : State) (m : SmithId) (w x y : Word) : State :=
  (loaded s w).onSmith m (fun h => { h with run := .running, pc := 0, g := (h.g.set 2 x).set 3 y })

/-- The instruction with d = 1, a = 2, b = 3. -/
def ins (op : Nat) (imm : BitVec 14) : Word := encodeWord op 1 2 3 imm

/-- Smith `m` waits at pc 0 for `w`. -/
def smithWaits (s : State) (m : SmithId) (w : Wait) : State :=
  (loaded s 0).onSmith m (fun h => { h with run := .waiting, wait := some w })

/-- Lifecycle FIELD, and 4 GiB on channel 0. -/
def field (s : State) : State := ((s.setFld aHDG_STAT 2 0 2).setFld aCAP 4 0 4).recap

/-- Port `p` below 16 is enabled, with static heat 4. -/
def opened (s : State) (p : PortId) : State :=
  let s := field s
  let s := s.onHedge (fun h => { h with fuse := h.fuse.set 82 (BitVec.ofNat 32 (2 * 4 ^ p.val)) })
  (s.setFlag (aSWD_EN (p.val / 32)) (p.val % 32) true).setFlag (aSWD_ACTIVE (p.val / 32)) (p.val % 32) true

/-- A request of one sector. -/
def req (id : Nat) (op : BitVec 4) (addr : Nat) (stage : Stage) : Req :=
  { id := id, op := op, addr := addr, len := 0, tag := 5, label := 2, colour := 3, attr := 0, beats := [], stage := stage,
    cause := 0, refusal := none, dropInj := false, time := 0, epoch := 0, heat := 0, overBud := false, booked := 0, sent := 0, parts := [], flip := Flip.none }

/-- A last beat with every byte enabled. -/
def beat : Beat := { data := 0x123456789, be := 0xFF, wpoison := false, wlast := true }

/-- A judged piece of one sector from request `id` of port `p`. -/
def piece (tag : Nat) (p : PortId) (id : Nat) (op : BitVec 4) (addr heat : Nat) : Piece :=
  { tag := tag, origin := .port p id 0, op := op, port := p.val, addr := addr, sectors := 1, label := 2, attr := 0, heat := heat,
    beats := [], accept := 0, judged := true, next := 0, results := [], status := none, erased := [], flip := Flip.none }

/-- Port `p` holds these requests. -/
def holding (s : State) (p : PortId) (rs : List Req) : State := s.onPort p (fun v => { v with reqs := rs, nextId := 20 })

/-- An Anvil Smith image of two words whose header and tag are good, under verification. -/
def signed : State :=
  let s := loaded { inMode .kindle with verify := some true } 0x1234
  let s := (((s.wr (aHDR 0) 0x31475753).wr (aHDR 1) 0x00020102).wr (aHDR 2) 1).wr (aHDR 3) 0x01020000
  let tag := cmac s.cmacKey (s.imageMessage true)
  (List.range 4).foldl (fun s k => s.wr (aHDR (4 + k)) (BitVec.ofNat 32 (ofBytes ((tag.drop (4 * k)).take 4)))) s

/-- Piece `x` heads slice 0, before piece 99; the first way group is on; `f` changes the slice. -/
def atLoft (s : State) (x : Piece) (f : Slice → Slice) : State :=
  let s := { s with pieces := [x], loftFns := (s.loftFns.set 0 { state := .on, want := true }).set 4 { state := .on, want := true } }
  s.onSlice 0 (fun l => f { l with inq := [x.tag, 99] })

/-- A miss register. -/
def miss (id line : Nat) (sent : Bool) : Miss :=
  { id := id, line := line, sent := sent, drop := false, keyDrop := false, opener := .hint, waiters := [], heat := 3, pin := false,
    port := some 3 }

/-- Line 0 in way 2, its upper sector poisoned. -/
def line0 : Line := { line := 0, way := 2, data := (7, 8), pois := (false, true), pref := true, pin := false }

/-- A merge entry of the lower sector of a line. -/
def merge (id line start : Nat) : Merge :=
  { id := id, line := line, data := (5, 0), mask := (0xFF, 0), pset := (false, false), pclr := (false, false), smask := (true, false),
    stream := false, heat := 3, start := start, opener := 9, port := some 3, flush := false, group := none, split := false }

/-- A sector that crossed without an error. -/
def ok (d : Sector) : SecRes := { status := .ok, data := d, poisoned := false }

/-- Anvil 0 ON with its self-test passed and its PLL locked; `f` changes the anvil. -/
def anv (m : Mode) (f : Anvil → Anvil) : State :=
  (((field (inMode m)).setFlag (aECC_STAT 0) 31 true).setFlag (aPLL 0) 31 true).onAnvil 0
    (fun v => f { v with fn := { state := .on, want := true } })

/-- Bank 1 of rank 0, row 7. -/
def row7 : Place := { rank := 0, bank := 1, row := 7 }

/-- A demand read of two sectors. -/
def rdEnt (seq i : Nat) (q : Place) (ns : List Nat) : ReadEnt :=
  { seq := seq, stamp := 0, kind := .demand i (true, true), place := q, secs := ns, todo := ns, flying := [], got := [], heat := 3,
    port := some 3, waits := [], waitsM := [], locate := false }

/-- A write of one sector that is ready. -/
def wrEnt (seq : Nat) (q : Place) (n : Nat) : WriteEnt :=
  { seq := seq, stamp := 0, kind := .data, place := q, secs := [{ pos := n, data := 0xFEED, mask := BitVec.allOnes 64, pset := false, pclr := true }],
    heat := 3, port := some 3, ready := true, todo := [n], enc := [(n, 0xBEEF, false)], deltas := [], waitsR := [], waitsW := [],
    group := none, marks := [], recode := [], fill := false }

/-- A data sector, and a demand read of it at position 4 of row7 with its check sector and the bitmap sector read. -/
def cleanSector : Sector := 0xAB
def cleanEnt : ReadEnt :=
  let s := field (inMode .forge)
  let chk : Sector := BitVec.ofNat 512 (ofBytes (abChecks cleanSector (s.secLa 0 row7 4) 0 0 false) * 256 ^ 32)
  { rdEnt 5 2 row7 [4] with kind := .demand 2 (true, false), todo := [], flying := [4], got := [(28, chk), (31, 0)] }

/-- A row of zero sectors with its check sectors, as the address-bound code stores it in row7. -/
def cleanRow : List (Nat × Sector) :=
  (List.range 28).map (fun p => (p, 0)) ++
  [(28, 0xFA6C7393189AFC09239D70BAC16BFF20559375C1B765FA5B8C6276E86E94F972B98F7F375B79F0AD607E7C1E8288F38416707965F486F6FFCF817A4C2D77F5D6),
   (29, 0x7CB76BC69E41E45CA54668EF47B0E775D3486D9431BEE20E0AB96EBDE84FE1273F546762DDA2E8F8E6A5644B0453EBD190AB6130725DEEAA495A6219ABACED83),
   (30, 0x8D1AE3E26FEC6C7854EBE0CBB61D6F5122E5E5B0C0136A2AFB14E69919E26903CEF9EF462C0F60DC1708EC6FF5FE63F56106E91483F0668EB8F7EA3D5A0165A7),
   (31, 0x4822F713AAD4788991D3F43A73257BA0E7DDF141052B7EDB3E2CF268DCDA7DF2)]

/-- A visit of row7 that has read these sectors. -/
def visit (dirty : Bool) (got : List (Nat × Sector)) : Visit :=
  { row := 116, left := [], got := got, dirty := dirty, again := [], mended := false, last := false }

/-- A fuse image of lifecycle FIELD with a good CRC. -/
def fuses : List Word :=
  let ws : List Word := 3 :: List.replicate 126 0
  ws ++ [BitVec.ofNat 32 (crc32c (((ws.drop 1).take 126).flatMap (fun w => toBytes 4 w.toNat)))]

/-- The beats of a key operation. -/
def keyBeats (op : BitVec 2) (r : RegionId) (n : Nat) : List KeyBeat :=
  (List.range n).map (fun i => { op := op, region := r, data := BitVec.ofNat 32 (i + 1) })

/-- Region 2 is in use with XTS, its function and keys as given. -/
def keyed (st : FnState) (want : Bool) (k1 k2 : Option (BitVec 256)) : State :=
  let s := ((inMode .forge).setFld aHDG_STAT 2 0 2).onHedge (fun h => { h with fuse := h.fuse.set 4 0xC0010000 })
  s.onRegion 2 (fun x => { x with fn := { state := st, want := want }, k1 := k1, k2 := k2 })

/-- A release of plot 1, and a machine that has it at the front, honoured. -/
def oneRelease : Release := { base := 1024, size := 1024, claim := 3, owner := 3, writes := [], merges := [] }
def honouring (w : List (Chan × Nat)) : State :=
  let s := (field (inMode .forge)).onAnvil 0 (fun v => (v.markPlot 0 true).markPlot 1 true)
  s.onHedge (fun h => { h with queue := [{ oneRelease with writes := w, base := 64 * 512, size := 2048 }], honour := true })

/-- A message to the fault unit. -/
def msg (sev : BitVec 2) (q : Option SmithId) : Msg :=
  { source := 0x50, kind := 0x17, sev := sev, addr := 0x1FFFFFFFFFF, detail := 0x7FFFF, raiser := q }

/-- The fault unit with these messages arriving and `n` in its queue. -/
def faultsOf (s : State) (ms : List Msg) (n : Nat) : State :=
  { s with faults := { s.faults with arriving := ms, queue := List.replicate n 7 } }

/-- A record of the event FIFO: header with `p` as priority. -/
def rec_ (id len : Nat) (p : Nat) (ws : List (BitVec 64)) (complete gap : Bool) : Rec :=
  { id := id, len := len, words := BitVec.ofNat 64 (0x5500000 + 8 * p + (len - 1)) :: ws, complete := complete, gap := gap }

/-- The event FIFO changed, the Master Smith waiting. -/
def evqOf (f : Evq → Evq) : State := let s := smithWaits (inMode .forge) 24 (.wns 5); { s with evq := f s.evq }

/-- Two instances, of which this is instance 0; link 0 is UP and leads to instance 1, whose membership is `st`. -/
def ganged (m : Mode) (st : FnState) (want : Bool) : State :=
  let s := (((field (inMode m)).setFld aGANG 1 0 1).setFlag aGNG_CTL 31 true).setFld (aLINK 0) 31 30 2
  (s.onPeer 1 (fun p => { p with fn := { state := st, want := want }, hbAt := 5, mode := 2 })).onLink 0 (fun l => { l with reqCr := 9 })

/-- A link word with this payload, sequence number 1 and a good CRC. -/
def linkWord (n : Nat) : BitVec 1024 :=
  let n := n + 2 ^ 984
  BitVec.ofNat 1024 (n + crc32c (toBytes 124 n) * 2 ^ 992)

/-- A request header of one sector in the first header place of a link word. -/
def linkHeader (op : Nat) : Nat := (1 + op * 2 ^ 4 + 0x40 * 2 ^ 8 + 0x1ABC * 2 ^ 55 + 5 * 2 ^ 68 + 3 * 2 ^ 75 + 4 * 2 ^ 80 + 9 * 2 ^ 83) * 2 ^ 672

/-- Credentials or a heartbeat of instance `id`: `low` holds bits [19:4], `high` bits [120:116]. -/
def control (type low digest sent high id : Nat) : BitVec 128 :=
  BitVec.ofNat 128 (type + low * 2 ^ 4 + digest * 2 ^ 20 + sent * 2 ^ 52 + high * 2 ^ 116 + id * 2 ^ 121)

/-- A control message waits at link 0. -/
def heard (s : State) (m : BitVec 128) : State := s.onLink 0 (fun l => { l with ctrl := [m, 7] })

/-- The reference Master Smith image is accepted and IDLE with event 2 enabled. -/
def served (m : Mode) : State :=
  let s := field (inMode m)
  { s with imageMS := { s.imageMS with accepted := true, length := 16, reference := true } }.onSmith 24
    (fun h => { h with run := .idle, evmask := 0x1FBF })

theorem ne_of_isNone {α : Type} {o : Option α} {a : α} (h : o.isNone = true) : o ≠ some a := by
  intro e; subst e; cases h

/-- No plot of `field` is written. -/
theorem field_plots : ∀ c : Chan, (field (inMode .forge)).anvils[c].plotBase = false ∧
    (field (inMode .forge)).anvils[c].plotExc = [] := by decide +kernel

/-- The reference Master Smith image waits for event `n` alone, with a command handed over and these reports. -/
def answering (s : State) (n : Nat) (task : Task) (rs : List (Chan × Report)) : State :=
  let s := s.onSmith 24 (fun h => { h with evpend := BitVec.ofNat 16 (2 ^ n) })
  { s with prog := { s.prog with task := some task, reports := rs } }

/-- The reference Anvil Smith image of channel 0 is IDLE, with event 1 of this order pending. -/
def ordered (s : State) (x : Order) : State :=
  let s := { s with imageAS := { s.imageAS with accepted := true, length := 16, reference := true }, prog := { s.prog with orders := s.prog.orders.set 0 [x] } }
  s.onSmith 0 (fun h => { h with run := .idle, evmask := 2, evpend := 2 })

/-- A training of set point 1 at its oscillator counts. -/
def counting : Job :=
  { kind := .train 1, steps := [.count 0 true, .baseline], code := 0, maps := [], levels := [], saved := [], counts := [],
    windows := [], cancelled := false }

/-- The MRR that ends an OSC of the Anvil Smith of channel 0. -/
def oscBurst : Burst := { ck := 5, cmd := plainCmd .mrr 0 0 0 (.osc 0), data := none }

/-! ### Worked examples of the spec -/

/-- The first example of 04: 24 channels of 4 GiB, G = 4 KiB. -/
def map24 : State :=
  ((((State.reset.wr aFURROW 0x00041300).setFld aCAP 4 0 4).recap).wr (aMAP 9) 0x920).onAnvil 9 (fun v => v)

/-- The second example of 04: 16 channels of two ranks, a gang of two. -/
def map16 : State :=
  ((((State.reset.wr aFURROW 0x00000400).wr aGANG 0x101).setFld aCAP 4 0 8).recap).wr (aMAP 13) 0x123

theorem test_04_example_24_channels :
    map24.rowSectors = 28 ∧ map24.fld aCAP 26 8 = 86016 ∧ map24.furrow 0x1234567840 = (9, 0xC22E4840) ∧
    plotOf 0xC22E4840 = 49710 ∧ map24.place 9 1817976 = { rank := 0, bank := 5, row := 0x1BBD7 } ∧
    map24.unmap 0 9 0xC22E4840 = 0x1234567840 ∧ abCheckAt 1 = (28, 8) := by decide +kernel

theorem test_04_example_16_channels_in_a_gang :
    map16.rowSectors = 31 ∧ map16.fld aCAP 26 8 = 126976 ∧ map16.gangMap 0x789ABCDC0 = (0, 0x3C4CBCDC0) ∧
    map16.furrow 0x3C4CBCDC0 = (13, 0x3C4CBCC0) ∧ map16.unmap 0 13 0x3C4CBCC0 = 0x789ABCDC0 := by decide +kernel

theorem test_06_adjacency_example :
    let s := ((map24.wr (aADJ 1) 0x66666666))
    [8, 9, 10, 11, 12, 13, 14, 15].map s.physRow = [14, 15, 12, 13, 10, 11, 8, 9] ∧
    s.victims 9 0x1BBD7 = [0x1BBD6, 0x1BBDE] := by decide +kernel

theorem test_09_correction_example :
    abV 0xC22E4840 9 0 0 false = 0x126117242 ∧ toBytes 5 0x126117242 = [0x42, 0x72, 0x11, 0x26, 0x01] ∧
    rsMul 0x10 (rsPow 9) = 0x87 ∧ abDecode [0x10, 0x87, 0xEA, 0xC0] = .fixed false 9 0x10 := by decide +kernel

theorem test_12_late_commit_example : lateCount 1000000 1006500 (3840 * unitsPerNs) (1920 * unitsPerNs) = 8 := by
  decide +kernel

/-- Anvil 3 of the examples of 06 and 12 with `n` owned slots, the multiplier `m` and INTERVAL `i`. -/
def booked (n m i : Nat) : State :=
  let s := (((served .forge).wr aFURROW 0x00041300).setFlag (aMAP 3) 0 true).setBlock 6 950
  let s := ((((s.setFld (aREFRESH 3) 11 0 3906).setFld (aREFRESH 3) 28 26 2).setFld (aHAMMER 3) 20 16 8).setFld (aRETRAIN 3) 15 0 i)
  (((s.setFld (aPLL 3) 2 0 5).setFld (aSLOT 3) 21 11 1024).setFld (aSLOT 3) 10 0 1024).onAnvil 3 (fun v =>
    { v with mult := m, bank0 := (List.range n).map (fun k => (k, if k < 300 then 148 else if k < 620 then 169 else 188)) })

theorem test_12_admission_example :
    (booked 720 0 50).activeLoad 3 none = (861, 972) ∧
    ((booked 0 0 50).onAnvil 3 (fun v => { v with bank1 := (booked 820 0 50).anvils[3].bank0 })).shadowLoad 3 = (974, 972) := by
  decide +kernel

theorem test_13_ageing_example :
    ((field State.reset).onHedge (fun h => { h with fuse := h.fuse.set 102 0xE0000000 })).shiftOf 7 (33810, 40000) = 34 := by
  decide +kernel

/-- No spare of macro 212 is in use. -/
def macro212 : Repair := { macroId := 212, rows := [], cols := [], unrep := false }

theorem test_16_repair_example :
    (macro212.allocate [(40, 7), (40, 9), (41, 7)]) = { macro212 with rows := [40, 41] } := by decide +kernel

/-! ### Well-formedness: an ill-formed term for each check, and a well-formed one beside it -/

def illFormed : List Instr :=
  [.msStart 0xFFFFFFFE, .msStop 0xFFFFFFFD, .asStart 0xFFFFFFFB, .asStop 0xFFFFFFF7, .go 2, .instructionMemoryWrite 0x0FFFFC 1,
   .instructionMemoryWrite 0x100002 1, .instructionMemoryWrite 0x108000 1, .instructionMemoryWrite 0x114000 1,
   .kindleRun 1 0 0 (2 ^ 64), .slotCommit 1 0 0 0 [(1, 5), (1, 6)] false 9, .read 3 1 64 0 5 2 3 0, .read 3 4 64 0 5 2 3 0,
   .invall 0x3F, .mr4Result 2 [1, 2, 3] [], .mr4Result 2 [] [1, 2, 3], .stgo 1 0xFFFFFFFE,
   .quarterEnd true [{ macroId := 2, cells := [(1, 1), (1, 2)], firstAddr := 0, firstBit := 0, fails := 1 }], .comparatorCrossing (700000, 2 ^ 64),
   .sagRelease true 0 9, .temperGo 0x7FFFFFFF, .temperRoundEnd [(1, 1)] 9, .fuseImageRead [] fuses, .fuseImageRead fuses [],
   .loadK1 (keyBeats 1 2 8), .loadK1 [], .loadK2 (keyBeats 0 2 8), .erase (keyBeats 0 2 1), .injectionArm 0xFFFCFFFF,
   .injectionDisarm 0x10000, .flush 2 9, .unalignedAccess 4 none, .unpopulatedAccess 6 none, .bankedAccessRefused 6 none,
   .directRun 0x7FFFFFFF, .clrrep 0x80000000, .xchg 0x80000000 9]

theorem test_ill_formed_terms_are_refused : illFormed.all (fun i => !i.wf) = true := by decide +kernel

def wellFormed : List Instr :=
  [.msStart 1, .msStop 2, .asStart 4, .asStop 8, .go 1, .instructionMemoryWrite 0x100000 1, .instructionMemoryWrite 0x107FFC 1,
   .instructionMemoryWrite 0x113FFC 1, .kindleRun 1 0 0 (2 ^ 64 - 1), .slotCommit 1 0 0 0 [(1, 5), (2, 6)] false 9,
   .read 3 0 64 0 5 2 3 0, .read 3 5 64 0 5 2 3 0, .invall 0x40, .mr4Result 2 [1, 2] [3], .stgo 1 1,
   .quarterEnd true [{ macroId := 2, cells := [(1, 1), (1, 2)], firstAddr := 0, firstBit := 0, fails := 2 }], .comparatorCrossing (700000, 9),
   .sagRelease true 1 9, .temperGo 0x80000000, .temperRoundEnd (List.replicate 32 (1, 1)) 9, .fuseImageRead fuses fuses,
   .loadK1 (keyBeats 0 2 8), .loadK1 (keyBeats 3 2 8), .loadK2 (keyBeats 1 2 8), .erase (keyBeats 2 2 1), .injectionArm 0x10000,
   .injectionDisarm 0xFFFC0000, .flush 1 9, .unalignedAccess 5 none, .unpopulatedAccess 8 none, .bankedAccessRefused 8 none,
   .directRun 0x80000000, .clrrep 0x40000000, .xchg 0x40000000 9]

theorem test_well_formed_terms_pass : wellFormed.all Instr.wf = true := by decide +kernel

/-- No row of the table gives bits. -/
theorem test_no_word_spells_a_command : ∀ nbits w, decodeTableWord nbits w = none ∧ State.reset.withFetchWord nbits w = State.reset :=
  fun _ _ => ⟨rfl, rfl⟩

/-! ### One step on a small state -/

/-- The state that a command answers. -/
def after (i : Instr) (s : State) : State := match exec i s with | .next t => t | _ => s

theorem test_add_wraps :
    let t := after (.add 3 1 2 3) (smithOn (inMode .kindle) 3 (ins 1 0) 0xFFFFFFFE 5)
    t.g 3 1 = 3 ∧ t.g 3 2 = 0xFFFFFFFE ∧ t.smiths[(3 : SmithId)].pc = 1 := by decide +kernel

theorem test_beq_takes_its_branch :
    (after (.beq 24 2 3 5) (smithOn (inMode .kindle) 24 (ins 0x20 5) 7 7)).smiths[masterSmith].pc = 6 := by decide +kernel

theorem test_a_read_only_register_keeps_its_value :
    (after (.registerWrite (BitVec.ofNat 24 aID) 0xFFFFFFFF 9) (inMode .forge)).rd aID = 0x01020000 := by decide +kernel

theorem test_a_misaligned_access_is_answered_with_zero :
    let t := after (.unalignedAccess 5 none) { inMode .forge with hrpRdata := 7 }
    t.hrpRdata = 0 := by decide +kernel

/-! ### The premises of the statements about the whole machine -/

theorem test_premises_of_StepRunsTheFrontCommand :
    let s := { inMode .forge with pending := [.ping 1, .smsgRxLo] }
    let off := (inMode .banked).onModes (fun m => { m with step := .off, held := true })
    s.pending = .ping 1 :: [.smsgRxLo] ∧ (inMode .forge).pending = [] ∧ (inMode .forge).modes.step ≠ .off ∧
      (inMode .banked).modes.held = false ∧ off.modes.step = .off ∧ off.modes.held = true ∧ off.assay.holdExit = false := by
  decide +kernel

theorem test_premises_of_EveryCommandAnswersAndKeepsTheQueue :
    ∃ t, step { inMode .forge with pending := [.faultPulseEnd, .smsgRxLo] } = .next t := ⟨_, rfl⟩

theorem test_premises_of_EveryStepKeepsMemoriesCanonical :
    (inMode .forge).Canonical ∧ ∃ t, step { inMode .forge with pending := [.faultPulseEnd] } = .next t :=
  ⟨⟨by decide +kernel, by decide +kernel, by decide +kernel, by decide +kernel, by decide +kernel, by decide +kernel⟩, _, rfl⟩

theorem test_premises_of_EveryStepKeepsModeAndFaultQueueLegal :
    let s := { faultsOf (inMode .forge) [msg 1 none] 64 with pending := [.modeRequest 0x40000000] }
    Memory.wf resetWord s.regs = true ∧ s.fld aMODE 2 0 = s.modes.mode.code ∧ s.faults.queue.length ≤ 64 ∧
      s.pending.head? ≠ some .resetAssert ∧ s.hrpHeld = [] ∧ ∃ t, step s = .next t :=
  ⟨by decide +kernel, by decide +kernel, by decide +kernel, by decide +kernel, by decide +kernel, _, rfl⟩

theorem test_premises_of_LockedMappingChangesOnlyAtReset :
    let s := { (inMode .forge).setFlag aCAP 31 true with pending := [.registerWrite (BitVec.ofNat 24 aFURROW) 0xFFFFFFFF 9] }
    let r := { s with pending := [.resetAssert] }
    (Memory.wf resetWord s.regs = true ∧ s.flag aCAP 31 = true ∧ s.pending.head? ≠ some .resetAssert ∧ ∃ t, step s = .next t) ∧
    (r.flag aCAP 31 = true ∧ r.pending.head? = some .resetAssert ∧ r.modes.pinsLow = false ∧ ∃ t, step r = .next t) :=
  ⟨⟨by decide +kernel, by decide +kernel, by decide +kernel, _, rfl⟩, by decide +kernel, by decide +kernel, by decide +kernel, _, rfl⟩

theorem test_premises_of_HostReadsRevealNoKey :
    let s := keyed .on true (some 1) (some 2)
    let fuse := s.hedge.fuse.set 91 7
    let regions := s.hedge.regions.set 2 { s.hedge.regions[(2 : RegionId)] with k1 := some 5 }
    let a : Nat := 0x2800 + 4 * 91
    (∀ i : Fin 128, (i.val < 91 ∨ 98 < i.val) → fuse[i] = s.hedge.fuse[i]) ∧
    (∀ r : RegionId, regions[r].fn = s.hedge.regions[r].fn ∧ regions[r].k1.isSome = s.hedge.regions[r].k1.isSome ∧
      regions[r].k2.isSome = s.hedge.regions[r].k2.isSome) ∧
    s.modes.mode ≠ .cold ∧ a % 4 = 0 ∧ a ≤ 0x2800 + 4 * 98 := by decide +kernel

/-- Which quarter tests macro 77 is open, so the quarter of the run is that one. -/
theorem test_premises_of_AssayRuns_a_macro_fails :
    let f : MacroFinding := { macroId := 77, cells := [(3, 4)], firstAddr := 3, firstBit := 4, fails := 70000 }
    let q := macroQuarter 77
    let s := let s := inMode .kindle; { s with assay := { s.assay with run := some (.automatic, [q, 2]) } }
    s.assay.run = some (.automatic, q :: [2]) ∧ q < 4 ∧ RunKind.automatic ≠ RunKind.direct ∧ s.hrpHeld = [] ∧ [2] ≠ ([] : List Nat) ∧
      macroQuarter f.macroId = q ∧ s.assay.repairs = [] ∧ f.cells = [(3, 4)] := by
  have hq : macroQuarter 77 < 4 := by unfold macroQuarter; split <;> exact Nat.mod_lt _ (by decide)
  exact ⟨rfl, hq, by decide, by decide +kernel, by decide, rfl, by decide +kernel, rfl⟩

/-! ### The premises of the statements, clause by clause -/

theorem test_premises_of_SmithArithmeticWritesResultOfTable28 :
    let m : SmithId := 3
    let d : RegNo := 1
    let a : RegNo := 2
    let b : RegNo := 3
    let imm : BitVec 14 := 0x3FF3
    let i18 : BitVec 18 := 0xFFF3
    (let s : State := smithOn (inMode .kindle) 3 (ins 1 0x3FF3) 0xFFFFFFFE 0x80000021
     let next : Nat := s.smiths[m].pc.toNat + 1
     s.ready m { op := 1, d := some d, a := some a, b := some b } = true ∧ GoesOn s m next) ∧
    (let s : State := smithOn (inMode .kindle) 3 (ins 2 0x3FF3) 0xFFFFFFFE 0x80000021
     let next : Nat := s.smiths[m].pc.toNat + 1
     s.ready m { op := 2, d := some d, a := some a, b := some b } = true ∧ GoesOn s m next) ∧
    (let s : State := smithOn (inMode .kindle) 3 (ins 3 0x3FF3) 0xFFFFFFFE 0x80000021
     let next : Nat := s.smiths[m].pc.toNat + 1
     s.ready m { op := 3, d := some d, a := some a, b := some b } = true ∧ GoesOn s m next) ∧
    (let s : State := smithOn (inMode .kindle) 3 (ins 4 0x3FF3) 0xFFFFFFFE 0x80000021
     let next : Nat := s.smiths[m].pc.toNat + 1
     s.ready m { op := 4, d := some d, a := some a, b := some b } = true ∧ GoesOn s m next) ∧
    (let s : State := smithOn (inMode .kindle) 3 (ins 5 0x3FF3) 0xFFFFFFFE 0x80000021
     let next : Nat := s.smiths[m].pc.toNat + 1
     s.ready m { op := 5, d := some d, a := some a, b := some b } = true ∧ GoesOn s m next) ∧
    (let s : State := smithOn (inMode .kindle) 3 (ins 6 0x3FF3) 0xFFFFFFFE 0x80000021
     let next : Nat := s.smiths[m].pc.toNat + 1
     s.ready m { op := 6, d := some d, a := some a, b := some b } = true ∧ GoesOn s m next) ∧
    (let s : State := smithOn (inMode .kindle) 3 (ins 7 0x3FF3) 0xFFFFFFFE 0x80000021
     let next : Nat := s.smiths[m].pc.toNat + 1
     s.ready m { op := 7, d := some d, a := some a, b := some b } = true ∧ GoesOn s m next) ∧
    (let s : State := smithOn (inMode .kindle) 3 (ins 8 0x3FF3) 0xFFFFFFFE 0x80000021
     let next : Nat := s.smiths[m].pc.toNat + 1
     s.ready m { op := 8, d := some d, a := some a, b := some b } = true ∧ GoesOn s m next) ∧
    (let s : State := smithOn (inMode .kindle) 3 (ins 9 0x3FF3) 0xFFFFFFFE 0x80000021
     let next : Nat := s.smiths[m].pc.toNat + 1
     s.ready m { op := 9, d := some d, a := some a, b := some b } = true ∧ GoesOn s m next) ∧
    (let s : State := smithOn (inMode .kindle) 3 (ins 10 0x3FF3) 0xFFFFFFFE 0x80000021
     let next : Nat := s.smiths[m].pc.toNat + 1
     s.ready m { op := 10, d := some d, a := some a, b := some b } = true ∧ GoesOn s m next) ∧
    (let s : State := smithOn (inMode .kindle) 3 (ins 11 0x3FF3) 0xFFFFFFFE 0x80000021
     let next : Nat := s.smiths[m].pc.toNat + 1
     s.ready m { op := 11, d := some d, a := some a, b := some b } = true ∧ GoesOn s m next) ∧
    (let s : State := smithOn (inMode .kindle) 3 (ins 16 0x3FF3) 0xFFFFFFFE 0x80000021
     let next : Nat := s.smiths[m].pc.toNat + 1
     s.ready m { op := 16, d := some d, a := some a, imm := some imm } = true ∧ GoesOn s m next) ∧
    (let s : State := smithOn (inMode .kindle) 3 (ins 17 0x3FF3) 0xFFFFFFFE 0x80000021
     let next : Nat := s.smiths[m].pc.toNat + 1
     s.ready m { op := 17, d := some d, a := some a, imm := some imm } = true ∧ GoesOn s m next) ∧
    (let s : State := smithOn (inMode .kindle) 3 (ins 18 0x3FF3) 0xFFFFFFFE 0x80000021
     let next : Nat := s.smiths[m].pc.toNat + 1
     s.ready m { op := 18, d := some d, a := some a, imm := some imm } = true ∧ GoesOn s m next) ∧
    (let s : State := smithOn (inMode .kindle) 3 (ins 19 0x3FF3) 0xFFFFFFFE 0x80000021
     let next : Nat := s.smiths[m].pc.toNat + 1
     s.ready m { op := 19, d := some d, a := some a, imm := some imm } = true ∧ GoesOn s m next) ∧
    (let s : State := smithOn (inMode .kindle) 3 (ins 20 0x3FF3) 0xFFFFFFFE 0x80000021
     let next : Nat := s.smiths[m].pc.toNat + 1
     s.ready m { op := 20, d := some d, a := some a, imm := some imm } = true ∧ GoesOn s m next) ∧
    (let s : State := smithOn (inMode .kindle) 3 (ins 21 0x3FF3) 0xFFFFFFFE 0x80000021
     let next : Nat := s.smiths[m].pc.toNat + 1
     s.ready m { op := 21, d := some d, a := some a, imm := some imm } = true ∧ GoesOn s m next) ∧
    (let s : State := smithOn (inMode .kindle) 3 (ins 22 0x3FF3) 0xFFFFFFFE 0x80000021
     let next : Nat := s.smiths[m].pc.toNat + 1
     s.ready m { op := 22, d := some d, imm18 := some i18 } = true ∧ GoesOn s m next) := by
  dsimp only [GoesOn]
  refine ⟨?_, ?_, ?_, ?_, ?_, ?_, ?_, ?_, ?_, ?_, ?_, ?_, ?_, ?_, ?_, ?_, ?_, ?_⟩ <;> decide +kernel

theorem test_premises_of_SmithBranchesAndJumpsSetPc :
    let m : SmithId := 24
    let a : RegNo := 2
    let b : RegNo := 3
    let imm : BitVec 14 := 5
    let d : RegNo := 1
    (let s : State := smithOn (inMode .kindle) 24 (ins 0x20 5) 7 7
     let x : Word := s.g m a
     let y : Word := s.g m b
     let next : Nat := s.smiths[m].pc.toNat + 1
     let away : Nat := ((next.cast + imm.toInt) % 2 ^ 32).toNat
     s.ready m { op := 32, a := some a, b := some b, imm := some imm } = true ∧ x = y ∧ GoesOn s m away) ∧
    (let s : State := smithOn (inMode .kindle) 24 (ins 0x20 5) 7 8
     let x : Word := s.g m a
     let y : Word := s.g m b
     let next : Nat := s.smiths[m].pc.toNat + 1
     s.ready m { op := 32, a := some a, b := some b, imm := some imm } = true ∧ ¬x = y ∧ GoesOn s m next) ∧
    (let s : State := smithOn (inMode .kindle) 24 (ins 0x21 5) 7 8
     let x : Word := s.g m a
     let y : Word := s.g m b
     let next : Nat := s.smiths[m].pc.toNat + 1
     let away : Nat := ((next.cast + imm.toInt) % 2 ^ 32).toNat
     s.ready m { op := 33, a := some a, b := some b, imm := some imm } = true ∧ x ≠ y ∧ GoesOn s m away) ∧
    (let s : State := smithOn (inMode .kindle) 24 (ins 0x21 5) 7 7
     let x : Word := s.g m a
     let y : Word := s.g m b
     let next : Nat := s.smiths[m].pc.toNat + 1
     s.ready m { op := 33, a := some a, b := some b, imm := some imm } = true ∧ ¬x ≠ y ∧ GoesOn s m next) ∧
    (let s : State := smithOn (inMode .kindle) 24 (ins 0x22 5) 0xFFFFFFFF 0
     let x : Word := s.g m a
     let y : Word := s.g m b
     let next : Nat := s.smiths[m].pc.toNat + 1
     let away : Nat := ((next.cast + imm.toInt) % 2 ^ 32).toNat
     s.ready m { op := 34, a := some a, b := some b, imm := some imm } = true ∧ BitVec.toInt x < BitVec.toInt y ∧ GoesOn s m away) ∧
    (let s : State := smithOn (inMode .kindle) 24 (ins 0x22 5) 7 7
     let x : Word := s.g m a
     let y : Word := s.g m b
     let next : Nat := s.smiths[m].pc.toNat + 1
     s.ready m { op := 34, a := some a, b := some b, imm := some imm } = true ∧ ¬BitVec.toInt x < BitVec.toInt y ∧ GoesOn s m next) ∧
    (let s : State := smithOn (inMode .kindle) 24 (ins 0x23 5) 7 7
     let x : Word := s.g m a
     let y : Word := s.g m b
     let next : Nat := s.smiths[m].pc.toNat + 1
     let away : Nat := ((next.cast + imm.toInt) % 2 ^ 32).toNat
     s.ready m { op := 35, a := some a, b := some b, imm := some imm } = true ∧ BitVec.toInt y ≤ BitVec.toInt x ∧ GoesOn s m away) ∧
    (let s : State := smithOn (inMode .kindle) 24 (ins 0x23 5) 0xFFFFFFFF 0
     let x : Word := s.g m a
     let y : Word := s.g m b
     let next : Nat := s.smiths[m].pc.toNat + 1
     s.ready m { op := 35, a := some a, b := some b, imm := some imm } = true ∧ ¬BitVec.toInt y ≤ BitVec.toInt x ∧ GoesOn s m next) ∧
    (let s : State := smithOn (inMode .kindle) 24 (ins 0x24 5) 0 0
     let next : Nat := s.smiths[m].pc.toNat + 1
     let away : Nat := ((next.cast + imm.toInt) % 2 ^ 32).toNat
     s.ready m { op := 36, d := some d, imm := some imm } = true ∧ GoesOn s m away) ∧
    (let s : State := smithOn (inMode .kindle) 24 (ins 0x25 5) 0xFFFFFFFD 0
     let x : Word := s.g m a
     let to_ : Nat := BitVec.toNat (x + BitVec.ofInt 32 imm.toInt)
     s.ready m { op := 37, a := some a, imm := some imm } = true ∧ GoesOn s m to_) ∧
    (let s : State := smithOn (inMode .kindle) 24 (ins 0x27 5) 0 0
     s.ready m { op := 39 } = true ∧ s.smiths[m].stopReq = false) := by
  dsimp only [GoesOn]
  decide +kernel

theorem test_premises_of_SmithFaultStopsAndReports :
    let m : SmithId := 3
    let d : RegNo := 1
    let a : RegNo := 2
    let b : RegNo := 3
    let imm : BitVec 14 := 5
    let j : Nat := 1
    let taken : Msg := msg 3 (some 3)
    (let s : State := let s := smithOn (inMode .kindle) 3 (ins 1 5) 7 7; { s with imageAS := { s.imageAS with length := 1 } }
     let h : Smith := s.smiths[m]
     let pc : Nat := h.pc.toNat
     let next : Nat := (wrapPc m (pc + 1)).toNat
     s.ready m { op := 1, d := some d, a := some a, b := some b } = true ∧ h.stopReq = false ∧ (s.image m).length ≤ next) ∧
    (let s : State := let s := smithOn (inMode .kindle) 3 (ins 1 5) 7 7; { s with imageAS := { s.imageAS with mem := WMem.set s.imageAS.mem 1 0 } }
     let h : Smith := s.smiths[m]
     let pc : Nat := h.pc.toNat
     let next : Nat := (wrapPc m (pc + 1)).toNat
     s.ready m { op := 1, d := some d, a := some a, b := some b } = true ∧ h.stopReq = false ∧ next < (s.image m).length ∧ opcodes.contains (opcodeOf ((s.image m).mem.get next)) = false) ∧
    (let s : State := smithOn (inMode .kindle) 3 (ins 0x18 5) 8 7
     let x : Nat := BitVec.toNat (s.g m a + BitVec.ofInt 32 imm.toInt)
     (x % 4 ≠ 0 ∨ dmemBytes m ≤ x) ∧ s.ready m { op := 24, d := some d, a := some a, imm := some imm } = true) ∧
    (let s : State := smithOn (inMode .kindle) 3 (ins 0x19 5) 0 7
     let x : Nat := BitVec.toNat (s.g m a + BitVec.ofInt 32 imm.toInt)
     (x % 4 ≠ 0 ∨ dmemBytes m ≤ x) ∧ s.ready m { op := 25, d := some d, a := some a, imm := some imm } = true) ∧
    (let s : State := smithOn (inMode .kindle) 3 (ins 0x1C 5) 0x210000 7
     let x : Nat := BitVec.toNat (s.g m a + BitVec.ofInt 32 imm.toInt)
     csrReach m (x % 2 ^ 24) false = false ∧ s.ready m { op := 28, d := some d, a := some a, imm := some imm } = true) ∧
    (let s : State := smithOn (inMode .kindle) 3 (ins 0x1D 5) 0x210000 7
     let x : Nat := BitVec.toNat (s.g m a + BitVec.ofInt 32 imm.toInt)
     csrReach m (x % 2 ^ 24) true = false ∧ s.ready m { op := 29, a := some a, b := some b, imm := some imm } = true) ∧
    (let s : State := faultsOf (smithWaits (inMode .kindle) 3 (.raise true)) [{ msg 0 none with source := 1 }, msg 3 (some 3)] 9
     let h : Smith := s.smiths[m]
     s.faults.arriving[j]? = some taken ∧ taken.raiser = some m ∧ h.wait = some (Wait.raise true) ∧ (∀ e ∈ List.take j
     s.faults.arriving, e.source ≠ taken.source) ∧ (taken.sev.toNat < 2 ∨ s.faults.queue.length < 64)) := by
  dsimp only
  decide +kernel

theorem test_premises_of_SmithDataMemoryLoadAndStore :
    let m : SmithId := 3
    let d : RegNo := 1
    let a : RegNo := 2
    let imm : BitVec 14 := 4
    (let s : State := (smithOn (inMode .kindle) 3 (ins 0x18 4) 0xFF8 7).onSmith 3 (fun h => { h with dmem := WMem.set h.dmem 0x3FF 77 })
     let x : Nat := BitVec.toNat (s.g m a + BitVec.ofInt 32 imm.toInt)
     let next : Nat := s.smiths[m].pc.toNat + 1
     x % 4 = 0 ∧ x < dmemBytes m ∧ GoesOn s m next ∧ s.ready m { op := 24, d := some d, a := some a, imm := some imm } = true) ∧
    (let s : State := (smithOn (inMode .kindle) 3 (ins 0x19 4) 0xFF8 7).onSmith 3 (fun h => { h with g := h.g.set 1 99 })
     let x : Nat := BitVec.toNat (s.g m a + BitVec.ofInt 32 imm.toInt)
     let next : Nat := s.smiths[m].pc.toNat + 1
     x % 4 = 0 ∧ x < dmemBytes m ∧ GoesOn s m next ∧ s.ready m { op := 25, d := some d, a := some a, imm := some imm } = true) := by
  dsimp only [GoesOn]
  decide +kernel

theorem test_premises_of_SmithCsrAccessesOfLocalRegisters :
    let d : RegNo := 1
    let a : RegNo := 2
    let imm : BitVec 14 := 0
    let b : RegNo := 3
    let now : Nat := 9
    let k : Fin 4 := 2
    let n : Fin 16 := 5
    (let s : State := (smithOn (inMode .kindle) 3 (ins 0x1C 0) 0xFFFF08 0xF0F7).onSmith 3 (fun h => { h with evmask := 0x1234, sigset := 0x1000003 })
     let m : SmithId := 3
     let h : Smith := s.smiths[m]
     let x : Nat := BitVec.toNat (s.g m a + BitVec.ofInt 32 imm.toInt) % 2 ^ 24
     let next : Nat := h.pc.toNat + 1
     s.ready m { op := 28, d := some d, a := some a, imm := some imm } = true ∧ csrReach m x false = true ∧ GoesOn s m next) ∧
    (let s : State := (smithOn (inMode .kindle) 3 (ins 0x1D 0) 0xFFFF08 0xF0F7).onSmith 3 (fun h => { h with evmask := 0x1234, sigset := 0x1000003 })
     let m : SmithId := 3
     let h : Smith := s.smiths[m]
     let x : Nat := BitVec.toNat (s.g m a + BitVec.ofInt 32 imm.toInt) % 2 ^ 24
     let v : Word := s.g m b
     let next : Nat := h.pc.toNat + 1
     let written : State := (s.at now).csrWrite m x v
     let lets : State → Prop := fun u => u.smiths[m].run = SmithRun.running ∧ u.smiths[m].pc = h.pc ∧ GoesOn u m next
     csrReach m x true = true ∧ s.ready m { op := 29, a := some a, b := some b, imm := some imm } = true ∧ lets written) ∧
    (let s : State := (smithOn (inMode .kindle) 3 (ins 0x1E 0) 0xFFFF08 0xF0F7).onSmith 3 (fun h => { h with evmask := 0x1234, sigset := 0x1000003 })
     let m : SmithId := 3
     let h : Smith := s.smiths[m]
     let x : Nat := BitVec.toNat (s.g m a + BitVec.ofInt 32 imm.toInt) % 2 ^ 24
     let v : Word := s.g m b
     let next : Nat := h.pc.toNat + 1
     let read : Word × State := (s.at now).csrRead m x
     let modified : Bool → State := fun set => (if steppedWindow x = true then s.at now else read.2).csrWrite m x (rmwWord
       set x read.1 v)
     let lets : State → Prop := fun u => u.smiths[m].run = SmithRun.running ∧ u.smiths[m].pc = h.pc ∧ GoesOn u m next
     csrReach m x true = true ∧ s.ready m { op := 30, d := some d, a := some a, b := some b, imm := some imm } = true ∧ lets (modified true)) ∧
    (let s : State := (smithOn (inMode .kindle) 3 (ins 0x1F 0) 0xFFFF08 0xF0F7).onSmith 3 (fun h => { h with evmask := 0x1234, sigset := 0x1000003 })
     let m : SmithId := 3
     let h : Smith := s.smiths[m]
     let x : Nat := BitVec.toNat (s.g m a + BitVec.ofInt 32 imm.toInt) % 2 ^ 24
     let v : Word := s.g m b
     let next : Nat := h.pc.toNat + 1
     let read : Word × State := (s.at now).csrRead m x
     let modified : Bool → State := fun set => (if steppedWindow x = true then s.at now else read.2).csrWrite m x (rmwWord
       set x read.1 v)
     let lets : State → Prop := fun u => u.smiths[m].run = SmithRun.running ∧ u.smiths[m].pc = h.pc ∧ GoesOn u m next
     csrReach m x true = true ∧ s.ready m { op := 31, d := some d, a := some a, b := some b, imm := some imm } = true ∧ lets (modified false)) ∧
    (let s : State := (smithOn (inMode .kindle) 24 (ins 0x1C 0) 0x208 0xF0F7).setFld (aSCRATCH 2) 31 0 0x1234
     let m : SmithId := 24
     let h : Smith := s.smiths[m]
     let x : Nat := BitVec.toNat (s.g m a + BitVec.ofInt 32 imm.toInt) % 2 ^ 24
     let next : Nat := h.pc.toNat + 1
     m = masterSmith ∧ x = 512 + 4 * k.val ∧ GoesOn s m next ∧ s.ready m { op := 28, d := some d, a := some a, imm := some imm } = true) ∧
    (let s : State := (smithOn (inMode .kindle) 24 (ins 0x1D 0) 0x208 0xF0F7).setFld (aSCRATCH 2) 31 0 0x1234
     let m : SmithId := 24
     let h : Smith := s.smiths[m]
     let x : Nat := BitVec.toNat (s.g m a + BitVec.ofInt 32 imm.toInt) % 2 ^ 24
     let next : Nat := h.pc.toNat + 1
     m = masterSmith ∧ x = 512 + 4 * k.val ∧ GoesOn s m next ∧ s.ready m { op := 29, a := some a, b := some b, imm := some imm } = true) ∧
    (let s : State := (smithOn (inMode .kindle) 24 (ins 0x1E 0) 0x208 0xF0F7).setFld (aSCRATCH 2) 31 0 0x1234
     let m : SmithId := 24
     let h : Smith := s.smiths[m]
     let x : Nat := BitVec.toNat (s.g m a + BitVec.ofInt 32 imm.toInt) % 2 ^ 24
     let next : Nat := h.pc.toNat + 1
     m = masterSmith ∧ x = 512 + 4 * k.val ∧ GoesOn s m next ∧ s.ready m { op := 30, d := some d, a := some a, b := some b, imm := some imm } = true) ∧
    (let s : State := (smithOn (inMode .kindle) 24 (ins 0x1F 0) 0x208 0xF0F7).setFld (aSCRATCH 2) 31 0 0x1234
     let m : SmithId := 24
     let h : Smith := s.smiths[m]
     let x : Nat := BitVec.toNat (s.g m a + BitVec.ofInt 32 imm.toInt) % 2 ^ 24
     let next : Nat := h.pc.toNat + 1
     m = masterSmith ∧ x = 512 + 4 * k.val ∧ GoesOn s m next ∧ s.ready m { op := 31, d := some d, a := some a, b := some b, imm := some imm } = true) ∧
    (let s : State := (smithOn (inMode .kindle) 3 (ins 0x1C 0) 0xFFFF00 0x7).onSmith 3 (fun h => { h with evpend := 0x8421, evmask := 0x1234, evcause := 7, tick := 55, sigset := 0x1000003 , vec := h.vec.set 5 0x80000004 })
     let m : SmithId := 3
     let h : Smith := s.smiths[m]
     let x : Nat := BitVec.toNat (s.g m a + BitVec.ofInt 32 imm.toInt) % 2 ^ 24
     let next : Nat := h.pc.toNat + 1
     GoesOn s m next ∧ s.ready m { op := 28, d := some d, a := some a, imm := some imm } = true ∧ x = 16776960) ∧
    (let s : State := (smithOn (inMode .kindle) 3 (ins 0x1C 0) 0xFFFF04 0x7).onSmith 3 (fun h => { h with evpend := 0x8421, evmask := 0x1234, evcause := 7, tick := 55, sigset := 0x1000003 , vec := h.vec.set 5 0x80000004 })
     let m : SmithId := 3
     let h : Smith := s.smiths[m]
     let x : Nat := BitVec.toNat (s.g m a + BitVec.ofInt 32 imm.toInt) % 2 ^ 24
     let next : Nat := h.pc.toNat + 1
     GoesOn s m next ∧ s.ready m { op := 28, d := some d, a := some a, imm := some imm } = true ∧ x = 16776964) ∧
    (let s : State := (smithOn (inMode .kindle) 3 (ins 0x1C 0) 0xFFFF08 0x7).onSmith 3 (fun h => { h with evpend := 0x8421, evmask := 0x1234, evcause := 7, tick := 55, sigset := 0x1000003 , vec := h.vec.set 5 0x80000004 })
     let m : SmithId := 3
     let h : Smith := s.smiths[m]
     let x : Nat := BitVec.toNat (s.g m a + BitVec.ofInt 32 imm.toInt) % 2 ^ 24
     let next : Nat := h.pc.toNat + 1
     GoesOn s m next ∧ s.ready m { op := 28, d := some d, a := some a, imm := some imm } = true ∧ x = 16776968) ∧
    (let s : State := (smithOn (inMode .kindle) 3 (ins 0x1C 0) 0xFFFF0C 0x7).onSmith 3 (fun h => { h with evpend := 0x8421, evmask := 0x1234, evcause := 7, tick := 55, sigset := 0x1000003 , vec := h.vec.set 5 0x80000004 })
     let m : SmithId := 3
     let h : Smith := s.smiths[m]
     let x : Nat := BitVec.toNat (s.g m a + BitVec.ofInt 32 imm.toInt) % 2 ^ 24
     let next : Nat := h.pc.toNat + 1
     GoesOn s m next ∧ s.ready m { op := 28, d := some d, a := some a, imm := some imm } = true ∧ x = 16776972) ∧
    (let s : State := (smithOn (inMode .kindle) 3 (ins 0x1C 0) 0xFFFF10 0x7).onSmith 3 (fun h => { h with evpend := 0x8421, evmask := 0x1234, evcause := 7, tick := 55, sigset := 0x1000003 , vec := h.vec.set 5 0x80000004 })
     let m : SmithId := 3
     let h : Smith := s.smiths[m]
     let x : Nat := BitVec.toNat (s.g m a + BitVec.ofInt 32 imm.toInt) % 2 ^ 24
     let next : Nat := h.pc.toNat + 1
     GoesOn s m next ∧ s.ready m { op := 28, d := some d, a := some a, imm := some imm } = true ∧ x = 16776976) ∧
    (let s : State := (smithOn (inMode .kindle) 3 (ins 0x1C 0) 0xFFFF14 0x7).onSmith 3 (fun h => { h with evpend := 0x8421, evmask := 0x1234, evcause := 7, tick := 55, sigset := 0x1000003 , vec := h.vec.set 5 0x80000004 })
     let m : SmithId := 3
     let h : Smith := s.smiths[m]
     let x : Nat := BitVec.toNat (s.g m a + BitVec.ofInt 32 imm.toInt) % 2 ^ 24
     let next : Nat := h.pc.toNat + 1
     GoesOn s m next ∧ s.ready m { op := 28, d := some d, a := some a, imm := some imm } = true ∧ x = 16776980) ∧
    (let s : State := (smithOn (inMode .kindle) 3 (ins 0x1C 0) 0xFFFF54 0x7).onSmith 3 (fun h => { h with evpend := 0x8421, evmask := 0x1234, evcause := 7, tick := 55, sigset := 0x1000003 , vec := h.vec.set 5 0x80000004 })
     let m : SmithId := 3
     let h : Smith := s.smiths[m]
     let x : Nat := BitVec.toNat (s.g m a + BitVec.ofInt 32 imm.toInt) % 2 ^ 24
     let next : Nat := h.pc.toNat + 1
     GoesOn s m next ∧ s.ready m { op := 28, d := some d, a := some a, imm := some imm } = true ∧ x = 16777024 + 4 * n.val) ∧
    (let s : State := (smithOn (inMode .kindle) 3 (ins 0x1D 0) 0xFFFF00 0xF0F7).onSmith 3 (fun h => { h with evpend := 0x8421, evmask := 0x1234, evcause := 7, tick := 55, sigset := 0x1000003 , vec := h.vec.set 5 0x80000004 })
     let m : SmithId := 3
     let h : Smith := s.smiths[m]
     let x : Nat := BitVec.toNat (s.g m a + BitVec.ofInt 32 imm.toInt) % 2 ^ 24
     let next : Nat := h.pc.toNat + 1
     GoesOn s m next ∧ s.ready m { op := 29, a := some a, b := some b, imm := some imm } = true ∧ (x = 16776960 ∨ x = 16776972)) ∧
    (let s : State := (smithOn (inMode .kindle) 3 (ins 0x1D 0) 0xFFFF04 0xF0F7).onSmith 3 (fun h => { h with evpend := 0x8421, evmask := 0x1234, evcause := 7, tick := 55, sigset := 0x1000003 , vec := h.vec.set 5 0x80000004 })
     let m : SmithId := 3
     let h : Smith := s.smiths[m]
     let x : Nat := BitVec.toNat (s.g m a + BitVec.ofInt 32 imm.toInt) % 2 ^ 24
     let next : Nat := h.pc.toNat + 1
     GoesOn s m next ∧ s.ready m { op := 29, a := some a, b := some b, imm := some imm } = true ∧ x = 16776964) ∧
    (let s : State := (smithOn (inMode .kindle) 3 (ins 0x1D 0) 0xFFFF08 0xF0F7).onSmith 3 (fun h => { h with evpend := 0x8421, evmask := 0x1234, evcause := 7, tick := 55, sigset := 0x1000003 , vec := h.vec.set 5 0x80000004 })
     let m : SmithId := 3
     let h : Smith := s.smiths[m]
     let x : Nat := BitVec.toNat (s.g m a + BitVec.ofInt 32 imm.toInt) % 2 ^ 24
     let next : Nat := h.pc.toNat + 1
     GoesOn s m next ∧ s.ready m { op := 29, a := some a, b := some b, imm := some imm } = true ∧ x = 16776968) ∧
    (let s : State := (smithOn (inMode .kindle) 3 (ins 0x1D 0) 0xFFFF10 0xF0F7).onSmith 3 (fun h => { h with evpend := 0x8421, evmask := 0x1234, evcause := 7, tick := 55, sigset := 0x1000003 , vec := h.vec.set 5 0x80000004 })
     let m : SmithId := 3
     let h : Smith := s.smiths[m]
     let x : Nat := BitVec.toNat (s.g m a + BitVec.ofInt 32 imm.toInt) % 2 ^ 24
     let next : Nat := h.pc.toNat + 1
     GoesOn s m next ∧ s.ready m { op := 29, a := some a, b := some b, imm := some imm } = true ∧ x = 16776976) ∧
    (let s : State := (smithOn (inMode .kindle) 3 (ins 0x1D 0) 0xFFFF14 0xF0F7).onSmith 3 (fun h => { h with evpend := 0x8421, evmask := 0x1234, evcause := 7, tick := 55, sigset := 0x1000003 , vec := h.vec.set 5 0x80000004 })
     let m : SmithId := 3
     let h : Smith := s.smiths[m]
     let x : Nat := BitVec.toNat (s.g m a + BitVec.ofInt 32 imm.toInt) % 2 ^ 24
     let next : Nat := h.pc.toNat + 1
     GoesOn s m next ∧ s.ready m { op := 29, a := some a, b := some b, imm := some imm } = true ∧ x = 16776980) ∧
    (let s : State := (smithOn (inMode .kindle) 3 (ins 0x1D 0) 0xFFFF54 0xF0F7).onSmith 3 (fun h => { h with evpend := 0x8421, evmask := 0x1234, evcause := 7, tick := 55, sigset := 0x1000003 , vec := h.vec.set 5 0x80000004 })
     let m : SmithId := 3
     let h : Smith := s.smiths[m]
     let x : Nat := BitVec.toNat (s.g m a + BitVec.ofInt 32 imm.toInt) % 2 ^ 24
     let next : Nat := h.pc.toNat + 1
     GoesOn s m next ∧ s.ready m { op := 29, a := some a, b := some b, imm := some imm } = true ∧ x = 16777024 + 4 * n.val) ∧
    (let s : State := (smithOn (inMode .kindle) 3 (ins 0x1E 0) 0xFFFF08 0xF0F7).onSmith 3 (fun h => { h with evpend := 0x8421, evmask := 0x1234, evcause := 7, tick := 55, sigset := 0x1000003 , vec := h.vec.set 5 0x80000004 })
     let m : SmithId := 3
     let h : Smith := s.smiths[m]
     let x : Nat := BitVec.toNat (s.g m a + BitVec.ofInt 32 imm.toInt) % 2 ^ 24
     let next : Nat := h.pc.toNat + 1
     GoesOn s m next ∧ s.ready m { op := 30, d := some d, a := some a, b := some b, imm := some imm } = true ∧ x = 16776968) ∧
    (let s : State := (smithOn (inMode .kindle) 3 (ins 0x1E 0) 0xFFFF04 0xF0F7).onSmith 3 (fun h => { h with evpend := 0x8421, evmask := 0x1234, evcause := 7, tick := 55, sigset := 0x1000003 , vec := h.vec.set 5 0x80000004 })
     let m : SmithId := 3
     let h : Smith := s.smiths[m]
     let x : Nat := BitVec.toNat (s.g m a + BitVec.ofInt 32 imm.toInt) % 2 ^ 24
     let next : Nat := h.pc.toNat + 1
     GoesOn s m next ∧ s.ready m { op := 30, d := some d, a := some a, b := some b, imm := some imm } = true ∧ x = 16776964) ∧
    (let s : State := (smithOn (inMode .kindle) 3 (ins 0x1F 0) 0xFFFF08 0xF0F7).onSmith 3 (fun h => { h with evpend := 0x8421, evmask := 0x1234, evcause := 7, tick := 55, sigset := 0x1000003 , vec := h.vec.set 5 0x80000004 })
     let m : SmithId := 3
     let h : Smith := s.smiths[m]
     let x : Nat := BitVec.toNat (s.g m a + BitVec.ofInt 32 imm.toInt) % 2 ^ 24
     let next : Nat := h.pc.toNat + 1
     GoesOn s m next ∧ s.ready m { op := 31, d := some d, a := some a, b := some b, imm := some imm } = true ∧ x = 16776968) ∧
    (let s : State := (smithOn (inMode .kindle) 3 (ins 0x1F 0) 0xFFFF04 0xF0F7).onSmith 3 (fun h => { h with evpend := 0x8421, evmask := 0x1234, evcause := 7, tick := 55, sigset := 0x1000003 , vec := h.vec.set 5 0x80000004 })
     let m : SmithId := 3
     let h : Smith := s.smiths[m]
     let x : Nat := BitVec.toNat (s.g m a + BitVec.ofInt 32 imm.toInt) % 2 ^ 24
     let next : Nat := h.pc.toNat + 1
     GoesOn s m next ∧ s.ready m { op := 31, d := some d, a := some a, b := some b, imm := some imm } = true ∧ x = 16776964) := by
  dsimp only [GoesOn]
  refine ⟨?_, ?_, ?_, ?_, ?_, ?_, ?_, ?_, ?_, ?_, ?_, ?_, ?_, ?_, ?_, ?_, ?_, ?_, ?_, ?_, ?_, ?_, ?_, ?_, ?_⟩ <;> decide +kernel

theorem test_premises_of_SmithDramCommandAndPauseInstructions :
    let m : SmithId := 24
    let d : RegNo := 1
    let a : RegNo := 2
    let c : Chan := 0
    let k : Code := .mrw
    let x : BitVec 16 := 0xAB
    let before : List MrrResult := [{ chan := 1, value := some 3 }]
    let after : List MrrResult := [{ chan := 0, value := some 5 }]
    let expired : Bool := true
    (let s : State := smithOn (inMode .kindle) 24 (ins 0x28 0) 0 0
     let imm : BitVec 14 := 0
     let w : Word := s.g m a
     let next : Nat := s.smiths[m].pc.toNat + 1
     GoesOn s m next ∧ s.ready m { op := 40, d := some d, a := some a, imm := some imm } = true ∧ chanFor m (imm.toNat % 32) = some c ∧ codeOf (BitVec.toNat w / 2 ^ 28) = some k ∧ cmdAllowed s m c k (BitVec.toNat w % 256) ∧ evenOnes w = true ∧ ¬(k = Code.mrr ∧ 4 ≤ s.smiths[m].mrrOn c)) ∧
    (let s : State := smithOn (inMode .kindle) 24 (ins 0x28 0) 1 0
     let imm : BitVec 14 := 0
     let w : Word := s.g m a
     let next : Nat := s.smiths[m].pc.toNat + 1
     GoesOn s m next ∧ s.ready m { op := 40, d := some d, a := some a, imm := some imm } = true ∧ chanFor m (imm.toNat % 32) = some c ∧ codeOf (BitVec.toNat w / 2 ^ 28) = some k ∧ cmdAllowed s m c k (BitVec.toNat w % 256) ∧ evenOnes w = false ∧ s.populated c.val = true) ∧
    (let s : State := (smithOn (inMode .kindle) 24 (ins 0x29 0) 1 0).onSmith 24 (fun h => { h with mrr := [{ chan := 1, value := some 3 }, { chan := 0, value := some 0xAB }, { chan := 0, value := some 5 }] })
     let imm : BitVec 14 := 0
     let next : Nat := s.smiths[m].pc.toNat + 1
     GoesOn s m next ∧ s.ready m { op := 41, d := some d, imm := some imm } = true ∧ chanFor m (imm.toNat % 32) = some c ∧ (∀ r ∈ before, r.chan ≠ c) ∧ s.smiths[m].mrr = before ++ { chan := c, value := some x } :: after) ∧
    (let s : State := smithOn (inMode .kindle) 24 (ins 0x2C 512) 0 0
     let imm : BitVec 14 := 512
     let w : Word := s.g m a
     let next : Nat := s.smiths[m].pc.toNat + 1
     GoesOn s m next ∧ s.ready m { op := 44, d := some d, a := some a, imm := some imm } = true ∧ chanFor m (BitVec.toNat w % 32) = some c ∧ 1 ≤ imm.toNat ∧ imm.toNat ≤ 512 ∧ s.pausedBy m c = false ∧ s.modes.mode = Mode.kindle) ∧
    (let s : State := smithOn (inMode .forge) 24 (ins 0x2C 1) 0 0
     let imm : BitVec 14 := 1
     let w : Word := s.g m a
     let next : Nat := s.smiths[m].pc.toNat + 1
     GoesOn s m next ∧ s.ready m { op := 44, d := some d, a := some a, imm := some imm } = true ∧ chanFor m (BitVec.toNat w % 32) = some c ∧ 1 ≤ imm.toNat ∧ imm.toNat ≤ 512 ∧ s.pausedBy m c = false ∧ (s.modes.mode = Mode.forge ∨ s.modes.mode = Mode.lowfire) ∧ s.modes.step = BankStep.none) ∧
    (let s : State := ((smithOn (inMode .forge) 24 (ins 0x2D 1) 0 0).onAnvil 0 (fun v => { v with owed := [(24, true)] }))
     let w : Word := s.g m a
     let next : Nat := s.smiths[m].pc.toNat + 1
     GoesOn s m next ∧ s.ready m { op := 45, d := some d, a := some a } = true ∧ chanFor m (BitVec.toNat w % 32) = some c ∧ List.find? (fun o => o.1 == m) s.anvils[c].owed = some (m, expired)) := by
  dsimp only [GoesOn, cmdAllowed]
  refine ⟨?_, ?_, ?_, ?_, ?_, ?_⟩ <;> decide +kernel

theorem test_premises_of_SmithPhyInstructionsAndTheirEnds :
    let m : SmithId := 24
    let a : RegNo := 2
    let b : RegNo := 3
    let c : Chan := 0
    let ck : Nat := 50
    let offsets : List Nat := [0, 7, 16]
    let code : BitVec 10 := 77
    let due : Nat := 50
    let d : RegNo := 1
    let rank : Nat := 1
    let pattern : Nat := 2
    let mask : Word := 0xF0
    let samples : List EyeSample := [[(0x1234, 5)], [(0xFFFF, 7)]]
    let dqo : Bool := true
    (let s : State := smithOn (inMode .kindle) 24 (ins 0x30 0) 0x10000 0x1FF
     let l : Lanes := lanesOf (s.g m a)
     s.ready m { op := 48, a := some a, b := some b } = true ∧ chanFor m l.chan = some c ∧ s.holds m c = true ∧ ¬(l.cls = 0 ∧ l.all = false ∧ l.bitNo = 7)) ∧
    (let s : State := (smithWaits (inMode .kindle) 24 (.dly 0 [0, 7, 16] 77 50)).setFlag (aPLL 0) 31 true
     let next : Nat := s.smiths[m].pc.toNat + 1
     s.smiths[m].wait = some (Wait.dly c offsets code due) ∧ s.pllLock c = true ∧ due ≤ ck ∧ GoesOn s m next) ∧
    (let s : State := smithOn (inMode .kindle) 24 (ins 0x31 0) 0x10300 1
     let l : Lanes := lanesOf (s.g m a)
     s.ready m { op := 49, d := some d, a := some a, b := some b } = true ∧ chanFor m l.chan = some c ∧ s.holds m c = true ∧ ¬(l.cls = 0 ∧ l.all = false ∧ l.bitNo = 7) ∧ (patternClasses (BitVec.toNat (s.g m b) % 16)).contains l.cls = true) ∧
    (let s : State := ((smithWaits (inMode .kindle) 24 (.eye 1 0 1 2 0xF0)).setFlag (aPLL 0) 31 true).setFld (aEYECFG 0) 7 0
       1
     let next : Nat := s.smiths[m].pc.toNat + 1
     s.smiths[m].wait = some (Wait.eye d c rank pattern mask) ∧ s.working m = false ∧ s.pllLock c = true ∧ samples.length =
     s.fld (aEYECFG c.val) 7 0 + 1 ∧ GoesOn s m next) ∧
    (let s : State := smithOn (inMode .kindle) 24 (ins 0x32 0) 0x80 0
     let l : Lanes := lanesOf (s.g m a)
     s.ready m { op := 50, d := some d, a := some a } = true ∧ chanFor m l.chan = some c ∧ cmdAllowed s m c Code.mrr 0) ∧
    (let s : State := (smithWaits (inMode .kindle) 24 (.osc 1 0 1 true)).onAnvil 0 (fun v => { v with bursts := [{ ck := 3, cmd := plainCmd .mrr 1 0 0 (.osc 24), data := none }, { ck := 4, cmd := plainCmd .rd 0 1 7 (.readEnt 5 4), data := none }, { ck := 9, cmd := plainCmd .mrr 1 0 0 (.osc 24), data := none }] })
     let next : Nat := s.smiths[m].pc.toNat + 1
     s.smiths[m].wait = some (Wait.osc d c rank dqo) ∧ s.working m = false ∧ (List.filter (fun x => x.cmd.code == Code.mrr &&
     x.cmd.src == CmdSrc.osc m) s.anvils[c].bursts).length = 2 ∧ GoesOn s m next) := by
  dsimp only [GoesOn, cmdAllowed]
  decide +kernel

theorem test_premises_of_SmithWaitsEndAtTheirTimeOrEvent :
    let m : SmithId := 24
    let a : RegNo := 2
    let c : Chan := 0
    let ck : Nat := 7
    let due : Nat := 7
    let now : Nat := 26
    let d : RegNo := 1
    let n : Fin 16 := 3
    let mask : BitVec 16 := 0x18
    let e : Nat := 9
    (let s : State := smithOn (inMode .kindle) 24 (ins 0x34 0) 0 0
     let imm : BitVec 14 := 0
     let h : Smith := s.smiths[m]
     let w : Word := s.g m a
     let next : Nat := h.pc.toNat + 1
     GoesOn s m next ∧ s.ready m { op := 52, a := some a, imm := some imm } = true ∧ chanFor m (BitVec.toNat w % 32) = some c ∧ imm.toNat = 0) ∧
    (let s : State := smithOn (inMode .kindle) 24 (ins 0x34 1) 0 0
     let imm : BitVec 14 := 1
     let h : Smith := s.smiths[m]
     let w : Word := s.g m a
     let next : Nat := h.pc.toNat + 1
     GoesOn s m next ∧ s.ready m { op := 52, a := some a, imm := some imm } = true ∧ chanFor m (BitVec.toNat w % 32) = some c ∧ imm.toNat ≠ 0) ∧
    (let s : State := smithWaits (inMode .kindle) 24 (.wck 0 7)
     let h : Smith := s.smiths[m]
     let next : Nat := h.pc.toNat + 1
     GoesOn s m next ∧ h.wait = some (Wait.wck c due) ∧ due ≤ ck) ∧
    (let s : State := smithOn (inMode .kindle) 24 (ins 0x35 1) 0xFFFFFFFF 0
     let imm : BitVec 14 := 1
     let h : Smith := s.smiths[m]
     let w : Word := s.g m a
     let next : Nat := h.pc.toNat + 1
     let ns : Nat := (BitVec.toNat w + imm.toNat) % 2 ^ 32
     GoesOn s m next ∧ s.ready m { op := 53, a := some a, imm := some imm } = true ∧ ns = 0) ∧
    (let s : State := smithOn (inMode .kindle) 24 (ins 0x35 1) 0 0
     let imm : BitVec 14 := 1
     let h : Smith := s.smiths[m]
     let w : Word := s.g m a
     let next : Nat := h.pc.toNat + 1
     let ns : Nat := (BitVec.toNat w + imm.toNat) % 2 ^ 32
     GoesOn s m next ∧ s.ready m { op := 53, a := some a, imm := some imm } = true ∧ ns ≠ 0) ∧
    (let s : State := smithWaits (inMode .kindle) 24 (.wns 7)
     let h : Smith := s.smiths[m]
     let next : Nat := h.pc.toNat + 1
     let u : Nat := s.timeAt now
     GoesOn s m next ∧ h.wait = some (Wait.wns due) ∧ due ≤ u) ∧
    (let s : State := (smithOn (inMode .kindle) 24 (ins 0x36 1) 0xC 0).onSmith 24 (fun h => { h with evpend := 0xB })
     let imm : BitVec 14 := 1
     let h : Smith := s.smiths[m]
     let w : Word := s.g m a
     let next : Nat := h.pc.toNat + 1
     GoesOn s m next ∧ s.ready m { op := 54, d := some d, a := some a, imm := some imm } = true ∧ lowestPending h (BitVec.setWidth 16 w) n) ∧
    (let s : State := (smithOn (inMode .kindle) 24 (ins 0x36 1) 0xC 0).onSmith 24 (fun h => { h with evpend := 0x3 })
     let imm : BitVec 14 := 1
     let h : Smith := s.smiths[m]
     let w : Word := s.g m a
     let next : Nat := h.pc.toNat + 1
     GoesOn s m next ∧ s.ready m { op := 54, d := some d, a := some a, imm := some imm } = true ∧ h.evpend &&& BitVec.setWidth 16 w = 0) ∧
    (let s : State := (smithWaits (inMode .kindle) 24 (.wev 1 0x18 none)).onSmith 24 (fun h => { h with evpend := 0x1B })
     let h : Smith := s.smiths[m]
     let next : Nat := h.pc.toNat + 1
     let limit : Option Nat := none
     GoesOn s m next ∧ h.wait = some (Wait.wev d mask limit) ∧ lowestPending h mask n) ∧
    (let s : State := (smithWaits (inMode .kindle) 24 (.wev 1 0x18 (some 9))).onSmith 24 (fun h => { h with evpend := 0x3 })
     let h : Smith := s.smiths[m]
     let next : Nat := h.pc.toNat + 1
     let u : Nat := s.timeAt now
     let limit : Option Nat := some 9
     GoesOn s m next ∧ h.wait = some (Wait.wev d mask limit) ∧ h.evpend &&& mask = 0 ∧ limit = some e ∧ e ≤ u) := by
  dsimp only [GoesOn, lowestPending]
  decide +kernel

theorem test_premises_of_SmithEventsDispatchLowestAndTickOccurs :
    let m : SmithId := 24
    let n : Fin 16 := 3
    let now : Nat := 5000
    (let s : State := (loaded (inMode .kindle) 0).onSmith 24 (fun h => { h with run := .idle, evpend := 0x1B, evmask := 0x1008, vec := h.vec.set 3 0x80000005 })
     let h : Smith := s.smiths[m]
     let entry : Nat := BitVec.toNat h.vec[n] % 2 ^ 13
     (s.image m).reference = false ∧ h.run = SmithRun.idle ∧ lowestPending h h.evmask n ∧ BitVec.getLsbD h.vec[n] 31 = true ∧
     GoesOn s m entry) ∧
    (let s : State := (loaded (inMode .kindle) 0).onSmith 24 (fun h => { h with run := .idle, evpend := 0x1B, evmask := 0x1008, vec := h.vec.set 3 0x5 })
     let h : Smith := s.smiths[m]
     (s.image m).reference = false ∧ h.run = SmithRun.idle ∧ lowestPending h h.evmask n ∧ BitVec.getLsbD h.vec[n] 31 = false) ∧
    (let s : State := (inMode .kindle).onSmith 24 (fun h => { h with tick := 3, tickFrom := 2000 })
     let h : Smith := s.smiths[m]
     h.tick ≠ 0 ∧ h.tickFrom + 1000 * h.tick.toNat ≤ s.timeAt now) := by
  dsimp only [GoesOn, lowestPending]
  decide +kernel

theorem test_premises_of_SmithSignalsSlotTablesAndRaise :
    let m : SmithId := 24
    let k : SmithId := 5
    let a : RegNo := 2
    let d : RegNo := 1
    let awaited : BitVec 25 := 3
    let now : Nat := 26
    let e : Nat := 9
    let b : RegNo := 3
    let c : Chan := 0
    (let s : State := smithOn (inMode .kindle) 24 (ins 0x38 0) 5 0
     let imm : BitVec 14 := 0
     let h : Smith := s.smiths[m]
     let x : Word := s.g m a
     let next : Nat := h.pc.toNat + 1
     GoesOn s m next ∧ s.ready m { op := 56, a := some a, imm := some imm } = true ∧ (m = masterSmith ↔ k ≠ masterSmith) ∧ x + BitVec.ofInt 32 imm.toInt = BitVec.ofNat 32 k.val) ∧
    (let s : State := smithOn (inMode .kindle) 24 (ins 0x38 0) 31 0
     let imm : BitVec 14 := 0
     let h : Smith := s.smiths[m]
     let x : Word := s.g m a
     let next : Nat := h.pc.toNat + 1
     GoesOn s m next ∧ s.ready m { op := 56, a := some a, imm := some imm } = true ∧ m = masterSmith ∧ x + BitVec.ofInt 32 imm.toInt = 31) ∧
    (let s : State := (smithOn (inMode .kindle) 24 (ins 0x39 0) 3 0).onSmith 24 (fun h => { h with sigset := 7 })
     let imm : BitVec 14 := 0
     let h : Smith := s.smiths[m]
     let x : Word := s.g m a
     let next : Nat := h.pc.toNat + 1
     let mask : BitVec 25 := BitVec.setWidth 25 x
     GoesOn s m next ∧ s.ready m { op := 57, d := some d, a := some a, imm := some imm } = true ∧ h.sigset &&& mask = mask) ∧
    (let s : State := (smithOn (inMode .kindle) 24 (ins 0x39 1) 3 0).onSmith 24 (fun h => { h with sigset := 5 })
     let imm : BitVec 14 := 1
     let h : Smith := s.smiths[m]
     let x : Word := s.g m a
     let next : Nat := h.pc.toNat + 1
     let mask : BitVec 25 := BitVec.setWidth 25 x
     GoesOn s m next ∧ s.ready m { op := 57, d := some d, a := some a, imm := some imm } = true ∧ h.sigset &&& mask ≠ mask) ∧
    (let s : State := (smithWaits (inMode .kindle) 24 (.wsig 1 3 none)).onSmith 24 (fun h => { h with sigset := 7 })
     let h : Smith := s.smiths[m]
     let next : Nat := h.pc.toNat + 1
     let limit : Option Nat := none
     GoesOn s m next ∧ h.wait = some (Wait.wsig d awaited limit) ∧ h.sigset &&& awaited = awaited) ∧
    (let s : State := (smithWaits (inMode .kindle) 24 (.wsig 1 3 (some 9))).onSmith 24 (fun h => { h with sigset := 5 })
     let h : Smith := s.smiths[m]
     let next : Nat := h.pc.toNat + 1
     let u : Nat := s.timeAt now
     let limit : Option Nat := some 9
     GoesOn s m next ∧ h.wait = some (Wait.wsig d awaited limit) ∧ h.sigset &&& awaited ≠ awaited ∧ limit = some e ∧ e ≤ u) ∧
    (let s : State := smithOn (inMode .kindle) 24 (ins 0x3A 0) 0x7FF 0x155
     let imm : BitVec 14 := 0
     let h : Smith := s.smiths[m]
     let next : Nat := h.pc.toNat + 1
     GoesOn s m next ∧ s.ready m { op := 58, a := some a, b := some b, imm := some imm } = true ∧ chanFor m (imm.toNat % 32) = some c ∧ s.slotPend c.val = false) ∧
    (let s : State := smithOn (inMode .kindle) 24 (ins 0x3B 0) 128 0
     let imm : BitVec 14 := 0
     let h : Smith := s.smiths[m]
     let x : Word := s.g m a
     let next : Nat := h.pc.toNat + 1
     let u : Nat := s.timeAt now
     GoesOn s m next ∧ s.ready m { op := 59, d := some d, a := some a, b := some b, imm := some imm } = true ∧ chanFor m (imm.toNat % 32) = some c ∧ s.slotPend c.val = false ∧ u + 32 ≤ BitVec.toNat (s.g m b) * 2 ^ 32 + BitVec.toNat x) ∧
    (let s : State := smithOn (inMode .kindle) 24 (ins 0x3E 0x71E) 41 0x155
     let imm : BitVec 14 := 0x71E
     let h : Smith := s.smiths[m]
     let next : Nat := h.pc.toNat + 1
     GoesOn s m next ∧ s.ready m { op := 62, d := some d, a := some a, b := some b, imm := some imm } = true ∧ 1 ≤ imm.toNat % 256 ∧ imm.toNat % 256 ≤ 30) := by
  dsimp only [GoesOn]
  decide +kernel

theorem test_premises_of_HostStartsStopsAndSignalsSmiths :
    let entered : Image → Prop := fun i => i.accepted = true ∧ i.reference = false ∧ i.entry.toNat < i.length ∧
      opcodes.contains (opcodeOf (i.mem.get i.entry.toNat)) = true
    let c : Chan := 0
    (let s : State := loaded (inMode .kindle) 0
     let w : Word := 1
     let ms : Smith := s.smiths[masterSmith]
     s.modes.mode ≠ Mode.cold ∧ s.modes.mode ≠ Mode.banked ∧ w = 1 ∧ ms.run = SmithRun.stopped ∧ entered s.imageMS) ∧
    (let s : State := inMode .kindle
     let w : Word := 1
     s.modes.mode ≠ Mode.cold ∧ s.modes.mode ≠ Mode.banked ∧ w = 1 ∧ s.imageMS.accepted = false) ∧
    (let s : State := (inMode .kindle).wr aAS_SEL 2
     let w : Word := 4
     s.modes.mode ≠ Mode.cold ∧ s.modes.mode ≠ Mode.banked ∧ w = 4 ∧ s.imageAS.accepted = false ∧ ∃ x : Chan, s.flag aAS_SEL
     x.val = true) ∧
    (let s : State := (loaded (inMode .kindle) 0).onSmith 24 (fun h => { h with run := .waiting })
     let w : Word := 1
     let ms : Smith := s.smiths[masterSmith]
     s.modes.mode ≠ Mode.cold ∧ s.modes.mode ≠ Mode.banked ∧ w = 1 ∧ s.imageMS.accepted = true ∧ ms.run ≠ SmithRun.stopped) ∧
    (let s : State := ((loaded (inMode .kindle) 0).wr aAS_SEL 1).onSmith 0 (fun h => { h with run := .idle })
     let w : Word := 4
     s.modes.mode ≠ Mode.cold ∧ s.modes.mode ≠ Mode.banked ∧ w = 4 ∧ s.imageAS.accepted = true ∧ ∀ (x : Chan), s.flag aAS_SEL
     x.val = true → s.smiths[anvilSmith x].run ≠ SmithRun.stopped) ∧
    (let s : State := (inMode .kindle).onSmith 24 (fun h => { h with run := .running })
     let w : Word := 2
     let ms : Smith := s.smiths[masterSmith]
     s.modes.mode ≠ Mode.cold ∧ s.modes.mode ≠ Mode.banked ∧ w = 2 ∧ (ms.run = SmithRun.idle ∨ ms.run = SmithRun.running)) ∧
    (let s : State := (loaded (inMode .kindle) 0).wr aAS_SEL 1
     let w : Word := 4
     let as : Smith := s.smiths[anvilSmith c]
     s.modes.mode ≠ Mode.cold ∧ s.modes.mode ≠ Mode.banked ∧ w = 4 ∧ as.run = SmithRun.stopped ∧ entered s.imageAS) ∧
    (let s : State := ((loaded (inMode .kindle) 0).wr aAS_SEL 1).onSmith 0 (fun h => { h with run := .idle })
     let w : Word := 8
     let as : Smith := s.smiths[anvilSmith c]
     s.modes.mode ≠ Mode.cold ∧ s.modes.mode ≠ Mode.banked ∧ w = 8 ∧ (as.run = SmithRun.idle ∨ as.run = SmithRun.running)) ∧
    (let s : State := inMode .kindle
     s.modes.mode ≠ Mode.cold ∧ s.modes.mode ≠ Mode.banked) := by
  dsimp only
  decide +kernel

theorem test_premises_of_ImageVerificationAcceptsOrRefuses :
    let i : Nat := 0xFFF
    (let s : State := inMode .kindle
     let anvil : Bool := false
     let w : Word := 1
     let idle : Prop := if anvil = true then ∀ (c : Chan), s.smiths[anvilSmith c].run = SmithRun.stopped else
       s.smiths[masterSmith].run = SmithRun.stopped
     s.modes.mode ≠ Mode.cold ∧ s.modes.mode ≠ Mode.banked ∧ (w = if anvil = true then 3 else 1) ∧ s.verify = none ∧ idle) ∧
    (let s : State := (inMode .kindle).onSmith 3 (fun h => { h with run := .idle })
     let anvil : Bool := true
     let w : Word := 3
     let idle : Prop := if anvil = true then ∀ (c : Chan), s.smiths[anvilSmith c].run = SmithRun.stopped else
       s.smiths[masterSmith].run = SmithRun.stopped
     s.modes.mode ≠ Mode.cold ∧ s.modes.mode ≠ Mode.banked ∧ (w = if anvil = true then 3 else 1) ∧ s.verify = none ∧ ¬idle) ∧
    (let s : State := inMode .kindle
     let anvil : Bool := true
     let idle : Prop := if anvil = true then ∀ (c : Chan), s.smiths[anvilSmith c].run = SmithRun.stopped else
       s.smiths[masterSmith].run = SmithRun.stopped
     s.modes.mode ≠ Mode.cold ∧ s.modes.mode ≠ Mode.banked ∧ (i < if anvil = true then 4096 else 8192) ∧ idle ∧ s.verify ≠
     some anvil) ∧
    (let s : State := { inMode .kindle with verify := some true }
     let anvil : Bool := true
     let idle : Prop := if anvil = true then ∀ (c : Chan), s.smiths[anvilSmith c].run = SmithRun.stopped else
       s.smiths[masterSmith].run = SmithRun.stopped
     s.modes.mode ≠ Mode.cold ∧ s.modes.mode ≠ Mode.banked ∧ (i < if anvil = true then 4096 else 8192) ∧ (¬idle ∨ s.verify =
     some anvil)) ∧
    (let s : State := signed
     let anvil : Bool := true
     s.modes.gated = false ∧ s.verify = some anvil ∧ s.headerGood anvil = true ∧ s.tagMatches anvil = true) ∧
    (let s : State := { inMode .kindle with verify := some true }
     let anvil : Bool := true
     s.modes.gated = false ∧ s.verify = some anvil ∧ s.headerGood anvil = false) := by
  dsimp only
  decide +kernel

theorem test_premises_of_ClientRequestsBecomeOutstanding :
    let p : PortId := 3
    let st : Status := .unmapped
    let op : BitVec 4 := 15
    (let s : State := opened (inMode .forge) 3
     let v : Port := s.ports[p]
     s.reqReady p = true ∧ s.armed false p.val 1 = false ∧ v.early = [] ∧ noneUnjudged v) ∧
    (let s : State := opened (inMode .forge) 3
     let addr : BitVec 41 := 0xFC0
     let len : BitVec 6 := 0
     let v : Port := s.ports[p]
     let fits : Bool := decide (addr.toNat / 64 * 64 % 4096 + 64 * (len.toNat + 1) ≤ 4096)
     let refused : Option Status := s.adapterRefusal addr.toNat len.toNat
     s.reqReady p = true ∧ s.armed false p.val 1 = false ∧ v.early = [] ∧ noneUnjudged v ∧ fits = true ∧ refused = none) ∧
    (let s : State := opened (inMode .forge) 3
     let v : Port := s.ports[p]
     s.reqReady p = true ∧ s.armed false p.val 1 = false ∧ v.early = [] ∧ noneUnjudged v ∧ s.modes.mode ≠ Mode.quench) ∧
    (let s : State := opened (inMode .forge) 3
     let addr : BitVec 41 := 0x10000000000
     let len : BitVec 6 := 0
     let v : Port := s.ports[p]
     let fits : Bool := decide (addr.toNat / 64 * 64 % 4096 + 64 * (len.toNat + 1) ≤ 4096)
     let refused : Option Status := s.adapterRefusal addr.toNat len.toNat
     s.reqReady p = true ∧ s.armed false p.val 1 = false ∧ v.early = [] ∧ noneUnjudged v ∧ (∀ r ∈ v.reqs, r.id ≠ v.nextId) ∧
     fits = true ∧ refused = some st) ∧
    (let s : State := opened (inMode .quench) 3
     let v : Port := s.ports[p]
     s.reqReady p = true ∧ s.armed false p.val 1 = false ∧ v.early = [] ∧ noneUnjudged v ∧ (∀ r ∈ v.reqs, r.id ≠ v.nextId) ∧
     s.modes.mode = Mode.quench) ∧
    (let s : State := opened (inMode .forge) 3
     let v : Port := s.ports[p]
     s.reqReady p = true ∧ s.armed false p.val 1 = false ∧ v.early = [] ∧ noneUnjudged v ∧ (∀ r ∈ v.reqs, r.id ≠ v.nextId) ∧ 5
     ≤ op.toNat) ∧
    (let s : State := opened (inMode .forge) 3
     let addr : BitVec 41 := 0xFC0
     let len : BitVec 6 := 63
     let v : Port := s.ports[p]
     let fits : Bool := decide (addr.toNat / 64 * 64 % 4096 + 64 * (len.toNat + 1) ≤ 4096)
     s.reqReady p = true ∧ s.armed false p.val 1 = false ∧ v.early = [] ∧ noneUnjudged v ∧ (∀ r ∈ v.reqs, r.id ≠ v.nextId) ∧
     fits = false) := by
  dsimp only [noneUnjudged]
  refine ⟨?_, ?_, ?_, ?_, ?_, ?_, ?_⟩ <;> decide +kernel

theorem test_premises_of_WriteAndResponseBeatsTransferInOrder :
    let p : PortId := 3
    let before : List Req := [req 10 0 0 .queued]
    let after : List Req := [req 12 1 0 .crossing]
    let data : Sector := 77
    let be : BitVec 64 := 0xF
    let wpoison : Bool := true
    let wlast : Bool := true
    let b : Beat := { data := data, be := be, wpoison := wpoison, wlast := wlast }
    let st : Status := .dropped
    let q : Resp := { req := 10, tag := 5, status := 0, data := true, beats := [(7, false), (8, true)] }
    let rest : List Resp := []
    let x : Sector × Bool := (7, false)
    let more : List (Sector × Bool) := [(8, true)]
    (let s : State := opened (inMode .forge) 3
     let v : Port := s.ports[p]
     s.wReady p = true ∧ noneUnjudged v ∧ ∀ q ∈ v.reqs, q.owes = false) ∧
    (let s : State := holding (opened (inMode .forge) 3) 3 [req 10 0 0 .queued, { req 11 1 0 .crossing with len := 1 }, req 12 1 0 .crossing]
     let r : Req := { req 11 1 0 .crossing with len := 1 }
     let v : Port := s.ports[p]
     s.wReady p = true ∧ noneUnjudged v ∧ v.reqs = before ++ r :: after ∧ (∀ q ∈ before, q.owes = false) ∧ r.owes = true ∧
     r.beats.length < r.len ∧ ∀ q ∈ before ++ after, q.id ≠ r.id) ∧
    (let s : State := holding (opened (inMode .forge) 3) 3 [req 10 0 0 .queued, { req 11 1 0 .draining with refusal := some .dropped }, req 12 1 0 .crossing]
     let r : Req := { req 11 1 0 .draining with refusal := some .dropped }
     let v : Port := s.ports[p]
     s.wReady p = true ∧ noneUnjudged v ∧ v.reqs = before ++ r :: after ∧ (∀ q ∈ before, q.owes = false) ∧ (∀ q ∈ before ++
     after, q.id ≠ r.id) ∧ r.stage = Stage.draining ∧ isWriteOp r.op = true ∧ r.beats.length = r.len ∧ lastGood (r.beats ++
     [b]) = true ∧ r.cause = 0 ∧ r.dropInj = false ∧ r.refusal = some st ∧ r.flip = Flip.none) ∧
    (let s : State := (holding (opened (inMode .forge) 3) 3 [req 10 0 0 .answered]).onPort 3 (fun v => { v with respq := [{ req := 10, tag := 5, status := 0, data := true, beats := [(7, false), (8, true)] }], reserved := 2 })
     let v : Port := s.ports[p]
     s.armed false p.val 2 = false ∧ s.armed false p.val 3 = false ∧ v.respq = q :: rest ∧ q.beats = x :: more) ∧
    (let s : State := opened (inMode .forge) 3
     (s.portEn p.val = true ∨ s.portActive p.val = true) ∧ (s.staticHeat p.val).isSome = true) ∧
    (let s : State := holding (opened (inMode .forge) 3) 3 [req 10 0 0 .queued, req 11 3 0 .seal, req 12 1 0 .crossing]
     let r : Req := req 11 3 0 .seal
     let v : Port := s.ports[p]
     v.reqs = before ++ r :: after ∧ (∀ q ∈ before, q.openWrite = false ∧ q.stage ≠ Stage.seal ∧ q.id ≠ r.id) ∧ (∀ q ∈ after,
     q.id ≠ r.id) ∧ r.stage = Stage.seal ∧ isWriteOp r.op = false ∧ r.flip = Flip.none) := by
  dsimp only [noneUnjudged]
  refine ⟨?_, ?_, ?_, ?_, ?_, ?_⟩ <;> decide +kernel

theorem test_premises_of_PortEnableDisableAndHaltRegisters :
    let p : PortId := 3
    (let s : State := opened (inMode .kindle) 3
     s.modes.mode ≠ Mode.cold ∧ s.modes.mode ≠ Mode.banked) ∧
    (let s : State := (opened (inMode .kindle) 3).wr (aHALT 3) 0xFF
     s.modes.mode ≠ Mode.cold ∧ s.modes.mode ≠ Mode.banked) ∧
    (let s : State := (opened (inMode .forge) 3).wr (aSWD_EN 0) 0
     s.portEn p.val = false ∧ s.portActive p.val = true ∧ s.ports[p].reqs = [] ∧ s.ports[p].early = []) := by
  dsimp only
  decide +kernel

theorem test_premises_of_BellowsAcceptsCountsAndHalts :
    let p : PortId := 3
    let now : Nat := 2005
    let before : List Req := [req 10 0 0 .queued]
    let after : List Req := [req 12 0 0 .crossing]
    let l : Fin 32 := 2
    let k : Nat := 30
    (let s : State := (holding (opened (inMode .forge) 3) 3 [req 10 0 0 .queued, req 11 0 0 .crossing, req 12 0 0
       .crossing]).wr (aHALT 3) 4
     let r : Req := req 11 0 0 .crossing
     let v : Port := s.ports[p]
     let u : Nat := s.timeAt now
     v.reqs = before ++ r :: after ∧ (∀ q ∈ before, q.stage ≠ Stage.crossing ∧ q.id ≠ r.id) ∧ (∀ q ∈ after, q.id ≠ r.id) ∧
     r.stage = Stage.crossing ∧ r.label < 32 ∧ r.flip = Flip.none ∧ u ≤ v.boundary ∧ s.flag (aHALT p.val) r.label = true) ∧
    (let s : State := (holding (opened (inMode .forge) 3) 3 [req 10 0 0 .queued, req 11 0 0 .crossing, req 12 0 0
       .crossing])
     let r : Req := req 11 0 0 .crossing
     let v : Port := s.ports[p]
     let u : Nat := s.timeAt now
     v.reqs = before ++ r :: after ∧ (∀ q ∈ before, q.stage ≠ Stage.crossing ∧ q.id ≠ r.id) ∧ (∀ q ∈ after, q.id ≠ r.id) ∧
     r.stage = Stage.crossing ∧ r.label < 32 ∧ r.flip = Flip.none ∧ u ≤ v.boundary ∧ s.flag (aHALT p.val) r.label = false ∧
     s.fld (aLabel p.val r.label 1) 21 20 = 0) ∧
    (let s : State := (holding (opened (inMode .forge) 3) 3 [req 10 0 0 .queued, { req 11 0 0 .crossing with attr := 8 }, req 12 0 0 .crossing]).onPort 3 (fun v => { v with labels := upd v.labels 2 (fun x => { x with tp := 0, npol := 31 }) }) |>.setFld (aLabel 3 2 1) 21 20 1
     let r : Req := { req 11 0 0 .crossing with attr := 8 }
     let v : Port := s.ports[p]
     let u : Nat := s.timeAt now
     let n : Nat := u / 64
     let counted : Nat := 64 * (r.len + 1) + 8 * if isWriteOp r.op = true then s.fld (aLabel p.val r.label 1) 19 16 else
       s.fld (aLabel p.val r.label 1) 15 12
     v.reqs = before ++ r :: after ∧ (∀ q ∈ before, q.stage ≠ Stage.crossing ∧ q.id ≠ r.id) ∧ (∀ q ∈ after, q.id ≠ r.id) ∧
     r.stage = Stage.crossing ∧ r.label < 32 ∧ r.flip = Flip.none ∧ u ≤ v.boundary ∧ s.flag (aHALT p.val) r.label = false ∧
     s.fld (aLabel p.val r.label 1) 21 20 = 1 ∧ (r.op = 4 ∨ bit r.attr.toNat 3 = true) ∧ r.lacksBeats = false ∧
     v.labels[labelOf r.label].tp + (n - v.labels[labelOf r.label].npol) * rateQ (s.fld (aLabel p.val r.label 0) 15 8) < 16 *
     counted) ∧
    (let s : State := (inMode .forge).onPort 3 (fun v => { v with boundary := 2000, count := 9 })
     let v : Port := s.ports[p]
     let u : Nat := s.timeAt now
     v.boundary ≤ u) ∧
    (let s : State := (inMode .forge).onPort 3 (fun v => { v with labels := upd v.labels 2 (fun x => { x with parked := some 30 }) })
     let v : Port := s.ports[p]
     let u : Nat := s.timeAt now
     let n : Nat := u / 64
     v.labels[l].parked = some k ∧ k ≤ n ∧ s.head p l.val = none) ∧
    (let s : State := ((holding (inMode .forge) 3 [req 10 0 0 .queued]).onPort 3 (fun v => { v with labels := upd v.labels 2 (fun x => { x with parked := some 30, nsh := 10 }) })).setFld (aLabel 3 2 1) 22 22 1
     let r : Req := req 10 0 0 .queued
     let v : Port := s.ports[p]
     let u : Nat := s.timeAt now
     let n : Nat := u / 64
     v.labels[l].parked = some k ∧ k ≤ n ∧ s.head p l.val = some r ∧ s.flag (aLabel p.val l.val 1) 22 = true) := by
  dsimp only
  decide +kernel

theorem test_premises_of_ReleaseSendsPieceIntoTheTongs :
    let s : State := holding ((opened (inMode .forge) 3).setFld (aBLW_CFG 3) 2 0 3) 3 [req 10 0 0x40 .queued]
    let p : PortId := 3
    let now : Nat := 9
    let r : Req := req 10 0 0x40 .queued
    let a : Nat := 0x40
    let n : Nat := 1
    let tag : Nat := 0
    let v : Port := s.ports[p]
    let s' : State := s.at now
    let chosen : Prop := v.selected = some r.id ∧ List.find? (fun q => q.id == r.id && s'.inQueue q) v.reqs = some r ∨
      v.selected = none ∧ List.findSome? (fun l => s'.eligible p l) (List.range (s.strict p.val)) = some r ∧ List.find? (fun q
      => q.id == r.id && s'.inQueue q) v.reqs = some r
    (s.tongs.bitten = none ∧ s'.tagFirst p = true ∧ chosen ∧ r.sent = 0 ∧ s.piecesOf r = [(a, n)] ∧ s.freeTag = some tag ∧
     r.label < 32 ∧ s.peerLost a = false ∧ v.reserved + pieceBeats r n ≤ 128 ∧ ∀ q ∈ v.reqs, q.id = r.id → q = r) := by
  dsimp only
  decide +kernel

theorem test_premises_of_TongsGrantsHighestHeatFirst :
    (let s : State := let s := { inMode .forge with pieces := [piece 0 3 10 0 0x40 4, piece 1 3 10 0 0x40 4, piece 2 5 10 0 0x40 2] }; { s with tongs := { s.tongs with reqNet := [{ output := 0, input := 3, heat := 4, tag := 0 }, { output := 0, input := 7, heat := 4, tag := 1 }, { output := 0, input := 5, heat := 2, tag := 2 }], last := [((false, 0, 4), 3)] } }
     let o : Fin 131 := 0
     s.tongs.bitten = none ∧ o.val < 24 ∧ s.tongs.at false o.val ≠ [] ∧ ∀ w ∈ s.tongs.at false o.val, (s.piece w.tag).isSome =
     true) ∧
    (let s : State := let s := { (holding (inMode .forge) 3 [req 10 0 0x40 .flying]) with pieces := [piece 0 3 10 0 0x40 4] }; { s with tongs := { s.tongs with retNet := [{ output := 3, input := 0, heat := 4, tag := 0 }] } }
     let o : Fin 131 := 3
     s.tongs.bitten = none ∧ o.val < 128 ∧ s.tongs.at true o.val ≠ [] ∧ ∀ w ∈ s.tongs.at true o.val, ∃ x p id i, s.piece w.tag
     = some x ∧ x.origin = Origin.port p id i) := by
  dsimp only
  refine ⟨?_, ?_⟩ <;> first | decide +kernel | (and_intros <;> first | decide +kernel | (intro w h; have h : w ∈ [({ output := 3, input := 0, heat := 4, tag := 0 } : Waiting)] := h; obtain rfl := List.mem_singleton.mp h; exact ⟨_, _, _, _, rfl, rfl⟩))

theorem test_premises_of_TongsWatchdogBitesAtItsLimit :
    let ret : Bool := true
    let o : Fin 131 := 130
    let now : Nat := 100000
    let t0 : Nat := 0
    (let s : State := let s := inMode .forge; { s with tongs := { s.tongs with since := [((true, 130), 0)] } }
     let due : Nat := max (t0 + BitVec.toNat (s.rd aWDOG)) s.tongs.limitFrom
     s.tongs.bitten = none ∧ List.lookup (ret, o.val) s.tongs.since = some t0 ∧ due ≤ s.timeAt now) ∧
    (let s : State := let s := inMode .forge; { s with tongs := { s.tongs with bitten := some 3 } }
     s.tongs.bitten ≠ none) := by
  dsimp only
  decide +kernel

theorem test_premises_of_ResponseEnterFreesTagAndAnswers :
    let p : PortId := 3
    let now : Nat := 9
    let idx : Nat := 0
    (let s : State := { holding (inMode .forge) 3 [{ req 10 0 0xFC0 .flying with parts := [(0, .ok, [])] , len := 1}] with pieces := [piece 0 3 10 0 0x40 4] }
     let x : Piece := { piece 0 3 10 0 0x40 4 with sectors := 1 }
     let r : Req := { req 10 0 0xFC0 .flying with parts := [(0, .ok, [])] , len := 1}
     let v : Port := s.ports[p]
     let freed : State := have __src := s.at now; { timebase := __src.timebase, clock := __src.clock, regs := __src.regs, hrpRdata := __src.hrpRdata, hrpRvalid := __src.hrpRvalid, hrpHeld := __src.hrpHeld, hostCaps := __src.hostCaps, smiths := __src.smiths, imageMS := __src.imageMS, imageAS := __src.imageAS, verify := __src.verify, ports := __src.ports, pieces := List.filter (fun y => y.tag != x.tag) s.pieces, tongs := __src.tongs, slices := __src.slices, detect := __src.detect, loftFns := __src.loftFns, fullInv := __src.fullInv, anvils := __src.anvils, hearths := __src.hearths, hedge := __src.hedge, faults := __src.faults, evq := __src.evq, modes := __src.modes, temper := __src.temper, assay := __src.assay, gang := __src.gang, prog := __src.prog, pending := __src.pending }
     s.enterable p = some x ∧ x.origin = Origin.port p r.id idx ∧ List.find? (fun q => q.id == r.id) v.reqs = some r ∧ r.flip
     = Flip.none ∧ freed.complete p r = false) ∧
    (let s : State := { holding (inMode .forge) 3 [{ req 10 1 0x40 .flying with parts := [(0, .ok, [])], sent := 1 }] with pieces := [piece 0 3 10 1 0x40 4] }
     let x : Piece := piece 0 3 10 1 0x40 4
     let r : Req := { req 10 1 0x40 .flying with parts := [(0, .ok, [])], sent := 1 }
     let v : Port := s.ports[p]
     let freed : State := have __src := s.at now; { timebase := __src.timebase, clock := __src.clock, regs := __src.regs, hrpRdata := __src.hrpRdata, hrpRvalid := __src.hrpRvalid, hrpHeld := __src.hrpHeld, hostCaps := __src.hostCaps, smiths := __src.smiths, imageMS := __src.imageMS, imageAS := __src.imageAS, verify := __src.verify, ports := __src.ports, pieces := List.filter (fun y => y.tag != x.tag) s.pieces, tongs := __src.tongs, slices := __src.slices, detect := __src.detect, loftFns := __src.loftFns, fullInv := __src.fullInv, anvils := __src.anvils, hearths := __src.hearths, hedge := __src.hedge, faults := __src.faults, evq := __src.evq, modes := __src.modes, temper := __src.temper, assay := __src.assay, gang := __src.gang, prog := __src.prog, pending := __src.pending }
     s.enterable p = some x ∧ x.origin = Origin.port p r.id idx ∧ List.find? (fun q => q.id == r.id) v.reqs = some r ∧ r.flip
     = Flip.none ∧ freed.complete p r = true ∧ (∀ e ∈ r.parts, e.2.1 = Status.ok) ∧ r.op ≠ 0) ∧
    (let s : State := { holding (inMode .forge) 3 [{ req 10 0 0x40 .flying with parts := [(0, .ok, [{ status := .ok, data := 99, poisoned := false }])], sent := 1 }] with pieces := [piece 0 3 10 0 0x40 4] }
     let x : Piece := piece 0 3 10 0 0x40 4
     let r : Req := { req 10 0 0x40 .flying with parts := [(0, .ok, [{ status := .ok, data := 99, poisoned := false }])], sent := 1 }
     let v : Port := s.ports[p]
     let freed : State := have __src := s.at now; { timebase := __src.timebase, clock := __src.clock, regs := __src.regs, hrpRdata := __src.hrpRdata, hrpRvalid := __src.hrpRvalid, hrpHeld := __src.hrpHeld, hostCaps := __src.hostCaps, smiths := __src.smiths, imageMS := __src.imageMS, imageAS := __src.imageAS, verify := __src.verify, ports := __src.ports, pieces := List.filter (fun y => y.tag != x.tag) s.pieces, tongs := __src.tongs, slices := __src.slices, detect := __src.detect, loftFns := __src.loftFns, fullInv := __src.fullInv, anvils := __src.anvils, hearths := __src.hearths, hedge := __src.hedge, faults := __src.faults, evq := __src.evq, modes := __src.modes, temper := __src.temper, assay := __src.assay, gang := __src.gang, prog := __src.prog, pending := __src.pending }
     s.enterable p = some x ∧ x.origin = Origin.port p r.id idx ∧ List.find? (fun q => q.id == r.id) v.reqs = some r ∧ r.flip
     = Flip.none ∧ freed.complete p r = true ∧ (∀ e ∈ r.parts, e.2.1 = Status.ok) ∧ r.op = 0 ∧ ∀ y ∈ r.sectors, y.status =
     Status.ok ∧ y.poisoned = false) := by
  dsimp only
  decide +kernel

theorem test_premises_of_LoftAnswersReadsFromHeldLines :
    let c : Chan := 0
    let x : Piece := piece 1 3 10 0 0x40 4
    let rest : List Nat := [99]
    let y : Line := line0
    let err : StoreErr := .single
    let before : List Miss := [miss 4 9 true]
    let after : List Miss := [miss 5 8 false]
    let m : Miss := miss 7 0 true
    (let s : State := atLoft (field (inMode .forge)) (piece 1 3 10 0 0x40 4) (fun l => { l with ways := [line0] })
     let line : Nat := s.pieceLa x 0 / 128
     atHead s c x rest ∧ x.op = 0 ∧ x.sectors = 1 ∧ s.sweeping c line = false ∧ s.findWay c line = some y) ∧
    (let s : State := atLoft (field (inMode .forge)) (piece 1 3 10 0 0x40 4) (fun l => l)
     let line : Nat := s.pieceLa x 0 / 128
     atHead s c x rest ∧ x.op = 0 ∧ x.sectors = 1 ∧ (∀ (w : Fin 16), err ≠ StoreErr.tag w) ∧ absentLine s c line ∧ (∀ m ∈
     s.slices[c].miss, m.line ≠ line) ∧ s.slices[c].miss.length < 64) ∧
    (let s : State := atLoft (field (inMode .forge)) (piece 1 3 10 0 0x40 4) (fun l => { l with miss := [miss 4 9 true, miss 7 0 true, miss 5 8 false] })
     let line : Nat := s.pieceLa x 0 / 128
     atHead s c x rest ∧ x.op = 0 ∧ x.sectors = 1 ∧ absentLine s c line ∧ s.slices[c].miss = before ++ m :: after ∧ (∀ n ∈
     before ++ after, n.line ≠ line ∧ n.id ≠ m.id) ∧ m.line = line ∧ m.drop = false ∧ m.waiters.length < 16) ∧
    (let s : State := atLoft (field (inMode .forge)) (piece 1 3 10 0 0x40 4) (fun l => { l with ways := [line0] })
     let line : Nat := s.pieceLa x 0 / 128
     atHead s c x rest ∧ x.op = 0 ∧ x.sectors = 1 ∧ s.findWay c line = some y ∧ s.findRick c line = none ∧ s.slices[c].last01
     = none ∧ (∀ m ∈ s.slices[c].miss, m.line ≠ line) ∧ s.slices[c].miss.length < 64) := by
  dsimp only [absentLine, atHead]
  refine ⟨?_, ?_, ?_, ?_⟩ <;> decide +kernel

theorem test_premises_of_LoftWritesMergeAndHintsFetch :
    let c : Chan := 0
    let rest : List Nat := [99]
    let before : List Merge := [{ merge 3 5 10 with flush := true }]
    let after : List Merge := [merge 5 7 120]
    let now : Nat := 150
    (let s : State := atLoft ((field (inMode .forge)).setFld (aMERGE 0) 15 0 100) { piece 1 3 10 2 0x40 4 with beats := [{ beat with be := 0 }] } (fun l => { l with ways := [line0] })
     let x : Piece := { piece 1 3 10 2 0x40 4 with beats := [{ beat with be := 0 }] }
     let b : Beat := { beat with be := 0 }
     let be : BitVec 64 := if x.op = 1 then BitVec.allOnes 64 else b.be
     atHead s c x rest ∧ (x.op = 1 ∨ x.op = 2) ∧ x.sectors = 1 ∧ x.beats = [b] ∧ be = 0 ∧ b.wpoison = false) ∧
    (let s : State := atLoft ((field (inMode .forge)).setFld (aMERGE 0) 15 0 100) { piece 1 3 10 1 0x40 4 with beats := [beat] } (fun l => { l with merge := [{ merge 3 5 10 with flush := true }, merge 4 0 50, merge 5 7 120] })
     let x : Piece := { piece 1 3 10 1 0x40 4 with beats := [beat] }
     let b : Beat := beat
     let line : Nat := s.pieceLa x 0 / 128
     let stream : Bool := bit x.attr.toNat 2
     let be : BitVec 64 := if x.op = 1 then BitVec.allOnes 64 else b.be
     let m : Merge := merge 4 0 50
     atHead s c x rest ∧ (x.op = 1 ∨ x.op = 2) ∧ x.sectors = 1 ∧ x.beats = [b] ∧ (be ≠ 0 ∨ b.wpoison = true) ∧ (∀ m ∈
     s.slices[c].miss, m.line = line → m.sent = true) ∧ s.slices[c].merge = before ++ m :: after ∧ m.line = line ∧ m.flush =
     false ∧ (∀ n ∈ before ++ after, n.line = line → n.flush = true) ∧ (s.swath = false ∨ (stream || m.stream) = false)) ∧
    (let s : State := atLoft ((field (inMode .forge)).setFld (aMERGE 0) 15 0 100) { piece 1 3 10 1 0x40 4 with beats := [beat] } (fun l => l)
     let x : Piece := { piece 1 3 10 1 0x40 4 with beats := [beat] }
     let b : Beat := beat
     let line : Nat := s.pieceLa x 0 / 128
     let stream : Bool := bit x.attr.toNat 2
     let be : BitVec 64 := if x.op = 1 then BitVec.allOnes 64 else b.be
     atHead s c x rest ∧ (x.op = 1 ∨ x.op = 2) ∧ x.sectors = 1 ∧ x.beats = [b] ∧ (be ≠ 0 ∨ b.wpoison = true) ∧ (∀ m ∈
     s.slices[c].miss, m.line = line → m.sent = true) ∧ (∀ m ∈ s.slices[c].merge, m.line ≠ line) ∧ s.slices[c].mergeCount < 32
     ∧ (s.swath = false ∨ stream = false)) ∧
    (let s : State := ((field (inMode .forge)).setFld (aMERGE 0) 15 0 100).onSlice 0 (fun l => { l with merge := [{ merge 3 5 10 with flush := true }, merge 4 6 30, merge 5 7 120] })
     let u : Nat := s.timeAt now
     let m : Merge := merge 4 6 30
     s.tongs.bitten = none ∧ s.slices[c].merge = before ++ m :: after ∧ m.flush = false ∧ m.start + s.fld (aMERGE c.val) 15 0
     ≤ u ∧ (∀ n ∈ before ++ after, n.id ≠ m.id) ∧ (s.swath = false ∨ m.stream = false)) ∧
    (let s : State := (atLoft (field (inMode .forge)) (piece 1 3 10 4 0x40 4) (fun l => l)).setFld aSHED 3 0 1
     let x : Piece := piece 1 3 10 4 0x40 4
     atHead s c x rest ∧ x.op = 4 ∧ 1 ≤ s.shed) ∧
    (let s : State := (atLoft (field (inMode .forge)) (piece 1 3 10 4 0x40 4) (fun l => { l with ways := [line0] }))
     let x : Piece := piece 1 3 10 4 0x40 4
     let line : Nat := s.pieceLa x 0 / 128
     atHead s c x rest ∧ x.op = 4 ∧ s.shed = 0 ∧ x.sectors = 1 ∧ s.sweeping c line = false ∧ s.findWay c line ≠ none) ∧
    (let s : State := (atLoft (field (inMode .forge)) (piece 1 3 10 4 0x40 4) (fun l => l))
     let x : Piece := piece 1 3 10 4 0x40 4
     let line : Nat := s.pieceLa x 0 / 128
     atHead s c x rest ∧ x.op = 4 ∧ s.shed = 0 ∧ x.sectors = 1 ∧ absentLine s c line ∧ (∀ m ∈ s.slices[c].miss, m.line ≠ line)
     ∧ s.slices[c].miss.length < 64) ∧
    (let s : State := (atLoft (field (inMode .forge)) (piece 1 3 10 4 0x40 4) (fun l => { l with miss := (List.range 64).map (fun i => miss i (100 + i) true) }))
     let x : Piece := piece 1 3 10 4 0x40 4
     let line : Nat := s.pieceLa x 0 / 128
     atHead s c x rest ∧ x.op = 4 ∧ s.shed = 0 ∧ x.sectors = 1 ∧ absentLine s c line ∧ (∀ m ∈ s.slices[c].miss, m.line ≠ line)
     ∧ 64 ≤ s.slices[c].miss.length) ∧
    (let s : State := (atLoft (field (inMode .forge)) (piece 1 3 10 4 0x40 4) (fun l => { l with inq := [], ways := [line0], pfq := [{ line := 0, port := 3, pin := true }, { line := 5, port := 3, pin := true }] }))
     let q : Prefetch := { line := 0, port := 3, pin := true }
     let more : List Prefetch := [{ line := 5, port := 3, pin := true }]
     s.tongs.bitten = none ∧ s.slices[c].inq = [] ∧ s.slices[c].pfq = q :: more ∧ s.findWay c q.line ≠ none) ∧
    (let s : State := let s := (atLoft (field (inMode .forge)) (piece 1 3 10 4 0x40 4) (fun l => { l with inq := [], ways := [line0], pfq := [{ line := 3, port := 3, pin := true }, { line := 5, port := 3, pin := true }] })); { s with loftFns := s.loftFns.set 5 { state := .on, want := true } }
     let q : Prefetch := { line := 3, port := 3, pin := true }
     let more : List Prefetch := [{ line := 5, port := 3, pin := true }]
     s.tongs.bitten = none ∧ s.slices[c].inq = [] ∧ s.slices[c].pfq = q :: more ∧ s.loftState fnPf = FnState.on ∧ s.blocking c
     = false ∧ s.findWay c q.line = none ∧ s.findRick c q.line = none ∧ (∀ m ∈ s.slices[c].miss, m.line ≠ q.line) ∧
     s.slices[c].miss.length ≤ 56 ∧ s.prefetchRefused c q = false) := by
  dsimp only [absentLine, atHead]
  refine ⟨?_, ?_, ?_, ?_, ?_, ?_, ?_, ?_, ?_, ?_⟩ <;> decide +kernel

theorem test_premises_of_LoftFillsDropsAndSweeps :
    let c : Chan := 0
    let f : Fill := { miss := 4, res := (some (ok 11), some (ok 22)), fresh := false }
    let more : List Fill := [{ miss := 6, res := (none, none), fresh := true }]
    let a : SecRes := ok 11
    let b : SecRes := ok 22
    let x : Piece := piece 1 3 10 0 0 4
    let d : Nat := 0
    let now : Nat := 100027
    let from_ : Nat := 5
    (let s : State := atLoft (field (inMode .forge)) (piece 1 3 10 0 0 4) (fun l => { l with ways := [line0], miss := [miss 3 9 true, { miss 4 0 true with drop := true }], fills := [{ miss := 4, res := (some (ok 11), some (ok 22)), fresh := false }, { miss := 6, res := (none, none), fresh := true }] })
     let m : Miss := { miss 4 0 true with drop := true }
     let l : Slice := s.slices[c]
     let arrives : Prop := s.tongs.bitten = none ∧ l.fills = f :: more ∧ f.res = (some a, some b) ∧ m ∈ l.miss ∧ m.id =
       f.miss ∧ ∀ n ∈ l.miss, n.id = f.miss → n = m
     arrives ∧ m.waiters = [] ∧ m.drop = true) ∧
    (let s : State := atLoft (field (inMode .forge)) (piece 1 3 10 0 0 4) (fun l => { l with ways := (List.range 4).map (fun i => { line0 with line := 1024 * (i + 1) + (i + 1), way := i }), miss := [miss 3 9 true, miss 4 0 true], fills := [{ miss := 4, res := (some (ok 11), some (ok 22)), fresh := false }, { miss := 6, res := (none, none), fresh := true }] })
     let m : Miss := miss 4 0 true
     let l : Slice := s.slices[c]
     let good : SecRes → Prop := fun r => r.status = Status.ok ∨ r.status = Status.okCorrected ∨ r.status = Status.poison
     let arrives : Prop := s.tongs.bitten = none ∧ l.fills = f :: more ∧ f.res = (some a, some b) ∧ m ∈ l.miss ∧ m.id =
       f.miss ∧ ∀ n ∈ l.miss, n.id = f.miss → n = m
     arrives ∧ m.waiters = [] ∧ m.drop = false ∧ f.fresh = false ∧ good a ∧ good b ∧ s.sweeping c m.line = false ∧
     s.eligibleWays c m.pin ≠ []) ∧
    (let s : State := atLoft (field (inMode .forge)) (piece 1 3 10 0 0 4) (fun l => { l with miss := [miss 3 9 true, { miss 4 0 true with drop := true, opener := .read 1, waiters := [{ tag := 1, secs := (true, false) }] }], fills := [{ miss := 4, res := (some (ok 11), some (ok 22)), fresh := false }, { miss := 6, res := (none, none), fresh := true }] })
     let m : Miss := { miss 4 0 true with drop := true, opener := .read 1, waiters := [{ tag := 1, secs := (true, false) }] }
     let l : Slice := s.slices[c]
     let arrives : Prop := s.tongs.bitten = none ∧ l.fills = f :: more ∧ f.res = (some a, some b) ∧ m ∈ l.miss ∧ m.id =
       f.miss ∧ ∀ n ∈ l.miss, n.id = f.miss → n = m
     arrives ∧ m.drop = true ∧ m.waiters = [{ tag := x.tag, secs := (true, false) }] ∧ s.piece x.tag = some x ∧ x.status = none ∧ x.results = [] ∧ x.sectors = 1 ∧ s.pieceLa x 0 = 128 * m.line ∧ m.opener = Opener.read x.tag) ∧
    (let s : State := atLoft (field (inMode .forge)) (piece 1 3 10 0 0 4) (fun l => { l with ways := [line0], drops := [0, 9] })
     let l : Slice := s.slices[c]
     let rest : List Nat := [9]
     l.drops = d :: rest) ∧
    (let s : State := atLoft (field (inMode .forge)) (piece 1 3 10 0 0 4) (fun l => { l with ways := [line0, { line0 with line := 40, way := 3 }], miss := [miss 4 1 true, miss 5 50 false], ranges := [{ base := 0, size := 4096, key := true, full := false }] })
     let l : Slice := s.slices[c]
     let r : Range := { base := 0, size := 4096, key := true, full := false }
     let rest : List Range := []
     l.ranges = r :: rest ∧ l.sweep = none) ∧
    (let s : State := { (field (inMode .forge)).onSlice 0 (fun l => { l with sweep := some { base := 0, size := 2 ^ 41, key := false, full := true } }) with fullInv := [0] }
     let l : Slice := s.slices[c]
     let r : Range := { base := 0, size := 2 ^ 41, key := false, full := true }
     l.sweep = some r) ∧
    (let s : State := (field (inMode .forge)).onSlice 0 (fun l => { l with settle := some 5 })
     let l : Slice := s.slices[c]
     l.settle = some from_ ∧ from_ + 100000 ≤ s.timeAt now) := by
  dsimp only
  refine ⟨?_, ?_, ?_, ?_, ?_, ?_, ?_⟩ <;> decide +kernel

theorem test_premises_of_LoftFunctionsFollowTheirRequests :
    let f : LoftFn := .wg2
    let k : Fin 6 := LoftFn.index f
    (let s : State := { field (inMode .forge) with loftFns := Vector.replicate 6 { state := .on, want := true } }
     let w : Word := 0x15
     s.modes.mode ≠ Mode.cold ∧ s.modes.mode ≠ Mode.banked ∧ BitVec.getLsbD w 6 = false) ∧
    (let s : State := field (inMode .kindle)
     let w : Word := 0x7F
     s.modes.mode ≠ Mode.cold ∧ s.modes.mode ≠ Mode.banked ∧ BitVec.getLsbD w 6 = true ∧ s.fullInv = []) ∧
    (let s : State := ({ field (inMode .forge) with loftFns := Vector.replicate 6 { state := .starting, want := false } }).onSlice 0 (fun l => { l with ways := [{ line0 with way := 9 }] })
     s.loftFns[k].state = FnState.starting) ∧
    (let s : State := ({ field (inMode .forge) with loftFns := Vector.replicate 6 { state := .stopping, want := true } }).onSlice 0 (fun l => { l with ways := [{ line0 with way := 9 }], cleaning := [(2, [])] })
     s.loftFns[k].state = FnState.stopping ∧ s.fnDone k = true) := by
  dsimp only
  decide +kernel

theorem test_premises_of_LineReadsAndFlushesEnterTheAnvilQueue :
    let c : Chan := 0
    (let s : State := (anv .forge (fun v => { v with reads := List.replicate 160 (rdEnt 1 1 row7 [0]) })).onSlice 0 (fun l => { l with miss := [miss 3 9 true, miss 4 0 false, miss 5 1 false] })
     let q : Place := (s.secPlace c 0).1
     let n0 : Nat := (s.secPlace c 0).2
     let n1 : Nat := (s.secPlace c 64).2
     let v : Anvil := s.anvils[c]
     let l : Slice := s.slices[c]
     let before : List Miss := [miss 3 9 true]
     let m : Miss := miss 4 0 false
     let after : List Miss := [miss 5 1 false]
     s.anvilOpen c = true ∧ l.miss = before ++ m :: after ∧ (∀ x ∈ before, x.sent = true) ∧ m.sent = false ∧ (∀ x ∈ before ++
     after, x.id ≠ m.id) ∧ l.drops.contains m.line = false ∧ s.secPlace c (128 * m.line) = (q, n0) ∧ s.secPlace c (128 *
     m.line + 64) = (q, n1) ∧ 160 ≤ v.rdq) ∧
    (let s : State := (anv .forge (fun v => v)).onSlice 0 (fun l => { l with miss := [miss 3 9 true, miss 4 0 false, miss 5 1 false] })
     let q : Place := (s.secPlace c 0).1
     let n0 : Nat := (s.secPlace c 0).2
     let n1 : Nat := (s.secPlace c 64).2
     let v : Anvil := s.anvils[c]
     let l : Slice := s.slices[c]
     let before : List Miss := [miss 3 9 true]
     let m : Miss := miss 4 0 false
     let after : List Miss := [miss 5 1 false]
     s.anvilOpen c = true ∧ l.miss = before ++ m :: after ∧ (∀ x ∈ before, x.sent = true) ∧ m.sent = false ∧ (∀ x ∈ before ++
     after, x.id ≠ m.id) ∧ l.drops.contains m.line = false ∧ s.secPlace c (128 * m.line) = (q, n0) ∧ s.secPlace c (128 *
     m.line + 64) = (q, n1) ∧ v.rdq < 160 ∧ v.writes = [] ∧ v.fills = [] ∧ v.feed = [] ∧ (∀ x ∈ l.merge, x.line ≠ m.line) ∧
     s.secWritten c q n0 = false ∧ s.secWritten c q n1 = false ∧ ∀ f ∈ l.fills, f.miss ≠ m.id) ∧
    (let s : State := (anv .forge (fun v => v.markPlot 0 true)).onSlice 0 (fun l => { l with miss := [miss 3 9 true, miss 4 0 false, miss 5 1 false] })
     let q : Place := (s.secPlace c 0).1
     let n0 : Nat := (s.secPlace c 0).2
     let n1 : Nat := (s.secPlace c 64).2
     let v : Anvil := s.anvils[c]
     let l : Slice := s.slices[c]
     let before : List Miss := [miss 3 9 true]
     let m : Miss := miss 4 0 false
     let after : List Miss := [miss 5 1 false]
     s.anvilOpen c = true ∧ l.miss = before ++ m :: after ∧ (∀ x ∈ before, x.sent = true) ∧ m.sent = false ∧ (∀ x ∈ before ++
     after, x.id ≠ m.id) ∧ l.drops.contains m.line = false ∧ s.secPlace c (128 * m.line) = (q, n0) ∧ s.secPlace c (128 *
     m.line + 64) = (q, n1) ∧ v.rdq < 160 ∧ v.writes = [] ∧ v.fills = [] ∧ v.feed = [] ∧ (∀ x ∈ l.merge, x.line ≠ m.line) ∧
     s.secWritten c q n0 = true) ∧
    (let s : State := (anv .forge (fun v => { v with writes := List.replicate 96 (wrEnt 1 row7 0) })).onSlice 0 (fun l => { l with merge := [merge 3 9 0, { merge 4 0 0 with flush := true }, merge 5 8 0] })
     let q : Place := (s.secPlace c 0).1
     let n0 : Nat := (s.secPlace c 0).2
     let v : Anvil := s.anvils[c]
     let l : Slice := s.slices[c]
     let before : List Merge := [merge 3 9 0]
     let m : Merge := { merge 4 0 0 with flush := true }
     let after : List Merge := [merge 5 8 0]
     s.anvilOpen c = true ∧ l.merge = before ++ m :: after ∧ (∀ x ∈ before, x.flush = false) ∧ m.flush = true ∧ m.smask =
     (true, false) ∧ (∀ x ∈ before ++ after, x.id ≠ m.id) ∧ s.secPlace c (128 * m.line) = (q, n0) ∧ 96 ≤ v.wrq) ∧
    (let s : State := (anv .forge (fun v => (v.markPlot 0 true))).onSlice 0 (fun l => { l with merge := [merge 3 9 0, { merge 4 0 0 with flush := true }, merge 5 8 0] })
     let q : Place := (s.secPlace c 0).1
     let n0 : Nat := (s.secPlace c 0).2
     let v : Anvil := s.anvils[c]
     let l : Slice := s.slices[c]
     let before : List Merge := [merge 3 9 0]
     let m : Merge := { merge 4 0 0 with flush := true }
     let after : List Merge := [merge 5 8 0]
     s.anvilOpen c = true ∧ l.merge = before ++ m :: after ∧ (∀ x ∈ before, x.flush = false) ∧ m.flush = true ∧ m.smask =
     (true, false) ∧ (∀ x ∈ before ++ after, x.id ≠ m.id) ∧ s.secPlace c (128 * m.line) = (q, n0) ∧ v.wrq < 96 ∧ s.secWritten
     c q n0 = true ∧ v.written (128 * m.line / 65536) = true) := by
  dsimp only
  refine ⟨?_, ?_, ?_, ?_, ?_⟩ <;> decide +kernel

theorem test_premises_of_CommandSelectTakesHeatSevenWorkFirst :
    let c : Chan := 0
    let l : Cmd := plainCmd .refab 0 0 0 .refresh
    let late : Bool := false
    let rest : List (Cmd × Bool) := [(plainCmd .mrr 0 0 0 .mr4, false)]
    let n : Nat := 4
    let i : Nat := 2
    let r : Nat := 9
    (let s : State := anv .forge (fun v => { v with heat7 := [(plainCmd .refab 0 0 0 .refresh, false), (plainCmd .mrr 0 0 0 .mr4, false)] })
     let v : Anvil := s.anvils[c]
     v.slot = [] ∧ v.writes = [] ∧ v.fills = [] ∧ v.visit = none ∧ v.granted = [] ∧ v.pauses = [] ∧ s.keptOff c.val = false ∧
     s.flag (aREFRESH c.val) 31 = false ∧ s.flag aRFM 30 = false ∧ (∀ e ∈ v.reads, s.readComplete c e = false) ∧ v.heat7 = (l,
     late) :: rest ∧ l.code = Code.refab ∧ l.src = CmdSrc.refresh ∧ l.bound = false ∧ l.due ≤ v.ck ∧ ∀ b < 16, v.page l.rank b
     = none) ∧
    (let s : State := anv .forge (fun v => { v.setPage 0 3 (some 5) with heat7 := [(plainCmd .refab 0 0 0 .refresh, false), (plainCmd .mrr 0 0 0 .mr4, false)] })
     let v : Anvil := s.anvils[c]
     v.slot = [] ∧ v.writes = [] ∧ v.fills = [] ∧ v.visit = none ∧ v.granted = [] ∧ v.pauses = [] ∧ s.keptOff c.val = false ∧
     s.flag (aREFRESH c.val) 31 = false ∧ s.flag aRFM 30 = false ∧ (∀ e ∈ v.reads, s.readComplete c e = false) ∧ v.heat7 = (l,
     late) :: rest ∧ l.code = Code.refab ∧ l.src = CmdSrc.refresh ∧ l.bound = false ∧ l.due ≤ v.ck ∧ ∃ b < 16, v.page l.rank b
     ≠ none) ∧
    (let s : State := anv .forge (fun v => { v.setPage 0 1 (some 7) with plotBase := true, reads := [rdEnt 5 2 row7 [4, 5]] })
     let e : ReadEnt := rdEnt 5 2 row7 [4, 5]
     let more : List Nat := [5]
     let v : Anvil := s.anvils[c]
     let half : Bool × Bool := (true, true)
     v.slot = [] ∧ v.writes = [] ∧ v.fills = [] ∧ v.visit = none ∧ v.granted = [] ∧ v.pauses = [] ∧ s.keptOff c.val = false ∧
     s.flag (aREFRESH c.val) 31 = false ∧ s.flag aRFM 30 = false ∧ (∀ e ∈ v.reads, s.readComplete c e = false) ∧ v.heat7 = []
     ∧ s.flag (aCMDERR c.val) 30 = false ∧ s.modes.mode ≠ Mode.quench ∧ v.dir = Dir.read ∧ v.reads = [e] ∧ e.kind =
     ReadKind.demand i half ∧ e.todo = n :: more ∧ e.waits = [] ∧ e.waitsM = [] ∧ e.place.rank < 2 ∧ e.place.bank < 16 ∧
     v.neighbour = [] ∧ v.sweep = [] ∧ s.tongs.bitten = none ∧ s.secWritten c e.place n = true ∧ v.page e.place.rank
     e.place.bank = some e.place.row) ∧
    (let s : State := anv .forge (fun v => { v.setPage 0 1 (some 9) with plotBase := true, reads := [rdEnt 5 2 row7 [4, 5]] })
     let e : ReadEnt := rdEnt 5 2 row7 [4, 5]
     let more : List Nat := [5]
     let v : Anvil := s.anvils[c]
     let half : Bool × Bool := (true, true)
     v.slot = [] ∧ v.writes = [] ∧ v.fills = [] ∧ v.visit = none ∧ v.granted = [] ∧ v.pauses = [] ∧ s.keptOff c.val = false ∧
     s.flag (aREFRESH c.val) 31 = false ∧ s.flag aRFM 30 = false ∧ (∀ e ∈ v.reads, s.readComplete c e = false) ∧ v.heat7 = []
     ∧ s.flag (aCMDERR c.val) 30 = false ∧ s.modes.mode ≠ Mode.quench ∧ v.dir = Dir.read ∧ v.reads = [e] ∧ e.kind =
     ReadKind.demand i half ∧ e.todo = n :: more ∧ e.waits = [] ∧ e.waitsM = [] ∧ e.place.rank < 2 ∧ e.place.bank < 16 ∧
     v.neighbour = [] ∧ v.sweep = [] ∧ s.tongs.bitten = none ∧ s.secWritten c e.place n = true ∧ v.page e.place.rank
     e.place.bank = some r ∧ r ≠ e.place.row) ∧
    (let s : State := anv .forge (fun v => { v with plotBase := true, reads := [rdEnt 5 2 row7 [4, 5]] })
     let e : ReadEnt := rdEnt 5 2 row7 [4, 5]
     let more : List Nat := [5]
     let v : Anvil := s.anvils[c]
     let half : Bool × Bool := (true, true)
     v.slot = [] ∧ v.writes = [] ∧ v.fills = [] ∧ v.visit = none ∧ v.granted = [] ∧ v.pauses = [] ∧ s.keptOff c.val = false ∧
     s.flag (aREFRESH c.val) 31 = false ∧ s.flag aRFM 30 = false ∧ (∀ e ∈ v.reads, s.readComplete c e = false) ∧ v.heat7 = []
     ∧ s.flag (aCMDERR c.val) 30 = false ∧ s.modes.mode ≠ Mode.quench ∧ v.dir = Dir.read ∧ v.reads = [e] ∧ e.kind =
     ReadKind.demand i half ∧ e.todo = n :: more ∧ e.waits = [] ∧ e.waitsM = [] ∧ e.place.rank < 2 ∧ e.place.bank < 16 ∧
     v.neighbour = [] ∧ v.sweep = [] ∧ s.tongs.bitten = none ∧ s.secWritten c e.place n = true ∧ v.page e.place.rank
     e.place.bank = none) ∧
    (let s : State := anv .forge (fun v => { v with plotBase := true, cache := [{ place := row7, pos := 28, data := 1 }, { place := { row7 with row := 8 }, pos := 28, data := 1 }], reads := [rdEnt 5 2 row7 [4, 5]] })
     let e : ReadEnt := rdEnt 5 2 row7 [4, 5]
     let more : List Nat := [5]
     let v : Anvil := s.anvils[c]
     let half : Bool × Bool := (true, true)
     v.slot = [] ∧ v.writes = [] ∧ v.fills = [] ∧ v.visit = none ∧ v.granted = [] ∧ v.pauses = [] ∧ s.keptOff c.val = false ∧
     s.flag (aREFRESH c.val) 31 = false ∧ s.flag aRFM 30 = false ∧ (∀ e ∈ v.reads, s.readComplete c e = false) ∧ v.heat7 = []
     ∧ s.flag (aCMDERR c.val) 30 = false ∧ s.modes.mode ≠ Mode.quench ∧ v.dir = Dir.read ∧ v.reads = [e] ∧ e.kind =
     ReadKind.demand i half ∧ e.todo = n :: more ∧ e.waits = [] ∧ e.waitsM = [] ∧ e.place.rank < 2 ∧ e.place.bank < 16 ∧
     v.neighbour = [] ∧ v.sweep = [] ∧ s.tongs.bitten = none ∧ s.secWritten c e.place n = true) ∧
    (let s : State := anv .forge (fun v => { v with plotBase := true, reads := [{ rdEnt 5 2 row7 [4] with kind := .demand 2 (true, false) }] })
     let e : ReadEnt := { rdEnt 5 2 row7 [4] with kind := .demand 2 (true, false) }
     let more : List Nat := []
     let v : Anvil := s.anvils[c]
     let half : Bool × Bool := (true, false)
     v.slot = [] ∧ v.writes = [] ∧ v.fills = [] ∧ v.visit = none ∧ v.granted = [] ∧ v.pauses = [] ∧ s.keptOff c.val = false ∧
     s.flag (aREFRESH c.val) 31 = false ∧ s.flag aRFM 30 = false ∧ (∀ e ∈ v.reads, s.readComplete c e = false) ∧ v.heat7 = []
     ∧ s.flag (aCMDERR c.val) 30 = false ∧ s.modes.mode ≠ Mode.quench ∧ v.dir = Dir.read ∧ v.reads = [e] ∧ e.kind =
     ReadKind.demand i half ∧ e.todo = n :: more ∧ e.waits = [] ∧ e.waitsM = [] ∧ e.place.rank < 2 ∧ e.place.bank < 16 ∧
     v.neighbour = [] ∧ v.sweep = [] ∧ s.tongs.bitten = none ∧ s.secWritten c e.place n = true ∧ s.populated c.val = true ∧
     half = (true, false)) := by
  dsimp only
  refine ⟨?_, ?_, ?_, ?_, ?_, ?_, ?_⟩ <;> decide +kernel

theorem test_premises_of_NoCommandIssuesAgainstTheTimingRules :
    let c : Chan := 0
    let ck : Nat := 10
    let now : Nat := 9
    let i : Instr := .rd 0 10
    let l : Cmd := plainCmd .rd 0 1 7 (.readEnt 5 4)
    let e : Issued := { ck := 5, code := .act, rank := 0, bank := 1, dq := 0, mark := false }
    (let s : State := anv .forge (fun v => { v with ck := 11, slot := [plainCmd .rd 0 1 7 (.readEnt 5 4)] })
     i ∈ commandRows c ck now ∧ ∀ l ∈ s.anvils[c].slot, s.mayIssue c l ck = false) ∧
    (let s : State := (anv .forge (fun v => v)).setFlag (aPLL 0) 31 false
     i ∈ commandRows c ck now ∧ s.pllLock c = false) ∧
    (let s : State := anv .forge (fun v => { v with tim := Vector.replicate 9 0xFFFFFFFF, slot := [plainCmd .rd 0 1 7 (.readEnt 5 4)], hist := [{ ck := 5, code := .act, rank := 0, bank := 1, dq := 0, mark := false }] })
     i ∈ commandRows c ck now ∧ s.anvils[c].slot = [l] ∧ (l.code = Code.rd ∨ l.code = Code.wr) ∧ e ∈ s.anvils[c].hist ∧ e.code
     = Code.act ∧ e.rank = l.rank ∧ e.bank = l.bank ∧ ck < e.ck + s.anvils[c].trcd) := by
  dsimp only
  decide +kernel

theorem test_premises_of_RowAndRefreshCommandsIssue :
    let c : Chan := 0
    let ck : Nat := 1000
    let x : Nat := 6
    let rest : List Nat := [8]
    let n : Nat := 1
    let q : Place := row7
    let m : SmithId := 0
    (let s : State := (anv .forge (fun v => { v with slot := [plainCmd .act 0 1 7 (.readEnt 5 4), plainCmd .act 1 0 9 (.readEnt 8 4)], raa := Vector.replicate 32 9 })).setFlag aRFM 30 true |>.setFld aRFM 17 8 9
     let l : Cmd := plainCmd .act 0 1 7 (.readEnt 5 4)
     l.rank < 2 ∧ l.bank < 16 ∧ driver s l ∧ s.issuing c Code.act ck = some l ∧ s.raaBlocks c l.rank l.bank = true) ∧
    (let s : State := (anv .forge (fun v => { v with slot := [plainCmd .act 0 1 7 (.readEnt 5 4), plainCmd .act 1 0 9 (.readEnt 8 4)] })).setFld (aHAMMER 0) 11 0 9 |>.setFlag aRFM 30 true |>.setFld aRFM 29 0 0x3FFFFFFF
     let l : Cmd := plainCmd .act 0 1 7 (.readEnt 5 4)
     let v : Anvil := s.anvils[c]
     let client : Prop := l.client = true
     let row : List (Nat × Nat) := tallyAct (v.table l.rank l.bank) l.row
     l.rank < 2 ∧ l.bank < 16 ∧ driver s l ∧ s.issuing c Code.act ck = some l ∧ s.raaBlocks c l.rank l.bank = false ∧ client ∧
     ∀ e ∈ row, e.1 = l.row → e.2 < s.thresh c) ∧
    (let s : State := (anv .forge (fun v => { v with slot := [plainCmd .act 0 1 7 (.readEnt 5 4), plainCmd .act 1 0 9 (.readEnt 8 4)] })).setFld (aHAMMER 0) 11 0 1 |>.setFlag aRFM 30 false
     let l : Cmd := plainCmd .act 0 1 7 (.readEnt 5 4)
     let v : Anvil := s.anvils[c]
     let client : Prop := l.client = true
     let row : List (Nat × Nat) := tallyAct (v.table l.rank l.bank) l.row
     l.rank < 2 ∧ l.bank < 16 ∧ driver s l ∧ s.issuing c Code.act ck = some l ∧ s.raaBlocks c l.rank l.bank = false ∧ client ∧
     (l.row, n) ∈ row ∧ s.thresh c ≤ n ∧ s.victims c l.row = x :: rest) ∧
    (let s : State := anv .forge (fun v => { v with slot := [plainCmd .act 0 1 6 (.neighbour row7), plainCmd .mrr 1 0 0 .mr4] })
     let l : Cmd := plainCmd .act 0 1 6 (.neighbour row7)
     l.rank < 2 ∧ l.bank < 16 ∧ driver s l ∧ s.issuing c Code.act ck = some l ∧ s.raaBlocks c l.rank l.bank = false ∧ l.src =
     CmdSrc.neighbour q) ∧
    (let s : State := smithWaits (anv .forge (fun v => { v with slot := [plainCmd .act 0 1 6 (.smith 0), plainCmd .mrr 1 0 0 .mr4] })) 0 (.cmd 1 0)
     let l : Cmd := plainCmd .act 0 1 6 (.smith 0)
     let v : Anvil := s.anvils[c]
     l.rank < 2 ∧ l.bank < 16 ∧ driver s l ∧ s.issuing c Code.act ck = some l ∧ s.raaBlocks c l.rank l.bank = false ∧ l.src =
     CmdSrc.smith m ∧ v.page l.rank l.bank = none) ∧
    (let s : State := smithWaits (anv .forge (fun v => { v with slot := [plainCmd .pre 0 1 7 (.smith 0), plainCmd .mrr 1 0 0 .mr4], pages := if true then Vector.replicate 32 (some 7) else v.pages, raa := Vector.replicate 32 9 })) 0 (.cmd 1 0) |>.setFlag aRFM 30 true |>.setFld aRFM 29 0 0x3FFFFFFF
     let l : Cmd := plainCmd .pre 0 1 7 (.smith 0)
     l.rank < 2 ∧ l.bank < 16 ∧ driver s l ∧ s.issuing c Code.pre ck = some l ∧ ∀ (p : Place), l.src ≠ CmdSrc.neighbour p) ∧
    (let s : State := smithWaits (anv .forge (fun v => { v with slot := [plainCmd .prea 0 1 7 (.smith 0), plainCmd .mrr 1 0 0 .mr4], pages := if true then Vector.replicate 32 (some 7) else v.pages, raa := Vector.replicate 32 9 })) 0 (.cmd 1 0) |>.setFlag aRFM 30 true |>.setFld aRFM 29 0 0x3FFFFFFF
     let l : Cmd := plainCmd .prea 0 1 7 (.smith 0)
     l.rank < 2 ∧ l.bank < 16 ∧ driver s l ∧ s.issuing c Code.prea ck = some l) ∧
    (let s : State := smithWaits (anv .forge (fun v => { v with slot := [plainCmd .refpb 0 1 7 (.smith 0), plainCmd .mrr 1 0 0 .mr4], pages := if false then Vector.replicate 32 (some 7) else v.pages, raa := Vector.replicate 32 9 })) 0 (.cmd 1 0) |>.setFlag aRFM 30 true |>.setFld aRFM 29 0 0x3FFFFFFF
     let l : Cmd := plainCmd .refpb 0 1 7 (.smith 0)
     l.rank < 2 ∧ l.bank < 16 ∧ driver s l ∧ s.issuing c Code.refpb ck = some l) ∧
    (let s : State := smithWaits (anv .forge (fun v => { v with slot := [plainCmd .refab 0 1 7 (.smith 0), plainCmd .mrr 1 0 0 .mr4], pages := if false then Vector.replicate 32 (some 7) else v.pages, raa := Vector.replicate 32 9 })) 0 (.cmd 1 0) |>.setFlag aRFM 30 true |>.setFld aRFM 29 0 0x3FFFFFFF
     let l : Cmd := plainCmd .refab 0 1 7 (.smith 0)
     l.rank < 2 ∧ l.bank < 16 ∧ driver s l ∧ s.issuing c Code.refab ck = some l) ∧
    (let s : State := smithWaits (anv .forge (fun v => { v with slot := [plainCmd .rfm 0 1 7 (.smith 0), plainCmd .mrr 1 0 0 .mr4], pages := if false then Vector.replicate 32 (some 7) else v.pages, raa := Vector.replicate 32 9 })) 0 (.cmd 1 0) |>.setFlag aRFM 30 true |>.setFld aRFM 29 0 0x3FFFFFFF
     let l : Cmd := plainCmd .rfm 0 1 7 (.smith 0)
     l.rank < 2 ∧ l.bank < 16 ∧ driver s l ∧ s.issuing c Code.rfm ck = some l) := by
  dsimp only [driver]
  refine ⟨?_, ?_, ?_, ?_, ?_, ?_, ?_, ?_, ?_, ?_⟩ <;> first | decide +kernel | (and_intros <;> first | decide +kernel | (intro m h; cases h; exact ⟨_, _, rfl, by unfold GoesOn; decide +kernel⟩) | (intro m h; cases h))

theorem test_premises_of_BurstAndModeCommandsIssue :
    let c : Chan := 0
    let ck : Nat := 1000
    let seq : Nat := 5
    let pos : Nat := 4
    let e : ReadEnt := rdEnt 5 2 row7 [4, 5]
    let row : Nat := 7
    let m : SmithId := 0
    let w : WriteEnt := { wrEnt 5 row7 4 with kind := .mend }
    (let s : State := anv .forge (fun v => { v with slot := [plainCmd .rd 0 1 7 (.readEnt 5 4), plainCmd .act 1 0 9 (.readEnt 8 4)], reads := [rdEnt 5 2 row7 [4, 5]], pages := v.pages.set 1 (some 7) })
     let l : Cmd := plainCmd .rd 0 1 7 (.readEnt 5 4)
     let v : Anvil := s.anvils[c]
     l.rank < 2 ∧ l.bank < 16 ∧ driver s l ∧ s.issuing c Code.rd ck = some l ∧ l.src = CmdSrc.readEnt seq pos ∧ List.find?
     (fun x => x.seq == seq) v.reads = some e) ∧
    (let s : State := (smithWaits (anv .forge (fun v => { v with slot := [{ plainCmd .rd 0 1 0 (.smith 0) with col := 9 }, plainCmd .mrr 1 0 0 .mr4], pages := v.pages.set 1 (some 7) })) 0 (.cmd 1 0)).wr (aPATPTR 0) 0xF00
     let l : Cmd := { plainCmd .rd 0 1 0 (.smith 0) with col := 9 }
     let v : Anvil := s.anvils[c]
     l.rank < 2 ∧ l.bank < 16 ∧ driver s l ∧ s.issuing c Code.rd ck = some l ∧ l.src = CmdSrc.smith m ∧ l.bl16 = false ∧ l.ap
     = false ∧ v.page l.rank l.bank = some row) ∧
    (let s : State := anv .forge (fun v => { v with slot := [plainCmd .wr 0 1 7 (.writeEnt 5 4), plainCmd .act 1 0 9 (.readEnt 8 4)], writes := [{ wrEnt 5 row7 4 with kind := .mend }, wrEnt 6 row7 9], pages := v.pages.set 1 (some 7) })
     let l : Cmd := plainCmd .wr 0 1 7 (.writeEnt 5 4)
     let v : Anvil := s.anvils[c]
     l.rank < 2 ∧ l.bank < 16 ∧ driver s l ∧ s.issuing c Code.wr ck = some l ∧ l.src = CmdSrc.writeEnt seq pos ∧ List.find?
     (fun x => x.seq == seq) v.writes = some w ∧ s.burstsLeft c w pos = [] ∧ w.fill = false ∧ v.reads = [] ∧ v.feed = []) ∧
    (let s : State := (smithWaits (anv .forge (fun v => { v with slot := [{ plainCmd .wr 0 1 0 (.smith 0) with col := 9 }, plainCmd .mrr 1 0 0 .mr4], pages := v.pages.set 1 (some 7) })) 0 (.cmd 1 0)).wr (aPATPTR 0) 0xF
     let l : Cmd := { plainCmd .wr 0 1 0 (.smith 0) with col := 9 }
     let v : Anvil := s.anvils[c]
     l.rank < 2 ∧ l.bank < 16 ∧ driver s l ∧ s.issuing c Code.wr ck = some l ∧ l.src = CmdSrc.smith m ∧ l.bl16 = false ∧ l.ap
     = false ∧ v.page l.rank l.bank = some row) ∧
    (let s : State := smithWaits (anv .forge (fun v => { v with slot := [plainCmd .mrw 0 0 0 (.smith 0), plainCmd .mrr 1 0 0 .mr4] })) 0 (.cmd 1 0)
     let l : Cmd := plainCmd .mrw 0 0 0 (.smith 0)
     l.rank < 2 ∧ l.bank < 16 ∧ driver s l ∧ s.issuing c Code.mrw ck = some l) ∧
    (let s : State := smithWaits (anv .forge (fun v => { v with slot := [plainCmd .mpc 0 0 0 (.smith 0), plainCmd .mrr 1 0 0 .mr4] })) 0 (.cmd 1 0)
     let l : Cmd := plainCmd .mpc 0 0 0 (.smith 0)
     l.rank < 2 ∧ l.bank < 16 ∧ driver s l ∧ s.issuing c Code.mpc ck = some l) ∧
    (let s : State := smithWaits (anv .forge (fun v => { v with slot := [plainCmd .mrr 0 0 0 (.smith 0), plainCmd .mrr 1 0 0 .mr4] })) 0 (.cmd 1 0)
     let l : Cmd := plainCmd .mrr 0 0 0 (.smith 0)
     l.rank < 2 ∧ l.bank < 16 ∧ driver s l ∧ s.issuing c Code.mrr ck = some l) ∧
    (let s : State := smithWaits (anv .forge (fun v => { v with slot := [plainCmd .sre 0 0 0 (.smith 0), plainCmd .mrr 1 0 0 .mr4] })) 0 (.cmd 1 0)
     let l : Cmd := plainCmd .sre 0 0 0 (.smith 0)
     l.rank < 2 ∧ l.bank < 16 ∧ driver s l ∧ s.issuing c Code.sre ck = some l) ∧
    (let s : State := smithWaits (anv .forge (fun v => { v with slot := [plainCmd .pde 0 0 0 (.smith 0), plainCmd .mrr 1 0 0 .mr4] })) 0 (.cmd 1 0)
     let l : Cmd := plainCmd .pde 0 0 0 (.smith 0)
     l.rank < 2 ∧ l.bank < 16 ∧ driver s l ∧ s.issuing c Code.pde ck = some l) ∧
    (let s : State := smithWaits (anv .forge (fun v => { v with slot := [plainCmd .pdx 0 0 0 (.smith 0), plainCmd .mrr 1 0 0 .mr4], pdown := Vector.replicate 2 true })) 0 (.cmd 1 0)
     let l : Cmd := plainCmd .pdx 0 0 0 (.smith 0)
     l.rank < 2 ∧ l.bank < 16 ∧ driver s l ∧ s.issuing c Code.pdx ck = some l) ∧
    (let s : State := smithWaits (anv .forge (fun v => { v with slot := [plainCmd .srx 0 0 0 (.smith 0), plainCmd .mrr 1 0 0 .mr4], selfRef := Vector.replicate 2 true })) 0 (.cmd 1 0)
     let l : Cmd := plainCmd .srx 0 0 0 (.smith 0)
     l.rank < 2 ∧ l.bank < 16 ∧ driver s l ∧ s.issuing c Code.srx ck = some l) := by
  dsimp only [driver]
  refine ⟨?_, ?_, ?_, ?_, ?_, ?_, ?_, ?_, ?_, ?_, ?_⟩ <;> first | decide +kernel | (and_intros <;> first | decide +kernel | (intro m h; cases h; exact ⟨_, _, rfl, by unfold GoesOn; decide +kernel⟩) | (intro m h; cases h))

theorem test_premises_of_ReadDataAndMrrResultsReturn :
    let c : Chan := 0
    let seq : Nat := 5
    let pos : Nat := 4
    let err : Sector := 0
    let i : Nat := 2
    let m : SmithId := 0
    let g : RegNo := 1
    (let s : State := anv .forge (fun v => { v with reads := [{ rdEnt 5 2 row7 [4, 5] with todo := [], flying := [4, 5] }], bursts := [{ ck := 5, cmd := plainCmd .rd 0 1 7 (.readEnt 5 4), data := some 0xAB }] })
     let b : Burst := { ck := 5, cmd := plainCmd .rd 0 1 7 (.readEnt 5 4), data := some 0xAB }
     let d : Sector := 0xAB
     let e : ReadEnt := { rdEnt 5 2 row7 [4, 5] with todo := [], flying := [4, 5] }
     let v : Anvil := s.anvils[c]
     List.find? (fun x => x.cmd.code == Code.rd) v.bursts = some b ∧ b.cmd.src = CmdSrc.readEnt seq pos ∧ b.data = some d ∧
     v.reads = [e] ∧ e.seq = seq ∧ s.tongs.bitten = none ∧ e.flying.erase pos ≠ []) ∧
    (let s : State := anv .forge (fun v => { (v.markPlot (State.secPlot (field (inMode .forge)) 0 row7 4) true) with reads := [cleanEnt], bursts := [{ ({ ck := 5, cmd := plainCmd .rd 0 1 7 (.readEnt 5 4), data := some 0xAB } : Burst) with data := some cleanSector }] })
     let b : Burst := { ({ ck := 5, cmd := plainCmd .rd 0 1 7 (.readEnt 5 4), data := some 0xAB } : Burst) with data := some cleanSector }
     let d : Sector := cleanSector
     let e : ReadEnt := cleanEnt
     let v : Anvil := s.anvils[c]
     let got : List (Nat × Sector) := e.got ++ [(pos, d ^^^ err)]
     List.find? (fun x => x.cmd.code == Code.rd) v.bursts = some b ∧ b.cmd.src = CmdSrc.readEnt seq pos ∧ b.data = some d ∧
     v.reads = [e] ∧ e.seq = seq ∧ s.tongs.bitten = none ∧ e.kind = ReadKind.demand i (true, false) ∧ e.secs = [pos] ∧
     e.flying = [pos] ∧ e.todo = [] ∧ s.readBlocked c e = false ∧ s.isCheck pos = false ∧ (∀ p ∈ s.readChecks c e,
     (List.lookup p e.got).isSome = true) ∧ ((List.lookup 31 e.got).isSome = true ∨ v.held e.place 31 = none) ∧ s.secWritten c
     e.place pos = true ∧ (∀ f ∈ s.slices[c].fills, f.miss ≠ i) ∧ (s.decode c e.place got pos).found = Found.good ∧
     s.needsLocate c e.place got pos = false ∧ s.needsBitmap c e.place got pos = false) ∧
    (let s : State := (anv .forge (fun v => { v with bursts := [{ ck := 5, cmd := plainCmd .rd 0 1 7 (.readEnt 5 4), data := some 0xAB }, { ck := 5, cmd := plainCmd .mrr 0 0 0 (.smith 0), data := none }] })).onSmith 0 (fun h => { h with mrr := [{ chan := 0, value := none }] })
     let b : Burst := { ck := 5, cmd := plainCmd .mrr 0 0 0 (.smith 0), data := none }
     let v : Anvil := s.anvils[c]
     v.mrrBurst = some b ∧ b.cmd.src = CmdSrc.smith m ∧ ∀ (g : RegNo) (y : Chan), s.smiths[m].wait ≠ some (Wait.rdmr g y)) ∧
    (let s : State := (smithWaits (anv .forge (fun v => { v with bursts := [{ ck := 5, cmd := plainCmd .rd 0 1 7 (.readEnt 5 4), data := some 0xAB }, { ck := 5, cmd := plainCmd .mrr 0 0 0 (.smith 0), data := none }] })) 0 (.rdmr 1 0)).onSmith 0 (fun h => { h with mrr := [{ chan := 0, value := none }] })
     let b : Burst := { ck := 5, cmd := plainCmd .mrr 0 0 0 (.smith 0), data := none }
     let v : Anvil := s.anvils[c]
     v.mrrBurst = some b ∧ b.cmd.src = CmdSrc.smith m ∧ s.smiths[m].wait = some (Wait.rdmr g c) ∧ s.smiths[m].mrr = [{ chan := c, value := none }] ∧ GoesOn s m (s.smiths[m].pc.toNat + 1)) := by
  dsimp only [GoesOn]
  decide +kernel

theorem test_premises_of_RefreshDebtPollsAndTheirCommands :
    let c : Chan := 0
    let k : Fin 2 := 0
    let now : Nat := 105
    let b : Nat := 2
    let due : Nat := 100
    (let s : State := (anv .forge (fun v => { v with slot := [plainCmd .rd 0 1 7 (.readEnt 5 4), plainCmd .rd 0 1 7 (.readEnt 5 5)], ranks := Vector.replicate 2 { debt := 62, marks := 0, rounds := 0, overdue := false, next := 3200 } })).wr (aREFRESH 0) 0x80000F0C
     let u : Nat := s.timeAt now
     let v : Anvil := s.anvils[c]
     let r : RankRefresh := v.ranks[k]
     s.refreshing c = true ∧ v.fn.state = FnState.on ∧ k ∈ s.ranksOf c ∧ v.selfRef[k] = false ∧ r.next ≤ 32 * u ∧
     v.slot.length = 2 ∧ r.debt + 1 < 64) ∧
    (let s : State := (anv .forge (fun v => { v with slot := [plainCmd .rd 0 1 7 (.readEnt 5 4), plainCmd .rd 0 1 7 (.readEnt 5 5)], ranks := Vector.replicate 2 { debt := 63, marks := 0, rounds := 0, overdue := false, next := 3200 } })).wr (aREFRESH 0) 0x80000F0C
     let u : Nat := s.timeAt now
     let v : Anvil := s.anvils[c]
     let r : RankRefresh := v.ranks[k]
     s.refreshing c = true ∧ v.fn.state = FnState.on ∧ k ∈ s.ranksOf c ∧ v.selfRef[k] = false ∧ r.next ≤ 32 * u ∧
     v.slot.length = 2 ∧ r.debt = 63 ∧ r.overdue = false) ∧
    (let s : State := (anv .forge (fun v => { v with slot := [plainCmd .rd 0 1 7 (.readEnt 5 4)], ranks := Vector.replicate 2 { debt := 61, marks := 0x13, rounds := 0, overdue := false, next := 3200 } })).wr (aREFRESH 0) 0x80000F0C
     let u : Nat := s.timeAt now
     let v : Anvil := s.anvils[c]
     let r : RankRefresh := v.ranks[k]
     let urgent : Int := (s.urgent c).cast
     s.refreshing c = true ∧ v.fn.state = FnState.on ∧ k ∈ s.ranksOf c ∧ v.selfRef[k] = false ∧ r.next ≤ 32 * u ∧ b < 8 ∧
     v.slot.length < 2 ∧ v.granted = [] ∧ s.inService = true ∧ urgent ≤ r.debt + 1 ∧ r.debt + 1 < 64 ∧ (∀ x < b,
     r.marks.getLsbD x = true) ∧ r.marks.getLsbD b = false ∧ r.marks ||| BitVec.ofNat 8 (2 ^ b) ≠ 255) ∧
    (let s : State := (anv .kindle (fun v => { v with slot := [], ranks := Vector.replicate 2 { debt := 7, marks := 0x13, rounds := 0, overdue := false, next := 3200 } })).wr (aREFRESH 0) 0x80000F0C
     let u : Nat := s.timeAt now
     let v : Anvil := s.anvils[c]
     let r : RankRefresh := v.ranks[k]
     s.refreshing c = true ∧ v.fn.state = FnState.on ∧ k ∈ s.ranksOf c ∧ v.selfRef[k] = false ∧ r.next ≤ 32 * u ∧
     v.slot.length < 2 ∧ v.granted = [] ∧ (s.modes.mode = Mode.kindle ∨ s.modes.mode = Mode.assay) ∧ r.debt = 7) ∧
    (let s : State := (anv .kindle (fun v => { v with mr4Due := some 100 })).wr (aREFRESH 0) 0x80000F0C
     let u : Nat := s.timeAt now
     let v : Anvil := s.anvils[c]
     s.refreshing c = true ∧ v.fn.state = FnState.on ∧ v.mr4Due = some due ∧ due ≤ u) ∧
    (let s : State := (anv .forge (fun v => { v with bursts := [{ ck := 5, cmd := { plainCmd .mrr 0 0 0 .mr4 with ma := 4 }, data := none }] })).wr (aREFRESH 0) 0x80430F0C
     let v : Anvil := s.anvils[c]
     v.mr4Back = true) := by
  dsimp only
  decide +kernel

theorem test_premises_of_PausesAreGrantedForcedAndExpire :
    let c : Chan := 0
    let rest : List PauseReq := [{ smith := 24, n := 5, time := 12, prep := false, forced := false }]
    let d : RegNo := 1
    let now : Nat := 200036
    let g : PauseGrant := { smith := 0, n := 64, start := 936 }
    (let s : State := smithWaits ((anv .forge (fun v => { v with pauses := [{ smith := 0, n := 64, time := 9, prep := true, forced := false }, { smith := 24, n := 5, time := 12, prep := false, forced := false }] })).wr (aPSTAT 0) 0xFFFF) 0 (.pause 1 0)
     let ck : Nat := 1000
     let r : PauseReq := { smith := 0, n := 64, time := 9, prep := true, forced := false }
     let v : Anvil := s.anvils[c]
     let m : SmithId := r.smith
     s.modes.mode ≠ Mode.kindle ∧ v.granted = [] ∧ v.pauses = r :: rest ∧ r.prep = true ∧ v.ck ≤ ck ∧ v.slot = [] ∧ (∀ b ∈
     v.bursts, b.cmd.client = false) ∧ v.dqEnded ck = true ∧ (∀ p ∈ v.pages, p = none) ∧ s.smiths[m].wait = some (Wait.pause d
     c) ∧ s.working m = false ∧ GoesOn s m (s.smiths[m].pc.toNat + 1)) ∧
    (let s : State := (anv .forge (fun v => { v with pauses := [{ smith := 0, n := 64, time := 9, prep := false, forced := false }, { smith := 24, n := 5, time := 12, prep := false, forced := false }] })).wr (aRETRAIN 0) 0
     let r : PauseReq := { smith := 0, n := 64, time := 9, prep := false, forced := false }
     let u : Nat := s.timeAt now
     let v : Anvil := s.anvils[c]
     let limit : Nat := if s.fld (aRETRAIN c.val) 15 0 = 0 then 200000 else 4 * (1000 * s.fld (aRETRAIN c.val) 15 0)
     s.inService = true ∧ v.granted = [] ∧ v.pauses = r :: rest ∧ r.prep = false ∧ r.forced = false ∧ r.time + limit ≤ u) ∧
    (let s : State := anv .forge (fun v => { v with granted := [{ smith := 0, n := 64, start := 936 }], owed := [(0, false)], heat7 := [(plainCmd .refab 0 0 0 .refresh, true), (plainCmd .mrr 0 0 0 .mr4, true)] })
     let ck : Nat := 1000
     let v : Anvil := s.anvils[c]
     v.granted = [g] ∧ g.start + g.n ≤ ck) ∧
    (let s : State := anv .forge (fun v => { v with granted := [{ smith := 0, n := 64, start := 936 }], owed := [(0, false)] })
     let ck : Nat := 999
     let v : Anvil := s.anvils[c]
     v.granted = [g] ∧ ck < g.start + g.n) ∧
    (let s : State := inMode .forge
     let w : Word := 0xC0000000
     s.modes.mode ≠ Mode.cold ∧ s.modes.mode ≠ Mode.banked ∧ BitVec.getLsbD w 30 = true ∧ s.flag (aCMDERR c.val) 30 = false ∧
     s.flag (aCMDERR c.val) 31 = false) ∧
    (let s : State := (anv .forge (fun v => v)).wr (aCMDERR 0) 0xC0050006
     let w : Word := 0x80000000
     s.modes.mode ≠ Mode.cold ∧ s.modes.mode ≠ Mode.banked ∧ BitVec.getLsbD w 30 = false) := by
  dsimp only [GoesOn]
  decide +kernel

theorem test_premises_of_RetrainingAndZqFollowTheirIntervals :
    let c : Chan := 0
    let h : HearthId := 0
    let zq : Nat := aZQ (6 * h.val)
    let ck : Nat := 1000
    let rank : Fin 2 := 0
    let due : Nat := 500
    (let s : State := (anv .forge (fun v => v)).wr (aRETRAIN 0) 10
     let now : Nat := 10000
     let u : Nat := s.timeAt now
     let v : Anvil := s.anvils[c]
     let interval : Nat := 1000 * s.fld (aRETRAIN c.val) 15 0
     0 < interval ∧ v.fn.state = FnState.on ∧ (s.inService = true ∨ s.modes.mode = Mode.assay) ∧ v.retrainAt + interval ≤ u) ∧
    (let s : State := anv .forge (fun v => v)
     s.modes.mode ≠ Mode.cold ∧ s.modes.mode ≠ Mode.banked) ∧
    (let s : State := (anv .forge (fun v => v)).setFld (aZQ 0) 7 0 100
     let now : Nat := 200000000
     let u : Nat := s.timeAt now
     s.modes.mode ≠ Mode.cold ∧ s.modes.mode ≠ Mode.banked ∧ s.flag zq 31 = false ∧ (s.hearths[h].zqDone = false ∨
     s.hearths[h].zqFrom + 1000000 * s.fld zq 7 0 ≤ u)) ∧
    (let s : State := (anv .forge (fun v => v)).setFlag (aZQ 0) 31 true
     s.flag zq 31 = true) ∧
    (let s : State := (anv .forge (fun v => { v with zqApply := true })).setFld (aZQ 0) 29 16 0x1234
     let v : Anvil := s.anvils[c]
     v.zqApply = true ∧ v.ck ≤ ck ∧ v.idle4 ck = true) ∧
    (let s : State := (anv .forge (fun v => { v with zqDue := Vector.replicate 2 (some 500) }))
     let now : Nat := 10000
     let u : Nat := s.timeAt now
     let v : Anvil := s.anvils[c]
     s.inService = true ∧ s.populated c.val = true ∧ v.zqDue[rank] = some due ∧ due ≤ u) := by
  dsimp only
  decide +kernel

theorem test_premises_of_PllSetPointsAndStoresOfAHearth :
    let c : Chan := 0
    let pll : Nat := aPLL c.val
    let n : Fin 3 := 1
    let fsp : Nat := aFSP c.val
    let h : HearthId := 0
    let top : Nat := aPLL (6 * h.val)
    (let s : State := inMode .kindle
     let w : Word := 0x100
     let new : Nat := bits (BitVec.toNat w) 5 4
     s.modes.mode ≠ Mode.cold ∧ s.modes.mode ≠ Mode.banked ∧ new = s.fld pll 5 4 ∧ BitVec.getLsbD w 8 ≠ s.flag pll 8) ∧
    (let s : State := ((inMode .kindle).setFlag (aPLL 0) 8 true).onAnvil 0 (fun v => { v with dly := [(256, 9)] })
     let w : Word := 0x120
     let new : Nat := bits (BitVec.toNat w) 5 4
     s.modes.mode ≠ Mode.cold ∧ s.modes.mode ≠ Mode.banked ∧ new < 3 ∧ new ≠ s.fld pll 5 4 ∧ BitVec.getLsbD w 8 = s.flag pll 8
     ∧ s.modes.mode = Mode.kindle) ∧
    (let s : State := (inMode .forge).setFlag (aPLL 0) 8 true
     let w : Word := 0x110
     let new : Nat := bits (BitVec.toNat w) 5 4
     s.modes.mode ≠ Mode.cold ∧ s.modes.mode ≠ Mode.banked ∧ new < 3 ∧ new ≠ s.fld pll 5 4 ∧ BitVec.getLsbD w 8 = s.flag pll 8
     ∧ s.modes.mode ≠ Mode.kindle ∧ s.modes.step ≠ BankStep.bankOut) ∧
    (let s : State := inMode .kindle
     let w : Word := 0x50
     let code : Nat := bits (BitVec.toNat w) (4 * n.val + 2) (4 * n.val)
     s.modes.mode ≠ Mode.cold ∧ s.modes.mode ≠ Mode.banked ∧ code < 6 ∧ code ≠ s.fld fsp (4 * n.val + 2) (4 * n.val) ∧ s.fld
     pll 5 4 ≠ n.val) ∧
    (let s : State := ((inMode .kindle).wr (aDLYIDX 0) 0x1017F)
     s.modes.mode ≠ Mode.cold ∧ s.modes.mode ≠ Mode.banked) ∧
    (let s : State := ((inMode .kindle).wr (aDLYIDX 0) 0x10001)
     s.modes.mode ≠ Mode.cold ∧ s.modes.mode ≠ Mode.banked) ∧
    (let s : State := ((inMode .kindle).wr (aPATIDX 0) 0x1011F)
     let k : Nat := s.fld (aPATIDX c.val) 8 4
     s.modes.mode ≠ Mode.cold ∧ s.modes.mode ≠ Mode.banked ∧ k < 18) ∧
    (let s : State := let s := (inMode .kindle).setFlag (aPLL 0) 8 true; { s with hearths := s.hearths.set 0 { locking := true, zqDone := false, zqFrom := 5, lockAt := 0 } }
     s.hearths[h].locking = true ∧ s.flag top 8 = true) ∧
    (let s : State := ((inMode .kindle).setFlag (aPLL 0) 8 true).setFlag (aPLL 0) 31 true
     s.flag top 8 = true ∧ s.flag top 31 = true ∧ s.hearths[h].locking = false ∧ hearthOf c = h ∧ s.populated c.val = true ∧ ∀
     (x : Chan), hearthOf x = h → s.populated x.val = true → c ≤ x) := by
  dsimp only
  decide +kernel

theorem test_premises_of_SlotBoundariesGrantAndTablesSwitch :
    let c : Chan := 0
    let ck : Nat := 1004
    let p : Nat := 3
    let r : PauseReq := { smith := 0, n := 64, time := 9, prep := false, forced := true }
    let rest : List PauseReq := [{ smith := 24, n := 5, time := 12, prep := false, forced := false }]
    let now : Nat := 5000
    (let s : State := (anv .forge (fun v => { v with slotStart := 1001, slotFresh := false }))
     let v : Anvil := s.anvils[c]
     s.flag (aPLL c.val) 31 = false ∨ v.slotFresh = false ∧ (ck < v.slotStart ∨ (ck - v.slotStart) % 4 ≠ 0) ∨ ∃ b, v.boundAt =
     some b ∧ ck ≤ b) ∧
    (let s : State := (anv .forge (fun v => { v with slotStart := 1000, slotFresh := false, grant := .owner 5 })).setFld (aSLOT 0) 21 11 0
     let v : Anvil := s.anvils[c]
     let len : Nat := s.fld (aSLOT c.val) 21 11
     s.flag (aPLL c.val) 31 = true ∧ v.slotFresh = false ∧ v.slotStart ≤ ck ∧ (ck - v.slotStart) % 4 = 0 ∧ (∀ (b : Nat),
     v.boundAt = some b → b < ck) ∧ v.granted = [] ∧ (v.grant = Grant.none ∨ ∃ q, v.grant = Grant.owner q) ∧ len = 0 ∧
     v.pauses = []) ∧
    (let s : State := (opened (anv .forge (fun v => { v with slotStart := 1000, slotFresh := false, hammer := 3, plotBase := true, bank0 := [(1, 131)], reads := [{ rdEnt 5 2 row7 [4] with port := some 3 }] })) 3).setFld (aSLOT 0) 21 11 2
     let v : Anvil := s.anvils[c]
     let len : Nat := s.fld (aSLOT c.val) 21 11
     let i : Nat := (ck - v.slotStart) / 4 % len
     let entry : Byte := v.slotEntry (s.flag (aSLOT c.val) 28) i
     s.flag (aPLL c.val) 31 = true ∧ v.slotFresh = false ∧ v.slotStart ≤ ck ∧ (ck - v.slotStart) % 4 = 0 ∧ (∀ (b : Nat),
     v.boundAt = some b → b < ck) ∧ v.granted = [] ∧ (v.grant = Grant.none ∨ ∃ q, v.grant = Grant.owner q) ∧ 0 < len ∧
     v.pauses = [] ∧ BitVec.toNat entry = 128 + p ∧ s.flag (aLAPSE (p / 32)) (p % 32) = false ∧ s.portEligible c p = true ∧
     v.heat7 = []) ∧
    (let s : State := (opened (anv .forge (fun v => { v with slotStart := 1000, slotFresh := false, hammer := 3, plotBase := true, bank0 := [(1, 131)], heat7 := [(plainCmd .refab 0 0 0 .refresh, true)], reads := [{ rdEnt 5 2 row7 [4] with port := some 3 }] })) 3).setFld (aSLOT 0) 21 11 2
     let v : Anvil := s.anvils[c]
     let len : Nat := s.fld (aSLOT c.val) 21 11
     let i : Nat := (ck - v.slotStart) / 4 % len
     let entry : Byte := v.slotEntry (s.flag (aSLOT c.val) 28) i
     s.flag (aPLL c.val) 31 = true ∧ v.slotFresh = false ∧ v.slotStart ≤ ck ∧ (ck - v.slotStart) % 4 = 0 ∧ (∀ (b : Nat),
     v.boundAt = some b → b < ck) ∧ v.granted = [] ∧ (v.grant = Grant.none ∨ ∃ q, v.grant = Grant.owner q) ∧ 0 < len ∧
     v.pauses = [] ∧ BitVec.toNat entry = 128 + p ∧ s.flag (aLAPSE (p / 32)) (p % 32) = false ∧ s.portEligible c p = true ∧ ∃
     e ∈ v.heat7, e.1.due ≤ ck) ∧
    (let s : State := (anv .forge (fun v => { v with slotStart := 996, slotFresh := false, hammer := 3, bank0 := [] })).setFld (aSLOT 0) 21 11 2
     let v : Anvil := s.anvils[c]
     let len : Nat := s.fld (aSLOT c.val) 21 11
     let i : Nat := (ck - v.slotStart) / 4 % len
     let entry : Byte := v.slotEntry (s.flag (aSLOT c.val) 28) i
     s.flag (aPLL c.val) 31 = true ∧ v.slotFresh = false ∧ v.slotStart ≤ ck ∧ (ck - v.slotStart) % 4 = 0 ∧ (∀ (b : Nat),
     v.boundAt = some b → b < ck) ∧ v.granted = [] ∧ (v.grant = Grant.none ∨ ∃ q, v.grant = Grant.owner q) ∧ 0 < len ∧
     v.pauses = [] ∧ BitVec.toNat entry < 128 ∧ v.heat7 = [] ∧ s.backgroundPort c = none) ∧
    (let s : State := (anv .forge (fun v => { v with slotStart := 1000, slotFresh := false, pauses := [{ smith := 0, n := 64, time := 9, prep := false, forced := true }, { smith := 24, n := 5, time := 12, prep := false, forced := false }] })).setFld (aSLOT 0) 21 11 2
     let v : Anvil := s.anvils[c]
     let len : Nat := s.fld (aSLOT c.val) 21 11
     s.flag (aPLL c.val) 31 = true ∧ v.slotFresh = false ∧ v.slotStart ≤ ck ∧ (ck - v.slotStart) % 4 = 0 ∧ (∀ (b : Nat),
     v.boundAt = some b → b < ck) ∧ v.granted = [] ∧ (v.grant = Grant.none ∨ ∃ q, v.grant = Grant.owner q) ∧ 0 < len ∧
     s.modes.mode ≠ Mode.kindle ∧ v.pauses = r :: rest ∧ r.prep = false ∧ r.forced = true) ∧
    (let s : State := (((anv .forge (fun v => { v with slotStart := 999, grant := .owner 3 })).wr (aTLO 0) 5000).setFlag (aSLOT 0) 30 true).setFld (aSLOT 0) 10 0 7
     s.flag (aSLOT c.val) 30 = true ∧ s.flag (aPLL c.val) 31 = true ∧ BitVec.toNat (s.rd (aTLO c.val)) + BitVec.toNat (s.rd
     (aTHI c.val)) * 2 ^ 32 ≤ s.timeAt now ∧ ∀ (m : SmithId) (k : Nat) (x : Byte), s.smiths[m].wait ≠ some (Wait.slw c k x)) := by
  dsimp only
  refine ⟨?_, ?_, ?_, ?_, ?_, ?_, ?_⟩ <;> first | decide +kernel | (and_intros <;> first | decide +kernel | exact Or.inl rfl | exact Or.inr ⟨_, rfl⟩ | (intro m k x; refine ne_of_isNone ?_; clear k x; revert m; decide +kernel))

theorem test_premises_of_SelfTestsAndAnvilTransitions :
    let w : Word := 1
    let c : Chan := 0
    (let s : State := inMode .kindle
     s.modes.mode ≠ Mode.cold ∧ s.modes.mode ≠ Mode.banked ∧ BitVec.getLsbD w 0 = true ∧ (s.modes.mode = Mode.kindle ∨
     s.modes.mode = Mode.assay)) ∧
    (let s : State := inMode .forge
     s.modes.mode ≠ Mode.cold ∧ s.modes.mode ≠ Mode.banked ∧ (BitVec.getLsbD w 0 = false ∨ s.modes.mode ≠ Mode.kindle ∧
     s.modes.mode ≠ Mode.assay)) ∧
    (let s : State := (inMode .forge).onAnvil 0 (fun v => { v with testing := true })
     let v : Anvil := s.anvils[c]
     v.testing = true ∧ s.modes.mode ≠ Mode.kindle) ∧
    (let s : State := (inMode .kindle).onAnvil 0 (fun v => { v with testing := true })
     let v : Anvil := s.anvils[c]
     v.testing = true ∧ s.modes.mode = Mode.kindle) ∧
    (let s : State := (inMode .kindle).onAnvil 0 (fun v => { v with fn := { state := .starting, want := true }, heat7 := [(plainCmd .refab 0 0 0 .refresh, true)] })
     let v : Anvil := s.anvils[c]
     v.fn.state = FnState.starting) ∧
    (let s : State := (inMode .kindle).onAnvil 0 (fun v => { v with fn := { state := .stopping, want := true }, heat7 := [(plainCmd .refab 0 0 0 .refresh, true)] })
     let v : Anvil := s.anvils[c]
     v.fn.state = FnState.stopping) := by
  dsimp only
  decide +kernel

theorem test_premises_of_GleanerAndPatrolWalk :
    let c : Chan := 0
    let ri : Nat := 0
    let now : Nat := 2000000000
    let ctl : Nat := aGLN_CTL c.val
    let from_ : Nat := 5
    let pat : Nat := aPAT_CTL c.val
    let pos : Nat := aPAT_POS c.val
    (let s : State := anv .forge (fun v => v)
     s.modes.mode ≠ Mode.cold ∧ s.modes.mode ≠ Mode.banked) ∧
    (let s : State := anv .forge (fun v => { v with gln := { state := .starting, want := false } })
     let v : Anvil := s.anvils[c]
     v.gln.state = FnState.starting) ∧
    (let s : State := anv .forge (fun v => { v with walk := 7, gln := { state := .stopping, want := true } })
     let v : Anvil := s.anvils[c]
     v.gln.state = FnState.stopping ∧ v.visit = none ∧ v.glnWrites = false) ∧
    (let s : State := (anv .forge (fun v => let v := v.markPlot 0 true; { v with gln := { state := .on, want := true } }))
     let v : Anvil := s.anvils[c]
     s.anvilOpen c = true ∧ s.walking c = true ∧ v.visit = none ∧ v.fills = [] ∧ v.mend = [] ∧ s.fld (aFILL c.val) 13 0 = 0 ∧
     s.nextRow c v.walk = some ri ∧ s.visitOpen c ri = true ∧ ∀ r ∈ v.reads, r.kind ≠ ReadKind.scrub) ∧
    (let s : State := anv .forge (fun v => { v with visit := some (visit true cleanRow) })
     let x : Visit := visit true cleanRow
     s.visitRead c = some x ∧ x.dirty = true) ∧
    (let s : State := anv .forge (fun v => { v with reads := [rdEnt 5 2 row7 [4]], visit := some (visit false cleanRow) })
     let x : Visit := visit false cleanRow
     s.visitRead c = some x ∧ x.dirty = false ∧ x.again = [] ∧ x.mended = false ∧ x.last = false ∧ (∀ n ∈ s.rowNs, (s.decode c
     (s.place c.val x.row) x.got n).found = Found.good ∧ (s.decode c (s.place c.val x.row) x.got n).fixes = []) ∧ (s.swath =
     true ∨ s.flagBitmap c (s.place c.val x.row) x.got (List.map (fun n => (n, s.decode c (s.place c.val x.row) x.got n))
     s.rowNs) = abBitmap (RowData.sec x.got 31) ∧ abBitmapSplit (RowData.sec x.got 31) = false)) ∧
    (let s : State := (anv .forge (fun v => { v with lapStart := some 5 })).wr (aGLN_CTL 0) 1
     let v : Anvil := s.anvils[c]
     let u : Nat := s.timeAt now
     0 < s.fld ctl 15 0 ∧ v.lapTold = false ∧ v.lapStart = some from_ ∧ from_ + s.fld ctl 15 0 * 1000000000 ≤ u) ∧
    (let s : State := (anv .forge (fun v => v)).wr (aPAT_CTL 0) 0xC0000001 |>.wr (aPAT_POS 0) 9 |>.wr (aPAT_END 0) 10 |>.wr
       (aPAT_START 0) 3
     let v : Anvil := s.anvils[c]
     let u : Nat := s.timeAt now
     let n : Nat := s.fld pos 27 0
     s.patrolling c = true ∧ v.patrolAt + 1000 ≤ u ∧ s.fld pat 7 0 = 1 ∧ n < 2 ^ 28 - 1 ∧ v.written (n * 64 / 65536) = false) ∧
    (let s : State := (anv .forge (fun v => v.markPlot 0 true)).wr (aPAT_CTL 0) 0x80000001 |>.wr (aPAT_POS 0) 8 |>.wr
       (aPAT_END 0) 10 |>.wr (aPAT_START 0) 3
     let v : Anvil := s.anvils[c]
     let u : Nat := s.timeAt now
     let n : Nat := s.fld pos 27 0
     s.patrolling c = true ∧ v.patrolAt + 1000 ≤ u ∧ s.fld pat 7 0 = 1 ∧ n < 2 ^ 28 - 1 ∧ v.written (n * 64 / 65536) = true ∧
     n * 64 < s.chanCap ∧ v.rdq < 160) := by
  dsimp only
  decide +kernel

theorem test_premises_of_ModeRequestsTransitionsAndQueues :
    let m : Mode := .forge
    (let s : State := inMode .kindle
     let w : Word := 7
     let req : Nat := bits (BitVec.toNat w) 2 0
     s.modes.mode ≠ Mode.cold ∧ (req = 0 ∨ req = 3 ∨ req = 6 ∨ req = 7)) ∧
    (let s : State := inMode .kindle
     let w : Word := 4
     let req : Nat := bits (BitVec.toNat w) 2 0
     let ms : Smith := s.smiths[masterSmith]
     let barred : Prop := s.tongs.bitten ≠ none ∨ s.flag aAST_STAT 27 = true ∨ s.modes.mode ≠ Mode.banked ∧ ms.run =
       SmithRun.stopped
     s.modes.mode ≠ Mode.cold ∧ barred ∧ (req = 1 ∨ req = 2 ∨ req = 4)) ∧
    (let s : State := (smithWaits (inMode .kindle) 24 (.wns 5)).setFlag aMODE 29 true
     let w : Word := 2
     let req : Nat := bits (BitVec.toNat w) 2 0
     let ms : Smith := s.smiths[masterSmith]
     let runs : Prop := s.tongs.bitten = none ∧ s.flag aAST_STAT 27 = false ∧ ms.run ≠ SmithRun.stopped ∧ s.flag aSTATE1 18
       = false
     s.modes.mode ≠ Mode.cold ∧ runs ∧ s.flag aMODE 29 = true ∧ m.code = req ∧ (req = 1 ∨ req = 2 ∨ req = 4 ∨ req = 5)) ∧
    (let s : State := (smithWaits (inMode .kindle) 24 (.wns 5))
     let w : Word := 2
     let req : Nat := bits (BitVec.toNat w) 2 0
     let ms : Smith := s.smiths[masterSmith]
     let runs : Prop := s.tongs.bitten = none ∧ s.flag aAST_STAT 27 = false ∧ ms.run ≠ SmithRun.stopped ∧ s.flag aSTATE1 18
       = false
     s.modes.mode = Mode.kindle ∧ runs ∧ s.flag aMODE 29 = false ∧ req = 2 ∧ s.flag aAST_STAT 29 = false) ∧
    (let s : State := (smithWaits (inMode .forge) 24 (.wns 5)).onSlice 0 (fun l => { l with merge := [merge 3 5 10] })
     let w : Word := 4
     let req : Nat := bits (BitVec.toNat w) 2 0
     let ms : Smith := s.smiths[masterSmith]
     let runs : Prop := s.tongs.bitten = none ∧ s.flag aAST_STAT 27 = false ∧ ms.run ≠ SmithRun.stopped ∧ s.flag aSTATE1 18
       = false
     s.inService = true ∧ runs ∧ s.flag aMODE 29 = false ∧ req = 4 ∧ (∀ p ∈ s.gang.peers, p.fn.want = false) ∧ (∀ (k : Fin 3),
     s.linkUp k = false) ∧ ∀ (c : Chan), s.flag (aSLOT c.val) 30 = false) ∧
    (let s : State := (field (((smithWaits (inMode .kindle) 24 (.wns 5)).setFlag aMODE 29 true).setFld aMODE 10 8 2)).setFld
       (aMAP 0) 5 4 2
     let w : Word := 2
     let req : Nat := bits (BitVec.toNat w) 2 0
     s.modes.mode = Mode.kindle ∧ s.masterWrites = true ∧ s.flag aMODE 29 = true ∧ s.fld aMODE 10 8 = 2 ∧ req = 2 ∧
     s.modes.recorded = none ∧ s.tongs.bitten = none ∧ s.modes.offReq = false ∧ s.mapGood s.keptOff = true ∧ s.thermal = false) ∧
    (let s : State := (((smithWaits (inMode .kindle) 24 (.wns 5)).setFlag aMODE 29 true).setFld aMODE 10 8 2).wr aCAP 0
     let w : Word := 2
     let req : Nat := bits (BitVec.toNat w) 2 0
     s.modes.mode = Mode.kindle ∧ s.masterWrites = true ∧ s.flag aMODE 29 = true ∧ s.fld aMODE 10 8 = 2 ∧ req = 2 ∧
     s.modes.recorded = none ∧ s.tongs.bitten = none ∧ s.modes.offReq = false ∧ s.mapGood s.keptOff = false) ∧
    (let s : State := smithWaits (inMode .kindle) 24 (.wns 5)
     let w : Word := 1
     let req : Nat := bits (BitVec.toNat w) 2 0
     s.masterWrites = true ∧ req = s.modes.mode.code) ∧
    (let s : State := inMode .kindle
     s.masterWrites = false) ∧
    (let s : State := let s := (inMode .forge).setFld aMODE 10 8 4; { s with modes := { s.modes with step := .draining } }
     s.modes.step = BankStep.draining ∧ s.queuesEmpty = true ∧ s.fld aMODE 10 8 = 4 ∧ s.tongs.bitten = none) := by
  dsimp only
  refine ⟨?_, ?_, ?_, ?_, ?_, ?_, ?_, ?_, ?_, ?_⟩ <;> decide +kernel

theorem test_premises_of_ShedSagAndTemperFollowTheirInputs :
    let now : Nat := 2000000000
    let n : Fin 8 := 7
    let from_ : Nat := 5
    let base : Nat := 0
    let counts : List (Nat × Nat) := (List.range 32).map (fun i => (i, 2 * i))
    (let s : State := smithWaits (inMode .forge) 24 (.wns 5)
     let w : Word := 3
     let ms : Smith := s.smiths[masterSmith]
     let lv : Nat := bits (BitVec.toNat w) 2 0
     s.inService = true ∧ ms.run ≠ SmithRun.stopped ∧ s.flag aSHED 31 = false ∧ lv ≠ s.shed ∧ lv ≠ 7) ∧
    (let s : State := ((smithWaits (inMode .forge) 24 (.wns 5)).setFlag aSHED 31 true).setFld aSHED 2 0 5
     let w : Word := 3
     let ms : Smith := s.smiths[masterSmith]
     let lv : Nat := bits (BitVec.toNat w) 2 0
     s.inService = true ∧ ms.run ≠ SmithRun.stopped ∧ s.flag aSHED 31 = true ∧ lv < 5 ∧ s.shed = 5) ∧
    (let s : State := (inMode .forge).setFld aSHED 2 0 3
     let u : Nat := s.timeAt now
     let dwell : Nat := 1000 * s.fld aSAG 31 16
     s.inService = true ∧ s.fld aSAG 2 0 < s.shed ∧ s.modes.shedFrom + dwell ≤ u) ∧
    (let s : State := inMode .forge
     s.modes.pinsLow = false ∧ n ≠ 0) ∧
    (let s : State := let s := inMode .forge; { s with temper := { s.temper with vset := 0x88, above := s.temper.above.set 7 (some 5) } }
     let u : Nat := s.timeAt now
     let dwell : Nat := 1000 * s.fld aSAG 31 16
     s.modes.pinsLow = false ∧ s.temper.vset.getLsbD n.val = true ∧ s.temper.above[n] = some from_ ∧ from_ + dwell ≤ u) ∧
    (let s : State := inMode .forge
     s.modes.mode ≠ Mode.cold ∧ s.modes.mode ≠ Mode.banked) ∧
    (let s : State := let s := ((inMode .banked).setFlag aMODE 28 true).onModes (fun m => { m with step := .off }); { s with temper := { s.temper with vset := 0x80, above := s.temper.above.set 7 (some 5) } }
     let u : Nat := s.timeAt now
     let dwell : Nat := 1000 * s.fld aSAG 31 16
     s.modes.mode = Mode.banked ∧ s.flag aMODE 28 = true ∧ s.flag aMODE 29 = false ∧ s.assay.holdExit = false ∧
     s.temper.above[7] = some from_ ∧ from_ + dwell ≤ u) ∧
    (let s : State := inMode .forge
     let w : Word := 0x80000000 ||| BitVec.ofNat 32 (s.fld aTMP_CTL 15 0)
     s.modes.mode ≠ Mode.cold ∧ s.modes.mode ≠ Mode.banked ∧ s.temper.round = false ∧ BitVec.getLsbD w 31 = true ∧ bits
     (BitVec.toNat w) 15 0 = s.fld aTMP_CTL 15 0) ∧
    (let s : State := let s := (inMode .forge).setFld aTMP_CTL 15 0 2; { s with temper := { s.temper with base := some 0 } }
     let u : Nat := s.timeAt now
     0 < s.fld aTMP_CTL 15 0 ∧ s.temper.base = some base ∧ base + 1000000000 * s.fld aTMP_CTL 15 0 ≤ u) ∧
    (let s : State := let s := inMode .forge; { s with temper := { s.temper with round := true } }
     let u : Nat := s.timeAt now
     s.temper.round = true ∧ s.modes.mode ≠ Mode.cold ∧ s.modes.mode ≠ Mode.banked ∧ counts.length = 32 ∧ 24 *
     (s.temper.roundAt + 10000) + 625 * 2 ^ (10 + s.fld aTMP_CTL 19 16) ≤ 24 * u) ∧
    (let s : State := inMode .forge
     s.modes.mode ≠ Mode.cold) := by
  dsimp only
  decide +kernel

set_option maxRecDepth 20000 in
theorem test_premises_of_PowerResetAndFuses :
    let now : Nat := 200000
    let from_ : Nat := 5
    let first : List Word := fuses
    (let s : State := (inMode .banked).onModes (fun m => { m with step := .off })
     s.modes.offReq = false ∧ s.modes.step = BankStep.off) ∧
    (let s : State := inMode .forge
     s.modes.offReq = false ∧ s.inService = true ∧ s.modes.step = BankStep.none ∧ s.flag aMODE 29 = false ∧ s.tongs.bitten =
     none ∧ s.flag aAST_STAT 27 = false ∧ s.modes.offAck = false) ∧
    (let s : State := (inMode .banked).onModes (fun m => { m with step := .gateOff, gateFrom := some 5 })
     let u : Nat := s.timeAt now
     s.modes.step = BankStep.gateOff ∧ s.modes.pgReq = 0 ∧ s.modes.offRun = false ∧ s.modes.gateFrom = some from_ ∧
     (s.faults.queue = [] ∧ s.faults.arriving = [] ∨ from_ + 100000 ≤ u)) ∧
    (let s : State := (inMode .banked).onModes (fun m => { m with pgReq := 1, step := .gateOff })
     s.modes.pgReq = 1) ∧
    (let s : State := (field (inMode .banked)).onModes (fun m => { m with pgReq := 2, step := .gateOn })
     s.modes.pgReq = 2 ∧ Memory.wf resetWord s.regs = true) ∧
    (let s : State := { (field (inMode .banked)).onAnvil 0 (fun v => { v with dram := [(5, 7), (2 ^ 28, 9)] }) with timebase := 77 }
     s.modes.pinsLow = false) ∧
    (let s : State := State.reset
     s.modes.pinsLow = true) ∧
    (let s : State := (inMode .cold).setFlag aAST_STAT 31 true
     let second : List Word := fuses
     s.modes.mode = Mode.cold ∧ s.modes.pinsLow = false ∧ s.modes.fuseRead = false ∧ first.length = 128 ∧ second.length = 128
     ∧ s.hrpHeld = [] ∧ first = second ∧ fuseCrcGood first = true ∧ (∃ lc, lifecycleOf (bits (BitVec.toNat (first.getD 0 0)) 3
     0) = some lc) ∧ s.flag aAST_STAT 31 = true) ∧
    (let s : State := inMode .cold
     let second : List Word := fuses.set 1 5
     s.modes.mode = Mode.cold ∧ s.modes.pinsLow = false ∧ s.modes.fuseRead = false ∧ first.length = 128 ∧ second.length = 128
     ∧ s.hrpHeld = [] ∧ (first ≠ second ∧ lifecycleOf (bits (BitVec.toNat (first.getD 0 0)) 3 0) ≠ some 0) ∧ s.hedge.alarm =
     false ∧ s.tongs.bitten = none) := by
  dsimp only
  refine ⟨?_, ?_, ?_, ?_, ?_, ?_, ?_, ?_, ?_⟩ <;> first | decide +kernel | (and_intros <;> first | decide +kernel | exact ⟨_, rfl⟩)

theorem test_premises_of_AssayRunsRepairsAndDirectControl :
    (let s : State := let s := inMode .assay; { s with assay := { s.assay with run := some (.short, [1, 2]) } }
     let k : RunKind := .short
     let q : Nat := 1
     let rest : List Nat := [2]
     s.assay.run = some (k, q :: rest) ∧ q < 4 ∧ k ≠ RunKind.direct ∧ s.hrpHeld = [] ∧ rest ≠ []) ∧
    (let s : State := let s := (inMode .cold).setFld aAST_STAT 3 0 0xD; { s with assay := { s.assay with run := some (.automatic, [1]) } }
     let k : RunKind := .automatic
     let q : Nat := 1
     let rest : List Nat := []
     s.assay.run = some (k, q :: rest) ∧ q < 4 ∧ k ≠ RunKind.direct ∧ s.hrpHeld = [] ∧ rest = [] ∧ k = RunKind.automatic ∧
     s.fld aAST_STAT 3 0 ||| 2 ^ q = 15) ∧
    (let s : State := let s := inMode .kindle; { s with assay := { s.assay with run := some (.automatic, [1, 2]) } }
     let k : RunKind := .automatic
     let q : Nat := 1
     let rest : List Nat := [2]
     s.assay.run = some (k, q :: rest) ∧ q < 4 ∧ k ≠ RunKind.direct ∧ s.hrpHeld = [] ∧ rest ≠ [] ∧ k = RunKind.automatic) ∧
    (let s : State := let s := field (inMode .assay); { s with assay := { s.assay with run := some (.direct, [0, 2]) } }
     let q : Nat := 0
     let rest : List Nat := [2]
     s.assay.run = some (RunKind.direct, q :: rest) ∧ s.hrpHeld = [] ∧ ∃ c : Chan, c.val / 6 ∈ q :: rest ∧ s.populated c.val =
     true ∧ s.anvils[c].selfRef[0] = false) ∧
    (let s : State := inMode .assay
     let w : Word := 0x8F000000
     let started : List Nat := List.filter (fun i => BitVec.getLsbD w (24 + i)) (List.range 4)
     s.modes.mode = Mode.assay ∧ BitVec.getLsbD w 31 = true ∧ BitVec.getLsbD w 30 = false ∧ s.assay.run = none ∧ started ≠ []) ∧
    (let s : State := let s := inMode .assay; { s with assay := { s.assay with saveSeq := 7, tested := 9 } }
     let w : Word := 0x40000000
     s.modes.mode = Mode.assay ∧ BitVec.getLsbD w 31 = false ∧ BitVec.getLsbD w 30 = true) ∧
    (let s : State := let s := inMode .kindle; { s with assay := { s.assay with run := some (.automatic, [1, 2]) } }
     let w : Word := 0x8F000000
     s.modes.mode ≠ Mode.assay ∧ s.modes.mode ≠ Mode.banked ∧ s.modes.mode ≠ Mode.cold ∧ BitVec.getLsbD w 31 = true) ∧
    (let s : State := inMode .kindle
     let w : Word := 0x40000000
     s.modes.mode ≠ Mode.assay ∧ s.modes.mode ≠ Mode.banked ∧ s.modes.mode ≠ Mode.cold ∧ BitVec.getLsbD w 30 = true) ∧
    (let s : State := inMode .assay
     s.modes.mode = Mode.assay ∧ s.hrpHeld = []) ∧
    (let s : State := inMode .assay
     let w : Word := 0x8F000000
     let started : List Nat := List.filter (fun i => BitVec.getLsbD w (24 + i)) (List.range 4)
     s.modes.mode = Mode.assay ∧ s.hrpHeld = [] ∧ BitVec.getLsbD w 31 = true ∧ BitVec.getLsbD w 30 = false ∧ s.assay.run =
     none ∧ started ≠ []) ∧
    (let s : State := let s := inMode .kindle; { s with assay := { s.assay with run := some (.automatic, [1, 2]) } }
     s.modes.mode ≠ Mode.assay ∧ s.modes.gated = false ∧ s.hrpHeld = [] ∧ s.classA 7 = false ∧ s.hedge.lastB = none) := by
  dsimp only
  refine ⟨?_, ?_, ?_, ?_, ?_, ?_, ?_, ?_, ?_, ?_, ?_⟩ <;> decide +kernel

theorem test_premises_of_KeyOperationsLoadEraseAndStopRegions :
    let r : RegionId := 2
    (let s : State := inMode .kindle
     s.kpReady = false) ∧
    (let s : State := keyed .off false none (some 7)
     let beats : List KeyBeat := keyBeats 0 2 8
     let x : Region := s.hedge.regions[r]
     let framed : BitVec 2 → Prop := fun op => beats.length = 8 ∧ ∀ b ∈ beats, b.op = op ∧ b.region = r
     let open_ : Prop := (s.lifecycle = 1 ∨ s.lifecycle = 2) ∧ s.xts r = true ∧ (x.fn.state = FnState.off ∨ x.fn.state =
       FnState.stopping)
     s.kpReady = true ∧ framed 0 ∧ open_) ∧
    (let s : State := keyed .off false (some 7) none
     let beats : List KeyBeat := keyBeats 1 2 8
     let x : Region := s.hedge.regions[r]
     let framed : BitVec 2 → Prop := fun op => beats.length = 8 ∧ ∀ b ∈ beats, b.op = op ∧ b.region = r
     let open_ : Prop := (s.lifecycle = 1 ∨ s.lifecycle = 2) ∧ s.xts r = true ∧ (x.fn.state = FnState.off ∨ x.fn.state =
       FnState.stopping)
     s.kpReady = true ∧ framed 1 ∧ open_) ∧
    (let s : State := keyed .on true none none
     let beats : List KeyBeat := keyBeats 0 2 8
     let x : Region := s.hedge.regions[r]
     let framed : BitVec 2 → Prop := fun op => beats.length = 8 ∧ ∀ b ∈ beats, b.op = op ∧ b.region = r
     let open_ : Prop := (s.lifecycle = 1 ∨ s.lifecycle = 2) ∧ s.xts r = true ∧ (x.fn.state = FnState.off ∨ x.fn.state =
       FnState.stopping)
     s.kpReady = true ∧ ¬open_ ∧ s.classA 4 = false ∧ s.hedge.lastB = none ∧ framed 0) ∧
    (let s : State := keyed .on true none none
     let beats : List KeyBeat := keyBeats 1 2 8
     let x : Region := s.hedge.regions[r]
     let framed : BitVec 2 → Prop := fun op => beats.length = 8 ∧ ∀ b ∈ beats, b.op = op ∧ b.region = r
     let open_ : Prop := (s.lifecycle = 1 ∨ s.lifecycle = 2) ∧ s.xts r = true ∧ (x.fn.state = FnState.off ∨ x.fn.state =
       FnState.stopping)
     s.kpReady = true ∧ ¬open_ ∧ s.classA 4 = false ∧ s.hedge.lastB = none ∧ framed 1) ∧
    (let s : State := keyed .off false none (some 7)
     let beats : List KeyBeat := keyBeats 0 2 7
     let b : KeyBeat := beats.headD { op := 0, region := 2, data := 1 }
     let l : List KeyBeat := beats.tail
     beats = b :: l ∧ b.op = 0 ∧ l.length ≠ 7 ∧ s.kpReady = true ∧ s.classA 10 = false ∧ s.hedge.lastB = none) ∧
    (let s : State := keyed .on true (some 1) (some 2)
     let beats : List KeyBeat := keyBeats 2 2 1
     let b : KeyBeat := beats.headD { op := 0, region := 2, data := 1 }
     beats = [b] ∧ b.op = 2 ∧ b.region = r ∧ s.kpReady = true) ∧
    (let s : State := keyed .on true (some 1) (some 2)
     s.modes.mode ≠ Mode.cold ∧ s.modes.mode ≠ Mode.banked) ∧
    (let s : State := keyed .starting true (some 1) (some 2)
     let x : Region := s.hedge.regions[r]
     x.fn.state = FnState.starting ∧ x.fn.want = true ∧ x.k1.isSome = true ∧ x.k2.isSome = true) ∧
    (let s : State := keyed .starting false none none
     let x : Region := s.hedge.regions[r]
     x.fn.state = FnState.starting ∧ x.fn.want = false) ∧
    (let s : State := keyed .stopping true (some 1) (some 2)
     let x : Region := s.hedge.regions[r]
     x.fn.state = FnState.stopping ∧ ∀ (c : Chan), s.populated c.val = true → s.sweepLeft c r = false ∧ s.writesLeft c r =
     false) := by
  dsimp only
  refine ⟨?_, ?_, ?_, ?_, ?_, ?_, ?_, ?_, ?_, ?_, ?_⟩ <;> decide +kernel

set_option maxRecDepth 20000 in
theorem test_premises_of_ReleasesAreRefusedIdempotentOrHonoured :
    let claim : PortId := 3
    let base : BitVec 35 := 16
    let at_ : Nat := base.toNat * 64
    (let s : State := inMode .cold
     s.relReady = false) ∧
    (let s : State := field (inMode .forge)
     let owner : PortId := 4
     s.relReady = true ∧ s.hedge.queue = [] ∧ s.hedge.honour = false ∧ claim ≠ owner) ∧
    (let s : State := field (inMode .forge)
     let size : BitVec 30 := 0
     let owner : PortId := 3
     s.relReady = true ∧ s.hedge.queue = [] ∧ s.hedge.honour = false ∧ claim = owner ∧ size = 0) ∧
    (let s : State := field (inMode .forge)
     let size : BitVec 30 := 1024
     let owner : PortId := 3
     let inRange : Nat → Prop := fun a => at_ ≤ a ∧ a < at_ + 64 * size.toNat
     let msg : Release := { base := at_, size := size.toNat, claim := claim.val, owner := owner.val, writes := [], merges := [] }
     s.relReady = true ∧ s.hedge.queue = [] ∧ s.hedge.honour = false ∧ s.releaseRefused msg = none ∧ ∀ (c : Chan), s.populated
     c.val = true → ∀ p < s.nPlots, ∀ n < 1024, p * 65536 + n * 64 < s.chanCap → inRange (s.sysAddr c.val (p * 65536 + n *
     64)) → s.anvils[c].written p = false) ∧
    (let s : State := (field (inMode .forge)).onAnvil 0 (fun v => v.markPlot 0 true)
     let size : BitVec 30 := 1024
     let owner : PortId := 3
     let inRange : Nat → Prop := fun a => at_ ≤ a ∧ a < at_ + 64 * size.toNat
     let msg : Release := { base := at_, size := size.toNat, claim := claim.val, owner := owner.val, writes := [], merges := [] }
     s.relReady = true ∧ s.hedge.queue = [] ∧ s.hedge.honour = false ∧ s.releaseRefused msg = none ∧ ∃ c : Chan, s.populated
     c.val = true ∧ ∃ p < s.nPlots, ∃ n < 1024, p * 65536 + n * 64 < s.chanCap ∧ inRange (s.sysAddr c.val (p * 65536 + n *
     64)) ∧ s.anvils[c].written p = true) ∧
    (let s : State := honouring []
     let r : Release := (honouring []).hedge.queue.headD oneRelease
     let room : Prop := ∀ (c : Chan), s.populated c.val = true → s.slices[c].rangeRoom = true
     s.hedge.queue = [r] ∧ s.hedge.honour = true ∧ s.releaseSettled r = true ∧ room) ∧
    (let s : State := (honouring [(0, 7)]).onAnvil 0 (fun v => { v with writes := [wrEnt 7 row7 3] })
     let r : Release := (honouring [(0, 7)]).hedge.queue.headD oneRelease
     let room : Prop := ∀ (c : Chan), s.populated c.val = true → s.slices[c].rangeRoom = true
     s.hedge.queue = [r] ∧ s.hedge.honour = true ∧ (s.releaseSettled r = false ∨ ¬room)) := by
  dsimp only
  refine ⟨by decide +kernel, by decide +kernel, by decide +kernel, ?_, ?_, by decide +kernel, by decide +kernel⟩
  · refine ⟨by decide +kernel, by decide +kernel, by decide +kernel, by decide +kernel, ?_⟩
    intro c _ p _ n _ _ _
    have h := field_plots c
    unfold Anvil.written; rw [h.1, h.2]; rfl
  · exact ⟨by decide +kernel, by decide +kernel, by decide +kernel, by decide +kernel, 0, by decide +kernel, 0,
      by decide +kernel, 16, by decide +kernel, by decide +kernel, by decide +kernel, by decide +kernel⟩

theorem test_premises_of_FaultMessagesAreAcceptedLatchedAndSent :
    let i : Nat := 1
    let b : Nat × Nat := (65, 5)
    let q : SmithId := 24
    let x : BitVec 96 := 7
    let rest : List (BitVec 96) := List.replicate 2 7
    let from_ : Nat := 5
    (let s : State := faultsOf (inMode .forge) [msg 0 none, msg 1 none] 56
     let m : Msg := msg 1 none
     let first : Prop := ∀ x ∈ List.take i s.faults.arriving, x.source ≠ m.source ∧ (x.forced = false ∨ m.forced = false)
     s.faults.arriving[i]? = some m ∧ ¬first) ∧
    (let s : State := faultsOf (inMode .forge) [{ msg 0 none with source := 1, addr := 0 }, msg 1 none] 56
     let m : Msg := msg 1 none
     let n : Nat := s.faults.queue.length
     let serious : Prop := 2 ≤ m.sev.toNat
     let bite : Nat × Nat → Prop := fun b => m.source = 64 ∧ m.kind = 11 ∧ m.addr = 0 ∧ m.detail.toNat = b.1
     let first : Prop := ∀ x ∈ List.take i s.faults.arriving, x.source ≠ m.source ∧ (x.forced = false ∨ m.forced = false)
     let noBite : Prop := ∀ b ∈ s.tongs.bites, ¬bite b
     s.faults.arriving[i]? = some m ∧ first ∧ m.raiser = none ∧ noBite ∧ ¬serious ∧ n ≤ 56) ∧
    (let s : State := faultsOf (inMode .forge) [{ msg 0 none with source := 1, addr := 0 }, msg 1 none] 57
     let m : Msg := msg 1 none
     let n : Nat := s.faults.queue.length
     let serious : Prop := 2 ≤ m.sev.toNat
     let bite : Nat × Nat → Prop := fun b => m.source = 64 ∧ m.kind = 11 ∧ m.addr = 0 ∧ m.detail.toNat = b.1
     let first : Prop := ∀ x ∈ List.take i s.faults.arriving, x.source ≠ m.source ∧ (x.forced = false ∨ m.forced = false)
     let noBite : Prop := ∀ b ∈ s.tongs.bites, ¬bite b
     s.faults.arriving[i]? = some m ∧ first ∧ m.raiser = none ∧ noBite ∧ ¬serious ∧ 56 < n) ∧
    (let s : State := (faultsOf (inMode .forge) [{ msg 0 none with source := 1, addr := 0 }, msg 3 none] 63).setFlag aPIN_HOLD 2 true
     let m : Msg := msg 3 none
     let n : Nat := s.faults.queue.length
     let serious : Prop := 2 ≤ m.sev.toNat
     let bite : Nat × Nat → Prop := fun b => m.source = 64 ∧ m.kind = 11 ∧ m.addr = 0 ∧ m.detail.toNat = b.1
     let first : Prop := ∀ x ∈ List.take i s.faults.arriving, x.source ≠ m.source ∧ (x.forced = false ∨ m.forced = false)
     let noBite : Prop := ∀ b ∈ s.tongs.bites, ¬bite b
     s.faults.arriving[i]? = some m ∧ first ∧ m.raiser = none ∧ noBite ∧ serious ∧ n < 64) ∧
    (let s : State := (faultsOf (inMode .forge) [{ msg 0 none with source := 1, addr := 0 }, msg 2 none] 64)
     let m : Msg := msg 2 none
     let n : Nat := s.faults.queue.length
     let serious : Prop := 2 ≤ m.sev.toNat
     let bite : Nat × Nat → Prop := fun b => m.source = 64 ∧ m.kind = 11 ∧ m.addr = 0 ∧ m.detail.toNat = b.1
     let first : Prop := ∀ x ∈ List.take i s.faults.arriving, x.source ≠ m.source ∧ (x.forced = false ∨ m.forced = false)
     let noBite : Prop := ∀ b ∈ s.tongs.bites, ¬bite b
     s.faults.arriving[i]? = some m ∧ first ∧ m.raiser = none ∧ noBite ∧ serious ∧ 64 ≤ n) ∧
    (let s : State := let s := faultsOf (inMode .forge) [{ msg 0 none with source := 1, addr := 0 }, { msg 3 none with source := 0x40, kind := 0x0B, addr := 0, detail := 65 }] 3; { s with tongs := { s.tongs with bites := [(65, 5)] } }
     let m : Msg := { msg 3 none with source := 0x40, kind := 0x0B, addr := 0, detail := 65 }
     let n : Nat := s.faults.queue.length
     let bite : Nat × Nat → Prop := fun b => m.source = 64 ∧ m.kind = 11 ∧ m.addr = 0 ∧ m.detail.toNat = b.1
     let first : Prop := ∀ x ∈ List.take i s.faults.arriving, x.source ≠ m.source ∧ (x.forced = false ∨ m.forced = false)
     s.faults.arriving[i]? = some m ∧ first ∧ m.raiser = none ∧ s.tongs.bites = [b] ∧ bite b ∧ n < 64 ∧ m.sev = 3) ∧
    (let s : State := faultsOf (smithWaits (inMode .kindle) 24 (.raise false)) [{ msg 0 none with source := 1, addr := 0 }, msg 1 (some 24)] 60
     let m : Msg := msg 1 (some 24)
     let n : Nat := s.faults.queue.length
     let serious : Prop := 2 ≤ m.sev.toNat
     let first : Prop := ∀ x ∈ List.take i s.faults.arriving, x.source ≠ m.source ∧ (x.forced = false ∨ m.forced = false)
     s.faults.arriving[i]? = some m ∧ first ∧ m.raiser = some q ∧ s.smiths[q].wait = some (Wait.raise false) ∧ GoesOn s q
     (s.smiths[q].pc.toNat + 1) ∧ (¬serious ∨ n < 64)) ∧
    (let s : State := faultsOf (inMode .forge) [] 3
     s.faults.queue = x :: rest ∧ s.modes.mode ≠ Mode.cold) ∧
    (let s : State := faultsOf (inMode .cold) [] 3
     s.faults.queue = x :: rest ∧ s.modes.mode = Mode.cold) ∧
    (let s : State := let s := (inMode .forge).setFld aPIN_WIDTH 15 0 1000; { s with timebase := 27900, faults := { s.faults with pulse := some 5 } }
     s.faults.pulse = some from_ ∧ 24 * from_ + 625 * (2 + s.fld aPIN_WIDTH 15 0) ≤ 24 * s.timebase) ∧
    (let s : State := let s := (inMode .forge).setFld aPIN_WIDTH 15 0 1000; { s with timebase := 26000, faults := { s.faults with pulse := some 5 } }
     s.faults.pulse = some from_ ∧ 24 * s.timebase < 24 * from_ + 625 * (2 + s.fld aPIN_WIDTH 15 0)) ∧
    (let s : State := faultsOf (inMode .forge) [{ msg 0 none with source := 1, addr := 0 }, msg 1 none] 56
     let host : Prop := s.modes.mode ≠ Mode.cold ∧ s.modes.mode ≠ Mode.banked
     host) ∧
    (let s : State := faultsOf (inMode .forge) [{ msg 0 none with source := 1, addr := 0 }, msg 1 none] 56
     let w : Word := 0xC00301FF
     let host : Prop := s.modes.mode ≠ Mode.cold ∧ s.modes.mode ≠ Mode.banked
     host ∧ s.modes.mode ≠ Mode.quench ∧ bits (BitVec.toNat w) 17 16 ≠ 0 ∧ s.flag aLINKINJ 31 = false) ∧
    (let s : State := (inMode .forge).setFlag aLINKINJ 31 true
     let w : Word := 0xC00301FF
     let host : Prop := s.modes.mode ≠ Mode.cold ∧ s.modes.mode ≠ Mode.banked
     host ∧ bits (BitVec.toNat w) 17 16 ≠ 0 ∧ s.flag aLINKINJ 31 = true) ∧
    (let s : State := faultsOf (inMode .forge) [{ msg 0 none with source := 1, addr := 0 }, msg 1 none] 56
     let w : Word := 0x80000005
     let host : Prop := s.modes.mode ≠ Mode.cold ∧ s.modes.mode ≠ Mode.banked
     host ∧ s.modes.mode ≠ Mode.quench ∧ bits (BitVec.toNat w) 17 16 = 0) ∧
    (let s : State := inMode .quench
     let w : Word := 0xC00301FF
     s.modes.mode = Mode.quench ∧ bits (BitVec.toNat w) 17 16 ≠ 0) ∧
    (let s : State := inMode .quench
     let w : Word := 0x80000000
     s.modes.mode = Mode.quench ∧ bits (BitVec.toNat w) 17 16 = 0) := by
  dsimp only [GoesOn]
  refine ⟨?_, ?_, ?_, ?_, ?_, ?_, ?_, ?_, ?_, ?_, ?_, ?_, ?_, ?_, ?_, ?_, ?_⟩ <;> decide +kernel

theorem test_premises_of_EventRecordsEnterAreReadAndFlushed :
    let after : List Rec := [rec_ 4 1 3 [] false false]
    let hi : Word := 0x77
    let from_ : Nat := 5
    (let s : State := evqOf (fun q => q)
     let w : Word := 0x7A09001B
     let q : Evq := s.evq
     let len : Nat := bits (BitVec.toNat w) 2 0 + 1
     let used : Nat := (List.map Rec.len q.recs).sum
     let runs : Prop := s.smiths[masterSmith].run ≠ SmithRun.stopped
     let fresh : Prop := ∀ x ∈ q.recs, x.id < q.nextId
     runs ∧ fresh ∧ q.writing = none ∧ len + 1 + used ≤ 64) ∧
    (let s : State := evqOf (fun q => { q with nextId := 9, recs := [rec_ 2 32 1 [] true false, rec_ 3 29 1 [] true false] })
     let w : Word := 0x7A09001B
     let r : Rec := rec_ 3 29 1 [] true false
     let before : List Rec := [rec_ 2 32 1 [] true false]
     let q : Evq := s.evq
     let len : Nat := bits (BitVec.toNat w) 2 0 + 1
     let used : Nat := (List.map Rec.len q.recs).sum
     let runs : Prop := s.smiths[masterSmith].run ≠ SmithRun.stopped
     let fresh : Prop := ∀ x ∈ q.recs, x.id < q.nextId
     runs ∧ fresh ∧ q.writing = none ∧ 64 < len + 1 + used ∧ q.recs = before ++ [r] ∧ r.gap = false) ∧
    (let s : State := evqOf (fun q => { q with nextId := 9, recs := [rec_ 2 32 1 [] true false, rec_ 3 29 1 [] true true] })
     let w : Word := 0x7A09001B
     let r : Rec := rec_ 3 29 1 [] true true
     let before : List Rec := [rec_ 2 32 1 [] true false]
     let q : Evq := s.evq
     let len : Nat := bits (BitVec.toNat w) 2 0 + 1
     let used : Nat := (List.map Rec.len q.recs).sum
     let runs : Prop := s.smiths[masterSmith].run ≠ SmithRun.stopped
     let fresh : Prop := ∀ x ∈ q.recs, x.id < q.nextId
     runs ∧ fresh ∧ q.writing = none ∧ 64 < len + 1 + used ∧ q.recs = before ++ [r] ∧ r.gap = true) ∧
    (let s : State := evqOf (fun q => q)
     let runs : Prop := s.smiths[masterSmith].run ≠ SmithRun.stopped
     runs) ∧
    (let s : State := evqOf (fun q => { q with nextId := 9, writing := some 3, putLo := 8, recs := [rec_ 2 1 2 [] false false, rec_ 3 3 1 [5] false false, rec_ 4 1 3 [] false false] })
     let r : Rec := rec_ 3 3 1 [5] false false
     let before : List Rec := [rec_ 2 1 2 [] false false]
     let q : Evq := s.evq
     let runs : Prop := s.smiths[masterSmith].run ≠ SmithRun.stopped
     runs ∧ q.writing = some r.id ∧ q.recs = before ++ r :: after ∧ (∀ x ∈ before ++ after, x.id ≠ r.id) ∧ r.complete = false) ∧
    (let s : State := evqOf (fun q => q)
     let q : Evq := s.evq
     let runs : Prop := s.smiths[masterSmith].run ≠ SmithRun.stopped
     runs ∧ q.writing = none) ∧
    (let s : State := evqOf (fun q => { q with nextId := 9, recs := [rec_ 2 1 2 [] false false, rec_ 3 2 1 [9] true false, rec_ 4 1 3 [] false false] })
     let r : Rec := rec_ 3 2 1 [9] true false
     let before : List Rec := [rec_ 2 1 2 [] false false]
     let q : Evq := s.evq
     let host : Prop := s.modes.mode ≠ Mode.cold ∧ s.modes.mode ≠ Mode.banked
     let isNext : Prop := q.reading = none ∧ r.complete = true ∧ (∀ x ∈ before, x.prio ≠ r.prio) ∧ ∀ (p : Nat), r.prio < p →
       ∀ (b : List Rec) (x : Rec) (a : List Rec), q.recs = b ++ x :: a → x.prio = p → (∀ y ∈ b, y.prio ≠ p) → x.complete =
       false
     host ∧ q.recs = before ++ r :: after ∧ isNext) ∧
    (let s : State := evqOf (fun q => { q with nextId := 9, recs := [rec_ 2 1 2 [] false false] })
     let q : Evq := s.evq
     let host : Prop := s.modes.mode ≠ Mode.cold ∧ s.modes.mode ≠ Mode.banked
     let noneReady : Prop := ∀ x ∈ q.recs, x.complete = false
     host ∧ noneReady ∧ q.reading = none) ∧
    (let s : State := let s := evqOf (fun q => { q with nextId := 9, recs := [rec_ 2 1 2 [] false false, rec_ 3 2 1 [9] true false, rec_ 4 1 3 [] false false] }); { s with hostCaps := { s.hostCaps with evq := some (3, 0x77) } }
     let r : Rec := rec_ 3 2 1 [9] true false
     let before : List Rec := [rec_ 2 1 2 [] false false]
     let q : Evq := s.evq
     let host : Prop := s.modes.mode ≠ Mode.cold ∧ s.modes.mode ≠ Mode.banked
     host ∧ q.recs = before ++ r :: after ∧ (∀ x ∈ before ++ after, x.id ≠ r.id) ∧ s.hostCaps.evq = some (r.id, hi) ∧
     (q.reading = none ∨ q.reading = some (r.id, Agent.host))) ∧
    (let s : State := evqOf (fun q => q)
     let host : Prop := s.modes.mode ≠ Mode.cold ∧ s.modes.mode ≠ Mode.banked
     host ∧ s.hostCaps.evq = none) ∧
    (let s : State := evqOf (fun q => { q with nextId := 9, timer := some 4, recs := [rec_ 2 1 2 [] false false, rec_ 3 2 1 [9] true false] })
     let w : Word := 1
     let host : Prop := s.modes.mode ≠ Mode.cold ∧ s.modes.mode ≠ Mode.banked
     host ∧ BitVec.getLsbD w 0 = true) ∧
    (let s : State := (evqOf (fun q => { q with nextId := 9, timer := some 5, recs := [rec_ 3 2 1 [9] true false] })).wr aEVQ_TIMEOUT 4
     let now : Nat := 4010
     let u : Nat := s.timeAt now
     let q : Evq := s.evq
     let us : Nat := s.fld aEVQ_TIMEOUT 15 0
     q.timer = some from_ ∧ 0 < us ∧ (∃ x ∈ q.recs, x.complete = true) ∧ from_ + 1000 * us ≤ u) ∧
    (let s : State := (evqOf (fun q => { q with nextId := 9, timer := some 5, recs := [rec_ 3 2 1 [9] true false] })).wr aEVQ_TIMEOUT 4
     let now : Nat := 4004
     let u : Nat := s.timeAt now
     let q : Evq := s.evq
     let us : Nat := s.fld aEVQ_TIMEOUT 15 0
     q.timer = some from_ ∧ 0 < us ∧ (∃ x ∈ q.recs, x.complete = true) ∧ u < from_ + 1000 * us) := by
  dsimp only
  refine ⟨?_, ?_, ?_, ?_, ?_, ?_, ?_, ?_, ?_, ?_, ?_, ?_, ?_⟩ <;> first | decide +kernel | (and_intros <;> first | decide +kernel | (intro p hp b x a h hx hy; have hm : x ∈ b ++ x :: a := List.mem_append_right _ List.mem_cons_self; rw [← h] at hm; rw [← hx] at hp; clear hx hy h; revert hp; revert hm; revert x; decide +kernel))

theorem test_premises_of_CapturePairsAndReadsGiveTheirValues :
    let c : Chan := 23
    let pairs : List Nat := [aTB_LO, aTB_HI, aEVQ_LO, aEVQ_HI, aRX_LO, aRX_HI, aRX_SRC]
    let anvil : List Nat := [84, 88, 516, 520, 1044, 1052]
    (let s : State := inMode .banked
     let up : Prop := s.modes.mode ≠ Mode.cold
     up) ∧
    (let s : State := ((inMode .forge).wr (aTLO 23) 5).wr (aTHI 23) 6
     let up : Prop := s.modes.mode ≠ Mode.cold
     let host : Prop := up ∧ s.modes.mode ≠ Mode.banked
     host) ∧
    (let s : State := inMode .forge
     let up : Prop := s.modes.mode ≠ Mode.cold
     let host : Prop := up ∧ s.modes.mode ≠ Mode.banked
     host) ∧
    (let s : State := inMode .forge
     let a : BitVec 24 := BitVec.ofNat 24 aTB_HI
     let up : Prop := s.modes.mode ≠ Mode.cold
     let n : Nat := a.toNat
     up ∧ n = aTB_HI) ∧
    (let s : State := inMode .forge
     let a : BitVec 24 := BitVec.ofNat 24 (aTHI 23)
     let up : Prop := s.modes.mode ≠ Mode.cold
     let host : Prop := up ∧ s.modes.mode ≠ Mode.banked
     let n : Nat := a.toNat
     host ∧ n = aTHI c.val) ∧
    (let s : State := inMode .forge
     let a : BitVec 24 := BitVec.ofNat 24 (aLAP_HI 23)
     let up : Prop := s.modes.mode ≠ Mode.cold
     let host : Prop := up ∧ s.modes.mode ≠ Mode.banked
     let n : Nat := a.toNat
     host ∧ n = aLAP_HI c.val) ∧
    (let s : State := (inMode .forge).wr aPERR 0xFFFFFFFF
     let a : BitVec 24 := BitVec.ofNat 24 aPERR
     let r : RegInfo := (regInfo a.toNat).getD ((regInfo aOVF).getD ⟨0, 0, 0, 0, 0, []⟩)
     let up : Prop := s.modes.mode ≠ Mode.cold
     let host : Prop := up ∧ s.modes.mode ≠ Mode.banked
     let n : Nat := a.toNat
     host ∧ n % 4 = 0 ∧ windowAt n = false ∧ regInfo n = some r ∧ n ∉ pairs ∧ ¬(131072 ≤ n ∧ n < 180224 ∧ n % 2048 ∈ anvil)) ∧
    (let s : State := (inMode .forge).wr aOVF 0xC0001234
     let a : BitVec 24 := BitVec.ofNat 24 aOVF
     let up : Prop := s.modes.mode ≠ Mode.cold
     let host : Prop := up ∧ s.modes.mode ≠ Mode.banked
     let n : Nat := a.toNat
     host ∧ n = aOVF) ∧
    (let s : State := inMode .cold
     s.modes.mode = Mode.cold) := by
  dsimp only
  refine ⟨?_, ?_, ?_, ?_, ?_, ?_, ?_, ?_, ?_⟩ <;> first | decide +kernel | (and_intros <;> first | decide +kernel | rfl)

theorem test_premises_of_RegisterWritesFollowTheirFieldTypes :
    let plain : List Nat := [aHERR, aAS_SEL, aPERR, aWDOG, aFORCE_MSG, aPIN_WIDTH, aPIN_HOLD, aEVQ_STATUS, aEVQ_TIMEOUT,
      aKEYHELD, aVIOL, aVCNT, aRELSTAT, aSAG, aSAGV 0, aSAGV 1, aSAGR 0, aSAGR 1, aGUARD, aGNG_STAT, aAST_SEED, aRESIDX, aOVF,
      aID, aTB_LO, aEVQ_LO, aRESDAT, aSCRATCH 0, aSCRATCH 1, aSCRATCH 2, aSCRATCH 3, aGRANK 0, aGRANK 15, aLAPSE 0, aLAPSE 3]
    (let s : State := (inMode .forge).wr aPIN_HOLD 0xFFFFFFFF
     let a : BitVec 24 := BitVec.ofNat 24 aPIN_HOLD
     let w : Word := 0xFFFFFFFF
     let r : RegInfo := (regInfo a.toNat).getD ((regInfo aOVF).getD ⟨0, 0, 0, 0, 0, []⟩)
     let n : Nat := a.toNat
     let host : Prop := s.modes.mode ≠ Mode.cold ∧ s.modes.mode ≠ Mode.banked
     host ∧ n ∈ plain ∧ regInfo n = some r ∧ ∀ f ∈ r.resv, f.2.2 (bits (BitVec.toNat w) f.1 f.2.1) = false) ∧
    (let s : State := inMode .forge
     let a : BitVec 24 := BitVec.ofNat 24 aWDOG
     let w : Word := 999
     let n : Nat := a.toNat
     let host : Prop := s.modes.mode ≠ Mode.cold ∧ s.modes.mode ≠ Mode.banked
     host ∧ n = aWDOG ∧ BitVec.toNat w < 1000) ∧
    (let s : State := (inMode .forge).setFlag aCAP 31 true
     let a : BitVec 24 := BitVec.ofNat 24 (aCHMAP 2)
     let n : Nat := a.toNat
     let host : Prop := s.modes.mode ≠ Mode.cold ∧ s.modes.mode ≠ Mode.banked
     host ∧ n ∈ [aGANG, aFURROW, aCHMAP 0, aCHMAP 1, aCHMAP 2, aCHMAP 3] ∧ s.flag aCAP 31 = true) ∧
    (let s : State := inMode .forge
     let a : BitVec 24 := 0x10BFFC
     let n : Nat := a.toNat
     let host : Prop := s.modes.mode ≠ Mode.cold ∧ s.modes.mode ≠ Mode.banked
     host ∧ 1081344 ≤ n ∧ n < 1097728 ∧ n % 4 = 0) ∧
    (let s : State := inMode .cold
     s.modes.mode = Mode.cold) ∧
    (let s : State := inMode .forge
     let host : Prop := s.modes.mode ≠ Mode.cold ∧ s.modes.mode ≠ Mode.banked
     host) := by
  dsimp only
  refine ⟨?_, ?_, ?_, ?_, ?_, ?_⟩ <;> first | decide +kernel | (and_intros <;> first | decide +kernel | rfl)

theorem test_premises_of_RefusedHostAccessesAreRecorded :
    let w : Option Word := none
    let named : List (Nat × Nat) := [(10752, 12288), (20480, 65536), (180224, 196608), (221184, 1048576), (1097728,
      1114112), (1130496, 1179648), (1277952, 2097152), (2146304, 16777216)]
    let e : Nat × Nat := (0x20C000, 0x1000000)
    (let s : State := inMode .forge
     let a : BitVec 24 := 3
     let n : Nat := a.toNat
     s.modes.mode ≠ Mode.cold ∧ n % 4 ≠ 0) ∧
    (let s : State := (inMode .forge).wr aHERR 0x80000300
     let a : BitVec 24 := 0x5000
     let n : Nat := a.toNat
     s.modes.mode ≠ Mode.cold ∧ n % 4 = 0 ∧ populatedAt n = false) ∧
    (let s : State := inMode .banked
     let a : BitVec 24 := 0x001000
     let n : Nat := a.toNat
     s.modes.mode = Mode.banked ∧ n % 4 = 0 ∧ populatedAt n = true ∧ bankedReach n = false ∧ (w ≠ none ∨ ¬(1048576 ≤ n ∧ n <
     1081344 ∨ 1114112 ≤ n ∧ n < 1130496))) ∧
    (let a : BitVec 24 := 0x20C000
     let n : Nat := a.toNat
     e ∈ named ∧ e.1 ≤ n ∧ n < e.2) := by
  dsimp only
  decide +kernel

theorem test_premises_of_GangLinksTrainReceiveAndFail :
    let x : Link := { Link.reset with txSeq := 5, rxSeq := 9, store := [linkWord 3], txCtrl := [77] }
    let w : Word := 0xC0000005
    (let s : State := (ganged .forge .off false).setFld (aLINK 0) 31 30 3
     let k : Fin 3 := 0
     s.wired k = true ∧ s.flag aGNG_CTL 31 = true ∧ (s.linkState k = 1 ∨ s.linkState k = 3)) ∧
    (let s : State := ganged .forge .off false
     let k : Fin 3 := 1
     s.linkUp k = false) ∧
    (let s : State := ganged .forge .off false
     let k : Fin 3 := 0
     let word : BitVec 1024 := linkWord (77 * 2 ^ 832 + 3 * 2 ^ 968 + 5 * 2 ^ 960)
     let l : Link := s.gang.links[k]
     let seq : BitVec 8 := BitVec.extractLsb' 984 8 word
     let good : Prop := linkCrcGood word = true
     let h : BitVec 160 := BitVec.extractLsb' 672 160 word
     let bare : Prop := BitVec.extractLsb' 0 4 h = 0 ∧ BitVec.extractLsb' 0 4 (BitVec.extractLsb' 512 160 word) = 0 ∧
       word.getLsbD 974 = false
     let ready : Prop := s.linkUp k = true ∧ good ∧ (l.started = false ∨ seq = l.rxSeq + 1) ∧ l.items = []
     let inOrder : Prop := ready ∧ word.getLsbD 975 = false
     inOrder ∧ bare) ∧
    (let s : State := (ganged .forge .on true).onLink 0 (fun l => { l with txSeq := 9, store := [linkWord (7 * 2 ^ 984), linkWord (6 * 2 ^ 984)] })
     let k : Fin 3 := 0
     let word : BitVec 1024 := linkWord (2 ^ 975 + 7 * 2 ^ 976)
     let l : Link := s.gang.links[k]
     let seq : BitVec 8 := BitVec.extractLsb' 984 8 word
     let good : Prop := linkCrcGood word = true
     let h : BitVec 160 := BitVec.extractLsb' 672 160 word
     let ack : BitVec 8 := BitVec.extractLsb' 976 8 word
     let bare : Prop := BitVec.extractLsb' 0 4 h = 0 ∧ BitVec.extractLsb' 0 4 (BitVec.extractLsb' 512 160 word) = 0 ∧
       word.getLsbD 974 = false
     let ready : Prop := s.linkUp k = true ∧ good ∧ (l.started = false ∨ seq = l.rxSeq + 1) ∧ l.items = []
     ready ∧ bare ∧ word.getLsbD 975 = true ∧ l.replay = [] ∧ (l.asked ≠ ack + 1 ∨ l.tries < 16)) ∧
    (let s : State := (ganged .forge .on true).onLink 0 (fun l => { l with asked := 8, tries := 16 })
     let k : Fin 3 := 0
     let word : BitVec 1024 := linkWord (2 ^ 975 + 7 * 2 ^ 976)
     let l : Link := s.gang.links[k]
     let seq : BitVec 8 := BitVec.extractLsb' 984 8 word
     let good : Prop := linkCrcGood word = true
     let h : BitVec 160 := BitVec.extractLsb' 672 160 word
     let ack : BitVec 8 := BitVec.extractLsb' 976 8 word
     let bare : Prop := BitVec.extractLsb' 0 4 h = 0 ∧ BitVec.extractLsb' 0 4 (BitVec.extractLsb' 512 160 word) = 0 ∧
       word.getLsbD 974 = false
     let ready : Prop := s.linkUp k = true ∧ good ∧ (l.started = false ∨ seq = l.rxSeq + 1) ∧ l.items = []
     ready ∧ bare ∧ word.getLsbD 975 = true ∧ l.replay = [] ∧ l.asked = ack + 1 ∧ 16 ≤ l.tries) ∧
    (x.replay = []) ∧
    (let s : State := ganged .forge .off false
     let k : Fin 3 := 0
     let word : BitVec 1024 := linkWord (linkHeader 1 + 2 ^ 974 + 2 ^ 973 + 0x55)
     let l : Link := s.gang.links[k]
     let seq : BitVec 8 := BitVec.extractLsb' 984 8 word
     let good : Prop := linkCrcGood word = true
     let h : BitVec 160 := BitVec.extractLsb' 672 160 word
     let ready : Prop := s.linkUp k = true ∧ good ∧ (l.started = false ∨ seq = l.rxSeq + 1) ∧ l.items = []
     let inOrder : Prop := ready ∧ word.getLsbD 975 = false
     let writes : Prop := (BitVec.extractLsb' 4 4 h).toNat = 1 ∨ (BitVec.extractLsb' 4 4 h).toNat = 2
     let whole : Prop := (BitVec.extractLsb' 0 4 h).toNat = 1 ∧ BitVec.extractLsb' 0 4 (BitVec.extractLsb' 512 160 word) = 0
       ∧ (writes ↔ word.getLsbD 974 = true) ∧ (writes → (BitVec.extractLsb' 49 6 h).toNat = 0)
     inOrder ∧ whole ∧ s.tongs.bitten = none ∧ s.member (s.linkPeer k) = false) ∧
    (let s : State := (let s := ganged .forge .on true; { s with tongs := { s.tongs with bitten := some 3 } })
     let k : Fin 3 := 0
     let word : BitVec 1024 := linkWord (linkHeader 0)
     let l : Link := s.gang.links[k]
     let seq : BitVec 8 := BitVec.extractLsb' 984 8 word
     let good : Prop := linkCrcGood word = true
     let h : BitVec 160 := BitVec.extractLsb' 672 160 word
     let ready : Prop := s.linkUp k = true ∧ good ∧ (l.started = false ∨ seq = l.rxSeq + 1) ∧ l.items = []
     let inOrder : Prop := ready ∧ word.getLsbD 975 = false
     let writes : Prop := (BitVec.extractLsb' 4 4 h).toNat = 1 ∨ (BitVec.extractLsb' 4 4 h).toNat = 2
     let whole : Prop := (BitVec.extractLsb' 0 4 h).toNat = 1 ∧ BitVec.extractLsb' 0 4 (BitVec.extractLsb' 512 160 word) = 0
       ∧ (writes ↔ word.getLsbD 974 = true) ∧ (writes → (BitVec.extractLsb' 49 6 h).toNat = 0)
     inOrder ∧ whole ∧ s.tongs.bitten ≠ none) ∧
    (let s : State := ganged .forge .on true
     let k : Fin 3 := 0
     let word : BitVec 1024 := linkWord (linkHeader 1 + 2 ^ 974 + 2 ^ 973 + 0x55)
     let l : Link := s.gang.links[k]
     let seq : BitVec 8 := BitVec.extractLsb' 984 8 word
     let good : Prop := linkCrcGood word = true
     let h : BitVec 160 := BitVec.extractLsb' 672 160 word
     let ready : Prop := s.linkUp k = true ∧ good ∧ (l.started = false ∨ seq = l.rxSeq + 1) ∧ l.items = []
     let inOrder : Prop := ready ∧ word.getLsbD 975 = false
     let writes : Prop := (BitVec.extractLsb' 4 4 h).toNat = 1 ∨ (BitVec.extractLsb' 4 4 h).toNat = 2
     let whole : Prop := (BitVec.extractLsb' 0 4 h).toNat = 1 ∧ BitVec.extractLsb' 0 4 (BitVec.extractLsb' 512 160 word) = 0
       ∧ (writes ↔ word.getLsbD 974 = true) ∧ (writes → (BitVec.extractLsb' 49 6 h).toNat = 0)
     inOrder ∧ whole ∧ s.tongs.bitten = none ∧ s.member (s.linkPeer k) = true ∧ (s.joined (s.linkPeer k) = true → s.armed true
     k.val 1 = false)) ∧
    (let s : State := (ganged .forge .on true).onLink 0 (fun l => { l with started := true, rxSeq := 1 })
     let k : Fin 3 := 0
     let word : BitVec 1024 := linkWord 0
     let l : Link := s.gang.links[k]
     let seq : BitVec 8 := BitVec.extractLsb' 984 8 word
     let good : Prop := linkCrcGood word = true
     s.linkUp k = true ∧ good ∧ l.started = true ∧ seq ≠ l.rxSeq + 1) ∧
    (let s : State := (ganged .forge .on true).onLink 0 (fun l => { l with replays := 15 })
     let k : Fin 3 := 0
     let word : BitVec 1024 := linkWord 0 ^^^ 1
     let l : Link := s.gang.links[k]
     let seq : BitVec 8 := BitVec.extractLsb' 984 8 word
     let good : Prop := linkCrcGood word = true
     s.linkUp k = true ∧ ¬good ∧ (l.nak = false ∨ seq = l.rxSeq + 1) ∧ l.replays < 16) ∧
    (let s : State := (ganged .forge .on true).onLink 0 (fun l => { l with replays := 16 })
     let k : Fin 3 := 0
     let word : BitVec 1024 := linkWord 0 ^^^ 1
     let l : Link := s.gang.links[k]
     let seq : BitVec 8 := BitVec.extractLsb' 984 8 word
     let good : Prop := linkCrcGood word = true
     s.linkUp k = true ∧ ¬good ∧ (l.nak = false ∨ seq = l.rxSeq + 1) ∧ 16 ≤ l.replays) ∧
    (let s : State := ganged .forge .off false
     let host : Prop := s.modes.mode ≠ Mode.cold ∧ s.modes.mode ≠ Mode.banked
     host ∧ BitVec.getLsbD w 30 = true ∧ BitVec.getLsbD w 31 = s.flag aGNG_CTL 31) ∧
    (let s : State := (inMode .kindle).setFld aGANG 1 0 1
     let host : Prop := s.modes.mode ≠ Mode.cold ∧ s.modes.mode ≠ Mode.banked
     host ∧ BitVec.getLsbD w 30 = true ∧ BitVec.getLsbD w 31 = true ∧ s.flag aGNG_CTL 31 = false ∧ ∀ (j : Fin 3), s.linkState
     j = 0) := by
  dsimp only
  refine ⟨?_, ?_, ?_, ?_, ?_, ?_, ?_, ?_, ?_, ?_, ?_, ?_, ?_, ?_⟩ <;> decide +kernel

set_option maxRecDepth 20000 in
theorem test_premises_of_MembershipFollowsCredentialsAndHeartbeats :
    let k : Fin 3 := 0
    let rest : List (BitVec 128) := [7]
    let j : Fin 4 := 1
    (let s : State := heard (ganged .kindle .off false) (control 1 0x0102 (ganged .kindle .off false).digest 900 (2 + 8) 1)
     let m : BitVec 128 := control 1 0x0102 (ganged .kindle .off false).digest 900 (2 + 8) 1
     let i : Fin 4 := s.linkPeer k
     let dig : Nat := (BitVec.extractLsb' 20 32 m).toNat
     let id : Nat := (BitVec.extractLsb' 121 2 m).toNat
     let agree : Prop := BitVec.extractLsb' 4 16 m = 258 ∧ dig = s.digest ∧ (BitVec.extractLsb' 116 3 m).toNat = s.lifecycle
       ∧ id = i.val ∧ (BitVec.extractLsb' 119 2 m).toNat = s.fld aGANG 1 0
     let waits : BitVec 4 → Prop := fun type => s.linkUp k = true ∧ s.gang.links[k].ctrl = m :: rest ∧ BitVec.extractLsb' 0
       4 m = type
     waits 1 ∧ agree) ∧
    (let s : State := heard (ganged .forge .on true) (control 1 0x0101 0 900 10 1)
     let m : BitVec 128 := control 1 0x0101 0 900 10 1
     let i : Fin 4 := s.linkPeer k
     let dig : Nat := (BitVec.extractLsb' 20 32 m).toNat
     let id : Nat := (BitVec.extractLsb' 121 2 m).toNat
     let agree : Prop := BitVec.extractLsb' 4 16 m = 258 ∧ dig = s.digest ∧ (BitVec.extractLsb' 116 3 m).toNat = s.lifecycle
       ∧ id = i.val ∧ (BitVec.extractLsb' 119 2 m).toNat = s.fld aGANG 1 0
     let waits : BitVec 4 → Prop := fun type => s.linkUp k = true ∧ s.gang.links[k].ctrl = m :: rest ∧ BitVec.extractLsb' 0
       4 m = type
     waits 1 ∧ ¬agree) ∧
    (let s : State := ganged .forge .on true
     let now : Nat := 20000
     let u : Nat := s.timeAt now
     s.gang.hbSent + 10000 ≤ u) ∧
    (let s : State := heard (ganged .kindle .starting true) (control 2 0x2 (ganged .kindle .off false).digest 900 0 1)
     let m : BitVec 128 := control 2 0x2 (ganged .kindle .off false).digest 900 0 1
     let i : Fin 4 := s.linkPeer k
     let p : Peer := s.gang.peers[i]
     let dig : Nat := (BitVec.extractLsb' 20 32 m).toNat
     let id : Nat := (BitVec.extractLsb' 121 2 m).toNat
     let mode : Nat := (BitVec.extractLsb' 4 3 m).toNat
     let waits : BitVec 4 → Prop := fun type => s.linkUp k = true ∧ s.gang.links[k].ctrl = m :: rest ∧ BitVec.extractLsb' 0
       4 m = type
     let valid : Prop := dig = s.digest ∧ id = i.val ∧ mode < 4 ∧ (p.fn.state = FnState.on → (BitVec.extractLsb' 10 4
       m).getLsbD s.gid = true)
     waits 2 ∧ p.fn.want = true ∧ valid ∧ p.fn.state ≠ FnState.on) ∧
    (let s : State := heard (ganged .forge .on true) (control 2 0x42 (ganged .kindle .off false).digest 20200 0 1)
     let m : BitVec 128 := control 2 0x42 (ganged .kindle .off false).digest 20200 0 1
     let i : Fin 4 := s.linkPeer k
     let p : Peer := s.gang.peers[i]
     let dig : Nat := (BitVec.extractLsb' 20 32 m).toNat
     let id : Nat := (BitVec.extractLsb' 121 2 m).toNat
     let mode : Nat := (BitVec.extractLsb' 4 3 m).toNat
     let waits : BitVec 4 → Prop := fun type => s.linkUp k = true ∧ s.gang.links[k].ctrl = m :: rest ∧ BitVec.extractLsb' 0
       4 m = type
     let valid : Prop := dig = s.digest ∧ id = i.val ∧ mode < 4 ∧ (p.fn.state = FnState.on → (BitVec.extractLsb' 10 4
       m).getLsbD s.gid = true)
     waits 2 ∧ p.fn.want = true ∧ valid ∧ p.fn.state = FnState.on ∧ s.flag aSKEW 31 = false) ∧
    (let s : State := heard (ganged .forge .on true) (control 2 0x42 (ganged .kindle .off false).digest 20192 0 1)
     let now : Nat := 20000
     let m : BitVec 128 := control 2 0x42 (ganged .kindle .off false).digest 20192 0 1
     let u : Nat := s.timeAt now
     let i : Fin 4 := s.linkPeer k
     let p : Peer := s.gang.peers[i]
     let dig : Nat := (BitVec.extractLsb' 20 32 m).toNat
     let id : Nat := (BitVec.extractLsb' 121 2 m).toNat
     let mode : Nat := (BitVec.extractLsb' 4 3 m).toNat
     let sent : Nat := (BitVec.extractLsb' 52 64 m).toNat
     let delay : Nat := s.fld (aLINK k.val) 15 0
     let skew : Int := sent.cast + delay.cast - u.cast
     let waits : BitVec 4 → Prop := fun type => s.linkUp k = true ∧ s.gang.links[k].ctrl = m :: rest ∧ BitVec.extractLsb' 0
       4 m = type
     let valid : Prop := dig = s.digest ∧ id = i.val ∧ mode < 4 ∧ (p.fn.state = FnState.on → (BitVec.extractLsb' 10 4
       m).getLsbD s.gid = true)
     waits 2 ∧ p.fn.want = true ∧ valid ∧ p.fn.state = FnState.on ∧ skew.natAbs ≤ 192 ∧ s.flag aSKEW 31 = false) ∧
    (let s : State := heard (ganged .forge .on true) (control 2 0x42 (ganged .kindle .off false).digest 20209 0 1)
     let now : Nat := 20000
     let m : BitVec 128 := control 2 0x42 (ganged .kindle .off false).digest 20209 0 1
     let u : Nat := s.timeAt now
     let i : Fin 4 := s.linkPeer k
     let p : Peer := s.gang.peers[i]
     let dig : Nat := (BitVec.extractLsb' 20 32 m).toNat
     let id : Nat := (BitVec.extractLsb' 121 2 m).toNat
     let mode : Nat := (BitVec.extractLsb' 4 3 m).toNat
     let sent : Nat := (BitVec.extractLsb' 52 64 m).toNat
     let delay : Nat := s.fld (aLINK k.val) 15 0
     let skew : Int := sent.cast + delay.cast - u.cast
     let waits : BitVec 4 → Prop := fun type => s.linkUp k = true ∧ s.gang.links[k].ctrl = m :: rest ∧ BitVec.extractLsb' 0
       4 m = type
     let valid : Prop := dig = s.digest ∧ id = i.val ∧ mode < 4 ∧ (p.fn.state = FnState.on → (BitVec.extractLsb' 10 4
       m).getLsbD s.gid = true)
     waits 2 ∧ p.fn.want = true ∧ valid ∧ p.fn.state = FnState.on ∧ 208 < skew.natAbs ∧ s.flag aSKEW 31 = false) ∧
    (let s : State := heard (ganged .forge .on true) (control 2 0x02 (ganged .kindle .off false).digest 20201 0 1)
     let m : BitVec 128 := control 2 0x02 (ganged .kindle .off false).digest 20201 0 1
     let i : Fin 4 := s.linkPeer k
     let p : Peer := s.gang.peers[i]
     let dig : Nat := (BitVec.extractLsb' 20 32 m).toNat
     let id : Nat := (BitVec.extractLsb' 121 2 m).toNat
     let mode : Nat := (BitVec.extractLsb' 4 3 m).toNat
     let waits : BitVec 4 → Prop := fun type => s.linkUp k = true ∧ s.gang.links[k].ctrl = m :: rest ∧ BitVec.extractLsb' 0
       4 m = type
     let valid : Prop := dig = s.digest ∧ id = i.val ∧ mode < 4 ∧ (p.fn.state = FnState.on → (BitVec.extractLsb' 10 4
       m).getLsbD s.gid = true)
     waits 2 ∧ p.fn.want = true ∧ ¬valid) ∧
    (let s : State := heard (ganged .forge .stopping false) (control 2 0x42 9 20201 0 1)
     let m : BitVec 128 := control 2 0x42 9 20201 0 1
     let i : Fin 4 := s.linkPeer k
     let p : Peer := s.gang.peers[i]
     let waits : BitVec 4 → Prop := fun type => s.linkUp k = true ∧ s.gang.links[k].ctrl = m :: rest ∧ BitVec.extractLsb' 0
       4 m = type
     waits 2 ∧ p.fn.want = false) ∧
    (let s : State := ganged .forge .on true
     let now : Nat := 35026
     let u : Nat := s.timeAt now
     s.gang.peers[j].fn = { state := FnState.on, want := true } ∧ s.gang.peers[j].hbAt + 35000 ≤ u) ∧
    (let s : State := ganged .forge .on true
     let now : Nat := 35004
     let u : Nat := s.timeAt now
     s.gang.peers[j].fn = { state := FnState.on, want := true } ∧ u < s.gang.peers[j].hbAt + 35000) ∧
    (let s : State := (ganged .forge .starting true).onPeer 1 (fun p => { p with view := 1 })
     s.gang.peers[j].fn = { state := FnState.starting, want := true } ∧ s.gang.peers[j].view.getLsbD s.gid = true) ∧
    (let s : State := (ganged .forge .starting true).onPeer 1 (fun p => { p with view := 0, since := 0 })
     let now : Nat := 35000
     let u : Nat := s.timeAt now
     s.gang.peers[j].fn = { state := FnState.starting, want := true } ∧ s.gang.peers[j].view.getLsbD s.gid = false ∧ s.gang.peers[j].since + 35000 ≤ u) ∧
    (let s : State := (ganged .forge .stopping true)
     s.gang.peers[j].fn.state = FnState.stopping ∧ s.peerGone j = true) := by
  dsimp only
  refine ⟨?_, ?_, ?_, ?_, ?_, ?_, ?_, ?_, ?_, ?_, ?_, ?_, ?_, ?_⟩ <;> decide +kernel

theorem test_premises_of_SmithMessagesCrossAndAreRead :
    let k : Fin 3 := 0
    let m : BitVec 128 := control 3 0 0 0x123456789AB 0 1
    let rest : List (BitVec 128) := [7]
    let x : BitVec 64 × BitVec 2 := (0x123456789AB, 1)
    let more : List (BitVec 64 × BitVec 2) := [(5, 1)]
    (let s : State := (smithWaits (ganged .forge .on true) 24 (.wns 5)).setFlag aGNG_CTL 1 true
     let ms : Smith := s.smiths[masterSmith]
     ms.run ≠ SmithRun.stopped) ∧
    (let s : State := (heard (ganged .forge .on true) (control 3 0 0 0x123456789AB 0 1)).onGang (fun g => { g with fifo := List.replicate 7 (5, 1) })
     let g : Gang := s.gang
     let waits : Prop := s.linkUp k = true ∧ g.links[k].ctrl = m :: rest ∧ BitVec.extractLsb' 0 4 m = 3
     waits ∧ g.fifo.length < 8) ∧
    (let s : State := (heard (ganged .forge .on true) (control 3 0 0 0x123456789AB 0 1)).onGang (fun g => { g with fifo := List.replicate 8 (5, 1) })
     let g : Gang := s.gang
     let waits : Prop := s.linkUp k = true ∧ g.links[k].ctrl = m :: rest ∧ BitVec.extractLsb' 0 4 m = 3
     waits ∧ 8 ≤ g.fifo.length) ∧
    (let s : State := (ganged .forge .on true).onGang (fun g => { g with fifo := [(0x123456789AB, 1), (5, 1)] })
     let g : Gang := s.gang
     let host : Prop := s.modes.mode ≠ Mode.cold ∧ s.modes.mode ≠ Mode.banked
     host ∧ g.fifo = x :: more) ∧
    (let s : State := ganged .forge .on true
     let g : Gang := s.gang
     let host : Prop := s.modes.mode ≠ Mode.cold ∧ s.modes.mode ≠ Mode.banked
     host ∧ g.fifo = []) ∧
    (let s : State := let s := (ganged .forge .on true).onGang (fun g => { g with fifo := [(0x123456789AB, 1), (5, 1)] }); { s with hostCaps := { s.hostCaps with smsg := some 0x123, smsgSrc := 1 } }
     let g : Gang := s.gang
     let cap : Captures := s.hostCaps
     let host : Prop := s.modes.mode ≠ Mode.cold ∧ s.modes.mode ≠ Mode.banked
     host ∧ g.fifo = x :: more ∧ cap.smsg = some (BitVec.extractLsb' 32 32 x.1) ∧ cap.smsgSrc = x.2) ∧
    (let s : State := ganged .forge .on true
     let cap : Captures := s.hostCaps
     let host : Prop := s.modes.mode ≠ Mode.cold ∧ s.modes.mode ≠ Mode.banked
     host ∧ cap.smsg = none) := by
  dsimp only
  decide +kernel

theorem test_premises_of_MailboxCommandsAreAnsweredOrRefused :
    let seq : Byte := 0xAB
    let d : Word := 0
    let e : Word := 0
    let now : Nat := 9
    let c : Chan := 0
    let limit : Nat := 1000
    let x : Nat := 3
    let y : Nat := 4
    let z : Nat := 0x7FF
    let task : Machine.Task := .margin 0 1000
    let till : Nat := 1000
    let arg : State → Nat → Word := fun t n => t.rd (aMBOX_ARG n)
    (let s : State := (served .forge).setFlag aMBOX_STATUS 31 true
     let a : Word := 0
     let b : Word := 0x00C8000A
     let rows : List (Instr × Nat × Word) := [(Instr.ping seq, 1, 4294967295), (Instr.kindleRun seq a b now, 2, 311),
       (Instr.slotCommit seq a b d [] false now, 4, 287), (Instr.setTarget seq a b, 5, 8063), (Instr.shedFloor seq a, 6, 7),
       (Instr.steward seq a b, 7, 7), (Instr.temperNow seq now, 8, 4294967295), (Instr.gangRejoin seq [] now, 9, 4294967295),
       (Instr.margin seq a b d e now, 10, 287), (Instr.park seq a now, 11, 3)]
     let host : Prop := s.modes.mode ≠ Mode.cold ∧ s.modes.mode ≠ Mode.banked
     let r : Instr × Nat × Word := (rows.drop 0).headD (.ping seq, 0x01, 0)
     r ∈ rows ∧ host ∧ s.flag aMBOX_STATUS 31 = true) ∧
    (let s : State := (served .forge).onSmith 24 (fun h => { h with run := .stopped })
     let a : Word := 0
     let b : Word := 0x00C8000A
     let ms : Smith := s.smiths[masterSmith]
     let rows : List (Instr × Nat × Word) := [(Instr.ping seq, 1, 4294967295), (Instr.kindleRun seq a b now, 2, 311),
       (Instr.slotCommit seq a b d [] false now, 4, 287), (Instr.setTarget seq a b, 5, 8063), (Instr.shedFloor seq a, 6, 7),
       (Instr.steward seq a b, 7, 7), (Instr.temperNow seq now, 8, 4294967295), (Instr.gangRejoin seq [] now, 9, 4294967295),
       (Instr.margin seq a b d e now, 10, 287), (Instr.park seq a now, 11, 3)]
     let host : Prop := s.modes.mode ≠ Mode.cold ∧ s.modes.mode ≠ Mode.banked
     let free : Prop := host ∧ s.flag aMBOX_STATUS 31 = false
     let r : Instr × Nat × Word := (rows.drop 0).headD (.ping seq, 0x01, 0)
     r ∈ rows ∧ free ∧ ms.run = SmithRun.stopped) ∧
    (let s : State := let s := served .forge; { s with imageMS := { s.imageMS with reference := false } }
     let a : Word := 0
     let b : Word := 0x00C8000A
     let ms : Smith := s.smiths[masterSmith]
     let rows : List (Instr × Nat × Word) := [(Instr.ping seq, 1, 4294967295), (Instr.kindleRun seq a b now, 2, 311),
       (Instr.slotCommit seq a b d [] false now, 4, 287), (Instr.setTarget seq a b, 5, 8063), (Instr.shedFloor seq a, 6, 7),
       (Instr.steward seq a b, 7, 7), (Instr.temperNow seq now, 8, 4294967295), (Instr.gangRejoin seq [] now, 9, 4294967295),
       (Instr.margin seq a b d e now, 10, 287), (Instr.park seq a now, 11, 3)]
     let host : Prop := s.modes.mode ≠ Mode.cold ∧ s.modes.mode ≠ Mode.banked
     let free : Prop := host ∧ s.flag aMBOX_STATUS 31 = false
     let r : Instr × Nat × Word := (rows.drop 0).headD (.ping seq, 0x01, 0)
     r ∈ rows ∧ free ∧ ms.run ≠ SmithRun.stopped ∧ s.imageMS.reference = false) ∧
    (let s : State := served .quench
     let a : Word := 0
     let b : Word := 0x00C8000A
     let ms : Smith := s.smiths[masterSmith]
     let word : Nat → Word := fun i => ms.dmem.get i
     let rows : List (Instr × Nat × Word) := [(Instr.ping seq, 1, 4294967295), (Instr.kindleRun seq a b now, 2, 311),
       (Instr.slotCommit seq a b d [] false now, 4, 287), (Instr.setTarget seq a b, 5, 8063), (Instr.shedFloor seq a, 6, 7),
       (Instr.steward seq a b, 7, 7), (Instr.temperNow seq now, 8, 4294967295), (Instr.gangRejoin seq [] now, 9, 4294967295),
       (Instr.margin seq a b d e now, 10, 287), (Instr.park seq a now, 11, 3)]
     let host : Prop := s.modes.mode ≠ Mode.cold ∧ s.modes.mode ≠ Mode.banked
     let free : Prop := host ∧ s.flag aMBOX_STATUS 31 = false
     let serves : Prop := free ∧ s.imageMS.reference = true ∧ ms.run = SmithRun.idle ∧ ms.evpend = 0 ∧ ms.evmask.getLsbD 2 =
       true
     let service : Prop := s.modes.mode = Mode.forge ∨ s.modes.mode = Mode.lowfire
     let modeOk : Nat → Prop := fun code => code = 1 ∨ code = 2 ∧ s.modes.mode = Mode.kindle ∨ code = 7 ∧ s.modes.mode ≠
       Mode.quench ∨ (code = 5 ∨ code = 11) ∧ (s.modes.mode = Mode.kindle ∨ service) ∨ code ≠ 2 ∧ service
     let r : Instr × Nat × Word := (rows.drop 1).headD (.ping seq, 0x01, 0)
     r ∈ rows ∧ serves ∧ BitVec.getLsbD (word 5) 0 = false ∧ ¬modeOk r.2.1) ∧
    (let s : State := (served .forge).setBlock 5 1
     let a : Word := 0
     let b : Word := 0x00C8000A
     let ms : Smith := s.smiths[masterSmith]
     let word : Nat → Word := fun i => ms.dmem.get i
     let rows : List (Instr × Nat × Word) := [(Instr.ping seq, 1, 4294967295), (Instr.kindleRun seq a b now, 2, 311),
       (Instr.slotCommit seq a b d [] false now, 4, 287), (Instr.setTarget seq a b, 5, 8063), (Instr.shedFloor seq a, 6, 7),
       (Instr.steward seq a b, 7, 7), (Instr.temperNow seq now, 8, 4294967295), (Instr.gangRejoin seq [] now, 9, 4294967295),
       (Instr.margin seq a b d e now, 10, 287), (Instr.park seq a now, 11, 3)]
     let host : Prop := s.modes.mode ≠ Mode.cold ∧ s.modes.mode ≠ Mode.banked
     let free : Prop := host ∧ s.flag aMBOX_STATUS 31 = false
     let serves : Prop := free ∧ s.imageMS.reference = true ∧ ms.run = SmithRun.idle ∧ ms.evpend = 0 ∧ ms.evmask.getLsbD 2 =
       true
     let r : Instr × Nat × Word := (rows.drop 1).headD (.ping seq, 0x01, 0)
     r ∈ rows ∧ serves ∧ BitVec.getLsbD (word 5) 0 = true ∧ r.2.1 ≠ 1) ∧
    (let s : State := served .kindle
     let a : Word := 0x8000000
     let b : Word := 0x00C8000A
     let ms : Smith := s.smiths[masterSmith]
     let word : Nat → Word := fun i => ms.dmem.get i
     let rows : List (Instr × Nat × Word) := [(Instr.ping seq, 1, 4294967295), (Instr.kindleRun seq a b now, 2, 311),
       (Instr.slotCommit seq a b d [] false now, 4, 287), (Instr.setTarget seq a b, 5, 8063), (Instr.shedFloor seq a, 6, 7),
       (Instr.steward seq a b, 7, 7), (Instr.temperNow seq now, 8, 4294967295), (Instr.gangRejoin seq [] now, 9, 4294967295),
       (Instr.margin seq a b d e now, 10, 287), (Instr.park seq a now, 11, 3)]
     let host : Prop := s.modes.mode ≠ Mode.cold ∧ s.modes.mode ≠ Mode.banked
     let free : Prop := host ∧ s.flag aMBOX_STATUS 31 = false
     let serves : Prop := free ∧ s.imageMS.reference = true ∧ ms.run = SmithRun.idle ∧ ms.evpend = 0 ∧ ms.evmask.getLsbD 2 =
       true
     let service : Prop := s.modes.mode = Mode.forge ∨ s.modes.mode = Mode.lowfire
     let modeOk : Nat → Prop := fun code => code = 1 ∨ code = 2 ∧ s.modes.mode = Mode.kindle ∨ code = 7 ∧ s.modes.mode ≠
       Mode.quench ∨ (code = 5 ∨ code = 11) ∧ (s.modes.mode = Mode.kindle ∨ service) ∨ code ≠ 2 ∧ service
     let r : Instr × Nat × Word := (rows.drop 1).headD (.ping seq, 0x01, 0)
     r ∈ rows ∧ serves ∧ BitVec.getLsbD (word 5) 0 = false ∧ modeOk r.2.1 ∧ a &&& ~~~r.2.2 ≠ 0) ∧
    (let s : State := served .quench
     let ms : Smith := s.smiths[masterSmith]
     let host : Prop := s.modes.mode ≠ Mode.cold ∧ s.modes.mode ≠ Mode.banked
     let free : Prop := host ∧ s.flag aMBOX_STATUS 31 = false
     let serves : Prop := free ∧ s.imageMS.reference = true ∧ ms.run = SmithRun.idle ∧ ms.evpend = 0 ∧ ms.evmask.getLsbD 2 =
       true
     serves) ∧
    (let s : State := served .forge
     let a : Word := 7
     let b : Word := 0x000A000A
     let ms : Smith := s.smiths[masterSmith]
     let word : Nat → Word := fun i => ms.dmem.get i
     let host : Prop := s.modes.mode ≠ Mode.cold ∧ s.modes.mode ≠ Mode.banked
     let free : Prop := host ∧ s.flag aMBOX_STATUS 31 = false
     let serves : Prop := free ∧ s.imageMS.reference = true ∧ ms.run = SmithRun.idle ∧ ms.evpend = 0 ∧ ms.evmask.getLsbD 2 =
       true
     serves ∧ BitVec.getLsbD (word 5) 0 = false ∧ s.modes.mode ≠ Mode.quench ∧ a &&& ~~~BitVec.ofNat 32 7 = 0 ∧ 10 ≤ bits
     (BitVec.toNat b) 15 0 ∧ 10 ≤ bits (BitVec.toNat b) 31 16) ∧
    (let s : State := served .forge
     let a : Word := 0x100
     let ms : Smith := s.smiths[masterSmith]
     let word : Nat → Word := fun i => ms.dmem.get i
     let host : Prop := s.modes.mode ≠ Mode.cold ∧ s.modes.mode ≠ Mode.banked
     let free : Prop := host ∧ s.flag aMBOX_STATUS 31 = false
     let serves : Prop := free ∧ s.imageMS.reference = true ∧ ms.run = SmithRun.idle ∧ ms.evpend = 0 ∧ ms.evmask.getLsbD 2 =
       true
     let service : Prop := s.modes.mode = Mode.forge ∨ s.modes.mode = Mode.lowfire
     serves ∧ BitVec.getLsbD (word 5) 0 = false ∧ service ∧ a &&& ~~~BitVec.ofNat 32 287 = 0 ∧ bits (BitVec.toNat a) 4 0 =
     c.val) ∧
    (let s : State := answering (served .forge) 1 (.margin 0 1000) [(0, .margin (3, 4, 0x7FF) true)]
     let ms : Smith := s.smiths[masterSmith]
     let event : Nat → Prop := fun n => s.imageMS.reference = true ∧ ms.run = SmithRun.idle ∧ ms.evpend = BitVec.ofNat 16 (2
       ^ n) ∧ ms.evmask.getLsbD n = true
     event 1 ∧ s.prog.task = some (Task.margin c limit) ∧ s.timebase ≤ limit ∧ s.prog.reports = [(c, Report.margin (x, y, z)
     true)]) ∧
    (let s : State := answering (served .forge) 12 (.margin 0 1000) []
     let ms : Smith := s.smiths[masterSmith]
     let event : Nat → Prop := fun n => s.imageMS.reference = true ∧ ms.run = SmithRun.idle ∧ ms.evpend = BitVec.ofNat 16 (2
       ^ n) ∧ ms.evmask.getLsbD n = true
     event 12 ∧ s.prog.task = some (Task.margin c limit)) ∧
    (let s : State := { answering (served .forge) 1 (.margin 0 1000) [] with timebase := 1001 }
     let ms : Smith := s.smiths[masterSmith]
     let event : Nat → Prop := fun n => s.imageMS.reference = true ∧ ms.run = SmithRun.idle ∧ ms.evpend = BitVec.ofNat 16 (2
       ^ n) ∧ ms.evmask.getLsbD n = true
     event 1 ∧ s.prog.task = some task ∧ (∀ (till : Nat), task ≠ Task.rejoin till) ∧ task.limit < s.timebase) ∧
    (let s : State := { answering (served .forge) 1 (.rejoin 1000) [] with timebase := 1001 }
     let ms : Smith := s.smiths[masterSmith]
     let event : Nat → Prop := fun n => s.imageMS.reference = true ∧ ms.run = SmithRun.idle ∧ ms.evpend = BitVec.ofNat 16 (2
       ^ n) ∧ ms.evmask.getLsbD n = true
     event 1 ∧ s.prog.task = some (Task.rejoin till) ∧ till < s.timebase) ∧
    (let s : State := served .forge
     let a : Word := 0
     let ms : Smith := s.smiths[masterSmith]
     let word : Nat → Word := fun i => ms.dmem.get i
     let host : Prop := s.modes.mode ≠ Mode.cold ∧ s.modes.mode ≠ Mode.banked
     let free : Prop := host ∧ s.flag aMBOX_STATUS 31 = false
     let serves : Prop := free ∧ s.imageMS.reference = true ∧ ms.run = SmithRun.idle ∧ ms.evpend = 0 ∧ ms.evmask.getLsbD 2 =
       true
     let service : Prop := s.modes.mode = Mode.forge ∨ s.modes.mode = Mode.lowfire
     let runs : Chan → Prop := fun q => s.smiths[anvilSmith q].run ≠ SmithRun.stopped
     serves ∧ BitVec.getLsbD (word 5) 0 = false ∧ (s.modes.mode = Mode.kindle ∨ service) ∧ a &&& ~~~BitVec.ofNat 32 3 = 0 ∧
     (BitVec.getLsbD a 1 = false ∨ ∀ (q : Chan), ¬runs q)) ∧
    (let s : State := (served .forge).onSmith 0 (fun h => { h with run := .idle })
     let a : Word := 2
     let ms : Smith := s.smiths[masterSmith]
     let word : Nat → Word := fun i => ms.dmem.get i
     let host : Prop := s.modes.mode ≠ Mode.cold ∧ s.modes.mode ≠ Mode.banked
     let free : Prop := host ∧ s.flag aMBOX_STATUS 31 = false
     let serves : Prop := free ∧ s.imageMS.reference = true ∧ ms.run = SmithRun.idle ∧ ms.evpend = 0 ∧ ms.evmask.getLsbD 2 =
       true
     let service : Prop := s.modes.mode = Mode.forge ∨ s.modes.mode = Mode.lowfire
     let runs : Chan → Prop := fun q => s.smiths[anvilSmith q].run ≠ SmithRun.stopped
     serves ∧ BitVec.getLsbD (word 5) 0 = false ∧ (s.modes.mode = Mode.kindle ∨ service) ∧ a &&& ~~~BitVec.ofNat 32 3 = 0 ∧
     BitVec.getLsbD a 1 = true ∧ runs c) ∧
    (let s : State := ordered (served .forge) .park
     let an : Smith := s.smiths[anvilSmith c]
     s.imageAS.reference = true ∧ an.run = SmithRun.idle ∧ an.evpend = 2 ∧ an.evmask.getLsbD 1 = true ∧ s.prog.orders[c] =
     [Order.park]) ∧
    (let s : State := (answering (served .forge) 1 (.park [0] 1000) [(0, .parked)]).wr (aMBOX_ARG 0) 2
     let a : Word := 2
     let ms : Smith := s.smiths[masterSmith]
     let word : Nat → Word := fun i => ms.dmem.get i
     let event : Nat → Prop := fun n => s.imageMS.reference = true ∧ ms.run = SmithRun.idle ∧ ms.evpend = BitVec.ofNat 16 (2
       ^ n) ∧ ms.evmask.getLsbD n = true
     event 1 ∧ s.prog.task = some (Task.park [c] limit) ∧ s.timebase ≤ limit ∧ s.prog.reports = [(c, Report.parked)] ∧ a = arg
     s 0 ∧ BitVec.getLsbD (word 5) 0 = false) ∧
    (let s : State := inMode .cold
     let a : Word := 0
     let b : Word := 0x00C8000A
     let rows : List (Instr × Nat × Word) := [(Instr.ping seq, 1, 4294967295), (Instr.kindleRun seq a b now, 2, 311),
       (Instr.slotCommit seq a b d [] false now, 4, 287), (Instr.setTarget seq a b, 5, 8063), (Instr.shedFloor seq a, 6, 7),
       (Instr.steward seq a b, 7, 7), (Instr.temperNow seq now, 8, 4294967295), (Instr.gangRejoin seq [] now, 9, 4294967295),
       (Instr.margin seq a b d e now, 10, 287), (Instr.park seq a now, 11, 3)]
     let r : Instr × Nat × Word := (rows.drop 0).headD (.ping seq, 0x01, 0)
     r ∈ rows ∧ s.modes.mode = Mode.cold) := by
  dsimp only
  refine ⟨?_, ?_, ?_, ?_, ?_, ?_, ?_, ?_, ?_, ?_, ?_, ?_, ?_, ?_, ?_, ?_, ?_, ?_⟩ <;> first | decide +kernel | (and_intros <;> first | decide +kernel | (intro m h; cases h))

theorem test_premises_of_KindleCommitTargetShedTemperAndRejoin :
    let layout : Word → Nat × Nat := fun v => (bits (BitVec.toNat v) 31 24, bits (BitVec.toNat v) 23 16)
    let q : Chan := 0
    let c : Chan := 0
    let n : Nat := 1
    let rank : Nat := 0
    let dqo : Bool := true
    let j : Job := counting
    let failed : List Chan := []
    let till : Nat := 1000
    let pass : Bool := true
    (let s : State := (served .kindle).wr aVER_AS 0x01000000
     let a : Word := 0x12
     let ms : Smith := s.smiths[masterSmith]
     let serves : Prop := s.modes.mode ≠ Mode.cold ∧ s.modes.mode ≠ Mode.banked ∧ s.flag aMBOX_STATUS 31 = false ∧
       s.imageMS.reference = true ∧ ms.run = SmithRun.idle ∧ ms.evpend = 0 ∧ ms.evmask.getLsbD 2 = true ∧ BitVec.getLsbD
       (ms.dmem.get 5) 0 = false
     let kindles : Prop := serves ∧ s.modes.mode = Mode.kindle ∧ a &&& ~~~BitVec.ofNat 32 55 = 0 ∧ BitVec.getLsbD a (bits
       (BitVec.toNat a) 5 4) = true ∧ bits (BitVec.toNat a) 5 4 < 3
     kindles ∧ layout (s.rd aVER_MS) ≠ layout (s.rd aVER_AS)) ∧
    (let s : State := (served .kindle)
     let a : Word := 0x12
     let now : Nat := 9
     let ms : Smith := s.smiths[masterSmith]
     let u : Nat := s.timeAt now
     let serves : Prop := s.modes.mode ≠ Mode.cold ∧ s.modes.mode ≠ Mode.banked ∧ s.flag aMBOX_STATUS 31 = false ∧
       s.imageMS.reference = true ∧ ms.run = SmithRun.idle ∧ ms.evpend = 0 ∧ ms.evmask.getLsbD 2 = true ∧ BitVec.getLsbD
       (ms.dmem.get 5) 0 = false
     let kindles : Prop := serves ∧ s.modes.mode = Mode.kindle ∧ a &&& ~~~BitVec.ofNat 32 55 = 0 ∧ BitVec.getLsbD a (bits
       (BitVec.toNat a) 5 4) = true ∧ bits (BitVec.toNat a) 5 4 < 3
     let points : List Nat := List.filter (fun n => BitVec.getLsbD a n) (List.range 3)
     let retain : Bool := s.flag aMODE 27
     let brings : Chan → Prop := fun q => s.populated q.val = true ∧ s.keptOff q.val = false
     let settled : Chan → Prop := fun q => s.fld (aPLL q.val) 5 4 = points.headD 0 ∧ s.flag (aPLL q.val) 8 = true ∧ s.flag
       (aPLL q.val) 31 = true ∧ s.anvils[q].testing = false ∧ s.anvils[q].resetN = true ∧ (retain = true ∨ s.anvils[q].resetAt
       + 2000000 ≤ u)
     kindles ∧ layout (s.rd aVER_MS) = layout (s.rd aVER_AS) ∧ brings q ∧ ¬settled q) ∧
    (let s : State := (((served .kindle).onAnvil 0 (fun v => { v with resetN := true, resetAt := 5 })).wr (aPLL 0) 0x80000110)
     let a : Word := 0x12
     let now : Nat := 2000031
     let ms : Smith := s.smiths[masterSmith]
     let u : Nat := s.timeAt now
     let serves : Prop := s.modes.mode ≠ Mode.cold ∧ s.modes.mode ≠ Mode.banked ∧ s.flag aMBOX_STATUS 31 = false ∧
       s.imageMS.reference = true ∧ ms.run = SmithRun.idle ∧ ms.evpend = 0 ∧ ms.evmask.getLsbD 2 = true ∧ BitVec.getLsbD
       (ms.dmem.get 5) 0 = false
     let kindles : Prop := serves ∧ s.modes.mode = Mode.kindle ∧ a &&& ~~~BitVec.ofNat 32 55 = 0 ∧ BitVec.getLsbD a (bits
       (BitVec.toNat a) 5 4) = true ∧ bits (BitVec.toNat a) 5 4 < 3
     let points : List Nat := List.filter (fun n => BitVec.getLsbD a n) (List.range 3)
     let retain : Bool := s.flag aMODE 27
     let brings : Chan → Prop := fun q => s.populated q.val = true ∧ s.keptOff q.val = false
     let settled : Chan → Prop := fun q => s.fld (aPLL q.val) 5 4 = points.headD 0 ∧ s.flag (aPLL q.val) 8 = true ∧ s.flag
       (aPLL q.val) 31 = true ∧ s.anvils[q].testing = false ∧ s.anvils[q].resetN = true ∧ (retain = true ∨ s.anvils[q].resetAt
       + 2000000 ≤ u)
     kindles ∧ layout (s.rd aVER_MS) = layout (s.rd aVER_AS) ∧ brings c ∧ ∀ (q : Chan), brings q → settled q) ∧
    (let s : State := let s := ((ordered (served .kindle) (.train 1)).wr (aZQ 0) 0x01200000); { s with hearths := s.hearths.set 0 { locking := false, zqDone := true, zqFrom := 5, lockAt := 0 } }
     let an : Smith := s.smiths[anvilSmith c]
     let dispatched : Prop := s.imageAS.reference = true ∧ an.run = SmithRun.idle ∧ an.evpend = 2 ∧ an.evmask.getLsbD 1 =
       true ∧ an.stopReq = false
     dispatched ∧ s.prog.orders[c] = [Order.train n] ∧ s.populated c.val = true ∧ s.hearths[hearthOf c].zqDone = true ∧ (s.fld
     (aZQ c.val) 29 24 < 2 ∨ 61 < s.fld (aZQ c.val) 29 24 ∨ s.fld (aZQ c.val) 21 16 < 2 ∨ 61 < s.fld (aZQ c.val) 21 16)) ∧
    (let s : State := let s := (((ordered (served .kindle) .park).onSmith 0 (fun h => { h with run := .waiting, evpend := 0, wait := some (.osc 0 0 0 true) })).onAnvil 0 (fun v => { v with bursts := [oscBurst, oscBurst] })); { s with prog := { s.prog with jobs := s.prog.jobs.set 0 (some counting) } }
     let an : Smith := s.smiths[anvilSmith c]
     let d : RegNo := 0
     an.wait = some (Wait.osc d c rank dqo) ∧ s.anvils[c].oscRead (anvilSmith c) = true ∧ s.prog.jobs[c] = some j ∧ j.kind =
     JobKind.train n ∧ j.steps = [JobStep.count rank dqo, JobStep.baseline] ∧ an.stopReq = false) ∧
    (let s : State := (answering (served .kindle) 1 (.kindle [] 1 [0] [] 1000) [(0, .trained true)])
     let ms : Smith := s.smiths[masterSmith]
     let brings : Chan → Prop := fun q => s.populated q.val = true ∧ s.keptOff q.val = false
     s.imageMS.reference = true ∧ ms.run = SmithRun.idle ∧ ms.evpend = 2 ∧ ms.evmask.getLsbD 1 = true ∧ s.prog.task = some
     (Task.kindle [] n [c] failed till) ∧ s.timebase ≤ till ∧ s.prog.reports = [(c, Report.trained pass)] ∧ n < 3 ∧ brings c) ∧
    (let s : State := (((served .forge).setFld (aSLOT 0) 10 0 1).wr (aTIM 0 0) 0xFFFFFFFF).wr (aREFRESH 0) 0x80FFFFFF
     let a : Word := 0
     let ms : Smith := s.smiths[masterSmith]
     let serves : Prop := s.modes.mode ≠ Mode.cold ∧ s.modes.mode ≠ Mode.banked ∧ s.flag aMBOX_STATUS 31 = false ∧
       s.imageMS.reference = true ∧ ms.run = SmithRun.idle ∧ ms.evpend = 0 ∧ ms.evmask.getLsbD 2 = true ∧ BitVec.getLsbD
       (ms.dmem.get 5) 0 = false
     let service : Prop := s.modes.mode = Mode.forge ∨ s.modes.mode = Mode.lowfire
     let load : Nat × Nat := s.shadowLoad c
     serves ∧ service ∧ (BitVec.toNat a = c.val ∨ BitVec.toNat a = c.val + 256 ∧ s.flag aSKEW 31 = false) ∧ load.2 < load.1) ∧
    (let s : State := (((((served .forge).setBlock 6 950).setFld (aSLOT 0) 10 0 16).setFld (aREFRESH 0) 11 0 3900)).setFlag
       aSKEW 31 true
     let a : Word := 0x100
     let ms : Smith := s.smiths[masterSmith]
     let serves : Prop := s.modes.mode ≠ Mode.cold ∧ s.modes.mode ≠ Mode.banked ∧ s.flag aMBOX_STATUS 31 = false ∧
       s.imageMS.reference = true ∧ ms.run = SmithRun.idle ∧ ms.evpend = 0 ∧ ms.evmask.getLsbD 2 = true ∧ BitVec.getLsbD
       (ms.dmem.get 5) 0 = false
     let service : Prop := s.modes.mode = Mode.forge ∨ s.modes.mode = Mode.lowfire
     serves ∧ service ∧ BitVec.toNat a = c.val + 256 ∧ s.flag aSKEW 31 = true) ∧
    (let s : State := ((((served .forge).setBlock 6 950).setFld (aSLOT 0) 10 0 16).setFld (aREFRESH 0) 11 0 3900)
     let a : Word := 0
     let b : Word := 5000
     let d : Word := 0
     let now : Nat := 9
     let ms : Smith := s.smiths[masterSmith]
     let u : Nat := s.timeAt now
     let serves : Prop := s.modes.mode ≠ Mode.cold ∧ s.modes.mode ≠ Mode.banked ∧ s.flag aMBOX_STATUS 31 = false ∧
       s.imageMS.reference = true ∧ ms.run = SmithRun.idle ∧ ms.evpend = 0 ∧ ms.evmask.getLsbD 2 = true ∧ BitVec.getLsbD
       (ms.dmem.get 5) 0 = false
     let service : Prop := s.modes.mode = Mode.forge ∨ s.modes.mode = Mode.lowfire
     let start : Nat := BitVec.toNat b + BitVec.toNat d * 2 ^ 32
     let load : Nat × Nat := s.shadowLoad c
     serves ∧ service ∧ BitVec.toNat a = c.val ∧ load.1 ≤ load.2 ∧ s.flag (aSLOT c.val) 30 = false ∧ u + 32 ≤ start) ∧
    (let s : State := (((((served .forge).setBlock 6 950).setFld (aSLOT 0) 10 0 16).setFld (aREFRESH 0) 11 0 3900)).setFlag
       (aSLOT 0) 30 true
     let a : Word := 0
     let ms : Smith := s.smiths[masterSmith]
     let serves : Prop := s.modes.mode ≠ Mode.cold ∧ s.modes.mode ≠ Mode.banked ∧ s.flag aMBOX_STATUS 31 = false ∧
       s.imageMS.reference = true ∧ ms.run = SmithRun.idle ∧ ms.evpend = 0 ∧ ms.evmask.getLsbD 2 = true ∧ BitVec.getLsbD
       (ms.dmem.get 5) 0 = false
     let service : Prop := s.modes.mode = Mode.forge ∨ s.modes.mode = Mode.lowfire
     let load : Nat × Nat := s.shadowLoad c
     serves ∧ service ∧ BitVec.toNat a = c.val ∧ load.1 ≤ load.2 ∧ s.flag (aSLOT c.val) 30 = true) ∧
    (let s : State := served .forge
     let a : Word := 0
     let b : Word := 65
     let ms : Smith := s.smiths[masterSmith]
     let serves : Prop := s.modes.mode ≠ Mode.cold ∧ s.modes.mode ≠ Mode.banked ∧ s.flag aMBOX_STATUS 31 = false ∧
       s.imageMS.reference = true ∧ ms.run = SmithRun.idle ∧ ms.evpend = 0 ∧ ms.evmask.getLsbD 2 = true ∧ BitVec.getLsbD
       (ms.dmem.get 5) 0 = false
     let service : Prop := s.modes.mode = Mode.forge ∨ s.modes.mode = Mode.lowfire
     let port : Nat := bits (BitVec.toNat a) 6 0
     let units : Nat := (BitVec.toNat b + 63) / 64
     serves ∧ (s.modes.mode = Mode.kindle ∨ service) ∧ a &&& ~~~BitVec.ofNat 32 8063 = 0 ∧ BitVec.toNat b ≤ 16320 ∧
     s.belowFloor port (64 * units) = none) ∧
    (let s : State := ((opened ((served .forge).setBlock 6 950) 3).onAnvil 0 (fun v => { v with bank0 := [(1, 131)] })).setFld (aSLOT 0) 21 11 2
     let a : Word := 3
     let b : Word := 1
     let ms : Smith := s.smiths[masterSmith]
     let serves : Prop := s.modes.mode ≠ Mode.cold ∧ s.modes.mode ≠ Mode.banked ∧ s.flag aMBOX_STATUS 31 = false ∧
       s.imageMS.reference = true ∧ ms.run = SmithRun.idle ∧ ms.evpend = 0 ∧ ms.evmask.getLsbD 2 = true ∧ BitVec.getLsbD
       (ms.dmem.get 5) 0 = false
     let service : Prop := s.modes.mode = Mode.forge ∨ s.modes.mode = Mode.lowfire
     let port : Nat := bits (BitVec.toNat a) 6 0
     let units : Nat := (BitVec.toNat b + 63) / 64
     serves ∧ (s.modes.mode = Mode.kindle ∨ service) ∧ a &&& ~~~BitVec.ofNat 32 8063 = 0 ∧ BitVec.toNat b ≤ 16320 ∧
     s.belowFloor port (64 * units) = some c) ∧
    (let s : State := served .forge
     let a : Word := 6
     let ms : Smith := s.smiths[masterSmith]
     let serves : Prop := s.modes.mode ≠ Mode.cold ∧ s.modes.mode ≠ Mode.banked ∧ s.flag aMBOX_STATUS 31 = false ∧
       s.imageMS.reference = true ∧ ms.run = SmithRun.idle ∧ ms.evpend = 0 ∧ ms.evmask.getLsbD 2 = true ∧ BitVec.getLsbD
       (ms.dmem.get 5) 0 = false
     let service : Prop := s.modes.mode = Mode.forge ∨ s.modes.mode = Mode.lowfire
     serves ∧ service ∧ BitVec.toNat a ≤ 6) ∧
    (let s : State := served .forge
     let ms : Smith := s.smiths[masterSmith]
     let serves : Prop := s.modes.mode ≠ Mode.cold ∧ s.modes.mode ≠ Mode.banked ∧ s.flag aMBOX_STATUS 31 = false ∧
       s.imageMS.reference = true ∧ ms.run = SmithRun.idle ∧ ms.evpend = 0 ∧ ms.evmask.getLsbD 2 = true ∧ BitVec.getLsbD
       (ms.dmem.get 5) 0 = false
     let service : Prop := s.modes.mode = Mode.forge ∨ s.modes.mode = Mode.lowfire
     serves ∧ service) := by
  dsimp only
  refine ⟨?_, ?_, ?_, ?_, ?_, ?_, ?_, ?_, ?_, ?_, ?_, ?_, ?_, ?_⟩ <;> decide +kernel

end Sys2Proof.Tests
end

section
/-! SUPPORT. Laws of a field and of the frames that the proofs about the whole machine share. -/

namespace Sys2Proof.Machine

/-! ### Frames -/

/-- A change of the Tongs touches the Tongs alone. -/
theorem tongs_only (s : State) (x : Tongs) : Only (· = .tongs) s { s with tongs := x } := by
  intro y hy; cases y <;> first | rfl | exact ⟨rfl, rfl⟩ | exact absurd rfl hy

/-- A change of the pieces in the core touches nothing else. -/
theorem pieces_only (s : State) (l : List Piece) : Only (· = .pieces) s { s with pieces := l } := by
  intro y hy; cases y <;> first | rfl | exact ⟨rfl, rfl⟩ | exact absurd rfl hy

/-- A change of a label's running state touches its port alone. -/
theorem onLabel_only (s : State) (p : PortId) (l : Nat) (f : LabelRun → LabelRun) : Only (· = .port p) s (s.onLabel p l f) :=
  onPort_only s p _

/-- A register outside the frame reads as before. -/
theorem Only.rd {P : Part → Prop} {s t : State} (h : Only P s t) {a : Nat} (ha : ¬ P (.reg (regHome a))) : t.rd a = s.rd a :=
  h _ ha

/-- Slices outside the frame are as before. -/
theorem Only.slices {P : Part → Prop} {s t : State} (h : Only P s t) (hP : ∀ c, ¬ P (.slice c)) : t.slices = s.slices :=
  Vector.ext fun i hi => h (.slice ⟨i, hi⟩) (hP _)

/-- The frame of a host access that raises HRP_RVALID after a change. -/
theorem Only.hostOnly {P : Part → Prop} {s t : State} (h : Only P s t) : HostOnly P s { t with hrpRvalid := true } :=
  ⟨rfl, fun x hx => by
    have hxP : ¬ P x := fun hp => hx (.inl hp)
    have hxv : x ≠ .rvalid := fun e => hx (.inr e)
    have hk := h x hxP
    cases x <;> first | exact hk | exact absurd rfl hxv⟩

/-- A register that is written with what it holds changes nothing that can be read. -/
theorem wr_rd_only (s : State) (a : Nat) : Only (fun _ => False) s (s.wr a (s.rd a)) := by
  intro x _
  by_cases hx : x = .reg (regHome a)
  · subst hx
    simp [Part.kept, State.rd]
  · exact wr_only s a _ x hx

/-! ### Fields -/

/-- Bit `i` of a register after one of its fields was set. -/
theorem State.flag_setFld (s : State) (a hi lo v i : Nat) (h : lo ≤ hi) (h32 : i < 32) :
    (s.setFld a hi lo v).flag a i = if lo ≤ i ∧ i ≤ hi then bit v (i - lo) else s.flag a i := by
  simp [State.flag, State.setFld_eq_wr, wbit_putBits _ _ _ _ _ h h32]

/-- A field that is replaced by what it holds leaves the word as it is. -/
@[simp] theorem putBits_wbits_self (w : Word) (hi lo : Nat) (h : lo ≤ hi) : putBits w hi lo (wbits w hi lo) = w := by
  apply BitVec.eq_of_getLsbD_eq
  intro i hi32
  rw [putBits_getLsbD _ _ _ _ _ h]
  split
  case isTrue hin =>
    have hsum : lo + (i - lo) = i := by omega
    have hlt : i - lo < hi - lo + 1 := by omega
    simp [wbits_testBit, hi32, hsum, hlt]
  case isFalse => simp [hi32]

/-- A field of all 32 bits that is replaced by a whole word leaves that word. -/
theorem putBits_whole (w v : Word) : putBits w 31 0 (wbits v 31 0) = v := by
  apply BitVec.eq_of_getLsbD_eq
  intro i hi32
  have hle : i ≤ 31 := by omega
  rw [putBits_getLsbD _ _ _ _ _ (Nat.zero_le _)]
  simp [wbits_testBit, hi32, hle]

/-- A field inside the bits that a write takes reads as in the written word. -/
theorem wbits_merge (old w m : Word) {hi lo : Nat} (h : lo ≤ hi) (h32 : hi < 32) (hm : maskBits hi lo &&& ~~~m = 0) :
    wbits ((old &&& ~~~m) ||| (w &&& m)) hi lo = wbits w hi lo := by
  apply Nat.eq_of_testBit_eq
  intro i
  rw [wbits_testBit, wbits_testBit]
  by_cases hlt : i < hi - lo + 1
  · have hmi : m.getLsbD (lo + i) = true := by
      have hbit := congrArg (fun x => x.getLsbD (lo + i)) hm
      have h1 : lo + i < 32 := by omega
      have h2 : lo + i ≤ hi := by omega
      simpa [maskBits_getLsbD _ _ _ h, h1, h2] using hbit
    simp [hmi]
  · simp [hlt]

end Sys2Proof.Machine
end

section
/-! SUPPORT. The watchdog of the Tongs (01 R32 to R36). -/

namespace Sys2Proof.Machine

/-- The frame of a record in TNG_HANG. -/
theorem setHang_only (s : State) (detail heat : Nat) : Only (· = .reg aHANG) s (s.setHang detail heat) :=
  (((setFlag_only s aHANG 31 true).trans (setFld_only _ aHANG 11 9 heat)).trans (setFld_only _ aHANG 8 8 _)).trans
    (setFld_only _ aHANG 7 0 detail)

/-- What TNG_HANG records of a bite (01 Table 1.5). -/
theorem setHang_fields (s : State) (detail heat : Nat) :
    (s.setHang detail heat).flag aHANG 31 = true ∧ (s.setHang detail heat).fld aHANG 7 0 = detail % 256 ∧
    (s.setHang detail heat).flag aHANG 8 = bit (detail / 256) 0 ∧ (s.setHang detail heat).fld aHANG 11 9 = heat % 8 := by
  refine ⟨?_, ?_, ?_, ?_⟩
  · simp [State.setHang, State.flag_setFld, State.flag_setFlag]
  · simp [State.setHang, State.fld_setFld]
  · simp [State.setHang, State.flag_setFld]
  · simp [State.setHang, State.fld_setFld_of_ne, State.fld_setFld]

/-- The first bite: TNG_HANG and one fatal message, and the output waits no longer (R33, R36). -/
theorem bite_first {s : State} (ret : Bool) (o t : Nat) (h : s.tongs.bitten = none) :
    s.bite ret o t = { (s.setHang (o + b2n ret * 256) (s.tongs.hottest ret o)).send 0x40 0x0B sevFatal 0 (o + b2n ret * 256) with
      tongs := { s.tongs with
        bitten := some t, biteLimit := s.wdogLimit, bites := s.tongs.bites ++ [(o + b2n ret * 256, s.tongs.hottest ret o)]
        since := s.tongs.since.filter (fun e => e.1 != (ret, o)) } } := by
  simp only [State.bite, h, Option.isNone_none, Option.isSome_none, if_true]
  rfl

/-- The frame of the first bite. -/
theorem bite_only {s : State} (ret : Bool) (o t : Nat) (h : s.tongs.bitten = none) :
    Only (fun y => y = .tongs ∨ y = .faults ∨ y = .reg aHANG) s (s.bite ret o t) := by
  rw [bite_first ret o t h]
  exact (((setHang_only s _ _).mono (by simp +contextual)).trans ((send_only _ _ _ _ _ _).mono (by simp +contextual))).trans
    ((tongs_only _ _).mono (by simp +contextual))

/-- Before a bite an output that has waited since `t0` bites when LIMIT has passed from then, and not before LIMIT took its
value (R32). -/
theorem biteTime_unbitten {s : State} {ret : Bool} {o t0 : Nat} (h : s.tongs.bitten = none)
    (ht : s.tongs.since.lookup (ret, o) = some t0) :
    s.biteTime ret o = some (max (t0 + (s.rd aWDOG).toNat) s.tongs.limitFrom) := by
  simp [State.biteTime, h, ht, State.wdogLimit]

/-- TONGS_WATCHDOG_BITE of an output that has reached its limit before any bite. -/
theorem exec_tongsWatchdogBite_due {s : State} {ret : Bool} {o : Fin 131} {now t0 : Nat} (h : s.tongs.bitten = none)
    (ht : s.tongs.since.lookup (ret, o.val) = some t0)
    (hdue : max (t0 + (s.rd aWDOG).toNat) s.tongs.limitFrom ≤ s.timeAt now) :
    exec (.tongsWatchdogBite ret o now) s =
      .next ((s.at now).bite ret o.val (max (t0 + (s.rd aWDOG).toNat) s.tongs.limitFrom)) := by
  have hb : (s.at now).biteTime ret o.val = some (max (t0 + (s.rd aWDOG).toNat) s.tongs.limitFrom) :=
    biteTime_unbitten (s := s.at now) h ht
  show execTongsWatchdogBite ret o now s = _
  unfold execTongsWatchdogBite
  have hall : (s.at now).tongs.bitten = none := h
  rw [timed_pos, hb]
  · rfl
  · rw [hb, hall]
    simpa using hdue

/-- After a bite no output grants and no piece is released (R34). -/
theorem exec_afterBite {s : State} (h : s.tongs.bitten ≠ none) (ret : Bool) (o : Fin 131) (p : PortId) (now : Nat) :
    exec (.tongsGrant ret o now) s = .next s ∧ exec (.release p now) s = .next s := by
  have hb : (s.at now).tongs.bitten.isNone = false := by
    rw [State.at_tongs]
    exact Option.isNone_eq_false_iff.mpr (Option.isSome_iff_ne_none.mpr h)
  constructor
  · show execTongsGrant ret o now s = _
    unfold execTongsGrant
    rw [timed_neg (by rw [hb, Bool.false_and])]
  · show execRelease p now s = _
    unfold execRelease
    rw [timed_neg hb]

/-- Settles O19: before a bite the watchdog's condition gives the first bite, whose record and message are
`setHang_fields` and `State.send_arriving`. -/
theorem tongsWatchdogBitesAtItsLimit : Obligations.TongsWatchdogBitesAtItsLimit := by
  unfold Obligations.TongsWatchdogBitesAtItsLimit
  intro s ret o p now t0
  refine ⟨?_, fun hb => exec_afterBite hb ret o p now⟩
  intro hb ht due hdue
  obtain ⟨hv, ho, hnet, hheat⟩ := setHang_fields (s.at now) (o.val + b2n ret * 256) (s.tongs.hottest ret o.val)
  have hmod : (o.val + b2n ret * 256) % 256 = o.val := by omega
  have hdiv : (o.val + b2n ret * 256) / 256 = b2n ret := by omega
  have hframe := ((at_only s now).mono (Q := fun y => y = .tongs ∨ y = .time ∨ y = .faults ∨ y = .reg aHANG)
    (by simp +contextual)).trans ((bite_only (s := s.at now) ret o.val due hb).mono (by simp +contextual [or_imp]))
  have hexec := exec_tongsWatchdogBite_due hb ht hdue
  rw [bite_first (s := s.at now) ret o.val _ hb] at hexec hframe
  exact ⟨_, _, hexec, rfl, hv, ho.trans hmod, hnet.trans (by rw [hdiv, bit_b2n_zero]), hheat, State.send_arriving _ _ _ _ _ _,
    rfl, rfl, rfl, by cases ret <;> rfl, hframe⟩

end Sys2Proof.Machine
end

section
/-! SUPPORT. The grants of the Tongs (01 R29). -/

namespace Sys2Proof.Machine

/-- `a` comes no later than `b` at an output: it is hotter, or equally hot and no later in round-robin order (R29). -/
def Tongs.NoLater (t : Tongs) (ret : Bool) (o : Nat) (a b : Waiting) : Prop :=
  b.heat ≤ a.heat ∧ (b.heat = a.heat → t.turn ret o a ≤ t.turn ret o b)

theorem Tongs.NoLater.refl (t : Tongs) (ret : Bool) (o : Nat) (a : Waiting) : t.NoLater ret o a a :=
  ⟨Nat.le_refl _, fun _ => Nat.le_refl _⟩

theorem Tongs.NoLater.trans {t : Tongs} {ret : Bool} {o : Nat} {a b c : Waiting} (h : t.NoLater ret o a b)
    (h' : t.NoLater ret o b c) : t.NoLater ret o a c := by
  obtain ⟨hab, tab⟩ := h
  obtain ⟨hbc, tbc⟩ := h'
  exact ⟨hbc.trans hab, fun e => (tab (by omega)).trans (tbc (by omega))⟩

/-- `before` decides against `NoLater`. -/
theorem Tongs.before_eq_false_iff (t : Tongs) (ret : Bool) (o : Nat) (a b : Waiting) :
    t.before ret o a b = false ↔ t.NoLater ret o b a := by
  simp only [Tongs.before, Tongs.NoLater, Bool.or_eq_false_iff, Bool.and_eq_false_iff, decide_eq_false_iff_not, not_lt,
    beq_eq_false_iff_ne]
  exact and_congr_right fun _ => ⟨fun h e => h.resolve_left (fun n => n e), fun h => (Decidable.em _).symm.imp_right h⟩

theorem Tongs.noLater_of_before {t : Tongs} {ret : Bool} {o : Nat} {a b : Waiting} (h : t.before ret o a b = true) :
    t.NoLater ret o a b := by
  simp only [Tongs.before, Bool.or_eq_true, Bool.and_eq_true, decide_eq_true_eq, beq_iff_eq] at h
  unfold Tongs.NoLater
  omega

/-- The fold of `pick` ends at one of its tokens that comes no later than any of them. -/
theorem Tongs.foldl_before_noLater (t : Tongs) (ret : Bool) (o : Nat) (l : List Waiting) (b : Waiting) :
    l.foldl (fun best x => if t.before ret o x best then x else best) b ∈ b :: l ∧
    ∀ w ∈ b :: l, t.NoLater ret o (l.foldl (fun best x => if t.before ret o x best then x else best) b) w := by
  induction l generalizing b with
  | nil => simp [Tongs.NoLater.refl]
  | cons x l ih =>
    rw [List.foldl_cons]
    cases hx : t.before ret o x b
    case true =>
      obtain ⟨hmem, hle⟩ := ih x
      refine ⟨List.mem_cons_of_mem _ hmem, List.forall_mem_cons.mpr ⟨?_, hle⟩⟩
      exact (hle x List.mem_cons_self).trans (Tongs.noLater_of_before hx)
    case false =>
      obtain ⟨hmem, hle⟩ := ih b
      obtain ⟨hb, hl⟩ := List.forall_mem_cons.mp hle
      refine ⟨?_, List.forall_mem_cons.mpr ⟨hb, List.forall_mem_cons.mpr ⟨?_, hl⟩⟩⟩
      · exact (List.mem_cons.mp hmem).elim (fun e => by simp [e]) (fun h => by simp [h])
      · exact hb.trans ((t.before_eq_false_iff ret o x b).mp hx)

/-- An output with a waiting input picks one that comes no later than any other (R29). -/
theorem Tongs.pick_noLater {t : Tongs} {ret : Bool} {o : Nat} (h : t.at ret o ≠ []) :
    ∃ w, t.pick ret o = some w ∧ w ∈ t.at ret o ∧ ∀ w' ∈ t.at ret o, t.NoLater ret o w w' := by
  obtain ⟨b, l, hl⟩ := List.exists_cons_of_ne_nil h
  obtain ⟨hmem, hle⟩ := t.foldl_before_noLater ret o l b
  exact ⟨_, by simp only [Tongs.pick, hl], hl ▸ hmem, hl ▸ hle⟩

@[simp] theorem Tongs.take_reqNet (t : Tongs) (ret : Bool) (o : Nat) (w : Waiting) (now : Nat) :
    (t.take ret o w now).reqNet = if ret then t.reqNet else t.reqNet.erase w := by cases ret <;> rfl

@[simp] theorem Tongs.take_retNet (t : Tongs) (ret : Bool) (o : Nat) (w : Waiting) (now : Nat) :
    (t.take ret o w now).retNet = if ret then t.retNet.erase w else t.retNet := by cases ret <;> rfl

/-- A grant is the latest at its output and heat. -/
@[simp] theorem Tongs.take_last_lookup (t : Tongs) (ret : Bool) (o : Nat) (w : Waiting) (now : Nat) :
    (t.take ret o w now).last.lookup (ret, o, w.heat) = some w.input := by
  simp [Tongs.take, Tongs.settle]

/-- A piece that is found by a tag has that tag. -/
theorem State.tag_of_piece {s : State} {tag : Nat} {x : Piece} (h : s.piece tag = some x) : x.tag = tag := by
  simpa using List.find?_some h

/-- TONGS_GRANT before a bite, at an output whose best token names a piece that can leave. -/
theorem exec_tongsGrant_granted {s : State} {ret : Bool} {o : Fin 131} {now : Nat} {w : Waiting} {x : Piece}
    (hb : s.tongs.bitten = none) (ho : o.val < netOutputs ret) (hw : s.tongs.pick ret o.val = some w)
    (hx : s.piece w.tag = some x) (hl : (s.at now).canLeave ret o.val x = true) :
    exec (.tongsGrant ret o now) s =
      .next (({ s.at now with tongs := s.tongs.take ret o.val w (s.timeAt now) }).arriveAt ret o.val x) := by
  have hw' : (s.at now).tongs.pick ret o.val = some w := hw
  have hx' : (s.at now).piece w.tag = some x := hx
  show execTongsGrant ret o now s = _
  unfold execTongsGrant
  rw [timed_pos (by simp [hb, ho])]
  simp only [hw', hx', hl, occur_true]
  rfl

/-- A token that reaches the output of a slice enters the slice's input. -/
theorem State.arriveAt_slice (s : State) {o : Nat} (x : Piece) (ho : o < 24) :
    s.arriveAt false o x = s.onSlice (chanOf o) (fun l => { l with inq := l.inq ++ [x.tag] }) := by
  simp [State.arriveAt, ho]

/-- An answer that reaches the output of a port joins the parts of its request. -/
theorem State.arriveAt_port (s : State) {o : Nat} {x : Piece} {p : PortId} {id i : Nat} (ho : o < 128)
    (hx : x.origin = .port p id i) :
    s.arriveAt true o x = s.onPort p (fun v => v.onReq id (fun r =>
      { r with parts := r.parts ++ [(i, x.answer, x.results.map Prod.snd)], flip := r.flip.xor x.flip })) := by
  simp [State.arriveAt, ho, State.deliver, hx]

/-- Time passes and the Tongs change: what a grant does before its token arrives. -/
theorem at_tongs_only (s : State) (now : Nat) (x : Tongs) :
    Only (fun y => y = .tongs ∨ y = .time) s { s.at now with tongs := x } :=
  ((at_only s now).mono (fun _ h => .inr h)).trans ((tongs_only _ x).mono (fun _ h => .inl h))

/-- Settles O18: `Tongs.pick_noLater` names the token, and `State.arriveAt_slice` or `State.arriveAt_port` says where it
goes. -/
theorem tongsGrantsHighestHeatFirst : Obligations.TongsGrantsHighestHeatFirst := by
  unfold Obligations.TongsGrantsHighestHeatFirst
  intro s o now best hb
  constructor
  · intro ho hne hpieces
    obtain ⟨w, hpick, hmem, hbest⟩ := Tongs.pick_noLater hne
    obtain ⟨x, hx⟩ := Option.isSome_iff_exists.mp (hpieces w hmem)
    have hout : o.val < netOutputs false := by simp [netOutputs]; omega
    have hexec := exec_tongsGrant_granted (now := now) hb hout hpick hx (by simp [State.canLeave, ho])
    rw [State.arriveAt_slice _ _ ho, State.tag_of_piece hx] at hexec
    refine ⟨_, w, hexec, ⟨hmem, hbest⟩, by simp, by simp, by simp, by simp, ?_⟩
    exact ((at_tongs_only s now _).mono (by simp +contextual [or_imp])).trans
      ((onSlice_only _ _ _).mono (by simp +contextual))
  · intro ho hne hpieces
    obtain ⟨w, hpick, hmem, hbest⟩ := Tongs.pick_noLater hne
    obtain ⟨x, p, id, i, hx, horigin⟩ := hpieces w hmem
    have hexec := exec_tongsGrant_granted (now := now) hb o.isLt hpick hx (by simp [State.canLeave, ho])
    rw [State.arriveAt_port _ ho horigin] at hexec
    refine ⟨_, w, x, p, id, i, hexec, ⟨hmem, hbest⟩, hx, horigin, by simp, by simp, by simp [Port.onReq], ?_⟩
    exact ((at_tongs_only s now _).mono (by simp +contextual [or_imp])).trans
      ((onPort_only _ _ _).mono (by simp +contextual))

end Sys2Proof.Machine
end

section
/-! SUPPORT. The entry of responses into the response queues (01 R27, R38, 03 R110, R122). -/

namespace Sys2Proof.Machine

theorem sample_only (s : State) (p : PortId) (r : Req) : Only (· = .port p) s (s.sample p r) := onLabel_only s p _ _

theorem respond_only (s : State) (p : PortId) (id : Nat) (st : Status) (data : Bool) (beats : List (Sector × Bool)) :
    Only (· = .port p) s (s.respond p id st data beats) := onPort_only s p _

/-- A latency sample leaves the requests and the response queue of its port. -/
theorem State.sample_port (s : State) (p : PortId) (r : Req) :
    (s.sample p r).ports[p].reqs = s.ports[p].reqs ∧ (s.sample p r).ports[p].respq = s.ports[p].respq := by
  simp [State.sample, State.onLabel]

/-- A response to a request in which nothing was inverted joins the response queue under the request's tag (03 R110). -/
theorem State.respond_respq {s : State} {p : PortId} {r : Req} (st : Status) (data : Bool) (beats : List (Sector × Bool))
    (hr : s.ports[p].reqs.find? (fun q => q.id == r.id) = some r) (hflip : r.flip = Flip.none) :
    (s.respond p r.id st data beats).ports[p].respq = s.ports[p].respq ++
      [{ req := r.id, tag := r.tag, status := BitVec.ofNat 4 st.code, data := data, beats := beats }] := by
  simp only [Fin.getElem_fin] at hr ⊢
  simp [State.respond, Port.onReq, hr, hflip, Flip.none]

/-- The answer to a request in which nothing was inverted is a response of one beat without data. -/
theorem State.answer_eq_respond {s : State} {p : PortId} {r : Req} (st : Status)
    (hr : s.ports[p].reqs.find? (fun q => q.id == r.id) = some r) (hflip : r.flip = Flip.none) :
    s.answer p r.id st = s.respond p r.id st false [(0, false)] := by
  simp only [State.answer, hr, Option.map_some, Option.getD_some, hflip]
  rfl

/-- No part of a request was refused where each was answered OK. -/
theorem find_refusals_of_ok {r : Req} (h : ∀ e ∈ r.parts, e.2.1 = .ok) :
    refusals.find? (fun st => r.parts.any (fun e => e.2.1 == st)) = none := by
  rw [List.find?_eq_none]
  intro st hst hany
  obtain ⟨e, he, hest⟩ := List.any_eq_true.mp hany
  rw [h e he, beq_iff_eq] at hest
  exact absurd hst (hest ▸ by decide)

/-- The first status of R123 among parts that are all OK is OK. -/
theorem worstData_of_ok {l : List Status} (h : ∀ st ∈ l, st = .ok) : worstData l = .ok := by
  have hnot : ∀ st, st ≠ .ok → st ∉ l := fun st hne hmem => hne (h st hmem)
  simp [worstData, hnot]

/-- A sound sector's beat holds its data, unpoisoned. -/
theorem dataBeat_of_ok {y : SecRes} (h : y.status = .ok ∧ y.poisoned = false) : dataBeat .ok y = (y.data, false) := by
  simp [dataBeat, h]

/-- The response of a request other than a READ whose every part is OK (R122). -/
theorem State.conclude_write {s : State} {p : PortId} {r : Req} (hok : ∀ e ∈ r.parts, e.2.1 = .ok) (hop : r.op ≠ 0)
    (hr : s.ports[p].reqs.find? (fun q => q.id == r.id) = some r) (hflip : r.flip = Flip.none) :
    s.conclude p r = (s.sample p r).respond p r.id .ok false [(0, false)] := by
  simp only [State.conclude, find_refusals_of_ok hok]
  rw [if_pos hop]
  exact State.answer_eq_respond .ok ((congrArg _ (State.sample_port s p r).1).trans hr) hflip

/-- The response of a READ whose every part and sector is OK: its sectors in address order, unpoisoned (R122, R124). -/
theorem State.conclude_read {s : State} {p : PortId} {r : Req} (hok : ∀ e ∈ r.parts, e.2.1 = .ok) (hop : r.op = 0)
    (hsec : ∀ y ∈ r.sectors, y.status = .ok ∧ y.poisoned = false) :
    s.conclude p r = (s.sample p r).respond p r.id .ok true (r.sectors.map (fun y => (y.data, false))) := by
  have hworst : worstData (r.parts.map (fun e => e.2.1)) = .ok := worstData_of_ok (List.forall_mem_map.mpr hok)
  simp only [State.conclude, find_refusals_of_ok hok, hop, hworst]
  simp [haltingStatus, List.map_congr_left (fun y hy => dataBeat_of_ok (hsec y hy))]

/-- RESPONSE_ENTER of a piece: its tag is freed, and with the last piece its request is concluded (R27, 03 R110). -/
theorem exec_responseEnter_piece {s : State} {p : PortId} {now idx : Nat} {x : Piece} {r : Req} (hx : s.enterable p = some x)
    (horigin : x.origin = .port p r.id idx) (hr : s.ports[p].reqs.find? (fun q => q.id == r.id) = some r) :
    exec (.responseEnter p now) s = .next (
      if ((s.at now).freePiece x.tag).complete p r then ((s.at now).freePiece x.tag).conclude p r
      else (s.at now).freePiece x.tag) := by
  have hx' : (s.at now).enterable p = some x := hx
  have hr' : ((s.at now).freePiece x.tag).ports[p].reqs.find? (fun q => q.id == r.id) = some r := hr
  show execResponseEnter p now s = _
  unfold execResponseEnter
  rw [timed_pos (by rw [hx']; rfl)]
  simp only [hx', horigin, hr']

/-- Time passes and a tag is freed: what every RESPONSE_ENTER does. -/
theorem at_freePiece_only (s : State) (now tag : Nat) :
    Only (fun y => y = .pieces ∨ y = .time) s ((s.at now).freePiece tag) :=
  ((at_only s now).mono (fun _ h => .inr h)).trans ((pieces_only _ _).mono (fun _ h => .inl h))

/-- The response of a request that has concluded after its last tag was freed: what it adds to its port's response queue,
and its frame. -/
theorem responded_after_freePiece {s : State} {p : PortId} (now tag : Nat) {r : Req} (st : Status) (data : Bool)
    (beats : List (Sector × Bool)) (hr : s.ports[p].reqs.find? (fun q => q.id == r.id) = some r) (hflip : r.flip = Flip.none) :
    let t := (((s.at now).freePiece tag).sample p r).respond p r.id st data beats
    t.pieces = ((s.at now).freePiece tag).pieces ∧
    t.ports[p].respq = s.ports[p].respq ++
      [{ req := r.id, tag := r.tag, status := BitVec.ofNat 4 st.code, data := data, beats := beats }] ∧
    Only (fun y => y = .port p ∨ y = .pieces ∨ y = .time) s t := by
  obtain ⟨hreqs, hrespq⟩ := State.sample_port ((s.at now).freePiece tag) p r
  refine ⟨rfl, ?_, ?_⟩
  · rw [State.respond_respq st data beats ((congrArg _ hreqs).trans hr) hflip, hrespq]
    rfl
  · exact ((at_freePiece_only s now tag).mono (fun _ h => .inr h)).trans
      (((sample_only _ p r).trans (respond_only _ p _ _ _ _)).mono (fun _ h => .inl h))

/-- Settles O20: `exec_responseEnter_piece` splits on whether the request is complete, and the response is
`State.conclude_write` or `State.conclude_read`. -/
theorem responseEnterFreesTagAndAnswers : Obligations.ResponseEnterFreesTagAndAnswers := by
  unfold Obligations.ResponseEnterFreesTagAndAnswers
  intro s p now idx x r v freed hx horigin hr hflip
  have hexec := exec_responseEnter_piece (now := now) hx horigin hr
  constructor
  · intro hc
    rwa [show ((s.at now).freePiece x.tag).complete p r = false from hc] at hexec
  · intro hc hok
    rw [show ((s.at now).freePiece x.tag).complete p r = true from hc, if_pos rfl] at hexec
    constructor
    · intro hop
      rw [State.conclude_write (s := (s.at now).freePiece x.tag) hok hop hr hflip] at hexec
      exact ⟨_, hexec, responded_after_freePiece now x.tag .ok false _ hr hflip⟩
    · intro hop hsec
      rw [State.conclude_read hok hop hsec] at hexec
      exact ⟨_, hexec, responded_after_freePiece now x.tag .ok true _ hr hflip⟩

end Sys2Proof.Machine
end

section
/-! SUPPORT. The release of a request into the Tongs (11 R375, R387, R389, R398, 01 R24, R27). -/

namespace Sys2Proof.Machine

/-- Two changes of one entry of a table are one change. -/
theorem upd_upd {α : Type} {n : Nat} (v : Vector α n) (i : Fin n) (f g : α → α) :
    upd (upd v i f) i g = upd v i (fun x => g (f x)) := by
  ext k hk
  simp only [upd_getElem, if_true]
  split <;> rfl

/-- A change of a port that leaves it as it is changes nothing. -/
theorem State.onPort_of_eq {s : State} {p : PortId} {f : Port → Port} (h : f s.ports[p] = s.ports[p]) : s.onPort p f = s := by
  rw [State.onPort, upd, h, Fin.getElem_fin, Vector.set_getElem_self]

/-- The changed port. -/
theorem State.onPort_port (s : State) (p : PortId) (f : Port → Port) : (s.onPort p f).ports[p] = f s.ports[p] := by simp

/-- `t` differs from `s` in the running state of the Bellows of port `p` alone: its requests, its room in the response queue
and its selection stand. -/
def BellowsRuns (p : PortId) (s t : State) : Prop :=
  ∃ f : Port → Port, t = s.onPort p f ∧
    ∀ v, (f v).reqs = v.reqs ∧ (f v).reserved = v.reserved ∧ (f v).selected = v.selected

theorem BellowsRuns.refl (p : PortId) (s : State) : BellowsRuns p s s :=
  ⟨id, (State.onPort_of_eq rfl).symm, fun _ => ⟨rfl, rfl, rfl⟩⟩

theorem BellowsRuns.trans {p : PortId} {s t u : State} (h : BellowsRuns p s t) (h' : BellowsRuns p t u) :
    BellowsRuns p s u := by
  obtain ⟨f, rfl, hf⟩ := h
  obtain ⟨g, rfl, hg⟩ := h'
  refine ⟨fun v => g (f v), ?_, fun v => ?_⟩
  · simp only [State.onPort, upd_upd]
  · obtain ⟨h1, h2, h3⟩ := hf v
    obtain ⟨h4, h5, h6⟩ := hg (f v)
    exact ⟨h4.trans h1, h5.trans h2, h6.trans h3⟩

theorem BellowsRuns.ite {p : PortId} {s t u : State} {c : Prop} [Decidable c] (h : BellowsRuns p s t) (h' : BellowsRuns p s u) :
    BellowsRuns p s (if c then t else u) := by split <;> assumption

theorem BellowsRuns.onPort (s : State) (p : PortId) {f : Port → Port}
    (hf : ∀ v, (f v).reqs = v.reqs ∧ (f v).reserved = v.reserved ∧ (f v).selected = v.selected) :
    BellowsRuns p s (s.onPort p f) := ⟨f, rfl, hf⟩

theorem BellowsRuns.onLabel (s : State) (p : PortId) (l : Nat) (f : LabelRun → LabelRun) : BellowsRuns p s (s.onLabel p l f) :=
  ⟨_, rfl, fun _ => ⟨rfl, rfl, rfl⟩⟩

/-- An examination of a label is the Bellows' own (11 R383, R384, R400). -/
theorem examine_bellowsRuns (s : State) (p : PortId) (l : Nat) : BellowsRuns p s (s.examine p l) := by
  unfold State.examine
  refine BellowsRuns.ite (BellowsRuns.onLabel _ _ _ _) (BellowsRuns.ite ?_ (BellowsRuns.refl p s))
  refine BellowsRuns.trans ?_ (.onLabel _ _ _ _)
  exact .onPort _ _ (fun _ => ⟨rfl, rfl, rfl⟩)

/-- What a release spends is the Bellows' own (11 R385, R388, R400). -/
theorem spend_bellowsRuns (s : State) (p : PortId) (r : Req) : BellowsRuns p s (s.spend p r) := by
  have htokens : BellowsRuns p s
      (if s.shaped p r.label then s.onLabel p r.label (fun run => { run with ts := run.ts - s.counted16 p r })
       else if s.throttled p then s.onPort p (fun v => { v with throttle := v.throttle - s.counted16 p r })
       else s) :=
    .ite (.onLabel _ _ _ _) (.ite (.onPort s p (fun _ => ⟨rfl, rfl, rfl⟩)) (.refl p s))
  unfold State.spend
  exact .ite (htokens.trans (.onLabel _ _ _ _)) htokens

/-- The port whose selection of request `id` has ended. -/
def Port.unselect (v : Port) (id : Nat) : Port := { v with selected := if v.selected = some id then none else v.selected }

/-- A request that leaves the head of its queue ends its selection (11 R389); the rest is the Bellows' own. -/
theorem leaveQueue_bellowsRuns (s : State) (p : PortId) (r : Req) :
    BellowsRuns p (s.onPort p (fun v => v.unselect r.id)) (s.leaveQueue p r) := by
  unfold State.leaveQueue
  dsimp only
  split
  · exact examine_bellowsRuns _ _ _
  · exact .onLabel _ _ _ _

/-- The first piece of a request of port `p`, as it leaves the Bellows (11 R375, 03 R115). -/
def Req.firstPiece (r : Req) (p : PortId) (a n heat tag : Nat) : Piece :=
  { tag := tag, origin := .port p r.id 0, op := r.op, port := p.val, addr := a, sectors := n, label := r.label, attr := r.attr,
    heat := heat, beats := r.beats.take n, accept := r.time, judged := false, next := 0, results := [], status := none,
    flip := Flip.none, erased := [] }

/-- The port of a request whose only piece leaves the Bellows: its beats are reserved, and the request is in flight. -/
def Port.fly (v : Port) (r : Req) (n heat : Nat) : Port :=
  { v with
    reserved := v.reserved + pieceBeats r n
    reqs := (v.onReq r.id (fun q => { q with stage := .flying, heat := heat, sent := q.sent + 1, beats := [] })).reqs }

/-- The state in which the only piece of a request has left the Bellows and its queue has not moved on. -/
def State.launch (s : State) (p : PortId) (r : Req) (a n tag : Nat) : State :=
  { (s.spend p r).onPort p (fun v => v.fly r n (s.heatOf p r)) with
    pieces := s.pieces ++ [r.firstPiece p a n (s.heatOf p r) tag]
    tongs := (s.tongs.tookTag (s.heatOf p r) p.val).push false
      { output := s.outputOf a, input := p.val, heat := s.heatOf p r, tag := tag } s.timebase }

/-- The release of a request of one piece, whose owner serves, with room for its beats (11 R375, 01 R24). -/
theorem State.releasePiece_single {s : State} {p : PortId} {r : Req} {a n tag : Nat} (hpieces : s.piecesOf r = [(a, n)])
    (hsent : r.sent = 0) (htag : s.freeTag = some tag) (hroom : s.ports[p].reserved + pieceBeats r n ≤ 128)
    (hlost : s.peerLost a = false) : s.releasePiece p r = (s.launch p r a n tag).leaveQueue p r := by
  obtain ⟨f, hspend, -⟩ := spend_bellowsRuns s p r
  have hroom' : ¬ 128 < s.ports[p].reserved + pieceBeats r n := by omega
  simp only [State.releasePiece, State.launch, hpieces, hsent, htag, hspend, List.getElem?_cons_zero, if_neg hroom', if_true,
    List.length_singleton, Nat.zero_add, decide_true, State.pieceHeat]
  split
  case isTrue h => exact absurd (hlost.symm.trans h) Bool.false_ne_true
  case isFalse => rfl

/-- What the release of a request of one piece does: its piece and its token of `State.launch`, and a change of its port
in which the reservation, the request in flight and the end of its selection stand. -/
theorem State.launch_leaveQueue (s : State) (p : PortId) (r : Req) (a n tag : Nat) :
    ∃ f : Port → Port, (s.launch p r a n tag).leaveQueue p r =
        { s.onPort p f with pieces := (s.launch p r a n tag).pieces, tongs := (s.launch p r a n tag).tongs } ∧
      ∀ v, (f v).reserved = (v.fly r n (s.heatOf p r)).reserved ∧ (f v).reqs = (v.fly r n (s.heatOf p r)).reqs ∧
        (f v).selected = (v.unselect r.id).selected := by
  obtain ⟨f, hspend, hf⟩ := spend_bellowsRuns s p r
  obtain ⟨g, hleave, hg⟩ := leaveQueue_bellowsRuns (s.launch p r a n tag) p r
  refine ⟨fun v => g (((f v).fly r n (s.heatOf p r)).unselect r.id), ?_, fun v => ?_⟩
  · rw [hleave]
    simp only [State.launch, hspend, State.onPort, upd_upd]
  · obtain ⟨hreqs, hreserved, hselected⟩ := hf v
    obtain ⟨hreqs', hreserved', hselected'⟩ := hg (((f v).fly r n (s.heatOf p r)).unselect r.id)
    rw [hreserved', hreqs', hselected']
    simp only [Port.fly, Port.unselect, Port.onReq, hreqs, hreserved, hselected, and_self]

/-- In a port in flight every request of that number, where it is the request itself, is in flight with one piece sent. -/
theorem Port.fly_reqs {v : Port} {r : Req} (n heat : Nat) (hsent : r.sent = 0) (huniq : ∀ q ∈ v.reqs, q.id = r.id → q = r) :
    ∀ q ∈ (v.fly r n heat).reqs, q.id = r.id → q.stage = .flying ∧ q.sent = 1 := by
  intro q hq hid
  obtain ⟨q', hq', rfl⟩ := List.mem_map.mp hq
  by_cases h : q'.id = r.id
  · rw [if_pos h, huniq q' hq' h]
    exact ⟨rfl, congrArg (· + 1) hsent⟩
  · rw [if_neg h] at hid
    exact absurd hid h

/-- The port that has selected request `id` (11 R389). -/
def Port.select (v : Port) (id : Nat) : Port := { v with selected := some id }

/-- A request selected earlier and still in its queue is chosen again, and the selection stands (11 R389). -/
theorem State.chosen_of_selected {s : State} {p : PortId} {r : Req} (hsel : s.ports[p].selected = some r.id)
    (hfind : s.ports[p].reqs.find? (fun q => q.id == r.id && s.inQueue q) = some r) :
    s.chosen p = (s.onPort p (fun v => v.select r.id), some r) := by
  have hsame : s.onPort p (fun v => v.select r.id) = s := State.onPort_of_eq (by rw [Port.select, ← hsel])
  rw [hsame]
  simp only [State.chosen, hsel, Option.bind_some, hfind]

/-- With none selected the eligible head of the lowest label below STRICT is chosen (11 R387). -/
theorem State.chosen_of_strict {s : State} {p : PortId} {r : Req} (hsel : s.ports[p].selected = none)
    (hstrict : (List.range (s.strict p.val)).findSome? (fun l => s.eligible p l) = some r) :
    s.chosen p = (s.onPort p (fun v => v.select r.id), some r) := by
  simp only [State.chosen, hsel, Option.bind_none, State.selectLabel, hstrict]
  rfl

/-- A selection leaves every heat as it was (11 R398). -/
theorem State.heatOf_select (s : State) (p : PortId) (r : Req) (id : Nat) :
    (s.onPort p (fun v => v.select id)).heatOf p r = s.heatOf p r := by
  simp only [State.heatOf, State.escalation, State.onPort_port, Port.select]
  rfl

/-- RELEASE of the chosen request, when no other Bellows takes a tag first (11 R375, R389, 01 R27). -/
theorem exec_release_chosen {s u : State} {p : PortId} {now : Nat} {r : Req} (hb : s.tongs.bitten = none)
    (hchosen : (s.at now).chosen p = (u, some r)) (hfirst : (s.at now).tagFirst p = true) :
    exec (.release p now) s = .next (u.releasePiece p r) := by
  show execRelease p now s = _
  unfold execRelease
  rw [timed_pos (by simp [hb])]
  simp only [hchosen, hfirst, if_true]

/-- The frame of a release: time passes, its port is changed, and its piece and its token enter. -/
theorem launched_only (s : State) (now : Nat) (p : PortId) (f g : Port → Port) (l : List Piece) (x : Tongs) :
    Only (fun y => y = .port p ∨ y = .pieces ∨ y = .tongs ∨ y = .time) s
      { ((s.at now).onPort p f).onPort p g with pieces := l, tongs := x } :=
  ((((at_only s now).mono (fun _ h => .inr (.inr (.inr h)))).trans
    (((onPort_only _ p f).trans (onPort_only _ p g)).mono (fun _ h => .inl h))).trans
    ((pieces_only _ l).mono (fun _ h => .inr (.inl h)))).trans ((tongs_only _ x).mono (fun _ h => .inr (.inr (.inl h))))

/-- Settles O17: the chosen request is selected, and its release is `State.releasePiece_single` with
`State.launch_leaveQueue`. -/
theorem releaseSendsPieceIntoTheTongs : Obligations.ReleaseSendsPieceIntoTheTongs := by
  unfold Obligations.ReleaseSendsPieceIntoTheTongs
  intro s p now r a n tag v s' chosen hb hfirst hchosen hsent hpieces htag hlabel hlost hroom huniq
  have hch : s'.chosen p = (s'.onPort p (fun v => v.select r.id), some r) := by
    rcases hchosen with ⟨hsel, hfind⟩ | ⟨hsel, hstrict, -⟩
    · exact State.chosen_of_selected hsel hfind
    · exact State.chosen_of_strict hsel hstrict
  have hexec := exec_release_chosen hb hch hfirst
  have hport : (s'.onPort p (fun v => v.select r.id)).ports[p] = v.select r.id := State.onPort_port s' p _
  rw [State.releasePiece_single (s := s'.onPort p (fun v => v.select r.id)) hpieces hsent htag (by rw [hport]; exact hroom)
    hlost] at hexec
  obtain ⟨f, hstate, hf⟩ := State.launch_leaveQueue (s'.onPort p (fun v => v.select r.id)) p r a n tag
  rw [hstate] at hexec
  simp only [State.launch, State.heatOf_select] at hexec hf
  obtain ⟨hreserved, hreqs, hselected⟩ := hf (v.select r.id)
  have hport' : ((s'.onPort p (fun v => v.select r.id)).onPort p f).ports[p] = f (v.select r.id) := by
    rw [State.onPort_port, hport]
  refine ⟨_, _, hexec, rfl, rfl, rfl, rfl, rfl, rfl, rfl, rfl, rfl, rfl, rfl, ?_, ?_, ?_, ?_⟩
  · exact (congrArg Port.reserved hport').trans hreserved
  · exact (congrArg Port.selected hport').trans (hselected.trans (if_pos rfl))
  · have ht := (congrArg Port.reqs hport').trans hreqs
    intro q hq
    exact Port.fly_reqs n (s'.heatOf p r) hsent huniq q (ht ▸ hq)
  · exact launched_only s now p _ f _ _

end Sys2Proof.Machine
end

section
/-! SUPPORT. Host writes of registers and memory words by the types of their fields (18 R557 to R560, 00 Table 0.4). -/

namespace Sys2Proof.Machine

/-! ### Writes by the types of fields (00 Table 0.4, R17) -/

/-- With no reserved encoding in the new word every field of it stays. -/
theorem keepReserved_of_sound {l : List (Nat × Nat × (Nat → Bool))} {new : Word} (old : Word)
    (h : ∀ f ∈ l, f.2.2 (wbits new f.1 f.2.1) = false) : keepReserved l old new = new := by
  have hfold : ∀ (l : List (Nat × Nat × (Nat → Bool))) (acc : Word), (∀ f ∈ l, f.2.2 (wbits new f.1 f.2.1) = false) →
      l.foldl (fun w r => if r.2.2 (wbits new r.1 r.2.1) then putBits w r.1 r.2.1 (wbits old r.1 r.2.1) else w) acc = acc := by
    intro l
    induction l with
    | nil => exact fun _ _ => rfl
    | cons f l ih =>
      intro acc h
      obtain ⟨hf, hl⟩ := List.forall_mem_cons.mp h
      rw [List.foldl_cons, if_neg (by simp [hf])]
      exact ih acc hl
  exact hfold l new h

/-- A register without LK fields whose fields with reserved encodings are RW. -/
def RegInfo.plain (r : RegInfo) : Bool :=
  r.lk == 0 && r.resv.all (fun f => decide (f.2.1 ≤ f.1) && decide (f.1 < 32) && (maskBits f.1 f.2.1 &&& ~~~r.rw == 0))

/-- A word with no reserved encoding for such a register: RW bits take it, W1C bits written 1 clear, the rest stays. -/
theorem typedWrite_of_plain {r : RegInfo} (locked : Bool) (old : Word) {w : Word} (hr : r.plain = true)
    (hw : ∀ f ∈ r.resv, f.2.2 (wbits w f.1 f.2.1) = false) :
    typedWrite r locked old w = ((old &&& ~~~r.rw) ||| (w &&& r.rw)) &&& ~~~(w &&& r.w1c) := by
  simp only [RegInfo.plain, Bool.and_eq_true, beq_iff_eq, List.all_eq_true, decide_eq_true_eq] at hr
  obtain ⟨hlk, hresv⟩ := hr
  have hm : r.rw ||| (if locked then 0 else r.lk) = r.rw := by simp [hlk]
  simp only [typedWrite, hm]
  rw [keepReserved_of_sound]
  intro f hf
  have hf := List.mem_of_mem_filter hf
  obtain ⟨⟨hle, h32⟩, hmask⟩ := hresv f hf
  rw [wbits_merge _ _ _ hle h32 hmask]
  exact hw f hf

theorem and_ones (w : Word) : w &&& 0xFFFFFFFF#32 = w := BitVec.and_allOnes

/-- A locked register of LK and RO fields keeps its word (04 R170). -/
theorem typedWrite_locked {r : RegInfo} (old w : Word) (hrw : r.rw = 0) (hw1c : r.w1c = 0) : typedWrite r true old w = old := by
  simp [typedWrite, hrw, hw1c, keepReserved, and_ones]

/-- A register write by the types of its fields. -/
theorem State.typed_eq_wr {s : State} {a : Nat} {r : RegInfo} (hr : regInfo a = some r) (w : Word) :
    s.typed a w = s.wr a (typedWrite r s.locked (s.rd a) w) := by
  simp only [State.typed, hr]

theorem typed_only (s : State) (a : Nat) (w : Word) : Only (· = .reg (regHome a)) s (s.typed a w) := by
  unfold State.typed
  split
  · exact Only.refl _ s
  · exact wr_only s a _

/-! ### The host's access (18 R557 to R560) -/

/-- A write of a populated word outside COLD and BANKED is not refused. -/
theorem State.hostCause_of_populated {s : State} {a : Nat} (write : Bool) (h4 : a % 4 = 0) (hpop : populatedAt a = true)
    (hb : s.modes.mode ≠ .banked) : s.hostCause write a = none := by
  simp [State.hostCause, h4, hpop, hb]

/-- REGISTER_WRITE of a populated word outside COLD and BANKED. -/
theorem exec_registerWrite_up {s : State} {a : BitVec 24} (w : Word) (now : Nat) (hc : s.modes.mode ≠ .cold)
    (hb : s.modes.mode ≠ .banked) (h4 : a.toNat % 4 = 0) (hpop : populatedAt a.toNat = true) :
    exec (.registerWrite a w now) s = .next { (s.at now).regWrite .host a.toNat w with hrpRvalid := true } := by
  have hcause : (s.at now).hostCause true a.toNat = none := State.hostCause_of_populated true h4 hpop hb
  show execRegisterWrite a w now s = _
  simp only [execRegisterWrite, hostAccessAt, hostRowAt, occur_true, if_neg hc, State.hostAccess, State.hostWrite, hcause]

/-- A host access in COLD is held (18 R560). -/
theorem exec_registerWrite_cold {s : State} (a : BitVec 24) (w : Word) (now : Nat) (hc : s.modes.mode = .cold) :
    exec (.registerWrite a w now) s = .next (s.holdAccess [(a.toNat, some w)]) := by
  show execRegisterWrite a w now s = _
  simp only [execRegisterWrite, hostAccessAt, hostRowAt, occur_true, if_pos hc]

theorem holdAccess_only (s : State) (l : List (Nat × Option Word)) : Only (· = .held) s (s.holdAccess l) := by
  intro y hy; cases y <;> first | rfl | exact ⟨rfl, rfl⟩ | exact absurd rfl hy

/-! ### Global registers with no effect of their own -/

/-- A global register whose write by the host has an effect beyond the types of its fields. -/
def hasWriteEffect (a : Nat) : Bool :=
  mapRegs.contains a ||
  [aSMI_CTL, aSTATE1, aLOAD, aEVSET, aMBOX_CMD, aMODE, aMODE_REQ, aSHED, aADJ 0, aADJ 1, aRFM, aLOFT_CTL, aWDOG, aFORCE 0,
    aFORCE 1, aFORCE 2, aLINKINJ, aEVQ_CTL, aPUT_HDR, aPUT_LO, aPUT_HI, aKEYCTL, aTMP_CTL, aVREQ, aGNG_CTL, aTX_LO, aTX_HI,
    aAST_CTL].contains a ||
  decide (aHDR 0 ≤ a ∧ a ≤ aHDR 7) || decide (aMBOX_ARG 0 ≤ a ∧ a ≤ aMBOX_ARG 3) || decide (aSWD_EN 0 ≤ a ∧ a ≤ aSWD_EN 3)

/-- The host's write of any other global register follows the types of its fields alone. -/
theorem State.globalWrite_eq_typed (s : State) {a : Nat} (w : Word) (h : hasWriteEffect a = false) :
    s.globalWrite .host a w = s.typed a w := by
  simp only [hasWriteEffect, Bool.or_eq_false_iff, List.contains_cons, List.contains_nil, beq_eq_false_iff_ne,
    decide_eq_false_iff_not, Bool.or_false] at h
  obtain ⟨⟨⟨⟨hmap, hown⟩, hhdr⟩, harg⟩, hswd⟩ := h
  have hhost : (Agent.host == Agent.smith masterSmith) = false := rfl
  simp only [State.globalWrite, State.unitWrite, State.smiWrite, Agent.isMaster, hmap, hown, hhdr, harg, hswd, hhost,
    if_true, if_false, or_self, Bool.false_eq_true, ite_self]

/-- A register write below the port blocks that is no window. -/
theorem State.regWrite_global (s : State) (who : Agent) {a : Nat} (w : Word) (hwin : windowAt a = false) (h : a < 0x5000) :
    s.regWrite who a w = s.globalWrite who a w := by
  simp [State.regWrite, hwin, h]

/-- A stored global register that is its own home. -/
def globalReg (a : Nat) : Bool :=
  decide (a < 0x5000) && a % 4 == 0 && !windowAt a && (regInfo a).isSome && regHome a == a

theorem regHome_of_globalReg {a : Nat} (ha : globalReg a = true) : regHome a = a := by
  simp only [globalReg, Bool.and_eq_true, beq_iff_eq] at ha
  exact ha.2

theorem regInfo_of_globalReg {a : Nat} (ha : globalReg a = true) : ∃ r, regInfo a = some r := by
  simp only [globalReg, Bool.and_eq_true] at ha
  exact Option.isSome_iff_exists.mp ha.1.2

/-- REGISTER_WRITE of such a register outside COLD and BANKED is a global write. -/
theorem exec_registerWrite_global {s : State} {a : BitVec 24} (w : Word) (now : Nat) (hc : s.modes.mode ≠ .cold)
    (hb : s.modes.mode ≠ .banked) (ha : globalReg a.toNat = true) :
    exec (.registerWrite a w now) s = .next { (s.at now).globalWrite .host a.toNat w with hrpRvalid := true } := by
  simp only [globalReg, Bool.and_eq_true, decide_eq_true_eq, beq_iff_eq, Bool.not_eq_true'] at ha
  obtain ⟨⟨⟨⟨hlt, h4⟩, hwin⟩, hinfo⟩, -⟩ := ha
  rw [exec_registerWrite_up w now hc hb h4 (by rw [populatedAt, hinfo, Bool.or_true]), State.regWrite_global _ _ w hwin hlt]

/-- A sound word written to a register without LK fields. -/
theorem State.typed_plain_rd {s : State} {a : Nat} {r : RegInfo} {w : Word} (hr : regInfo a = some r) (hfields : r.plain = true)
    (hw : ∀ f ∈ r.resv, f.2.2 (wbits w f.1 f.2.1) = false) :
    (s.typed a w).rd a = ((s.rd a &&& ~~~r.rw) ||| (w &&& r.rw)) &&& ~~~(w &&& r.w1c) := by
  rw [State.typed_eq_wr hr, State.rd_wr, if_pos rfl, typedWrite_of_plain _ _ hfields hw]

/-! ### TNG_WDOG_NS (01 R32) -/

/-- A write of TNG_WDOG_NS by the types of its fields, and the limit that runs from then on. -/
theorem State.wdogWrite_tongs (s : State) (w : Word) : (s.wdogWrite w).tongs =
    { s.tongs with limitFrom := if s.tongs.bitten = none then s.timebase else s.tongs.limitFrom } := by
  have ht : (s.typed aWDOG w).tongs = s.tongs := typed_only s aWDOG w .tongs (by simp)
  have hu : (s.typed aWDOG w).timebase = s.timebase := (typed_only s aWDOG w .time (by simp)).1
  simp only [State.wdogWrite, ht, hu]
  split
  case isTrue hb => rw [if_neg (Option.isSome_iff_ne_none.mp hb), ht]
  case isFalse hb => rw [if_pos (by simpa using hb)]

theorem wdogWrite_typed_only (s : State) (w : Word) : Only (· = .tongs) (s.typed aWDOG w) (s.wdogWrite w) := by
  unfold State.wdogWrite
  dsimp only
  split
  · exact Only.refl _ _
  · exact tongs_only _ _

theorem wdogWrite_only (s : State) (w : Word) : Only (fun x => x = .reg aWDOG ∨ x = .tongs) s (s.wdogWrite w) :=
  ((typed_only s aWDOG w).mono (fun _ h => .inl h)).trans ((wdogWrite_typed_only s w).mono (fun _ h => .inr h))

/-- A limit below 1,000 ns is reserved: the register stays (R17). -/
theorem typed_wdog_reserved_only (s : State) {w : Word} (hw : w.toNat < 1000) : Only (fun _ => False) s (s.typed aWDOG w) := by
  have hbits : wbits w 31 0 < 1000 := by simpa [wbits, bits, Nat.mod_eq_of_lt w.isLt] using hw
  have htyped : s.typed aWDOG w = s.wr aWDOG (s.rd aWDOG) := by
    rw [State.typed_eq_wr (r := { rw := 0xFFFFFFFF, reset := 0x000186A0, resv := [(31, 0, fun v => v < 1000)] }) rfl]
    congr 1
    have hmask : (maskBits 31 0 != 0#32) = true := by decide
    simp [typedWrite, keepReserved, and_ones, hmask, hbits, putBits_whole]
  rw [htyped]
  exact wr_rd_only s aWDOG

/-! ### Mapping registers while LOCKED is 1 (04 R170) -/

/-- A locked mapping register keeps its word. -/
theorem typed_locked_only {s : State} {a : Nat} {r : RegInfo} (w : Word) (hr : regInfo a = some r) (hrw : r.rw = 0)
    (hw1c : r.w1c = 0) (hl : s.flag aCAP 31 = true) : Only (fun _ => False) s (s.typed a w) := by
  have hlocked : s.locked = true := hl
  rw [State.typed_eq_wr hr, hlocked, typedWrite_locked _ w hrw hw1c]
  exact wr_rd_only s a

theorem setFld_fld_only {s : State} {a hi lo v : Nat} (h : lo ≤ hi) (hv : v = s.fld a hi lo) :
    Only (fun _ => False) s (s.setFld a hi lo v) := by
  rw [State.setFld_eq_wr, hv, State.fld, putBits_wbits_self _ _ _ h]
  exact wr_rd_only s a

/-- Where nothing that can be read has changed, GLB_FURROW keeps its word too (04 R149). -/
theorem furrowGood_only {s u : State} (h : Only (fun _ => False) s u) : Only (fun _ => False) s (u.furrowGood s) := by
  have hrd : ∀ {t : State}, Only (fun _ => False) s t → t.rd aFURROW = s.rd aFURROW := fun ht => ht.rd not_false
  have hfirst := h.trans (setFld_fld_only (a := aFURROW) (hi := 12) (lo := 12) (v := wbits (s.rd aFURROW) 12 12) (Nat.le_refl _)
    (by rw [State.fld, hrd h]))
  unfold State.furrowGood State.putBack
  split
  · exact hfirst.trans (setFld_fld_only (by decide) (by rw [State.fld, hrd hfirst]))
  · exact h

theorem recap_only (s : State) : Only (· = .reg aCAP) s s.recap :=
  (setFlag_only s aCAP 30 _).trans (setFld_only _ aCAP 26 8 _)

/-- The capacity fields leave LOCKED. -/
theorem State.recap_locked (s : State) : s.recap.flag aCAP 31 = s.flag aCAP 31 := by
  simp [State.recap, State.flag_setFld, State.setFlag]

/-- A change of anvils alone. -/
def anvilParts (x : Part) : Prop := ∃ c, x = .anvil c

/-- What a write of a locked mapping register may touch: GLB_CAP's capacity fields and the anvils. -/
def lockedMapParts (x : Part) : Prop := x = .reg aCAP ∨ anvilParts x

theorem anvilParts_not_reg (a : Nat) : ¬ anvilParts (.reg a) := fun ⟨_, h⟩ => Part.noConfusion h

theorem lockedMapParts_reg {a : Nat} : lockedMapParts (.reg a) ↔ a = aCAP := by
  simp [lockedMapParts, anvilParts]

theorem regHome_aCHMAP_ne (j : Nat) : regHome (aCHMAP j) ≠ aCAP := by
  unfold regHome aCHMAP aCAP aAnv
  split <;> omega

/-- The channels that the map names do not depend on GLB_CAP or the anvils (R148, R151). -/
theorem State.named_congr {s t : State} (h : Only lockedMapParts s t) : t.named = s.named := by
  have hf : t.rd aFURROW = s.rd aFURROW := h.rd (by rw [lockedMapParts_reg]; decide)
  have hm : ∀ j, t.rd (aCHMAP j) = s.rd (aCHMAP j) := fun j => h.rd (by rw [lockedMapParts_reg]; exact regHome_aCHMAP_ne j)
  have hentry : t.mapEntry = s.mapEntry := funext fun j => by simp only [State.mapEntry, State.fld, hm]
  have hM : t.mapM = s.mapM := by unfold State.mapM State.flag; rw [hf]
  have hK : t.mapK = s.mapK := by simp only [State.mapK, State.fld, hf]
  simp only [State.named, State.nChan, hM, hK, hentry]

/-- A step of every channel that changes anvils alone. -/
theorem foldl_chans_only {f : State → Chan → State} (hf : ∀ u c, Only anvilParts u (f u c)) (l : List Chan) (s : State) :
    Only anvilParts s (l.foldl f s) :=
  foldl_keeps (P := Only anvilParts s) (fun u c hu => hu.trans (hf u c)) l (Only.refl _ s)

theorem anvilRequest_only (s : State) (c : Chan) : Only anvilParts s (s.anvilRequest c) :=
  (onAnvil_only s c _).mono (fun _ h => ⟨c, h⟩)

theorem clearNew_only (s : State) (c : Chan) (before : List (Fin 2)) : Only anvilParts s (s.clearNew c before) := by
  unfold State.clearNew
  exact foldl_keeps (P := Only anvilParts s) (fun u _ hu => hu.trans ((onAnvil_only u c _).mono (fun _ h => ⟨c, h⟩))) _
    (Only.refl _ s)

/-- A write of a locked mapping register moves no channel out of the map, so that only the capacity fields and the anvils'
requests follow it, and LOCKED stays (04 R151, R162, R170). -/
theorem mapWrite_locked {s : State} {a : Nat} {r : RegInfo} (w : Word) (hr : regInfo a = some r) (hrw : r.rw = 0)
    (hw1c : r.w1c = 0) (hl : s.flag aCAP 31 = true) :
    Only lockedMapParts s (s.mapWrite a w) ∧ (s.mapWrite a w).flag aCAP 31 = true := by
  have hkept := furrowGood_only (typed_locked_only w hr hrw hw1c hl)
  have hfold := foldl_chans_only anvilRequest_only allChans ((s.typed a w).furrowGood s).recap
  generalize hu : allChans.foldl (fun s c => s.anvilRequest c) ((s.typed a w).furrowGood s).recap = u at hfold
  have honly : Only lockedMapParts s u :=
    ((hkept.mono (fun _ h => h.elim)).trans ((recap_only _).mono (fun _ h => .inl h))).trans (hfold.mono (fun _ h => .inr h))
  have hstay : allChans.filter (fun c => s.named.contains c.val && !u.populated c.val) = [] := by
    simp [State.populated, State.named_congr honly]
  have hnew := foldl_chans_only (fun (u : State) c => clearNew_only u c (Vector.ofFn (fun c : Chan => s.liveRanks c))[c])
    allChans u
  have hmap : s.mapWrite a w =
      allChans.foldl (fun u c => u.clearNew c (Vector.ofFn (fun c : Chan => s.liveRanks c))[c]) u := by
    simp only [State.mapWrite, hu, hstay, List.foldl_nil]
  rw [hmap]
  refine ⟨honly.trans (hnew.mono (fun _ h => .inr h)), ?_⟩
  simp only [State.flag, (hfold.trans hnew).rd (anvilParts_not_reg _)]
  exact (State.recap_locked _).trans ((congrArg (wbit · 31) (hkept.rd not_false)).trans hl)

/-- The host's write of a mapping register of the globals. -/
theorem State.globalWrite_map (s : State) {a : Nat} (w : Word) (h : mapRegs.contains a = true) :
    s.globalWrite .host a w = s.mapWrite a w := by
  have hne : a = aGANG ∨ a = aFURROW ∨ a = aCAP ∨ a = aCHMAP 0 ∨ a = aCHMAP 1 ∨ a = aCHMAP 2 ∨ a = aCHMAP 3 := by
    simpa [mapRegs] using h
  rcases hne with rfl | rfl | rfl | rfl | rfl | rfl | rfl <;> rfl

/-! ### The adjacency map (06 R235) -/

/-- Entry `i` of an adjacency map held in two words. -/
def adjEntry (a0 a1 : Word) (i : Nat) : Nat := wbits (if i < 8 then a0 else a1) (4 * (i % 8) + 3) (4 * (i % 8))

/-- A map is good where no two numbers n xor ADJn coincide. -/
theorem adjGood_iff (a0 a1 : Word) :
    adjGood a0 a1 = true ↔ ∀ i < 16, ∀ j < 16, i ^^^ adjEntry a0 a1 i = j ^^^ adjEntry a0 a1 j → i = j := by
  have hlen : adjGood a0 a1 = true ↔
      (((List.range 16).map (fun n => n ^^^ adjEntry a0 a1 n)).dedup.length =
        ((List.range 16).map (fun n => n ^^^ adjEntry a0 a1 n)).length) := by
    simp [adjGood, adjEntry]
  rw [hlen, (List.dedup_sublist _).length_eq, List.dedup_eq_self, List.nodup_map_iff_inj_on List.nodup_range]
  simp only [List.mem_range]

/-- Entry `i` of GLB_ADJ0 and GLB_ADJ1 as a field of its register. -/
theorem State.fld_adj (s : State) {i : Nat} (h : i < 16) :
    s.fld (aADJ (i / 8)) (4 * (i % 8) + 3) (4 * (i % 8)) = adjEntry (s.rd (aADJ 0)) (s.rd (aADJ 1)) i := by
  by_cases h8 : i < 8
  · have h0 : i / 8 = 0 := by omega
    rw [adjEntry, if_pos h8, h0, State.fld]
  · have h1 : i / 8 = 1 := by omega
    rw [adjEntry, if_neg h8, h1, State.fld]

/-- The map that GLB_ADJ0 and GLB_ADJ1 hold is good where no two numbers n xor ADJn coincide. -/
theorem State.adjGood_iff_fld (s : State) : adjGood (s.rd (aADJ 0)) (s.rd (aADJ 1)) = true ↔
    ∀ i < 16, ∀ j < 16, i ^^^ s.fld (aADJ (i / 8)) (4 * (i % 8) + 3) (4 * (i % 8)) =
      j ^^^ s.fld (aADJ (j / 8)) (4 * (j % 8) + 3) (4 * (j % 8)) → i = j := by
  rw [adjGood_iff]
  refine forall₂_congr fun i hi => forall₂_congr fun j hj => ?_
  rw [s.fld_adj hi, s.fld_adj hj]

/-- ADJACENCY_MAP_WRITE outside COLD and BANKED. -/
theorem exec_adjacencyMapWrite_up {s : State} (k : Fin 2) (w : Word) (hc : s.modes.mode ≠ .cold) (hb : s.modes.mode ≠ .banked) :
    exec (.adjacencyMapWrite k w) s = .next { s.adjWrite (aADJ k.val) w with hrpRvalid := true } := by
  have hcause : s.hostCause true (aADJ k.val) = none := by
    refine State.hostCause_of_populated true ?_ ?_ hb <;> fin_cases k <;> decide
  have hwrite : s.regWrite .host (aADJ k.val) w = s.adjWrite (aADJ k.val) w := by fin_cases k <;> rfl
  show execAdjacencyMapWrite k w s = _
  simp only [execAdjacencyMapWrite, hostWriteRow, hostAccessRow, hostRow, occur_true, if_neg hc, State.hostAccess,
    State.hostWrite, hcause, hwrite]

/-- What a write of GLB_ADJk leaves: the word, and ADJBAD by the map that then stands. -/
theorem State.adjWrite_spec (s : State) (k : Fin 2) (w : Word) :
    let t := s.adjWrite (aADJ k.val) w
    t.rd (aADJ k.val) = w ∧ t.flag aRFM 31 = !adjGood (t.rd (aADJ 0)) (t.rd (aADJ 1)) ∧ t.fld aRFM 30 0 = s.fld aRFM 30 0 ∧
      Only (fun x => x = .reg (aADJ k.val) ∨ x = .reg aRFM) s t := by
  have hinfo : regInfo (aADJ k.val) = some { rw := 0xFFFFFFFF } := by fin_cases k <;> rfl
  have hhome : regHome (aADJ k.val) = aADJ k.val := by fin_cases k <;> rfl
  have hne : ∀ j : Fin 2, regHome (aADJ j.val) ≠ regHome aRFM := by decide
  have htyped : s.typed (aADJ k.val) w = s.wr (aADJ k.val) w := by
    rw [State.typed_eq_wr hinfo, typedWrite_of_plain _ _ rfl (by simp)]
    simp [and_ones]
  have hrd : ∀ j : Fin 2, (s.adjWrite (aADJ k.val) w).rd (aADJ j.val) = (s.wr (aADJ k.val) w).rd (aADJ j.val) := fun j => by
    rw [State.adjWrite, htyped, State.setFlag_eq_wr, State.rd_wr, if_neg (hne j)]
  refine ⟨?_, ?_, ?_, ?_⟩
  · rw [hrd k, State.rd_wr, if_pos rfl]
  · rw [show aADJ 0 = aADJ (0 : Fin 2).val from rfl, show aADJ 1 = aADJ (1 : Fin 2).val from rfl, hrd 0, hrd 1, State.adjWrite,
      State.flag_setFlag _ _ _ _ (by decide), htyped]
    rfl
  · rw [State.adjWrite, htyped, State.setFlag, State.fld_setFld_of_ne _ _ _ _ _ _ _ _ (by decide) (by decide) (by decide)
      (.inr (.inl (by decide)))]
    simp only [State.fld, State.rd_wr, if_neg (hne k).symm]
  · rw [State.adjWrite, htyped]
    exact ((wr_only s (aADJ k.val) w).mono (fun _ h => .inl (hhome ▸ h))).trans
      ((setFlag_only _ aRFM 31 _).mono (fun _ h => .inr h))

/-! ### The host's writes of the statement on field types -/

theorem HostOnly.mono {P Q : Part → Prop} {s t : State} (h : HostOnly P s t) (hpq : ∀ x, P x → Q x) : HostOnly Q s t :=
  ⟨h.1, h.2.mono (fun x hx => hx.imp_left (hpq x))⟩

/-- A sound word written by the host to a global register with no effect of its own. -/
theorem registerWrite_plain {s : State} {a : BitVec 24} {w : Word} {r : RegInfo} (now : Nat) (hc : s.modes.mode ≠ .cold)
    (hb : s.modes.mode ≠ .banked) (ha : globalReg a.toNat = true) (hplain : hasWriteEffect a.toNat = false)
    (hr : regInfo a.toNat = some r) (hfields : r.plain = true) (hw : ∀ f ∈ r.resv, f.2.2 (wbits w f.1 f.2.1) = false) :
    ∃ t, exec (.registerWrite a w now) s = .next t ∧
      t.rd a.toNat = ((s.rd a.toNat &&& ~~~r.rw) ||| (w &&& r.rw)) &&& ~~~(w &&& r.w1c) ∧
      HostOnly (fun e => e = .reg a.toNat ∨ e = .time) s t := by
  refine ⟨_, exec_registerWrite_global w now hc hb ha, ?_⟩
  rw [State.globalWrite_eq_typed _ w hplain]
  have honly := typed_only (s.at now) a.toNat w
  rw [regHome_of_globalReg ha] at honly
  exact ⟨State.typed_plain_rd (s := s.at now) hr hfields hw,
    (((at_only s now).mono (fun _ h => .inr h)).trans (honly.mono (fun _ h => .inl h))).hostOnly⟩

/-- A write of TNG_WDOG_NS by the host. -/
theorem exec_registerWrite_wdog {s : State} {a : BitVec 24} (w : Word) (now : Nat) (hc : s.modes.mode ≠ .cold)
    (hb : s.modes.mode ≠ .banked) (ha : a.toNat = aWDOG) :
    exec (.registerWrite a w now) s = .next { (s.at now).wdogWrite w with hrpRvalid := true } := by
  rw [exec_registerWrite_global w now hc hb (by rw [ha]; decide +kernel), ha]
  rfl

/-- A sound limit written to TNG_WDOG_NS, which runs from then on. -/
theorem registerWrite_wdog_sound {s : State} {a : BitVec 24} {w : Word} {r : RegInfo} (now : Nat) (hc : s.modes.mode ≠ .cold)
    (hb : s.modes.mode ≠ .banked) (ha : a.toNat = aWDOG) (hr : regInfo aWDOG = some r) (hfields : r.plain = true)
    (hw : ∀ f ∈ r.resv, f.2.2 (wbits w f.1 f.2.1) = false) :
    ∃ t, exec (.registerWrite a w now) s = .next t ∧
      t.rd aWDOG = ((s.rd aWDOG &&& ~~~r.rw) ||| (w &&& r.rw)) &&& ~~~(w &&& r.w1c) ∧
      t.tongs = { s.tongs with limitFrom := if s.tongs.bitten = none then s.timeAt now else s.tongs.limitFrom } ∧
      HostOnly (fun e => e = .reg aWDOG ∨ e = .time ∨ e = .tongs) s t := by
  have hrd := ((wdogWrite_typed_only (s.at now) w).rd (a := aWDOG) (by simp)).trans (State.typed_plain_rd hr hfields hw)
  have honly := ((at_only s now).mono (Q := fun e => e = .reg aWDOG ∨ e = .time ∨ e = .tongs) (fun _ h => .inr (.inl h))).trans
    ((wdogWrite_only (s.at now) w).mono (fun _ h => h.imp_right .inr))
  exact ⟨_, exec_registerWrite_wdog w now hc hb ha, hrd, State.wdogWrite_tongs (s.at now) w, honly.hostOnly⟩

/-- A reserved limit written to TNG_WDOG_NS: the register stays, though its limit runs from then on. -/
theorem registerWrite_wdog_reserved {s : State} {a : BitVec 24} {w : Word} (now : Nat) (hc : s.modes.mode ≠ .cold)
    (hb : s.modes.mode ≠ .banked) (ha : a.toNat = aWDOG) (hw : w.toNat < 1000) :
    ∃ t, exec (.registerWrite a w now) s = .next t ∧ t.rd aWDOG = s.rd aWDOG ∧
      t.tongs = { s.tongs with limitFrom := if s.tongs.bitten = none then s.timeAt now else s.tongs.limitFrom } ∧
      HostOnly (fun e => e = .time ∨ e = .tongs) s t := by
  have honly := ((at_only s now).mono (Q := fun e => e = .time ∨ e = .tongs) (fun _ h => .inl h)).trans
    (((typed_wdog_reserved_only (s.at now) hw).mono (fun _ h => h.elim)).trans
      ((wdogWrite_typed_only (s.at now) w).mono (fun _ h => .inr h)))
  exact ⟨_, exec_registerWrite_wdog w now hc hb ha, honly.rd (by simp), State.wdogWrite_tongs (s.at now) w, honly.hostOnly⟩

/-- The mapping registers that LOCKED holds, GLB_CAP apart, have no RW and no W1C fields. -/
theorem lockedRegs_info : ∀ a ∈ [aGANG, aFURROW, aCHMAP 0, aCHMAP 1, aCHMAP 2, aCHMAP 3], globalReg a = true ∧
    mapRegs.contains a = true ∧ a ≠ aCAP ∧ (regInfo a).all (fun r => r.rw == 0 && r.w1c == 0) = true := by
  decide +kernel

/-- A write of such a register while LOCKED is 1 (04 R170). -/
theorem registerWrite_locked {s : State} {a : BitVec 24} (w : Word) (now : Nat) (hc : s.modes.mode ≠ .cold)
    (hb : s.modes.mode ≠ .banked) (ha : a.toNat ∈ [aGANG, aFURROW, aCHMAP 0, aCHMAP 1, aCHMAP 2, aCHMAP 3])
    (hl : s.flag aCAP 31 = true) :
    ∃ t, exec (.registerWrite a w now) s = .next t ∧ t.rd a.toNat = s.rd a.toNat ∧ t.flag aCAP 31 = true ∧
      t.slices = s.slices := by
  obtain ⟨hglobal, hmap, hcap, hinfo⟩ := lockedRegs_info _ ha
  obtain ⟨r, hr⟩ := regInfo_of_globalReg hglobal
  obtain ⟨hrw, hw1c⟩ : r.rw = 0 ∧ r.w1c = 0 := by simpa [hr] using hinfo
  obtain ⟨honly, hlock⟩ := mapWrite_locked (s := s.at now) w hr hrw hw1c hl
  refine ⟨_, exec_registerWrite_global w now hc hb hglobal, ?_⟩
  rw [State.globalWrite_map _ w hmap]
  generalize (s.at now).mapWrite a.toNat w = u at honly hlock ⊢
  refine ⟨honly.rd ?_, hlock, honly.slices (fun c => by simp [lockedMapParts, anvilParts])⟩
  rwa [lockedMapParts_reg, regHome_of_globalReg hglobal]

/-- A write of a word of the Master Smith's data memory (02 R67). -/
theorem registerWrite_dmem {s : State} {a : BitVec 24} (w : Word) (now : Nat) (hc : s.modes.mode ≠ .cold)
    (hb : s.modes.mode ≠ .banked) (hlo : 0x108000 ≤ a.toNat) (hhi : a.toNat < 0x10C000) (h4 : a.toNat % 4 = 0) :
    exec (.registerWrite a w now) s = .next { (s.at now).onSmith masterSmith
      (fun h => { h with dmem := h.dmem.set ((a.toNat - 0x108000) / 4) w }) with hrpRvalid := true } := by
  have hwin : windowAt a.toNat = true := by
    simp only [windowAt, Bool.or_eq_true, decide_eq_true_eq]
    omega
  have hwrite : (s.at now).regWrite .host a.toNat w = (s.at now).onSmith masterSmith
      (fun h => { h with dmem := h.dmem.set ((a.toNat - 0x108000) / 4) w }) := by
    rw [State.regWrite, if_pos hwin, State.windowWrite, if_neg (by omega), if_neg (by omega), if_pos hhi]
  rw [exec_registerWrite_up w now hc hb h4 (by rw [populatedAt, hwin, Bool.true_or]), hwrite]

/-- Settles O47: `registerWrite_plain` and `registerWrite_wdog_sound` for the registers named, `registerWrite_wdog_reserved`,
`registerWrite_locked`, `registerWrite_dmem`, and `State.adjWrite_spec` for the adjacency map. -/
theorem registerWritesFollowTheirFieldTypes : Obligations.RegisterWritesFollowTheirFieldTypes := by
  unfold Obligations.RegisterWritesFollowTheirFieldTypes
  intro s a w now r k n host plain limited adj
  refine ⟨?_, ?_, ?_, ?_, ?_, ?_⟩
  · intro ⟨hc, hb⟩ hn hr hw
    have hplain : ∀ a ∈ plain, globalReg a = true ∧ (regInfo a).all RegInfo.plain = true ∧
        (a = aWDOG ∨ hasWriteEffect a = false) := by
      unfold plain
      decide +kernel
    obtain ⟨hglobal, hfields, hwdog | hnone⟩ := hplain n hn
    · rw [hr, Option.all_some] at hfields
      obtain ⟨t, hexec, hrd, htongs, honly⟩ := registerWrite_wdog_sound now hc hb hwdog (hwdog ▸ hr) hfields hw
      exact ⟨t, hexec, hwdog ▸ hrd, fun _ => htongs, honly.mono (fun x hx =>
        hx.imp (fun h => h.trans (congrArg Part.reg hwdog.symm)) (fun h => h.imp_right (fun h => ⟨hwdog, h⟩)))⟩
    · rw [hr, Option.all_some] at hfields
      obtain ⟨t, hexec, hrd, honly⟩ := registerWrite_plain now hc hb hglobal hnone hr hfields hw
      refine ⟨t, hexec, hrd, fun hwdog => ?_, honly.mono (fun x hx => hx.imp_right .inl)⟩
      rw [hwdog] at hnone
      exact absurd hnone (by decide)
  · intro ⟨hc, hb⟩ hwdog hw
    obtain ⟨t, hexec, hrd, htongs, honly⟩ := registerWrite_wdog_reserved now hc hb hwdog hw
    exact ⟨t, hexec, hrd, fun _ => htongs, honly⟩
  · intro ⟨hc, hb⟩ hn hl
    exact registerWrite_locked w now hc hb hn hl
  · intro ⟨hc, hb⟩ hlo hhi h4
    refine ⟨_, registerWrite_dmem w now hc hb hlo hhi h4, fun i => ?_, ?_, ?_⟩
    · simp [n]
    · simp
    · exact (((at_only s now).mono (fun _ h => .inr h)).trans ((onSmith_only _ masterSmith _).mono (fun _ h => .inl h))).hostOnly
  · intro hc
    exact ⟨_, exec_registerWrite_cold a w now hc, rfl, holdAccess_only _ _⟩
  · intro ⟨hc, hb⟩
    obtain ⟨hrd, hflag, hfld, honly⟩ := State.adjWrite_spec s k w
    refine ⟨_, exec_adjacencyMapWrite_up k w hc hb, hrd, ?_, hfld, honly.hostOnly⟩
    refine Iff.trans ?_ (State.adjGood_iff_fld (s.adjWrite (aADJ k.val) w))
    rw [show ({ s.adjWrite (aADJ k.val) w with hrpRvalid := true } : State).flag aRFM 31 = _ from hflag, Bool.not_eq_false']

end Sys2Proof.Machine
end

section
/-! SUPPORT. Frames of one change after another. -/

namespace Sys2Proof.Machine

/-- One change after another touches what either touches. -/
theorem Only.seq {P Q : Part → Prop} {s t u : State} (h : Only P s t) (h' : Only Q t u) : Only (fun x => P x ∨ Q x) s u :=
  (h.mono (fun _ hx => .inl hx)).trans (h'.mono (fun _ hx => .inr hx))

end Sys2Proof.Machine
end

section
/-! SUPPORT. The arithmetic instructions of a Smith (02 Table 2.8). -/

namespace Sys2Proof.Machine

/-! ### Rows -/

/-- A three-register instruction that is ready writes its result and goes on. -/
theorem regRegRow_finished {op : Nat} {s : State} {m : SmithId} {d a b : RegNo} {v : Word} {i : Instr}
    (f : Word → Word → Word) (hi : exec i s = regRegRow op m d a b f s) (hv : f (s.g m a) (s.g m b) = v) (h : s.ready m { op := op, d := some d, a := some a, b := some b } = true)
    (hgo : GoesOn s m (s.smiths[m].pc.toNat + 1)) :
    ∃ t, exec i s = .next t ∧ Finished s t m d v (s.smiths[m].pc.toNat + 1) := by
  refine ⟨_, hi, ?_⟩
  rw [h, occur_true, hv]
  exact finished_setDone hgo d v

/-- A register and immediate instruction that is ready writes its result and goes on. -/
theorem regImmRow_finished {op : Nat} {s : State} {m : SmithId} {d a : RegNo} {imm : BitVec 14} {v : Word} {i : Instr}
    (f : Word → Word) (hi : exec i s = regImmRow op m d a imm f s) (hv : f (s.g m a) = v) (h : s.ready m { op := op, d := some d, a := some a, imm := some imm } = true)
    (hgo : GoesOn s m (s.smiths[m].pc.toNat + 1)) :
    ∃ t, exec i s = .next t ∧ Finished s t m d v (s.smiths[m].pc.toNat + 1) := by
  refine ⟨_, hi, ?_⟩
  rw [h, occur_true, hv]
  exact finished_setDone hgo d v

/-! ### Operand forms and results as numbers -/

theorem simm_eq_ofInt (imm : BitVec 14) : simm imm = BitVec.ofInt 32 imm.toInt := rfl

theorem uimmW_toNat (imm : BitVec 14) : (uimmW imm).toNat = imm.toNat := by
  simp only [uimmW, BitVec.toNat_setWidth]
  omega

/-- Bits `[hi:0]` of a word as a remainder. -/
theorem wbits_zero (w : Word) (hi : Nat) : wbits w hi 0 = w.toNat % 2 ^ (hi + 1) := by
  simp [wbits, bits]

theorem shamt_eq (w : Word) : shamt w = w.toNat % 32 := wbits_zero w 4

theorem shamt_uimmW (imm : BitVec 14) : shamt (uimmW imm) = imm.toNat % 32 := by
  rw [shamt_eq, uimmW_toNat]

theorem add_eq_ofNat (x y : Word) : x + y = BitVec.ofNat 32 (x.toNat + y.toNat) := BitVec.eq_of_toNat_eq (by simp)

theorem sub_eq_ofInt (x y : Word) : x - y = BitVec.ofInt 32 ((x.toNat : Int) - y.toNat) := by
  apply BitVec.eq_of_toInt_eq
  rw [BitVec.toInt_sub, BitVec.toInt_ofInt, BitVec.toInt_eq_toNat_bmod, BitVec.toInt_eq_toNat_bmod]
  simp

theorem shiftLeft_eq_ofNat {x : Word} {n k : Nat} (h : n = k) : x <<< n = BitVec.ofNat 32 (x.toNat * 2 ^ k) := by
  subst h
  apply BitVec.eq_of_toNat_eq
  simp [Nat.shiftLeft_eq]

theorem ushiftRight_eq_ofNat {x : Word} {n k : Nat} (h : n = k) : x >>> n = BitVec.ofNat 32 (x.toNat / 2 ^ k) := by
  subst h
  apply BitVec.eq_of_toNat_eq
  rw [BitVec.toNat_ushiftRight, Nat.shiftRight_eq_div_pow, BitVec.toNat_ofNat,
    Nat.mod_eq_of_lt ((Nat.div_le_self _ _).trans_lt x.isLt)]

theorem sshiftRight_eq_ofInt {x : Word} {n k : Nat} (h : n = k) : x.sshiftRight n = BitVec.ofInt 32 (x.toInt / 2 ^ k) := by
  subst h
  rw [BitVec.sshiftRight, Int.shiftRight_eq_div_pow]
  norm_num

theorem flagWord_eq_ite {p : Prop} [Decidable p] {b : Bool} (h : b = decide p) : flagWord b = if p then 1 else 0 := by
  simp [flagWord, h]

theorem and_uimmW (x : Word) (imm : BitVec 14) : x &&& uimmW imm = BitVec.ofNat 32 (x.toNat &&& imm.toNat) := by
  rw [← uimmW_toNat imm, BitVec.ofNat_and, BitVec.ofNat_toNat, BitVec.ofNat_toNat, BitVec.setWidth_eq, BitVec.setWidth_eq]

theorem or_uimmW (x : Word) (imm : BitVec 14) : x ||| uimmW imm = BitVec.ofNat 32 (x.toNat ||| imm.toNat) := by
  rw [← uimmW_toNat imm, BitVec.ofNat_or, BitVec.ofNat_toNat, BitVec.ofNat_toNat, BitVec.setWidth_eq, BitVec.setWidth_eq]

theorem xor_uimmW (x : Word) (imm : BitVec 14) : x ^^^ uimmW imm = BitVec.ofNat 32 (x.toNat ^^^ imm.toNat) := by
  rw [← uimmW_toNat imm, BitVec.ofNat_xor, BitVec.ofNat_toNat, BitVec.ofNat_toNat, BitVec.setWidth_eq, BitVec.setWidth_eq]

theorem lui_eq_ofNat (i : BitVec 18) : (i.setWidth 32 <<< 14 : Word) = BitVec.ofNat 32 (i.toNat * 2 ^ 14) := by
  have hi : (i.setWidth 32 : Word).toNat = i.toNat := by
    rw [BitVec.toNat_setWidth]
    omega
  rw [shiftLeft_eq_ofNat rfl, hi]

/-- Settles O1: each row is `regRegRow_finished` or `regImmRow_finished`, with its result of Table 2.8 as a number. -/
theorem smithArithmeticWritesResultOfTable28 : Obligations.SmithArithmeticWritesResultOfTable28 := by
  unfold Obligations.SmithArithmeticWritesResultOfTable28
  intro s m d a b imm i18 x y n simmV next rrr rri
  refine ⟨?add, ?sub, ?and, ?or, ?xor, ?shl, ?shr, ?sra, ?mul, ?slt, ?sltu, ?addi, ?andi, ?ori, ?xori, ?shli, ?shri, ?lui⟩
  case add => exact regRegRow_finished (· + ·) rfl (add_eq_ofNat x y)
  case sub => exact regRegRow_finished (· - ·) rfl (sub_eq_ofInt x y)
  case and => exact regRegRow_finished (· &&& ·) rfl rfl
  case or => exact regRegRow_finished (· ||| ·) rfl rfl
  case xor => exact regRegRow_finished (· ^^^ ·) rfl rfl
  case shl => exact regRegRow_finished (fun x y => x <<< shamt y) rfl (shiftLeft_eq_ofNat (shamt_eq y))
  case shr => exact regRegRow_finished (fun x y => x >>> shamt y) rfl (ushiftRight_eq_ofNat (shamt_eq y))
  case sra => exact regRegRow_finished (fun x y => x.sshiftRight (shamt y)) rfl (sshiftRight_eq_ofInt (shamt_eq y))
  case mul => exact regRegRow_finished (fun x y => BitVec.ofNat 32 (wbits x 15 0 * wbits y 15 0)) rfl (by simp only [wbits_zero, x, y])
  case slt => exact regRegRow_finished (fun x y => flagWord (x.slt y)) rfl (flagWord_eq_ite BitVec.slt_eq_decide)
  case sltu => exact regRegRow_finished (fun x y => flagWord (x.ult y)) rfl (flagWord_eq_ite BitVec.ult_eq_decide)
  case addi => exact regImmRow_finished (· + simm imm) rfl rfl
  case andi => exact regImmRow_finished (· &&& uimmW imm) rfl (and_uimmW x imm)
  case ori => exact regImmRow_finished (· ||| uimmW imm) rfl (or_uimmW x imm)
  case xori => exact regImmRow_finished (· ^^^ uimmW imm) rfl (xor_uimmW x imm)
  case shli => exact regImmRow_finished (· <<< shamt (uimmW imm)) rfl (shiftLeft_eq_ofNat (shamt_uimmW imm))
  case shri => exact regImmRow_finished (· >>> shamt (uimmW imm)) rfl (ushiftRight_eq_ofNat (shamt_uimmW imm))
  case lui =>
    intro h hgo
    refine ⟨_, rfl, ?_⟩
    rw [h, occur_true, lui_eq_ofNat]
    exact finished_setDone hgo d _

end Sys2Proof.Machine
end

section
/-! SUPPORT. The branches, jumps and HALT of a Smith, and its data memory (02 Table 2.8, R61, R67). -/

namespace Sys2Proof.Machine

/-! ### Targets -/

/-- The sum of a number and a signed immediate modulo 2^32. -/
theorem ofNat_add_simm_toNat (n : Nat) (imm : BitVec 14) :
    (BitVec.ofNat 32 n + simm imm).toNat = (((n : Int) + imm.toInt) % 2 ^ 32).toNat := by
  rw [simm_eq_ofInt, ← BitVec.ofInt_natCast, ← BitVec.ofInt_add, BitVec.toNat_ofInt]
  rfl

/-- The return index of JAL (R47). -/
theorem wrapPc_setWidth (m : SmithId) (n : Nat) : (wrapPc m n).setWidth 32 = BitVec.ofNat 32 (n % imemWords m) := by
  have hlt : n % imemWords m < 2 ^ 13 := by
    unfold imemWords
    split <;> omega
  apply BitVec.eq_of_toNat_eq
  simp only [wrapPc, BitVec.toNat_setWidth, BitVec.toNat_ofNat]
  omega

/-! ### Changes of a Smith -/

/-- A Smith after a change of it. -/
@[simp] theorem State.onSmith_get (s : State) (m : SmithId) (f : Smith → Smith) : (s.onSmith m f).smiths[m] = f s.smiths[m] := by
  simp

/-- Two changes of one Smith are one. -/
theorem State.onSmith_onSmith (s : State) (m : SmithId) (f g : Smith → Smith) :
    (s.onSmith m f).onSmith m g = s.onSmith m (fun h => g (f h)) := by
  simp [State.onSmith, upd]

/-- Going on depends on nothing that a change of the Smith changes, where the change lets no stop in. -/
theorem GoesOn.onSmith {s : State} {m : SmithId} {pc : Nat} (h : GoesOn s m pc) {f : Smith → Smith}
    (hf : (f s.smiths[m]).stopReq = s.smiths[m].stopReq) : GoesOn (s.onSmith m f) m pc := by
  obtain ⟨hstop, hpc, hop⟩ := h
  refine ⟨?_, by rwa [State.image_onSmith], by rwa [State.image_onSmith]⟩
  rw [State.onSmith_get, hf, hstop]

/-- An instruction that has changed its Smith and completes goes on at pc + 1 (R66). -/
theorem State.smithDone_onSmith {s : State} {m : SmithId} (hgo : GoesOn s m (s.smiths[m].pc.toNat + 1)) {f : Smith → Smith}
    (hstop : (f s.smiths[m]).stopReq = s.smiths[m].stopReq) (hpc : (f s.smiths[m]).pc = s.smiths[m].pc) :
    (s.onSmith m f).smithDone m =
      s.onSmith m (fun h => { f h with run := .running, wait := none, pc := wrapPc m (s.smiths[m].pc.toNat + 1) }) := by
  rw [State.smithDone, State.onSmith_get, hpc, State.smithGo_goesOn (hgo.onSmith hstop), State.onSmith_onSmith]

/-! ### Rows -/

/-- What a conditional branch that is ready does: it goes on at its target where its condition holds, and at pc + 1 where
not (R66). -/
theorem branchRow_finished {op : Nat} {s : State} {m : SmithId} {a b : RegNo} {imm : BitVec 14} {i : Instr} {taken : Prop}
    {away : Nat} (haway : s.branchTo m imm = away) (c : Word → Word → Bool) (hi : exec i s = branchRow op m a b imm c s) (hc : c (s.g m a) (s.g m b) = true ↔ taken)
    (h : s.ready m { op := op, a := some a, b := some b, imm := some imm } = true) :
    (taken → GoesOn s m away → ∃ t, exec i s = .next t ∧ Finished s t m 0 0 away) ∧
    (¬ taken → GoesOn s m (s.smiths[m].pc.toNat + 1) →
      ∃ t, exec i s = .next t ∧ Finished s t m 0 0 (s.smiths[m].pc.toNat + 1)) := by
  subst haway
  have hrow : exec i s = .next (if c (s.g m a) (s.g m b) then s.smithGo m (s.branchTo m imm) else s.smithDone m) := by
    rw [hi, branchRow, h, occur_true]
  constructor
  · intro ht hgo
    rw [if_pos (hc.mpr ht)] at hrow
    exact ⟨_, hrow, finished_go hgo⟩
  · intro ht hgo
    rw [if_neg (fun e => ht (hc.mp e))] at hrow
    exact ⟨_, hrow, finished_go hgo⟩

/-- HALT with no stop waiting makes the Smith IDLE at pc + 1 (R61). -/
theorem State.smithIdle_of_noStop {s : State} {m : SmithId} (h : s.smiths[m].stopReq = false) :
    s.smithIdle m = s.onSmith m (fun x => { x with run := .idle, pc := wrapPc m (x.pc.toNat + 1) }) := by
  have hstop : (s.onSmith m (fun x => { x with run := .idle, pc := wrapPc m (x.pc.toNat + 1) })).smiths[m].stopReq = false := by
    simpa using h
  unfold State.smithIdle
  simp only [hstop]
  rfl

/-- Settles O2: each branch is `branchRow_finished`, whose target is `ofNat_add_simm_toNat`; JAL and JR go on by
`finished_setG` and `finished_go`, HALT is `State.smithIdle_of_noStop`. -/
theorem smithBranchesAndJumpsSetPc : Obligations.SmithBranchesAndJumpsSetPc := by
  unfold Obligations.SmithBranchesAndJumpsSetPc
  intro s m d a b imm x y next away branch
  have haway : s.branchTo m imm = away := ofNat_add_simm_toNat _ imm
  refine ⟨?beq, ?bne, ?blt, ?bge, ?jal, ?jr, ?halt⟩
  case beq => exact branchRow_finished haway (· == ·) rfl beq_iff_eq
  case bne => exact branchRow_finished haway (· != ·) rfl bne_iff_ne
  case blt => exact branchRow_finished haway (fun x y => x.slt y) rfl BitVec.slt_iff_toInt_lt
  case bge => exact branchRow_finished haway (fun x y => !x.slt y) rfl (by simp [BitVec.slt_eq_decide, x, y])
  case jal =>
    intro h hgo
    refine ⟨_, rfl, ?_⟩
    rw [h, occur_true, wrapPc_setWidth, haway]
    exact finished_setG hgo d _
  case jr =>
    intro h to_ hgo
    refine ⟨_, rfl, ?_⟩
    rw [h, occur_true]
    exact finished_go hgo
  case halt =>
    intro h hstop
    refine ⟨_, rfl, ?_⟩
    rw [h, occur_true, State.smithIdle_of_noStop hstop]
    exact ⟨State.onSmith_get s m _, onSmith_only s m _⟩

/-! ### The data memory (R67) -/

theorem dmemGood_iff (m : SmithId) (x : Nat) : dmemGood m x = true ↔ x % 4 = 0 ∧ x < dmemBytes m := by
  simp [dmemGood]

/-- Settles O4: LDW is `finished_setDone`, STW is `State.smithDone_onSmith`. -/
theorem smithDataMemoryLoadAndStore : Obligations.SmithDataMemoryLoadAndStore := by
  unfold Obligations.SmithDataMemoryLoadAndStore
  intro s m d a imm x next h4 hlt hgo
  have hgood : dmemGood m (s.effAddr m a imm) = true := (dmemGood_iff m _).mpr ⟨h4, hlt⟩
  constructor
  · intro h
    refine ⟨_, rfl, ?_⟩
    rw [h, occur_true, if_pos hgood]
    exact finished_setDone hgo d _
  · intro h
    refine ⟨_, rfl, ?_⟩
    rw [h, occur_true, if_pos hgood, State.smithDone_onSmith hgo rfl rfl]
    refine ⟨fun k => ?_, ?_, onSmith_only s m _⟩
    · rw [State.onSmith_get]
      exact WMem.get_set _ _ _ _
    · rw [State.onSmith_get]

end Sys2Proof.Machine
end

section
/-! SUPPORT. Smith faults, and the stop at the acceptance of their message (02 R65, R68, R89, 15 R493). -/

namespace Sys2Proof.Machine

/-! ### What a fault sends and leaves -/

/-- A Smith reads the same registers where its register file is the same. -/
theorem State.g_congr {s t : State} {m : SmithId} (h : t.smiths[m].g = s.smiths[m].g) (y : RegNo) : t.g m y = s.g m y := by
  simp only [State.g, h]

/-- A Smith is ready for the same instructions at another time. -/
@[simp] theorem State.ready_at (s : State) (now : Nat) (m : SmithId) (f : Fields) : (s.at now).ready m f = s.ready m f := rfl

/-- The message of a fault of Smith `m` at index `pc` (R89). -/
def faultMessage (m : SmithId) (cause addr pc : Nat) : Msg :=
  { source := if m = masterSmith then 0x50 else BitVec.ofNat 8 m.val, kind := 0x17, sev := 2, addr := BitVec.ofNat 41 addr,
    detail := BitVec.ofNat 23 (m.val * 2 ^ 18 + cause * 2 ^ 14 + pc), raiser := some m }

theorem smithSource_eq (m : SmithId) : BitVec.ofNat 8 (smithSource m) = if m = masterSmith then 0x50 else BitVec.ofNat 8 m.val := by
  by_cases h : m = masterSmith <;> simp [smithSource, isMaster, h]

theorem smithFaultMsg_eq (s : State) (m : SmithId) (cause addr : Nat) :
    smithFaultMsg s m cause addr = faultMessage m cause addr s.smiths[m].pc.toNat := by
  have hsum : s.smiths[m].pc.toNat + cause * 2 ^ 14 + m.val * 2 ^ 18 = m.val * 2 ^ 18 + cause * 2 ^ 14 + s.smiths[m].pc.toNat := by
    omega
  simp only [smithFaultMsg, faultMessage, smithSource_eq, hsum]
  rfl

theorem smithWait_only (s : State) (m : SmithId) (w : Wait) : Only (· = .smith m) s (s.smithWait m w) := onSmith_only s m _

/-- A Smith that has begun to wait. -/
@[simp] theorem State.smithWait_get (s : State) (m : SmithId) (w : Wait) :
    (s.smithWait m w).smiths[m] = { s.smiths[m] with run := .waiting, wait := some w } := State.onSmith_get s m _

/-- What a fault of Smith `m`, whose registers read `regs` and which was `h` before its instruction, sends and leaves (R89). -/
def FaultSent (s t : State) (m : SmithId) (regs : RegNo → Word) (cause addr pc : Nat) : Prop :=
  (∀ y, t.g m y = regs y) ∧
  t.smiths[m] = { s.smiths[m] with g := t.smiths[m].g, pc := BitVec.ofNat 13 pc, run := .waiting, wait := some (.raise true) } ∧
  t.faults = { s.faults with arriving := s.faults.arriving ++ [faultMessage m cause addr pc] } ∧
  Only (fun e => e = .smith m ∨ e = .faults ∨ e = .time) s t

/-- A fault after a change of its Smith or of the time alone. -/
theorem smithFault_sent {s u : State} {m : SmithId} (cause addr : Nat) (hu : Only (fun e => e = .smith m ∨ e = .time) s u)
    (hsmith : u.smiths[m] = { s.smiths[m] with
      g := u.smiths[m].g, pc := u.smiths[m].pc, run := u.smiths[m].run, wait := u.smiths[m].wait }) :
    FaultSent s (u.smithFault m cause addr) m (u.g m) cause addr u.smiths[m].pc.toNat := by
  have hfaults : u.faults = s.faults := hu .faults (by simp)
  have hsent : (u.smithFault m cause addr).smiths[m] = { u.smiths[m] with run := .waiting, wait := some (.raise true) } :=
    State.smithWait_get _ m _
  refine ⟨State.g_congr (by rw [hsent]), ?_, ?_, ?_⟩
  · rw [hsent, hsmith]
    simp
  · rw [smithFault_eq, smithFaultMsg_eq]
    simp only [State.smithWait, State.onSmith_faults, State.onFaults_faults, hfaults]
  · rw [smithFault_eq]
    exact ((hu.seq (onFaults_only u _)).seq (smithWait_only _ m _)).mono (by simp +contextual [or_imp])

/-! ### The fetch after an instruction (R65, R68) -/

/-- A Smith that would go on at `pc`. -/
def State.toward (s : State) (m : SmithId) (pc : Nat) : State :=
  s.onSmith m (fun h => { h with run := .running, wait := none, pc := wrapPc m pc })

@[simp] theorem State.toward_get (s : State) (m : SmithId) (pc : Nat) :
    (s.toward m pc).smiths[m] = { s.smiths[m] with run := .running, wait := none, pc := wrapPc m pc } := State.onSmith_get s m _

@[simp] theorem State.image_toward (s : State) (m n : SmithId) (pc : Nat) : (s.toward m pc).image n = s.image n :=
  State.image_onSmith s m n _

/-- An instruction that completes with no stop waiting fetches the next one. -/
theorem State.smithGo_fetch {s : State} {m : SmithId} {pc : Nat} (h : s.smiths[m].stopReq = false) :
    s.smithGo m pc = (s.toward m pc).fetchNext m := by
  have hstop : (s.toward m pc).smiths[m].stopReq = false := by rw [State.toward_get, h]
  show (if (s.toward m pc).smiths[m].stopReq then _ else _) = _
  simp only [hstop]
  rfl

/-- An index at or above the image length is cause 0x1 (R68). -/
theorem State.smithGo_beyond {s : State} {m : SmithId} {pc : Nat} (h : s.smiths[m].stopReq = false)
    (hlen : (s.image m).length ≤ (wrapPc m pc).toNat) : s.smithGo m pc = (s.toward m pc).smithFault m 1 0 := by
  rw [State.smithGo_fetch h, State.fetchNext, State.image_toward, State.toward_get, if_pos hlen]

/-- A reserved opcode is cause 0x0 (R65). -/
theorem State.smithGo_reserved {s : State} {m : SmithId} {pc : Nat} (h : s.smiths[m].stopReq = false)
    (hlen : (wrapPc m pc).toNat < (s.image m).length)
    (hop : opcodes.contains (opcodeOf ((s.image m).mem.get (wrapPc m pc).toNat)) = false) :
    s.smithGo m pc = (s.toward m pc).smithFault m 0 0 := by
  rw [State.smithGo_fetch h, State.fetchNext, State.fetchWord, State.image_toward, State.toward_get,
    if_neg (Nat.not_le.mpr hlen), hop]
  rfl

/-- An ADD-like instruction whose successor lies outside the image. -/
theorem State.setDone_beyond {s : State} {m : SmithId} (d : RegNo) (v : Word) (h : s.smiths[m].stopReq = false)
    (hlen : (s.image m).length ≤ (wrapPc m (s.smiths[m].pc.toNat + 1)).toNat) :
    s.setDone m d v = ((s.setG m d v).toward m (s.smiths[m].pc.toNat + 1)).smithFault m 1 0 := by
  have hsmith := State.setG_smith s m d v
  have hpc : (s.setG m d v).smiths[m].pc = s.smiths[m].pc := by rw [hsmith]
  have hstop : (s.setG m d v).smiths[m].stopReq = false := by rw [hsmith, h]
  rw [State.setDone, State.smithDone, hpc, State.smithGo_beyond hstop (by rwa [State.image_setG])]

/-- An ADD-like instruction whose successor has a reserved opcode. -/
theorem State.setDone_reserved {s : State} {m : SmithId} (d : RegNo) (v : Word) (h : s.smiths[m].stopReq = false)
    (hlen : (wrapPc m (s.smiths[m].pc.toNat + 1)).toNat < (s.image m).length)
    (hop : opcodes.contains (opcodeOf ((s.image m).mem.get (wrapPc m (s.smiths[m].pc.toNat + 1)).toNat)) = false) :
    s.setDone m d v = ((s.setG m d v).toward m (s.smiths[m].pc.toNat + 1)).smithFault m 0 0 := by
  have hsmith := State.setG_smith s m d v
  have hpc : (s.setG m d v).smiths[m].pc = s.smiths[m].pc := by rw [hsmith]
  have hstop : (s.setG m d v).smiths[m].stopReq = false := by rw [hsmith, h]
  rw [State.setDone, State.smithDone, hpc,
    State.smithGo_reserved hstop (by rwa [State.image_setG]) (by rwa [State.image_setG])]

/-- A fault of an instruction whose result has been written and whose successor cannot be fetched. -/
theorem setG_toward_fault (s : State) (m : SmithId) (d : RegNo) (v : Word) (cause : Nat) (pc : Nat) :
    FaultSent s (((s.setG m d v).toward m pc).smithFault m cause 0) m (fun y => if y = d ∧ y ≠ 0 then v else s.g m y) cause 0
      (wrapPc m pc).toNat := by
  have hregs : ((s.setG m d v).toward m pc).g m = fun y => if y = d ∧ y ≠ 0 then v else s.g m y := funext fun y =>
    (State.g_congr (by rw [State.toward_get]) y).trans (State.g_setG s m d y v)
  have honly : Only (· = .smith m) s (s.setG m d v) := by
    rw [State.setG_eq]
    exact onSmith_only s m _
  have hsent := smithFault_sent (s := s) (u := (s.setG m d v).toward m pc) (m := m) cause 0
    ((honly.trans (onSmith_only _ m _)).mono (fun _ h => .inl h)) (by rw [State.toward_get, State.setG_smith])
  rwa [hregs, State.toward_get] at hsent

/-! ### Acceptance of the message (15 R491 to R493) -/

/-- Two states of a Smith differ in its pending events alone. -/
def Smith.EventsApart (h h' : Smith) : Prop := ∃ e, h' = { h with evpend := e }

theorem Smith.EventsApart.refl (h : Smith) : h.EventsApart h := ⟨h.evpend, rfl⟩

/-- The latch of a first message gives the Master Smith event 8, and touches no other field of a Smith. -/
theorem latchFirst_eventsApart (s : State) (w : BitVec 96) (m : SmithId) :
    s.smiths[m].EventsApart (s.latchFirst w).smiths[m] := by
  have hsmiths : ∃ u : State, u.smiths = s.smiths ∧ s.latchFirst w = u.eventMS 8 := by
    unfold State.latchFirst
    refine ⟨_, ?_, rfl⟩
    split <;> rfl
  obtain ⟨u, hu, hlatch⟩ := hsmiths
  rw [hlatch]
  simp only [State.eventMS_smiths, hu, upd_get]
  split
  case isTrue h => exact ⟨_, by rw [h]⟩
  case isFalse => exact .refl _

theorem pulseFor_smiths (s : State) (e : Msg) : (s.pulseFor e).smiths = s.smiths := by
  unfold State.pulseFor
  dsimp only
  split
  · rfl
  · split <;> rfl

theorem noteHang_smiths (s : State) (e : Msg) : (s.noteHang e).smiths = s.smiths := by
  unfold State.noteHang
  split
  · rfl
  · dsimp only
    split <;> rfl

/-- The judgement of a message gives Smiths events alone. -/
theorem judgeMsg_eventsApart (s : State) (e : Msg) (m : SmithId) : s.smiths[m].EventsApart (s.judgeMsg e).smiths[m] := by
  unfold State.judgeMsg
  split
  · exact .refl _
  · exact .refl _
  · dsimp only
    rw [noteHang_smiths, pulseFor_smiths]
    split
    · exact latchFirst_eventsApart _ _ m
    · exact .refl _

/-- The fault unit has a place for the message, or drops it (R493). -/
theorem State.fate_ne_wait {s : State} {e : Msg} (h : e.sev.toNat < 2 ∨ s.faults.queue.length < 64) : s.fate e ≠ .wait := by
  unfold State.fate
  dsimp only
  split
  case isTrue => split <;> simp
  case isFalse hsev =>
    have hroom : 0 < faultPlaces - s.faults.queue.length := Nat.sub_pos_of_lt (h.resolve_left hsev)
    rw [if_pos hroom]
    simp

/-- The oldest message of a source that a Smith waits for may be picked (R493). -/
theorem State.mayAccept_of_oldest {s : State} {j : Nat} {e : Msg} {m : SmithId} (hraiser : e.raiser = some m)
    (h : ∀ x ∈ s.faults.arriving.take j, x.source ≠ e.source) : s.mayAccept j e = true := by
  have hforced : e.forced = false := by simp [Msg.forced, hraiser]
  simp only [State.mayAccept, List.all_eq_true, hforced, Bool.and_false, Bool.not_false, Bool.and_true]
  exact fun x hx => bne_iff_ne.mpr (h x hx)

/-- FAULT_ACCEPT of a message whose Smith waits to stop. -/
theorem exec_faultAccept_stops {s : State} {j : Nat} {e : Msg} {m : SmithId} (hj : s.faults.arriving[j]? = some e)
    (hraiser : e.raiser = some m) (hwait : s.smiths[m].wait = some (.raise true)) (hfate : s.fate e ≠ .wait)
    (hmay : s.mayAccept j e = true) :
    exec (.faultAccept j) s =
      .next (((s.onFaults (fun f => { f with arriving := f.arriving.eraseIdx j })).judgeMsg e).smithStop m) := by
  have hwait' : ((s.onFaults (fun f => { f with arriving := f.arriving.eraseIdx j })).judgeMsg e).smiths[m].wait =
      some (.raise true) := by
    obtain ⟨ev, hev⟩ := judgeMsg_eventsApart (s.onFaults (fun f => { f with arriving := f.arriving.eraseIdx j })) e m
    rw [hev]
    exact hwait
  show execFaultAccept j s = _
  simp only [execFaultAccept, hj, hfate, hmay, hraiser, State.raiseDone, hwait', or_false, Bool.true_eq_false, if_false, if_true]

/-- CSRR of an address outside the Smith's reach (R53). -/
theorem exec_csrr_refused {s : State} {m : SmithId} {d a : RegNo} {imm : BitVec 14} (now : Nat)
    (h : s.ready m { op := 0x1C, d := some d, a := some a, imm := some imm } = true)
    (hreach : csrReach m (s.csrAddr m a imm) false = false) :
    exec (.csrr m d a imm now) s = .next ((s.at now).smithFault m 2 (s.csrAddr m a imm)) := by
  show Host.Outcome.next (timed now _ _ s) = _
  rw [timed_pos ((State.ready_at s now m _).trans h)]
  exact congrArg _ (if_neg (ne_true_of_eq_false hreach))

/-- CSRW of an address outside the Smith's reach (R53). -/
theorem exec_csrw_refused {s : State} {m : SmithId} {a b : RegNo} {imm : BitVec 14} (now : Nat)
    (h : s.ready m { op := 0x1D, a := some a, b := some b, imm := some imm } = true)
    (hreach : csrReach m (s.csrAddr m a imm) true = false) :
    exec (.csrw m a b imm now) s = .next ((s.at now).smithFault m 2 (s.csrAddr m a imm)) := by
  show Host.Outcome.next (timed now _ _ s) = _
  rw [timed_pos ((State.ready_at s now m _).trans h)]
  exact congrArg _ (if_neg (ne_true_of_eq_false hreach))

/-- Settles O3: `setG_toward_fault` for the fetch after an ADD, `smithFault_sent` for the refused accesses, and
`exec_faultAccept_stops` for the stop. -/
theorem smithFaultStopsAndReports : Obligations.SmithFaultStopsAndReports := by
  unfold Obligations.SmithFaultStopsAndReports
  intro s m d a b imm now j taken h pc message faults x sum next
  have hrefused : ∀ cause addr, FaultSent s (s.smithFault m cause addr) m (s.g m) cause addr pc := fun cause addr =>
    smithFault_sent cause addr (Only.refl _ s) rfl
  have hrefusedAt : ∀ cause addr, FaultSent s ((s.at now).smithFault m cause addr) m (s.g m) cause addr pc := fun cause addr =>
    smithFault_sent cause addr ((at_only s now).mono (fun _ h => .inr h)) rfl
  refine ⟨?beyond, ?reserved, ?dataMemory, ?csrr, ?csrw, ?accept⟩
  case beyond =>
    intro hready hstop hlen
    refine ⟨_, rfl, ?_⟩
    rw [hready, occur_true, State.setDone_beyond d _ hstop hlen]
    exact setG_toward_fault s m d _ 1 (pc + 1)
  case reserved =>
    intro hready hstop hlen hop
    refine ⟨_, rfl, ?_⟩
    rw [hready, occur_true, State.setDone_reserved d _ hstop hlen hop]
    exact setG_toward_fault s m d _ 0 (pc + 1)
  case dataMemory =>
    intro hx
    have hbad : dmemGood m (s.effAddr m a imm) ≠ true := fun hgood => by
      obtain ⟨h4, hlt⟩ := (dmemGood_iff m _).mp hgood
      exact hx.elim (fun hx => hx h4) (fun hx => absurd hlt (Nat.not_lt.mpr hx))
    constructor
    · intro hready
      refine ⟨_, rfl, ?_⟩
      rw [hready, occur_true, if_neg hbad]
      exact hrefused 3 0
    · intro hready
      refine ⟨_, rfl, ?_⟩
      rw [hready, occur_true, if_neg hbad]
      exact hrefused 3 0
  case csrr => exact fun hreach hready => ⟨_, exec_csrr_refused now hready hreach, hrefusedAt 2 _⟩
  case csrw => exact fun hreach hready => ⟨_, exec_csrw_refused now hready hreach, hrefusedAt 2 _⟩
  case accept =>
    intro hj hraiser hwait hold hroom
    refine ⟨_, exec_faultAccept_stops hj hraiser hwait (State.fate_ne_wait hroom) (State.mayAccept_of_oldest hraiser hold), ?_⟩
    obtain ⟨ev, hev⟩ := judgeMsg_eventsApart (s.onFaults (fun f => { f with arriving := f.arriving.eraseIdx j })) taken m
    have hstopped := smithStop_smith ((s.onFaults (fun f => { f with arriving := f.arriving.eraseIdx j })).judgeMsg taken) m
    rw [hev] at hstopped
    refine ⟨by rw [hstopped], by rw [hstopped], State.g_congr (by rw [hstopped]; rfl), ?_, ?_, ?_, ?_⟩ <;> rw [hstopped] <;> rfl

end Sys2Proof.Machine
end

section
/-! SUPPORT. The WNS of a program of the reference Anvil Smith image, at whose end the program looks again (08 R271, 13 R441). -/

namespace Sys2Proof.Machine

/-- The bank-in of channel 0 in its last step: Anvil Smith 0 runs the program of the reference image, a saved sector still waits
for a write entry, and the WNS in which the program waits for it is due. -/
def bankInWaiting : State :=
  let halts : Image := { mem := [(0, encodeWord 0x27 0 0 0 0), (1, encodeWord 0x27 0 0 0 0)], accepted := true, length := 2, entry := 0, reference := true }
  let job : Job :=
    { kind := .bankIn, steps := [.saved], code := 0, maps := [], levels := [], saved := [], counts := [], windows := [], cancelled := false }
  let row : FeedWrite := { seq := 0, place := { rank := 0, bank := 0, row := 0 }, secs := [], save := true }
  (({ State.reset with imageAS := halts }.onProg (fun p => { p with jobs := p.jobs.set 0 (some job) })).onAnvil 0
    (fun v => { v with feed := [row] })).onSmith 0 (fun h => { h with run := .waiting, wait := some (.wns 0) })

theorem bankInWaiting_goesOn : GoesOn bankInWaiting 0 (bankInWaiting.smiths[(0 : SmithId)].pc.toNat + 1) :=
  ⟨by decide +kernel, by decide +kernel, by decide +kernel⟩

/-- At the end of its WNS the program finds the sector still waiting, and waits again. -/
theorem bankInWaiting_waitsAgain :
    ∀ t, exec (.wnsEnd 0 0) bankInWaiting = .next t → t.smiths[(0 : SmithId)].run = .waiting := by
  intro t ht
  have hrun : (match exec (.wnsEnd 0 0) bankInWaiting with
    | .next t => decide (t.smiths[(0 : SmithId)].run = .waiting)
    | _ => false) = true := by decide +kernel
  rw [ht] at hrun
  exact of_decide_eq_true hrun

/-- Refutes O8: the clause on WNS_END lets every Smith whose WNS is due go on at pc + 1, and the Anvil Smith of
`bankInWaiting` waits again, as the program of its reference image looks whether the save has reached the DRAM. -/
theorem not_smithWaitsEndAtTheirTimeOrEvent : ¬ Obligations.SmithWaitsEndAtTheirTimeOrEvent := by
  unfold Obligations.SmithWaitsEndAtTheirTimeOrEvent
  intro h
  obtain ⟨-, -, -, hwnsEnd, -, -⟩ := h bankInWaiting 0 0 0 0 0 0 0 0 bankInWaiting_goesOn
  obtain ⟨t, ht, ⟨-, -, hrunning, -⟩, -⟩ := hwnsEnd 0 (by decide +kernel) (Nat.zero_le _)
  rw [bankInWaiting_waitsAgain t ht] at hrunning
  exact absurd hrunning (by decide)

end Sys2Proof.Machine
end

section
/-! SUPPORT. Events and TICK, signals, slot table instructions and RAISE of a Smith (02 R60, R61, R86 to R88, 12 R418). -/

namespace Sys2Proof.Machine

/-! ### What a finished instruction leaves -/

theorem Finished.run {s t : State} {m : SmithId} {d : RegNo} {v : Word} {pc : Nat} (h : Finished s t m d v pc) :
    t.smiths[m].run = .running := by rw [h.2.1]

theorem Finished.pc {s t : State} {m : SmithId} {d : RegNo} {v : Word} {pc : Nat} (h : Finished s t m d v pc) :
    t.smiths[m].pc = wrapPc m pc := by rw [h.2.1]

theorem Finished.smith {s t : State} {m : SmithId} {d : RegNo} {v : Word} {pc : Nat} (h : Finished s t m d v pc) :
    t.smiths[m] = { s.smiths[m] with g := t.smiths[m].g, pc := wrapPc m pc, run := .running, wait := none } := h.2.1

theorem Finished.only {s t : State} {m : SmithId} {d : RegNo} {v : Word} {pc : Nat} (h : Finished s t m d v pc) :
    Only (· = .smith m) s t := h.2.2

theorem Finished.dest {s t : State} {m : SmithId} {d : RegNo} {v : Word} {pc : Nat} (h : Finished s t m d v pc) :
    t.g m d = if d = 0 then 0 else v := by
  rw [h.1]
  by_cases hd : d = 0
  · rw [if_neg (fun e => e.2 hd), if_pos hd, State.g, if_pos hd]
  · rw [if_pos ⟨rfl, hd⟩, if_neg hd]

/-- The images outside a frame are as before. -/
theorem Only.image {P : Part → Prop} {s u : State} (h : Only P s u) (hMS : ¬ P .imageMS) (hAS : ¬ P .imageAS) (m : SmithId) :
    u.image m = s.image m := by
  have hms : u.imageMS = s.imageMS := h .imageMS hMS
  have has : u.imageAS = s.imageAS := h .imageAS hAS
  simp only [State.image, hms, has]

/-- A Smith that would go on completes its instruction also after a change that touches neither its program counter, nor
the stop that may wait, nor its image. -/
theorem GoesOn.setDone {s u : State} {m : SmithId} (hgo : GoesOn s m (s.smiths[m].pc.toNat + 1))
    (hstop : u.smiths[m].stopReq = s.smiths[m].stopReq) (hpc : u.smiths[m].pc = s.smiths[m].pc) (himage : u.image m = s.image m)
    (d : RegNo) (v : Word) : Finished u (u.setDone m d v) m d v (s.smiths[m].pc.toNat + 1) := by
  obtain ⟨hs, hlen, hop⟩ := hgo
  have hgo' : GoesOn u m (s.smiths[m].pc.toNat + 1) := ⟨hstop.trans hs, by rwa [himage], by rwa [himage]⟩
  rw [← hpc] at hgo' ⊢
  exact finished_setDone hgo' d v

theorem State.smithDone_eq_setDone (s : State) (m : SmithId) : s.smithDone m = s.setDone m 0 0 := rfl

/-- The same for a change of other parts. -/
theorem GoesOn.setDone_of_only {P : Part → Prop} {s u : State} {m : SmithId} (hgo : GoesOn s m (s.smiths[m].pc.toNat + 1))
    (hu : Only P s u) (hm : ¬ P (.smith m)) (hMS : ¬ P .imageMS) (hAS : ¬ P .imageAS) (d : RegNo) (v : Word) :
    Finished u (u.setDone m d v) m d v (s.smiths[m].pc.toNat + 1) := by
  have hsmith : u.smiths[m] = s.smiths[m] := hu (.smith m) hm
  exact hgo.setDone (by rw [hsmith]) (by rw [hsmith]) (hu.image hMS hAS m) d v

/-! ### The lowest pending event (R61) -/

/-- A search of the numbers from 0 finds the lowest one. -/
theorem find?_finRange_of_lowest {n : Nat} {p : Fin n → Bool} {k : Fin n} (h : p k = true) (hlow : ∀ j < k, p j = false) :
    (List.finRange n).find? p = some k := by
  rw [List.find?_eq_some_iff_getElem]
  refine ⟨h, k.val, by simp, by simp, fun j hj => ?_⟩
  rw [List.getElem_finRange, hlow _ (by simpa [Fin.lt_def] using hj)]
  rfl

/-- The lowest pending event of a mask is the one that a dispatch or a WEV finds. -/
theorem Smith.pendingIn_of_lowest {h : Smith} {mask : BitVec 16} {n : Fin 16} (hn : lowestPending h mask n) :
    h.pendingIn mask = some n := by
  obtain ⟨hset, hlow⟩ := hn
  refine find?_finRange_of_lowest ?_ (fun k hk => ?_)
  · rw [bit_eq_testBit]
    exact hset
  · rw [bit_eq_testBit]
    exact hlow k hk

theorem Smith.readyEvent_eq (h : Smith) : h.readyEvent = h.pendingIn h.evmask := rfl

/-- EVENT_DISPATCH of an IDLE Smith whose image is not a reference image (R61). -/
theorem exec_eventDispatch {s : State} {m : SmithId} {n : Fin 16} (himage : (s.image m).reference = false)
    (hidle : s.smiths[m].run = .idle) (hn : lowestPending s.smiths[m] s.smiths[m].evmask n) :
    exec (.eventDispatch m) s = .next (
      if wbit s.smiths[m].vec[n] 31 then (s.takeEvent m n).smithGo m (wbits s.smiths[m].vec[n] 12 0) else s.takeEvent m n) := by
  show Host.Outcome.next (if (s.image m).reference then s.dispatchReference m else s.dispatch m) = _
  simp only [himage, State.dispatch, hidle, Smith.readyEvent_eq, Smith.pendingIn_of_lowest hn]
  rfl

/-- Settles O9: `exec_eventDispatch` splits on VALID; TICK is one change of its Smith. -/
theorem smithEventsDispatchLowestAndTickOccurs : Obligations.SmithEventsDispatchLowestAndTickOccurs := by
  unfold Obligations.SmithEventsDispatchLowestAndTickOccurs
  intro s m n now h taken entry
  refine ⟨fun himage hidle hn => ⟨fun hvalid hgo => ?_, fun hvalid => ?_⟩, fun htick hdue => ?_⟩
  · have hexec := exec_eventDispatch himage hidle hn
    have hgo' : GoesOn (s.takeEvent m n) m entry := hgo.onSmith rfl
    have hentry : wbits s.smiths[m].vec[n] 12 0 = entry := wbits_zero _ 12
    rw [wbit_eq_getLsbD, if_pos hvalid, hentry, State.smithGo_goesOn hgo', State.takeEvent, State.onSmith_onSmith] at hexec
    exact ⟨_, hexec, State.onSmith_get s m _, onSmith_only s m _⟩
  · have hexec := exec_eventDispatch himage hidle hn
    rw [wbit_eq_getLsbD, if_neg (ne_true_of_eq_false hvalid)] at hexec
    exact ⟨_, hexec, State.onSmith_get s m _, onSmith_only s m _⟩
  · have htickDue : (s.at now).tickDue m = true := by
      simp only [State.tickDue, Bool.and_eq_true, bne_iff_ne, decide_eq_true_eq]
      exact ⟨htick, hdue⟩
    refine ⟨(s.at now).doTick m, ?_, ?_, rfl, ?_⟩
    · exact congrArg Host.Outcome.next (timed_pos htickDue)
    · rw [State.doTick, State.event, State.onSmith_onSmith, State.onSmith_get]
      rfl
    · rw [State.doTick, State.event, State.onSmith_onSmith]
      exact ((at_only s now).seq (onSmith_only _ m _)).mono (fun _ hx => hx.symm)

/-! ### Signals (R86) -/

/-- A Smith that a signal of Smith `m` has reached. -/
def Smith.signalled (h : Smith) (m : SmithId) : Smith :=
  { h with sigset := h.sigset ||| BitVec.ofNat 25 (2 ^ m.val), evpend := h.evpend ||| 2 }

theorem State.signal_eq (s : State) (m k : SmithId) : s.signal m k = s.onSmith k (fun h => h.signalled m) :=
  State.onSmith_onSmith s k _ _

/-- A Smith other than the one that a change touches. -/
theorem State.onSmith_get_of_ne (s : State) {m k : SmithId} (f : Smith → Smith) (h : k ≠ m) :
    (s.onSmith m f).smiths[k] = s.smiths[k] := by
  rw [State.onSmith_smiths, upd_get, if_neg h]

/-- A Smith after a step for each Smith of a list, where a step for one leaves the others and keeps the invariant that it
needs. -/
theorem foldl_smiths_get {F : State → SmithId → State} {I : State → Prop} {j : SmithId} {h v : Smith}
    (hkeep : ∀ u m, I u → I (F u m)) (hother : ∀ u m, I u → j ≠ m → (F u m).smiths[j] = u.smiths[j])
    (hself : ∀ u, I u → u.smiths[j] = h → (F u j).smiths[j] = v) {l : List SmithId} (hl : l.Nodup) {s : State} (hs : I s)
    (hj : s.smiths[j] = h) : (l.foldl F s).smiths[j] = if j ∈ l then v else h := by
  have hmissed : ∀ (l : List SmithId) (u : State), j ∉ l → I u → (l.foldl F u).smiths[j] = u.smiths[j] := by
    intro l
    induction l with
    | nil => exact fun _ _ _ => rfl
    | cons k l ih =>
      intro u hnot hu
      obtain ⟨hk, hnot⟩ := not_or.mp (fun e => hnot (List.mem_cons.mpr e))
      rw [List.foldl_cons, ih _ hnot (hkeep u k hu), hother u k hu hk]
  induction l generalizing s with
  | nil => simpa using hj
  | cons k l ih =>
    obtain ⟨hk, hl⟩ := List.nodup_cons.mp hl
    rw [List.foldl_cons]
    by_cases hjk : j = k
    · subst hjk
      rw [hmissed l _ hk (hkeep s j hs), hself s hs hj, if_pos List.mem_cons_self]
    · rw [ih hl (hkeep s k hs) ((hother s k hs hjk).trans hj)]
      simp [hjk]

/-- Signals to several Smiths reach each of them once. -/
theorem foldl_signal_get (m j : SmithId) (l : List SmithId) (hl : l.Nodup) (s : State) :
    (l.foldl (fun s k => s.signal m k) s).smiths[j] = if j ∈ l then s.smiths[j].signalled m else s.smiths[j] := by
  refine foldl_smiths_get (I := fun _ => True) (fun _ _ _ => trivial) (fun u k _ hjk => ?_) (fun u _ hu => ?_) hl trivial rfl
  · rw [State.signal_eq, State.onSmith_get_of_ne u _ hjk]
  · rw [State.signal_eq, State.onSmith_get, hu]

theorem foldl_signal_only (m : SmithId) (l : List SmithId) (s : State) :
    Only (fun x => ∃ k ∈ l, x = .smith k) s (l.foldl (fun s k => s.signal m k) s) := by
  induction l generalizing s with
  | nil => exact Only.refl _ s
  | cons k l ih =>
    have hk : Only (· = .smith k) s (s.signal m k) := by
      rw [State.signal_eq]
      exact onSmith_only s k _
    exact (hk.seq (ih (s.signal m k))).mono (by simp +contextual)

/-- SIG to the targets that its operand names completes after its signals. -/
theorem exec_sig {s : State} {m : SmithId} {a : RegNo} {imm : BitVec 14} {k : SmithId} {l : List SmithId}
    (h : s.ready m { op := 0x38, a := some a, imm := some imm } = true)
    (hl : sigTargets m (s.g m a + simm imm).toNat = k :: l) :
    exec (.sig m a imm) s = .next (((k :: l).foldl (fun s k => s.signal m k) s).smithDone m) := by
  show execSig m a imm s = _
  simp only [execSig, h, occur_true, hl]

/-- The targets of a SIG of the Master Smith to one Anvil Smith, and of an Anvil Smith to the Master Smith. -/
theorem sigTargets_one {m k : SmithId} (h : m = masterSmith ↔ k ≠ masterSmith) : sigTargets m k.val = [k] := by
  by_cases hm : m = masterSmith
  · have hk : k.val < 24 := by
      have hne : k.val ≠ 24 := fun e => h.mp hm (Fin.ext e)
      omega
    simp [sigTargets, isMaster, hm, hk]
  · have hk : k = masterSmith := by
      by_contra hne
      exact hm (h.mpr hne)
    subst hk
    simp [sigTargets, isMaster, hm]
    rfl

theorem sigTargets_all : sigTargets masterSmith 31 = allChans.map anvilSmith := rfl

theorem anvilSmith_ne_master (c : Chan) : anvilSmith c ≠ masterSmith := by
  intro h
  have := congrArg Fin.val h
  simp only [anvilSmith, masterSmith] at this
  omega

theorem anvilSmith_injective : Function.Injective anvilSmith := fun c c' h => by
  have hval : (anvilSmith c).val = (anvilSmith c').val := congrArg Fin.val h
  exact Fin.ext hval

/-- SIG of Smith `m` leaves its other targets signalled, and goes on (R86). -/
theorem exec_sig_signals {s : State} {m : SmithId} {a : RegNo} {imm : BitVec 14} {k : SmithId} {l : List SmithId}
    (h : s.ready m { op := 0x38, a := some a, imm := some imm } = true)
    (hl : sigTargets m (s.g m a + simm imm).toNat = k :: l) (hm : m ∉ k :: l) (hnodup : (k :: l).Nodup)
    (hgo : GoesOn s m (s.smiths[m].pc.toNat + 1)) :
    ∃ t, exec (.sig m a imm) s = .next t ∧ (∀ j ∈ k :: l, t.smiths[j] = s.smiths[j].signalled m) ∧
      t.smiths[m].pc = wrapPc m (s.smiths[m].pc.toNat + 1) ∧ Only (fun x => x = .smith m ∨ ∃ j ∈ k :: l, x = .smith j) s t := by
  have hsignals := foldl_signal_only m (k :: l) s
  have hdone := hgo.setDone_of_only hsignals (by simpa using hm) (by simp) (by simp) 0 0
  refine ⟨_, exec_sig h hl, fun j hj => ?_, hdone.pc, (hsignals.seq hdone.only).mono (fun _ hx => hx.symm)⟩
  have hjm : j ≠ m := fun e => hm (e ▸ hj)
  have hkept := hdone.only (.smith j) (by simpa using hjm)
  exact hkept.trans ((foldl_signal_get m j (k :: l) hnodup s).trans (if_pos hj))

/-! ### WSIG (R86) -/

/-- A WSIG that has all its signals returns 0 and clears them; without them it returns 1 at its timeout, and waits before
it. -/
theorem State.wsigTry_of_wait {s : State} {m : SmithId} {d : RegNo} {mask : BitVec 25} {limit : Option Nat}
    (h : s.smiths[m].wait = some (.wsig d mask limit)) :
    s.wsigTry m = if s.smiths[m].sigset &&& mask = mask then
        (s.onSmith m (fun h => { h with sigset := h.sigset &&& ~~~ mask })).setDone m d 0
      else if s.expired limit then s.setDone m d 1 else s := by
  simp only [State.wsigTry, h]

/-- The end of a wait at the moment that it waits for has not come when the wait begins. -/
theorem State.expired_deadline (s : State) (imm : BitVec 14) : s.expired (s.deadline imm) = false := by
  unfold State.deadline State.expired
  split
  · rfl
  · next himm => simp; omega

/-- A WSIG that has all its signals, in a Smith that has changed in nothing but its wait since `s` (R86). -/
theorem wsigTry_returns {s u : State} {m : SmithId} {d : RegNo} {mask : BitVec 25} {limit : Option Nat}
    (hgo : GoesOn s m (s.smiths[m].pc.toNat + 1)) (hu : Only (fun x => x = .smith m ∨ x = .time) s u)
    (hsmith : u.smiths[m] = { s.smiths[m] with run := u.smiths[m].run, wait := some (.wsig d mask limit) })
    (hall : s.smiths[m].sigset &&& mask = mask) :
    Only (fun x => x = .smith m ∨ x = .time) s (u.wsigTry m) ∧ (u.wsigTry m).smiths[m].sigset = s.smiths[m].sigset &&& ~~~ mask ∧
      (u.wsigTry m).g m d = 0 ∧ (u.wsigTry m).smiths[m].pc = wrapPc m (s.smiths[m].pc.toNat + 1) := by
  have hsig : u.smiths[m].sigset = s.smiths[m].sigset := by rw [hsmith]
  have hfin := hgo.setDone (u := u.onSmith m (fun h => { h with sigset := h.sigset &&& ~~~ mask }))
    (by rw [State.onSmith_get, hsmith]) (by rw [State.onSmith_get, hsmith])
    (by rw [State.image_onSmith]; exact hu.image (by simp) (by simp) m) d 0
  rw [State.wsigTry_of_wait (by rw [hsmith]), hsig, if_pos hall]
  refine ⟨?_, ?_, ?_, hfin.pc⟩
  · exact ((hu.seq (onSmith_only u m _)).seq hfin.only).mono (by simp +contextual [or_imp])
  · rw [hfin.smith, State.onSmith_get, hsig]
  · rw [hfin.dest, ite_self]

/-! ### Slot tables (R87, 12 R418) -/

/-- The channel of an instruction. -/
theorem State.withChan_some {s : State} {m : SmithId} {x : Nat} {c : Chan} (f : Chan → State) (h : chanFor m x = some c) :
    s.withChan m x f = f c := by
  simp only [State.withChan, h]

/-- A register of an anvil block that its hearth does not share is its own home (07 R243). -/
theorem regHome_aAnv (c : Chan) {o : Nat} (ho : o < 0x800) (hown : o < 0x400 ∨ 0x40C ≤ o) : regHome (aAnv c.val o) = aAnv c.val o := by
  have hc := c.isLt
  unfold regHome
  rw [if_neg]
  unfold aAnv
  omega

/-- The entries of a bank after a write of one. -/
theorem Anvil.slotEntry_setSlot (v : Anvil) (b bank : Bool) (i k : Nat) (x : Byte) :
    (v.setSlot b i x).slotEntry bank k = if bank = b ∧ k = i then x else v.slotEntry bank k := by
  cases b <;> cases bank <;> simp [Anvil.setSlot, Anvil.slotEntry, Anvil.bank]

/-- An anvil after a change of it. -/
@[simp] theorem State.onAnvil_get (s : State) (c : Chan) (f : Anvil → Anvil) : (s.onAnvil c f).anvils[c] = f s.anvils[c] := by
  simp

theorem writeShadow_only (s : State) (c : Chan) (i : Nat) (x : Byte) : Only (· = .anvil c) s (s.writeShadow c i x) :=
  onAnvil_only s c _

/-- SLC for a start time at least 32 ns ahead, with no commit pending (12 R418). -/
theorem State.commit_ahead {s : State} {c : Chan} {t : Nat} (hpend : s.slotPend c.val = false) (ht : s.timebase + 32 ≤ t) :
    s.commit c t = (0, s.fixStart c t) := by
  simp only [State.commit, hpend, Bool.false_eq_true, if_false, if_pos ht]

theorem State.slcOn_ahead {s : State} {m : SmithId} {d : RegNo} {c : Chan} {t : Nat} (hpend : s.slotPend c.val = false)
    (ht : s.timebase + 32 ≤ t) : s.slcOn m d t c = (s.fixStart c t).setDone m d 0 := by
  simp only [State.slcOn, State.commit_ahead hpend ht]
  rfl

theorem fixStart_only (s : State) (c : Chan) (t : Nat) :
    Only (fun x => x = .reg (aTLO c.val) ∨ x = .reg (aTHI c.val) ∨ x = .reg (aSLOT c.val)) s (s.fixStart c t) := by
  have h := ((wr_only s (aTLO c.val) ((BitVec.ofNat 64 t).setWidth 32)).seq
    (wr_only _ (aTHI c.val) (((BitVec.ofNat 64 t) >>> 32).setWidth 32))).seq (setFlag_only _ (aSLOT c.val) 30 true)
  unfold aTLO aTHI aSLOT at h ⊢
  rw [regHome_aAnv c (by decide) (by decide), regHome_aAnv c (by decide) (by decide), regHome_aAnv c (by decide) (by decide)] at h
  exact h.mono (by simp +contextual [or_imp])

/-- The start time and PEND that an SLC leaves. -/
theorem fixStart_regs (s : State) (c : Chan) (hi lo : Word) :
    (s.fixStart c (hi.toNat * 2 ^ 32 + lo.toNat)).rd (aTLO c.val) = lo ∧
    (s.fixStart c (hi.toNat * 2 ^ 32 + lo.toNat)).rd (aTHI c.val) = hi ∧
    (s.fixStart c (hi.toNat * 2 ^ 32 + lo.toNat)).slotPend c.val = true := by
  have hlo : (BitVec.ofNat 64 (hi.toNat * 2 ^ 32 + lo.toNat)).setWidth 32 = lo := by
    apply BitVec.eq_of_toNat_eq
    have := lo.isLt
    simp only [BitVec.toNat_setWidth, BitVec.toNat_ofNat]
    omega
  have hhi : (BitVec.ofNat 64 (hi.toNat * 2 ^ 32 + lo.toNat) >>> 32).setWidth 32 = hi := by
    apply BitVec.eq_of_toNat_eq
    have := lo.isLt
    have := hi.isLt
    simp only [BitVec.toNat_setWidth, BitVec.toNat_ushiftRight, BitVec.toNat_ofNat, Nat.shiftRight_eq_div_pow]
    omega
  have hhomes : regHome (aTLO c.val) = aTLO c.val ∧ regHome (aTHI c.val) = aTHI c.val ∧ regHome (aSLOT c.val) = aSLOT c.val :=
    ⟨regHome_aAnv c (by decide) (by decide), regHome_aAnv c (by decide) (by decide), regHome_aAnv c (by decide) (by decide)⟩
  obtain ⟨h1, h2, h3⟩ := hhomes
  have hne : aTLO c.val ≠ aTHI c.val ∧ aTLO c.val ≠ aSLOT c.val ∧ aTHI c.val ≠ aSLOT c.val := by
    unfold aTLO aTHI aSLOT aAnv
    omega
  obtain ⟨h12, h13, h23⟩ := hne
  refine ⟨?_, ?_, State.flag_setFlag _ _ _ _ (by decide)⟩
  · simp only [State.fixStart, State.setFlag_eq_wr, State.rd_wr, h1, h2, h3, h12, h13, if_false, if_true, hlo]
  · simp only [State.fixStart, State.setFlag_eq_wr, State.rd_wr, h2, h3, h23, if_false, if_true, hhi]

/-! ### RAISE (R88) -/

/-- RAISE of a permitted kind sends its message and waits. -/
theorem exec_raise_sends {s : State} {m : SmithId} {d a b : RegNo} {imm : BitVec 14}
    (h : s.ready m { op := 0x3E, d := some d, a := some a, b := some b, imm := some imm } = true)
    (hlo : 1 ≤ imm.toNat % 256) (hhi : imm.toNat % 256 ≤ 0x1E) :
    exec (.raise m d a b imm) s = .next
      ((s.onFaults (fun f => { f with arriving := f.arriving ++ [s.raiseMsg m d a b imm] })).smithWait m
        (.raise (imm.getLsbD 10))) := by
  have hkind : ¬ (uimm imm % 256 = 0 ∨ 0x1E < uimm imm % 256) := by
    unfold uimm
    omega
  show execRaise m d a b imm s = _
  simp only [execRaise, h, occur_true, if_neg hkind, bit_eq_testBit]
  rfl

/-- The fields of the message of a RAISE (Table 2.20). -/
theorem raiseMsg_fields (s : State) (m : SmithId) (d a b : RegNo) (imm : BitVec 14) :
    (s.raiseMsg m d a b imm).kind = imm.setWidth 8 ∧ (s.raiseMsg m d a b imm).sev.toNat = imm.toNat / 256 % 4 ∧
    (s.raiseMsg m d a b imm).addr.toNat = (s.g m b).toNat % 512 * 2 ^ 32 + (s.g m a).toNat ∧
    (s.raiseMsg m d a b imm).detail.toNat = (s.g m d).toNat % 2 ^ 23 ∧
    (s.raiseMsg m d a b imm).source = if m = masterSmith then 0x50 else BitVec.ofNat 8 m.val := by
  refine ⟨rfl, ?_, ?_, ?_, smithSource_eq m⟩
  · simp [State.raiseMsg, Nat.shiftRight_eq_div_pow]
  · have := (s.g m a).isLt
    simp only [State.raiseMsg, wbits_zero, BitVec.toNat_ofNat]
    omega
  · simp [State.raiseMsg]

/-- Settles O10: `exec_sig_signals` for SIG, `wsigTry_returns` and `State.wsigTry_of_wait` for WSIG,
`Anvil.slotEntry_setSlot` for SLW, `fixStart_regs` for SLC, `raiseMsg_fields` for RAISE. -/
theorem smithSignalsSlotTablesAndRaise : Obligations.SmithSignalsSlotTablesAndRaise := by
  unfold Obligations.SmithSignalsSlotTablesAndRaise
  intro s m k d a b imm c now h x next u mask quiet hgo
  have hat : Only (fun e => e = .smith m ∨ e = .time) s (s.at now) := (at_only s now).mono (fun _ h => .inr h)
  refine ⟨?sigOne, ?sigAll, ?wsig, ?wsigEnd, ?slw, ?slc, ?raise⟩
  case sigOne =>
    intro hready hk hx
    have hto : sigTargets m (s.g m a + simm imm).toNat = [k] := by
      have hval : (s.g m a + simm imm).toNat = k.val := by
        rw [simm_eq_ofInt]
        show (x + BitVec.ofInt 32 imm.toInt).toNat = _
        rw [hx, BitVec.toNat_ofNat]
        omega
      rw [hval, sigTargets_one hk]
    have hmk : m ∉ [k] := by
      rw [List.mem_singleton]
      rintro rfl
      exact iff_not_self hk
    obtain ⟨t, hexec, hsig, hpc, honly⟩ := exec_sig_signals hready hto hmk (List.nodup_singleton k) hgo
    exact ⟨t, hexec, hsig k (List.mem_singleton_self k), hpc, honly.mono (by simp)⟩
  case sigAll =>
    intro hready hm hx
    subst hm
    have hto : sigTargets masterSmith (s.g masterSmith a + simm imm).toNat = allChans.map anvilSmith := by
      rw [simm_eq_ofInt]
      show sigTargets _ (x + BitVec.ofInt 32 imm.toInt).toNat = _
      rw [hx]
      rfl
    have hmem : masterSmith ∉ allChans.map anvilSmith := by
      rw [List.mem_map]
      rintro ⟨c, -, hc⟩
      exact anvilSmith_ne_master c hc
    have hnodup : (allChans.map anvilSmith).Nodup := (List.nodup_finRange 24).map anvilSmith_injective
    obtain ⟨t, hexec, hsig, hpc, -⟩ := exec_sig_signals hready hto hmem hnodup hgo
    exact ⟨t, hexec, fun c => hsig _ (List.mem_map_of_mem (List.mem_finRange c)), hpc⟩
  case wsig =>
    intro hready
    have hexec : exec (.wsig m d a imm now) s =
        .next (((s.at now).smithWait m (.wsig d mask ((s.at now).deadline imm))).wsigTry m) :=
      congrArg Host.Outcome.next (timed_pos hready)
    have hwaits : ((s.at now).smithWait m (.wsig d mask ((s.at now).deadline imm))).smiths[m] =
        { h with run := .waiting, wait := some (.wsig d mask ((s.at now).deadline imm)) } := State.smithWait_get _ m _
    have honly := (hat.seq (smithWait_only _ m (.wsig d mask ((s.at now).deadline imm)))).mono
      (Q := fun e => e = .smith m ∨ e = .time) (by simp +contextual [or_imp])
    constructor
    · intro hall
      exact ⟨_, hexec, wsigTry_returns hgo honly (by rw [hwaits]) hall⟩
    · intro hmissing
      have hstays : ((s.at now).smithWait m (.wsig d mask ((s.at now).deadline imm))).wsigTry m =
          (s.at now).smithWait m (.wsig d mask ((s.at now).deadline imm)) := by
        rw [State.wsigTry_of_wait (by rw [hwaits]), if_neg (by rw [hwaits]; exact hmissing)]
        exact if_neg (ne_true_of_eq_false (State.expired_deadline (s.at now) imm))
      rw [hstays] at hexec
      exact ⟨_, hexec, honly, hwaits⟩
  case wsigEnd =>
    intro awaited limit hwait
    constructor
    · intro hall
      exact ⟨_, rfl, wsigTry_returns (u := s.at now) hgo hat (by rw [← hwait]; rfl) hall⟩
    · intro e hmissing hlimit he
      have hexpired : (s.at now).expired limit = true := by
        rw [hlimit]
        exact decide_eq_true he
      have hfin := hgo.setDone_of_only (at_only s now) (by simp) (by simp) (by simp) d 1
      refine ⟨(s.at now).setDone m d 1, ?_, (hat.seq hfin.only).mono (by simp +contextual [or_imp]), ?_, hfin.dest, hfin.pc⟩
      · show Host.Outcome.next ((s.at now).wsigTry m) = _
        exact congrArg _ ((State.wsigTry_of_wait (s := s.at now) hwait).trans ((if_neg hmissing).trans (if_pos hexpired)))
      · rw [hfin.smith]
        rfl
  case slw =>
    intro hready hc hpend
    have hexec : exec (.slw m a b imm) s = .next ((s.writeShadow c (wbits x 9 0) ((s.g m b).setWidth 8)).smithDone m) := by
      show Host.Outcome.next (occur _ s _) = _
      rw [hready, occur_true, State.withChan_some (x := uimm imm % 32) _ hc, State.slwOn, hpend]
      rfl
    have hwrite := writeShadow_only s c (wbits x 9 0) ((s.g m b).setWidth 8)
    have hfin := hgo.setDone_of_only hwrite (by simp) (by simp) (by simp) 0 0
    refine ⟨_, hexec, fun bank i => ?_, hfin.pc, (hwrite.seq hfin.only).mono (fun _ hx => hx.symm)⟩
    have hanvil : ((s.writeShadow c (wbits x 9 0) ((s.g m b).setWidth 8)).setDone m 0 0).anvils[c] = _ :=
      hfin.only (.anvil c) (by simp)
    rw [State.smithDone_eq_setDone, hanvil, State.writeShadow, State.onAnvil_get, Anvil.slotEntry_setSlot, wbits_zero]
    rfl
  case slc =>
    intro hready hc hpend hahead
    have hexec : exec (.slc m d a b imm now) s =
        .next (((s.at now).fixStart c ((s.g m b).toNat * 2 ^ 32 + x.toNat)).setDone m d 0) := by
      refine congrArg Host.Outcome.next ((timed_pos hready).trans ?_)
      exact (State.withChan_some (x := uimm imm % 32) _ hc).trans (State.slcOn_ahead hpend hahead)
    have hfix := (at_only s now).seq (fixStart_only (s.at now) c ((s.g m b).toNat * 2 ^ 32 + x.toNat))
    have hfin := hgo.setDone_of_only hfix (by simp) (by simp) (by simp) d 0
    obtain ⟨hlo, hhi, hpending⟩ := fixStart_regs (s.at now) c (s.g m b) x
    refine ⟨_, hexec, ?_, ?_, ?_, ?_, hfin.pc, ?_⟩
    · rw [hfin.only.rd (by simp), hlo]
    · rw [hfin.only.rd (by simp), hhi]
    · rw [State.slotPend, State.flag, hfin.only.rd (by simp)]
      exact hpending
    · rw [hfin.dest, ite_self]
    · exact (hfix.seq hfin.only).mono (by simp +contextual [or_imp])
  case raise =>
    intro hready hlo hhi
    refine ⟨_, exec_raise_sends hready hlo hhi, State.smithWait_get _ m _, ⟨_, rfl, raiseMsg_fields s m d a b imm⟩, ?_⟩
    exact ((onFaults_only s _).seq (smithWait_only _ m _)).mono (fun _ hx => hx.symm)

end Sys2Proof.Machine
end

section
/-! SUPPORT. Host control of the Smiths (02 R90 to R92, Table 2.21). -/

namespace Sys2Proof.Machine

/-! ### The host's writes of Smith registers -/

/-- A host write outside COLD and BANKED to a global register. -/
theorem hostAccess_global {s : State} {a : Nat} (w : Word) (hb : s.modes.mode ≠ .banked) (ha : globalReg a = true) :
    s.hostAccess a (some w) = s.globalWrite .host a w := by
  simp only [globalReg, Bool.and_eq_true, decide_eq_true_eq, beq_iff_eq, Bool.not_eq_true'] at ha
  obtain ⟨⟨⟨⟨hlt, h4⟩, hwin⟩, hinfo⟩, -⟩ := ha
  have hcause : s.hostCause true a = none := State.hostCause_of_populated true h4 (by rw [populatedAt, hinfo, Bool.or_true]) hb
  simp only [State.hostAccess, State.hostWrite, hcause, State.regWrite_global _ _ w hwin hlt]

/-- A row that is one host write with the row's content, outside COLD. -/
theorem hostWriteWhen_up {s : State} {ok : Bool} {a : Nat} {w : Word} (hc : s.modes.mode ≠ .cold) (hok : ok = true) :
    hostWriteWhen ok a w s = .next { s.hostAccess a (some w) with hrpRvalid := true } := by
  simp only [hostWriteWhen, hostRow, hok, occur_true, if_neg hc]

/-- A host write of SMI_CTL outside COLD and BANKED. -/
theorem hostAccess_ctl {s : State} (w : Word) (hb : s.modes.mode ≠ .banked) : s.hostAccess aSMI_CTL (some w) = s.ctlWrite w :=
  hostAccess_global w hb (by decide +kernel)

/-- What SMI_CTL does for a word with one of its four bits set. -/
theorem ctlWrite_msStart (s : State) : s.ctlWrite 1 = s.smithStart masterSmith := rfl

theorem ctlWrite_msStop (s : State) : s.ctlWrite 2 = s.smithHalt masterSmith := rfl

theorem ctlWrite_asStart (s : State) : s.ctlWrite 4 = s.selected.foldl (fun s m => s.smithStart m) s := by
  show (s.selected.filter (fun m => !([] : List SmithId).contains m)).foldl (fun s m => s.smithStart m) s = _
  simp

theorem ctlWrite_asStop (s : State) : s.ctlWrite 8 = s.selected.foldl (fun s m => s.smithHalt m) s := rfl

/-- The Smiths that SMI_AS_SEL selects. -/
theorem State.mem_selected {s : State} {c : Chan} : anvilSmith c ∈ s.selected ↔ s.flag aAS_SEL c.val = true := by
  simp [State.selected, allChans, anvilSmith_injective.eq_iff]

theorem State.selected_ne_master {s : State} {m : SmithId} (h : m ∈ s.selected) : m ≠ masterSmith := by
  obtain ⟨c, -, rfl⟩ := List.mem_map.mp h
  exact anvilSmith_ne_master c

theorem State.selected_nodup (s : State) : s.selected.Nodup := ((List.nodup_finRange 24).filter _).map anvilSmith_injective

/-! ### Starts (R90) -/

/-- A start of a Smith whose image is not accepted sets STARTREF. -/
theorem State.smithStart_refused {s : State} {m : SmithId} (h : (s.image m).accepted = false) :
    s.smithStart m = s.setFlag aLOAD 13 true := by
  simp only [State.smithStart, h, Bool.not_false, if_true]

/-- A start of a Smith that is not STOPPED does nothing where its image is accepted. -/
theorem State.smithStart_notStopped {s : State} {m : SmithId} (h : (s.image m).accepted = true) (hr : s.smiths[m].run ≠ .stopped) :
    s.smithStart m = s := by
  have hrun : (s.smiths[m].run != .stopped) = true := bne_iff_ne.mpr hr
  simp only [State.smithStart, h, hrun, Bool.not_true, Bool.false_eq_true, if_false, if_true]

/-- The image can be entered: it is accepted and not the reference image, and its entry holds an instruction. -/
def Image.enterable (i : Image) : Prop :=
  i.accepted = true ∧ i.reference = false ∧ i.entry.toNat < i.length ∧ opcodes.contains (opcodeOf (i.mem.get i.entry.toNat)) = true

/-- An Anvil Smith after a start: it runs where it was STOPPED (R90). -/
def Smith.started (h : Smith) (entry : BitVec 13) (now : Nat) : Smith := if h.run = .stopped then startedSmith h entry now else h

/-- The entry of an image that can be entered fetches its first instruction without a fault. -/
theorem State.enterImage_of_enterable {s : State} {m : SmithId} (h : (s.image m).enterable)
    (hpc : s.smiths[m].pc = (s.image m).entry) : s.enterImage m = s := by
  obtain ⟨-, href, hlen, hop⟩ := h
  rw [State.enterImage, State.byReference, href]
  show s.fetchNext m = s
  rw [State.fetchNext, State.fetchWord, hpc, if_neg (Nat.not_le.mpr hlen), if_pos hop]

/-- A change that the Smith's state decides. -/
theorem State.onSmith_congr {s : State} {m : SmithId} {f g : Smith → Smith} (h : f s.smiths[m] = g s.smiths[m]) :
    s.onSmith m f = s.onSmith m g := by
  simp only [State.onSmith, upd, h]

theorem State.onSmith_of_fixed {s : State} {m : SmithId} {f : Smith → Smith} (h : f s.smiths[m] = s.smiths[m]) :
    s.onSmith m f = s := by
  rw [State.onSmith_congr (g := id) h]
  simp [State.onSmith, upd]

/-- A start of an Anvil Smith whose image can be entered. -/
theorem State.smithStart_anvil {s : State} {m : SmithId} (hm : m ≠ masterSmith) (h : (s.image m).enterable) :
    s.smithStart m = s.onSmith m (fun x => x.started (s.image m).entry s.timebase) := by
  have hacc := h.1
  by_cases hr : s.smiths[m].run = .stopped
  · have hanvil : isMaster m = false := by simpa [isMaster] using hm
    have hentered : (s.onSmith m (fun x => startedSmith x (s.image m).entry s.timebase)).enterImage m = _ :=
      State.enterImage_of_enterable (by rwa [State.image_onSmith]) (by rw [State.onSmith_get, State.image_onSmith]; rfl)
    have hstarted : s.onSmith m (fun x => x.started (s.image m).entry s.timebase) =
        s.onSmith m (fun x => startedSmith x (s.image m).entry s.timebase) := State.onSmith_congr (if_pos hr)
    rw [hstarted, ← hentered]
    simp only [State.smithStart, hacc, hr, hanvil, Bool.not_true, Bool.false_eq_true, if_false, bne_self_eq_false]
    rfl
  · rw [State.smithStart_notStopped hacc hr]
    exact (State.onSmith_of_fixed (if_neg hr)).symm

/-- A start of the STOPPED Master Smith whose image can be entered. -/
theorem State.smithStart_master {s : State} (hr : s.smiths[masterSmith].run = .stopped) (h : s.imageMS.enterable) :
    s.smithStart masterSmith =
      (s.onSmith masterSmith (fun x => startedSmith x s.imageMS.entry s.timebase)).setFlag aSTATE1 18 false := by
  have hacc : (s.image masterSmith).accepted = true := h.1
  have hentered : ((s.onSmith masterSmith (fun x => startedSmith x s.imageMS.entry s.timebase)).setFlag aSTATE1 18
      false).enterImage masterSmith = _ :=
    State.enterImage_of_enterable h (by rw [State.setFlag_smiths, State.onSmith_get]; rfl)
  rw [← hentered]
  simp only [State.smithStart, hacc, hr, Bool.not_true, Bool.false_eq_true, if_false, bne_self_eq_false]
  rfl

/-- Starts refused one after another set STARTREF, and nothing else. -/
theorem foldl_smithStart_refused {l : List SmithId} (hl : ∀ m ∈ l, m ≠ masterSmith) (hne : l ≠ []) {s : State}
    (h : s.imageAS.accepted = false) :
    (l.foldl (fun s m => s.smithStart m) s).flag aLOAD 13 = true ∧
      Only (· = .reg aLOAD) s (l.foldl (fun s m => s.smithStart m) s) := by
  have hstep : ∀ u : State, ∀ m ∈ l, Only (· = .reg aLOAD) s u → u.smithStart m = u.setFlag aLOAD 13 true := by
    intro u m hm hu
    refine State.smithStart_refused ?_
    have has : u.imageAS = s.imageAS := hu .imageAS (by simp)
    simp only [State.image, isMaster, beq_eq_false_iff_ne.mpr (hl m hm), has, h, Bool.false_eq_true, if_false]
  induction l using List.reverseRecOn with
  | nil => exact absurd rfl hne
  | append_singleton l m ih =>
    have hbefore : Only (· = .reg aLOAD) s (l.foldl (fun s m => s.smithStart m) s) := by
      by_cases hnil : l = []
      · rw [hnil]
        exact Only.refl _ s
      · exact (ih (fun x hx => hl x (by simp [hx])) hnil (fun u x hx => hstep u x (by simp [hx]))).2
    rw [List.foldl_append, List.foldl_cons, List.foldl_nil, hstep _ m (by simp) hbefore]
    exact ⟨State.flag_setFlag _ _ _ _ (by decide), hbefore.trans (setFlag_only _ aLOAD 13 true)⟩

/-- A fold whose steps all leave the state does. -/
theorem foldl_of_stays {α : Type} {f : State → α → State} {s : State} (l : List α) (h : ∀ x ∈ l, f s x = s) : l.foldl f s = s := by
  induction l with
  | nil => rfl
  | cons x l ih =>
    rw [List.foldl_cons, h x List.mem_cons_self]
    exact ih (fun y hy => h y (List.mem_cons_of_mem x hy))

/-- Starts of Anvil Smiths whose image can be entered: each STOPPED one runs from the entry, and the Master Smith stays. -/
theorem foldl_smithStart_anvil {l : List SmithId} (hl : ∀ m ∈ l, m ≠ masterSmith) (hnodup : l.Nodup) {s : State}
    (h : s.imageAS.enterable) :
    (∀ i, (l.foldl (fun s m => s.smithStart m) s).smiths[i] =
      if i ∈ l then s.smiths[i].started s.imageAS.entry s.timebase else s.smiths[i]) ∧
    (l.foldl (fun s m => s.smithStart m) s).smiths[masterSmith] = s.smiths[masterSmith] := by
  have hfold : l.foldl (fun s m => s.smithStart m) s =
      l.foldl (fun u m => u.onSmith m (fun x => x.started s.imageAS.entry s.timebase)) s := by
    have hsteps : ∀ (l : List SmithId) (u : State), (∀ m ∈ l, m ≠ masterSmith) → u.imageAS = s.imageAS → u.timebase = s.timebase →
        l.foldl (fun s m => s.smithStart m) u = l.foldl (fun u m => u.onSmith m (fun x => x.started s.imageAS.entry s.timebase)) u := by
      intro l
      induction l with
      | nil => exact fun _ _ _ _ => rfl
      | cons m l ih =>
        intro u hl himage htime
        obtain ⟨hm, hl⟩ := List.forall_mem_cons.mp hl
        have hanvil : u.image m = s.imageAS := by
          simp only [State.image, isMaster, beq_eq_false_iff_ne.mpr hm, himage, Bool.false_eq_true, if_false]
        rw [List.foldl_cons, List.foldl_cons, State.smithStart_anvil hm (hanvil ▸ h), hanvil, htime]
        exact ih _ hl himage htime
    exact hsteps l s hl rfl rfl
  have hget : ∀ i, (l.foldl (fun s m => s.smithStart m) s).smiths[i] =
      if i ∈ l then s.smiths[i].started s.imageAS.entry s.timebase else s.smiths[i] := fun i => by
    rw [hfold]
    exact foldl_smiths_get (I := fun _ => True) (fun _ _ _ => trivial) (fun u _ _ hne => State.onSmith_get_of_ne u _ hne)
      (fun u _ hu => (State.onSmith_get u i _).trans (by rw [hu])) hnodup trivial rfl
  exact ⟨hget, (hget masterSmith).trans (if_neg (fun hm => hl _ hm rfl))⟩

/-! ### Stops (R91) -/

theorem smithHalt_only (s : State) (m : SmithId) : Only (stopParts m) s (s.smithHalt m) := by
  unfold State.smithHalt
  split
  · exact Only.refl _ s
  · exact smithStop_only s m
  · exact smithStop_only s m
  · split
    all_goals first
      | exact smithStop_only s m
      | exact (onSmith_only s m _).mono (fun _ h => .inl h)

/-- A stop of one Smith leaves the others. -/
theorem smithHalt_get_of_ne (s : State) {m j : SmithId} (h : j ≠ m) : (s.smithHalt m).smiths[j] = s.smiths[j] :=
  smithHalt_only s m (.smith j) (by simp [stopParts, workParts, evqParts, h])

/-- A stop of a Smith between instructions. -/
theorem State.smithHalt_between {s : State} {m : SmithId} (h : s.smiths[m].run = .idle ∨ s.smiths[m].run = .running) :
    (s.smithHalt m).smiths[m] = { s.smiths[m] with run := .stopped, wait := none, stopReq := false, mrr := [] } := by
  have hstop : s.smithHalt m = s.smithStop m := by
    rcases h with h | h <;> simp only [State.smithHalt, h]
  rw [hstop, smithStop_smith]

/-- Stops of the selected Anvil Smiths: one that was between instructions is STOPPED, and the Master Smith stays. -/
theorem foldl_smithHalt_between {s : State} {c : Chan}
    (h : s.smiths[anvilSmith c].run = .idle ∨ s.smiths[anvilSmith c].run = .running) :
    (s.selected.foldl (fun s m => s.smithHalt m) s).smiths[anvilSmith c] = (if s.flag aAS_SEL c.val then
      { s.smiths[anvilSmith c] with run := .stopped, wait := none, stopReq := false, mrr := [] } else s.smiths[anvilSmith c]) ∧
    (s.selected.foldl (fun s m => s.smithHalt m) s).smiths[masterSmith] = s.smiths[masterSmith] := by
  have hget : ∀ (i : SmithId) (v : Smith), (∀ u : State, u.smiths[i] = s.smiths[i] → (u.smithHalt i).smiths[i] = v) →
      (s.selected.foldl (fun s m => s.smithHalt m) s).smiths[i] = if i ∈ s.selected then v else s.smiths[i] :=
    fun i v hself => foldl_smiths_get (I := fun _ => True) (fun _ _ _ => trivial)
      (fun u _ _ hne => smithHalt_get_of_ne u hne) (fun u _ hu => hself u hu) s.selected_nodup trivial rfl
  constructor
  · refine (hget (anvilSmith c) _ (fun u hu => ?_)).trans (if_congr State.mem_selected rfl rfl)
    rw [State.smithHalt_between (by rwa [hu]), hu]
  · have hmaster : masterSmith ∉ s.selected := fun hm => State.selected_ne_master hm rfl
    have hkept : ∀ l : List SmithId, masterSmith ∉ l → ∀ u : State,
        (l.foldl (fun s m => s.smithHalt m) u).smiths[masterSmith] = u.smiths[masterSmith] := by
      intro l
      induction l with
      | nil => exact fun _ _ => rfl
      | cons m l ih =>
        intro hnot u
        obtain ⟨hm, hnot⟩ := not_or.mp (fun e => hnot (List.mem_cons.mpr e))
        rw [List.foldl_cons, ih hnot, smithHalt_get_of_ne u hm]
    exact hkept _ hmaster s

/-! ### SMI_EVSET (Table 2.21) -/

/-- Bit `n` of a Smith's pending events after several events of it. -/
theorem foldl_event_evpend (m : SmithId) (l : List Nat) (s : State) (n : Nat) :
    (l.foldl (fun s j => s.event m (13 + j)) s).smiths[m].evpend.getLsbD n =
      (s.smiths[m].evpend.getLsbD n || (decide (n < 16) && l.any (fun j => n == 13 + j))) := by
  induction l generalizing s with
  | nil => simp
  | cons j l ih =>
    rw [List.foldl_cons, ih, State.event, State.onSmith_get]
    have hbit : (BitVec.ofNat 16 (2 ^ (13 + j))).getLsbD n = (decide (n < 16) && n == 13 + j) := by
      rw [BitVec.getLsbD_ofNat, Nat.testBit_two_pow, Bool.eq_iff_iff]
      simp only [Bool.and_eq_true, decide_eq_true_eq, beq_iff_eq]
      exact and_congr_right fun _ => eq_comm
    rw [BitVec.getLsbD_or, hbit, List.any_cons, Bool.and_or_distrib_left, Bool.or_assoc]

theorem foldl_event_only (m : SmithId) (l : List Nat) (s : State) :
    Only (· = .smith m) s (l.foldl (fun s j => s.event m (13 + j)) s) :=
  foldl_keeps (P := Only (· = .smith m) s) (fun u _ hu => hu.trans (event_only u m _)) l (Only.refl _ s)

/-- The Smiths that a write of SMI_EVSET selects. -/
def evsetTargets (w : Word) : List SmithId :=
  (if wbit w 31 then [masterSmith] else []) ++ (allChans.filter (fun c => wbit w c.val)).map anvilSmith

theorem evsetTargets_nodup (w : Word) : (evsetTargets w).Nodup := by
  refine List.Nodup.append ?_ (((List.nodup_finRange 24).filter _).map anvilSmith_injective) ?_
  · split <;> simp
  · intro m hm hm'
    obtain ⟨c, -, rfl⟩ := List.mem_map.mp hm'
    split at hm
    · exact anvilSmith_ne_master c (List.mem_singleton.mp hm)
    · exact absurd hm List.not_mem_nil

/-- Every Smith is the Master Smith or an Anvil Smith. -/
theorem SmithId.eq_master_or_anvil (k : SmithId) : k = masterSmith ∨ ∃ c, k = anvilSmith c := by
  by_cases hk : k.val < 24
  · exact .inr ⟨⟨k.val, hk⟩, rfl⟩
  · exact .inl (Fin.ext (by show k.val = 24; omega))

theorem mem_evsetTargets (w : Word) (k : SmithId) :
    k ∈ evsetTargets w ↔ w.getLsbD (if k = masterSmith then 31 else k.val) = true := by
  rcases SmithId.eq_master_or_anvil k with rfl | ⟨c, rfl⟩
  · have hnot : masterSmith ∉ (allChans.filter (fun c => wbit w c.val)).map anvilSmith := fun h => by
      obtain ⟨c, -, hc⟩ := List.mem_map.mp h
      exact anvilSmith_ne_master c hc
    rw [evsetTargets, List.mem_append, or_iff_left hnot, if_pos rfl, ← wbit_eq_getLsbD]
    cases wbit w 31 <;> simp
  · have hnot : anvilSmith c ∉ (if wbit w 31 then [masterSmith] else []) := by
      split <;> simp [anvilSmith_ne_master]
    rw [evsetTargets, List.mem_append, or_iff_right hnot, if_neg (anvilSmith_ne_master c), ← wbit_eq_getLsbD]
    simp [anvilSmith_injective.eq_iff, allChans]
    rfl

/-- The pending events of every Smith after a write of SMI_EVSET. -/
theorem evsetWrite_evpend (s : State) (w : Word) (k : SmithId) (n : Nat) :
    (s.evsetWrite w).smiths[k].evpend.getLsbD n = (s.smiths[k].evpend.getLsbD n || (decide (k ∈ evsetTargets w) &&
      (decide (n < 16) && ((List.range 3).filter (fun j => wbit w (24 + j))).any (fun j => n == 13 + j)))) := by
  have hfold : ∀ (l : List SmithId) (u : State), l.Nodup →
      (l.foldl (fun s m => ((List.range 3).filter (fun j => wbit w (24 + j))).foldl (fun s j => s.event m (13 + j)) s)
        u).smiths[k].evpend.getLsbD n = (u.smiths[k].evpend.getLsbD n || (decide (k ∈ l) &&
      (decide (n < 16) && ((List.range 3).filter (fun j => wbit w (24 + j))).any (fun j => n == 13 + j)))) := by
    intro l
    induction l with
    | nil => simp
    | cons m l ih =>
      intro u hl
      obtain ⟨hm, hl⟩ := List.nodup_cons.mp hl
      rw [List.foldl_cons, ih _ hl]
      by_cases hkm : k = m
      · subst hkm
        rw [foldl_event_evpend]
        simp [hm]
      · have hkept := foldl_event_only m ((List.range 3).filter (fun j => wbit w (24 + j))) u (.smith k) (by simp [hkm])
        simp only [Part.kept] at hkept
        rw [hkept]
        simp [hkm]
  exact hfold _ s (evsetTargets_nodup w)

/-- The events that a write of SMI_EVSET sets are those of its bits [26:24]. -/
theorem evsetBits_of_ext (w : Word) (j : Fin 3) :
    (decide (13 + j.val < 16) && ((List.range 3).filter (fun i => wbit w (24 + i))).any (fun i => 13 + j.val == 13 + i)) =
      w.getLsbD (24 + j.val) := by
  have hj := j.isLt
  rw [← wbit_eq_getLsbD, Bool.eq_iff_iff]
  simp only [Bool.and_eq_true, decide_eq_true_eq, List.any_eq_true, List.mem_filter, List.mem_range, beq_iff_eq]
  constructor
  · rintro ⟨-, i, ⟨-, hbit⟩, hi⟩
    rwa [show j.val = i by omega]
  · exact fun hbit => ⟨by omega, j.val, ⟨hj, hbit⟩, rfl⟩

theorem evsetBits_of_lt (w : Word) {n : Nat} (hn : n < 13) :
    (decide (n < 16) && ((List.range 3).filter (fun i => wbit w (24 + i))).any (fun i => n == 13 + i)) = false := by
  have hnone : ∀ i, (n == 13 + i) = false := fun i => beq_eq_false_iff_ne.mpr (by omega)
  simp [hnone]

theorem evsetWrite_only (s : State) (w : Word) : Only (fun x => ∃ m, x = .smith m) s (s.evsetWrite w) :=
  foldl_keeps (P := Only (fun x => ∃ m, x = .smith m) s)
    (fun u m hu => hu.trans ((foldl_event_only m _ u).mono (fun _ h => ⟨m, h⟩))) _ (Only.refl _ s)

theorem hostAccess_evset {s : State} (w : Word) (hb : s.modes.mode ≠ .banked) :
    s.hostAccess aEVSET (some w) = s.evsetWrite w := hostAccess_global w hb (by decide +kernel)

/-- The rows of SMI_CTL with one of its bits set, and of SMI_EVSET, outside COLD and BANKED. -/
theorem exec_msStart_up {s : State} (hc : s.modes.mode ≠ .cold) (hb : s.modes.mode ≠ .banked) :
    exec (.msStart 1) s = .next { s.smithStart masterSmith with hrpRvalid := true } := by
  show hostWriteWhen true aSMI_CTL 1 s = _
  rw [hostWriteWhen_up hc rfl, hostAccess_ctl 1 hb, ctlWrite_msStart]

theorem exec_msStop_up {s : State} (hc : s.modes.mode ≠ .cold) (hb : s.modes.mode ≠ .banked) :
    exec (.msStop 2) s = .next { s.smithHalt masterSmith with hrpRvalid := true } := by
  show hostWriteWhen true aSMI_CTL 2 s = _
  rw [hostWriteWhen_up hc rfl, hostAccess_ctl 2 hb, ctlWrite_msStop]

theorem exec_asStart_up {s : State} (hc : s.modes.mode ≠ .cold) (hb : s.modes.mode ≠ .banked) :
    exec (.asStart 4) s = .next { s.selected.foldl (fun s m => s.smithStart m) s with hrpRvalid := true } := by
  show hostWriteWhen true aSMI_CTL 4 s = _
  rw [hostWriteWhen_up hc rfl, hostAccess_ctl 4 hb, ctlWrite_asStart]

theorem exec_asStop_up {s : State} (hc : s.modes.mode ≠ .cold) (hb : s.modes.mode ≠ .banked) :
    exec (.asStop 8) s = .next { s.selected.foldl (fun s m => s.smithHalt m) s with hrpRvalid := true } := by
  show hostWriteWhen true aSMI_CTL 8 s = _
  rw [hostWriteWhen_up hc rfl, hostAccess_ctl 8 hb, ctlWrite_asStop]

theorem exec_smiEvset_up {s : State} (w : Word) (hc : s.modes.mode ≠ .cold) (hb : s.modes.mode ≠ .banked) :
    exec (.smiEvset w) s = .next { s.evsetWrite w with hrpRvalid := true } := by
  show hostWriteWhen true aEVSET w s = _
  rw [hostWriteWhen_up hc rfl, hostAccess_evset w hb]

/-- Settles O11: each row is a write of SMI_CTL or SMI_EVSET; `State.smithStart_master`, `State.smithStart_anvil` and
`State.smithHalt_between` say what it does to one Smith, `foldl_smiths_get` to the selected ones. -/
theorem hostStartsStopsAndSignalsSmiths : Obligations.HostStartsStopsAndSignalsSmiths := by
  unfold Obligations.HostStartsStopsAndSignalsSmiths
  intro s w c k j ms as entered hc hb
  refine ⟨?msStart, ?msRefused, ?asRefused, ?msRuns, ?asRun, ?msStop, ?asStart, ?asStop, ?evset⟩
  case msStart =>
    rintro rfl hstopped himage
    have hexec := exec_msStart_up hc hb
    rw [State.smithStart_master hstopped himage] at hexec
    refine ⟨_, hexec, ?_, ?_, ?_⟩
    · exact State.onSmith_get s masterSmith _
    · exact State.flag_setFlag (s.onSmith masterSmith _) aSTATE1 18 false (by decide)
    · exact ((onSmith_only s masterSmith _).seq (setFlag_only _ aSTATE1 18 false)).hostOnly
  case msRefused =>
    rintro rfl himage
    have hexec := exec_msStart_up hc hb
    rw [State.smithStart_refused (m := masterSmith) himage] at hexec
    exact ⟨_, hexec, State.flag_setFlag s aLOAD 13 true (by decide), (setFlag_only s aLOAD 13 true).hostOnly⟩
  case asRefused =>
    rintro rfl himage ⟨x, hx⟩
    have hexec := exec_asStart_up hc hb
    obtain ⟨hflag, honly⟩ := foldl_smithStart_refused (l := s.selected) (fun m hm => State.selected_ne_master hm)
      (List.ne_nil_of_mem (State.mem_selected.mpr hx)) himage
    generalize s.selected.foldl (fun s m => s.smithStart m) s = u at hexec hflag honly
    exact ⟨_, hexec, hflag, honly.hostOnly⟩
  case msRuns =>
    rintro rfl himage hrun
    have hexec := exec_msStart_up hc hb
    rw [State.smithStart_notStopped (m := masterSmith) himage hrun] at hexec
    exact ⟨_, hexec, (Only.refl _ s).hostOnly⟩
  case asRun =>
    rintro rfl himage hrun
    have hexec := exec_asStart_up hc hb
    have hstays : s.selected.foldl (fun s m => s.smithStart m) s = s := by
      refine foldl_of_stays _ (fun m hm => ?_)
      obtain ⟨x, hx, rfl⟩ := List.mem_map.mp hm
      have hflag : s.flag aAS_SEL x.val = true := (List.mem_filter.mp hx).2
      have hanvil : isMaster (anvilSmith x) = false := beq_eq_false_iff_ne.mpr (anvilSmith_ne_master x)
      exact State.smithStart_notStopped (by simpa [State.image, hanvil] using himage) (hrun x hflag)
    rw [hstays] at hexec
    exact ⟨_, hexec, (Only.refl _ s).hostOnly⟩
  case msStop =>
    rintro rfl hbetween
    have hexec := exec_msStop_up hc hb
    exact ⟨_, hexec, State.smithHalt_between hbetween, fun c => smithHalt_get_of_ne s (anvilSmith_ne_master c)⟩
  case asStart =>
    rintro rfl hstopped himage
    have hexec := exec_asStart_up hc hb
    have hselected : ∀ x ∈ s.selected, x ≠ masterSmith := fun x hx => State.selected_ne_master hx
    obtain ⟨hc, hm⟩ := foldl_smithStart_anvil hselected s.selected_nodup himage
    generalize s.selected.foldl (fun s m => s.smithStart m) s = u at hexec hc hm
    refine ⟨_, hexec, (hc (anvilSmith c)).trans ?_, hm⟩
    rw [Smith.started, if_pos hstopped]
    exact if_congr State.mem_selected rfl rfl
  case asStop =>
    rintro rfl hbetween
    have hexec := exec_asStop_up hc hb
    obtain ⟨hstopped, hm⟩ := foldl_smithHalt_between (c := c) hbetween
    generalize s.selected.foldl (fun s m => s.smithHalt m) s = u at hexec hstopped hm
    exact ⟨_, hexec, hstopped, hm⟩
  case evset =>
    have hexec := exec_smiEvset_up w hc hb
    have hbits := evsetWrite_evpend s w k
    have honly := evsetWrite_only s w
    generalize s.evsetWrite w = u at hexec hbits honly
    refine ⟨_, hexec, (hbits (13 + j.val)).trans ?_, fun n hn => (hbits n).trans ?_, honly.hostOnly⟩
    · rw [evsetBits_of_ext w j]
      congr 1
      rw [Bool.eq_iff_iff]
      simp only [Bool.and_eq_true, decide_eq_true_eq, mem_evsetTargets]
      exact and_comm
    · rw [evsetBits_of_lt w hn, Bool.and_false, Bool.or_false]

end Sys2Proof.Machine
end

section
/-! SUPPORT. The images of the Smiths: verification and writes of instruction words (02 R95 to R97, 18 R570). -/

namespace Sys2Proof.Machine

/-! ### Images -/

/-- Every Smith of an image is STOPPED. -/
def ImageIdle (s : State) (anvil : Bool) : Prop :=
  if anvil then ∀ c : Chan, s.smiths[anvilSmith c].run = .stopped else s.smiths[masterSmith].run = .stopped

theorem State.imageIdle_iff (s : State) (anvil : Bool) : s.imageIdle anvil = true ↔ ImageIdle s anvil := by
  cases anvil <;> simp [State.imageIdle, ImageIdle, allChans]

/-- The image that `anvil` selects. -/
def State.imageOf (s : State) (anvil : Bool) : Image := if anvil then s.imageAS else s.imageMS

/-- The part of the machine that holds it. -/
def imagePart (anvil : Bool) : Part := if anvil then .imageAS else .imageMS

theorem onImage_only (s : State) (anvil : Bool) (f : Image → Image) : Only (· = imagePart anvil) s (s.onImage anvil f) := by
  intro x hx
  cases anvil <;> cases x <;> first | rfl | exact ⟨rfl, rfl⟩ | exact absurd rfl hx

@[simp] theorem State.imageOf_onImage (s : State) (anvil : Bool) (f : Image → Image) :
    (s.onImage anvil f).imageOf anvil = f (s.imageOf anvil) := by
  cases anvil <;> rfl

/-- An image outside a frame is as before. -/
theorem Only.imageOf {P : Part → Prop} {s t : State} (h : Only P s t) (anvil : Bool) (hP : ¬ P (imagePart anvil)) :
    t.imageOf anvil = s.imageOf anvil := by
  cases anvil
  · exact h .imageMS hP
  · exact h .imageAS hP

theorem imagePart_ne_reg (anvil : Bool) (a : Nat) : imagePart anvil ≠ .reg a := by
  cases anvil <;> exact Part.noConfusion

theorem regHome_aVer (anvil : Bool) : regHome (aVer anvil) = aVer anvil := by
  cases anvil <;> rfl

/-- A cleared acceptance: the version register reads 0, and the image's words stay (R95). -/
theorem clearAccepted_only (s : State) (anvil : Bool) :
    Only (fun x => x = imagePart anvil ∨ x = .reg (aVer anvil)) s (s.clearAccepted anvil) := by
  have h := (onImage_only s anvil (fun i => { i with accepted := false })).seq (wr_only _ (aVer anvil) 0)
  rwa [regHome_aVer] at h

theorem State.clearAccepted_image (s : State) (anvil : Bool) :
    (s.clearAccepted anvil).imageOf anvil = { s.imageOf anvil with accepted := false } := by
  cases anvil <;> rfl

theorem State.clearAccepted_rd (s : State) (anvil : Bool) {a : Nat} (ha : regHome a ≠ aVer anvil) :
    (s.clearAccepted anvil).rd a = s.rd a := by
  rw [State.clearAccepted, State.rd_wr, regHome_aVer, if_neg ha]
  cases anvil <;> rfl

theorem State.clearAccepted_ver (s : State) (anvil : Bool) : (s.clearAccepted anvil).rd (aVer anvil) = 0 := by
  rw [State.clearAccepted, State.rd_wr, if_pos rfl]

theorem regHome_aLOAD_ne (anvil : Bool) : regHome aLOAD ≠ aVer anvil := by
  cases anvil <;> decide

/-! ### GO (R95) -/

/-- The word that GO of an image writes to SMI_LOAD. -/
def goWord (anvil : Bool) : Word := if anvil then 3 else 1

theorem exec_go_up {s : State} (anvil : Bool) (hc : s.modes.mode ≠ .cold) (hb : s.modes.mode ≠ .banked) :
    exec (.go (goWord anvil)) s = .next { s.loadWrite (goWord anvil) with hrpRvalid := true } := by
  show hostWriteWhen (wbit (goWord anvil) 0) aLOAD (goWord anvil) s = _
  rw [hostWriteWhen_up hc (by cases anvil <;> rfl), hostAccess_global (goWord anvil) hb (by decide +kernel)]
  rfl

/-- SMI_LOAD names the target of a GO. -/
theorem State.typed_load_target (s : State) (anvil : Bool) : (s.typed aLOAD (goWord anvil)).flag aLOAD 1 = anvil := by
  rw [State.flag, State.typed_plain_rd (r := { rw := 0x2, w1c := 0x3000 }) rfl rfl (by simp), wbit_eq_getLsbD]
  cases anvil <;> simp [goWord]

theorem State.typed_imageIdle (s : State) (anvil : Bool) (w : Word) : (s.typed aLOAD w).imageIdle anvil = s.imageIdle anvil := by
  have hsmiths : (s.typed aLOAD w).smiths = s.smiths := rfl
  simp only [State.imageIdle, hsmiths]

/-- GO with no verification running: it begins one where every Smith of the target is STOPPED, else it sets STATUS 6. -/
theorem State.loadWrite_go {s : State} (anvil : Bool) (h : s.verify = none) :
    s.loadWrite (goWord anvil) =
      if s.imageIdle anvil then
        { ((s.typed aLOAD (goWord anvil)).setFld aLOAD 6 4 1).clearAccepted anvil with verify := some anvil }
      else (s.typed aLOAD (goWord anvil)).setFld aLOAD 6 4 6 := by
  have hgo : wbit (goWord anvil) 0 = true := by cases anvil <;> rfl
  have hver : (s.typed aLOAD (goWord anvil)).verify = none := h
  simp only [State.loadWrite, hgo, hver, State.typed_load_target, State.typed_imageIdle, Bool.not_true, Option.isSome_none,
    Bool.or_self, Bool.false_eq_true, if_false]

theorem verify_only (s : State) (x : Option Bool) : Only (· = .verify) s { s with verify := x } := by
  intro y hy; cases y <;> first | rfl | exact ⟨rfl, rfl⟩ | exact absurd rfl hy

/-! ### Instruction words (18 R570) -/

/-- The host's address of word `i` of an instruction memory. -/
def imemWordAddr (anvil : Bool) (i : Nat) : BitVec 24 := BitVec.ofNat 24 ((if anvil then 0x110000 else 0x100000) + 4 * i)

theorem imemWordAddr_ms {i : Nat} (hi : i < if false then 0x1000 else 0x2000) : (imemWordAddr false i).toNat = 0x100000 + 4 * i := by
  simp only [imemWordAddr, Bool.false_eq_true, if_false, BitVec.toNat_ofNat] at hi ⊢
  omega

theorem imemWordAddr_as {i : Nat} (hi : i < if true then 0x1000 else 0x2000) : (imemWordAddr true i).toNat = 0x110000 + 4 * i := by
  simp only [imemWordAddr, if_true, BitVec.toNat_ofNat] at hi ⊢
  omega

/-- A write of an instruction word reaches its memory (Table 18.13). -/
theorem State.windowWrite_imem (s : State) {anvil : Bool} {i : Nat} (w : Word) (hi : i < if anvil then 0x1000 else 0x2000) :
    s.windowWrite (imemWordAddr anvil i).toNat w = s.imemWrite anvil i w := by
  cases anvil
  · rw [imemWordAddr_ms hi]
    simp only [Bool.false_eq_true, if_false] at hi
    rw [State.windowWrite, if_neg (by omega), if_pos (by omega), show (0x100000 + 4 * i - 0x100000) / 4 = i by omega]
  · rw [imemWordAddr_as hi]
    simp only [if_true] at hi
    rw [State.windowWrite, if_neg (by omega), if_neg (by omega), if_neg (by omega), if_pos (by omega),
      show (0x110000 + 4 * i - 0x110000) / 4 = i by omega]

/-- INSTRUCTION_MEMORY_WRITE outside COLD and BANKED. -/
theorem exec_instructionMemoryWrite_up {s : State} {anvil : Bool} {i : Nat} (w : Word) (hi : i < if anvil then 0x1000 else 0x2000)
    (hc : s.modes.mode ≠ .cold) (hb : s.modes.mode ≠ .banked) :
    exec (.instructionMemoryWrite (imemWordAddr anvil i) w) s = .next { s.imemWrite anvil i w with hrpRvalid := true } := by
  have hrange : imemAddr (imemWordAddr anvil i).toNat = true ∧ windowAt (imemWordAddr anvil i).toNat = true ∧
      (imemWordAddr anvil i).toNat % 4 = 0 := by
    simp only [imemAddr, windowAt, Bool.or_eq_true, decide_eq_true_eq]
    cases anvil
    · rw [imemWordAddr_ms hi]
      simp only [Bool.false_eq_true, if_false] at hi
      omega
    · rw [imemWordAddr_as hi]
      simp only [if_true] at hi
      omega
  obtain ⟨haddr, hwin, h4⟩ := hrange
  have hcause : s.hostCause true (imemWordAddr anvil i).toNat = none :=
    State.hostCause_of_populated true h4 (by rw [populatedAt, hwin, Bool.true_or]) hb
  show hostWriteWhen (imemAddr (imemWordAddr anvil i).toNat) _ w s = _
  rw [hostWriteWhen_up hc haddr]
  simp only [State.hostAccess, State.hostWrite, hcause, State.regWrite, hwin, if_true, State.windowWrite_imem s w hi]

/-! ### VERIFY_END (R96, R97) -/

/-- VERIFY_END of a running verification while the core has power. -/
theorem exec_verifyEnd_running {s : State} {anvil : Bool} (reference : Bool) (hg : s.modes.gated = false)
    (hv : s.verify = some anvil) : exec (.verifyEnd reference) s = .next (s.endVerify anvil reference) := by
  show execVerifyEnd reference s = _
  simp only [execVerifyEnd, hg, hv, Bool.false_eq_true, if_false]

/-- The status of a verification that has ended, with no verification running. -/
def State.verifySettled (s : State) (status : Nat) : State := { s.setFld aLOAD 6 4 status with verify := none }

theorem State.verifySettled_rd (s : State) (status : Nat) {a : Nat} (ha : regHome a ≠ regHome aLOAD) : (s.verifySettled status).rd a = s.rd a := by
  show (s.setFld aLOAD 6 4 status).rd a = s.rd a
  rw [State.setFld_eq_wr, State.rd_wr, if_neg ha]

theorem State.verifySettled_status (s : State) (status : Nat) : (s.verifySettled status).fld aLOAD 6 4 = status % 8 := by
  show (s.setFld aLOAD 6 4 status).fld aLOAD 6 4 = _
  exact State.fld_setFld _ _ _ _ _ (by decide) (by decide)

/-- A good header with a matching tag accepts the image (R96, R97). -/
theorem State.endVerify_accepted {s : State} {anvil : Bool} (reference : Bool) (hh : s.headerGood anvil = true)
    (ht : s.tagMatches anvil = true) : s.endVerify anvil reference = (s.verifySettled 2).acceptImage anvil reference := by
  have hv : s.verdictOf anvil = 2 := by simp only [State.verdictOf, hh, ht, Bool.not_true, Bool.false_eq_true, if_false, if_true]
  simp only [State.endVerify, hv, State.verifySettled]
  rfl

/-- A bad header leaves the image not accepted (R96). -/
theorem State.endVerify_badHeader {s : State} {anvil : Bool} (reference : Bool) (hh : s.headerGood anvil = false) :
    s.endVerify anvil reference = (s.verifySettled 5).clearAccepted anvil := by
  have hv : s.verdictOf anvil = 5 := by simp only [State.verdictOf, hh, Bool.not_false, if_true]
  simp only [State.endVerify, hv, State.verifySettled]
  rfl

/-- The entry of a good header lies inside the instruction memory. -/
theorem State.hdrEntry_lt {s : State} {anvil : Bool} (hh : s.headerGood anvil = true) : s.hdrEntry < 2 ^ 13 := by
  simp only [State.headerGood, Bool.and_eq_true, decide_eq_true_eq] at hh
  obtain ⟨-, -, hlen, hentry⟩ := hh
  split at hlen <;> omega

/-- An accepted image takes LENGTH and ENTRY of its header, and its version register header bytes 12 to 15 (R97). -/
theorem acceptImage_settled (s : State) (anvil reference : Bool) :
    let t := (s.verifySettled 2).acceptImage anvil reference
    t.fld aLOAD 6 4 = 2 ∧ t.imageOf anvil = { s.imageOf anvil with
      accepted := true, length := s.hdrLength, entry := BitVec.ofNat 13 s.hdrEntry, reference := reference } ∧
    t.rd (aVer anvil) = s.rd (aHDR 3) ∧ t.verify = none ∧ t.faults = s.faults := by
  have hhdr1 : (s.verifySettled 2).rd (aHDR 1) = s.rd (aHDR 1) := State.verifySettled_rd s 2 (by decide)
  have hhdr2 : (s.verifySettled 2).rd (aHDR 2) = s.rd (aHDR 2) := State.verifySettled_rd s 2 (by decide)
  have hhdr3 : (s.verifySettled 2).rd (aHDR 3) = s.rd (aHDR 3) := State.verifySettled_rd s 2 (by decide)
  have hlen : (s.verifySettled 2).hdrLength = s.hdrLength := by simp only [State.hdrLength, State.fld, hhdr1]
  have hentry : (s.verifySettled 2).hdrEntry = s.hdrEntry := by simp only [State.hdrEntry, State.fld, hhdr2]
  refine ⟨?_, ?_, ?_, ?_, ?_⟩
  · rw [State.fld, State.acceptImage, State.rd_wr, regHome_aVer, if_neg (regHome_aLOAD_ne anvil)]
    refine Eq.trans ?_ (State.verifySettled_status s 2)
    cases anvil <;> rfl
  · rw [← hlen, ← hentry]
    cases anvil <;> rfl
  · rw [State.acceptImage, State.rd_wr, if_pos rfl]
    exact hhdr3
  · cases anvil <;> rfl
  · cases anvil <;> rfl

/-- Settles O12: `State.loadWrite_go` for GO, `exec_instructionMemoryWrite_up` for instruction words,
`State.endVerify_accepted` and `State.endVerify_badHeader` for VERIFY_END. -/
theorem imageVerificationAcceptsOrRefuses : Obligations.ImageVerificationAcceptsOrRefuses := by
  unfold Obligations.ImageVerificationAcceptsOrRefuses
  intro s anvil reference w i image idle
  refine ⟨fun hc hb => ⟨?go, ?word⟩, fun hg hv => ⟨?accepted, ?badHeader⟩⟩
  case go =>
    intro hw hnone
    obtain rfl : w = goWord anvil := hw
    have hexec := exec_go_up anvil hc hb
    have htyped := typed_only s aLOAD (goWord anvil)
    rw [State.loadWrite_go anvil hnone] at hexec
    constructor
    · intro hidle
      rw [if_pos ((State.imageIdle_iff s anvil).mpr hidle)] at hexec
      have hstatus := htyped.trans (setFld_only _ aLOAD 6 4 1)
      have himage := State.clearAccepted_image ((s.typed aLOAD (goWord anvil)).setFld aLOAD 6 4 1) anvil
      rw [hstatus.imageOf anvil (imagePart_ne_reg anvil _)] at himage
      have hfld : (((s.typed aLOAD (goWord anvil)).setFld aLOAD 6 4 1).clearAccepted anvil).fld aLOAD 6 4 = 1 := by
        rw [State.fld, State.clearAccepted_rd _ anvil (regHome_aLOAD_ne anvil)]
        exact State.fld_setFld _ _ _ _ _ (by decide) (by decide)
      have honly := hstatus.seq (clearAccepted_only _ anvil)
      generalize ((s.typed aLOAD (goWord anvil)).setFld aLOAD 6 4 1).clearAccepted anvil = u at hexec himage hfld honly
      refine ⟨_, hexec, rfl, hfld, congrArg Image.accepted himage, ?_, ?_⟩
      · show (u.imageOf anvil).mem = (s.imageOf anvil).mem
        rw [himage]
      refine ((honly.seq (verify_only u (some anvil))).mono (fun x hx => ?_)).hostOnly
      rcases hx with (hx | hx | hx) | hx
      · exact .inr (.inl hx)
      · exact .inr (.inr (.inl hx))
      · exact .inr (.inr (.inr hx))
      · exact .inl hx
    · intro hidle
      rw [if_neg (fun h => hidle ((State.imageIdle_iff s anvil).mp h))] at hexec
      have hfld : ((s.typed aLOAD (goWord anvil)).setFld aLOAD 6 4 6).fld aLOAD 6 4 = 6 :=
        State.fld_setFld _ _ _ _ _ (by decide) (by decide)
      have honly := htyped.trans (setFld_only _ aLOAD 6 4 6)
      generalize (s.typed aLOAD (goWord anvil)).setFld aLOAD 6 4 6 = u at hexec hfld honly
      exact ⟨_, hexec, hfld, honly.hostOnly⟩
  case word =>
    intro hi addr
    have hexec := exec_instructionMemoryWrite_up w hi hc hb
    constructor
    · intro hidle hver
      have hopen : (s.imageIdle anvil && s.verify != some anvil) = true := by
        rw [(State.imageIdle_iff s anvil).mpr hidle, Bool.true_and, bne_iff_ne]
        exact hver
      have himage := State.clearAccepted_image (s.onImage anvil (fun x => { x with mem := x.mem.set i w })) anvil
      rw [State.imageOf_onImage] at himage
      have honly := (onImage_only s anvil (fun x => { x with mem := x.mem.set i w })).seq (clearAccepted_only _ anvil)
      rw [State.imemWrite, if_pos hopen] at hexec
      generalize (s.onImage anvil (fun x => { x with mem := x.mem.set i w })).clearAccepted anvil = u at hexec himage honly
      refine ⟨_, hexec, fun k => ?_, congrArg Image.accepted himage, (honly.mono (fun x hx => ?_)).hostOnly⟩
      · exact (congrArg (fun x : Image => x.mem.get k) himage).trans (WMem.get_set _ _ _ _)
      · exact hx.elim .inl id
    · intro hbusy
      have hshut : ¬ (s.imageIdle anvil && s.verify != some anvil) = true := by
        rw [Bool.and_eq_true, bne_iff_ne, State.imageIdle_iff]
        exact fun h => hbusy.elim (fun hn => hn h.1) h.2
      rw [State.imemWrite, if_neg hshut] at hexec
      exact ⟨_, hexec, State.flag_setFlag s aLOAD 12 true (by decide), (setFlag_only s aLOAD 12 true).hostOnly⟩
  case accepted =>
    intro hh ht
    have hexec := exec_verifyEnd_running reference hg hv
    rw [State.endVerify_accepted reference hh ht] at hexec
    obtain ⟨hstatus, himage, hver, hdone, hfaults⟩ := acceptImage_settled s anvil reference
    generalize (s.verifySettled 2).acceptImage anvil reference = u at hexec hstatus himage hver hdone hfaults
    refine ⟨u, hexec, hstatus, hdone, congrArg Image.accepted himage, congrArg Image.length himage, ?_, ?_, hver, hfaults⟩
    · refine (congrArg (fun x : Image => x.entry.toNat) himage).trans ?_
      rw [BitVec.toNat_ofNat, Nat.mod_eq_of_lt (State.hdrEntry_lt hh)]
    · show (u.imageOf anvil).mem = (s.imageOf anvil).mem
      rw [himage]
  case badHeader =>
    intro hh
    have hexec := exec_verifyEnd_running reference hg hv
    rw [State.endVerify_badHeader reference hh] at hexec
    refine ⟨_, hexec, ?_, ?_, congrArg Image.accepted (State.clearAccepted_image _ anvil), State.clearAccepted_ver _ anvil, ?_⟩
    · rw [State.fld, State.clearAccepted_rd _ anvil (regHome_aLOAD_ne anvil)]
      exact State.verifySettled_status s 5
    · exact clearAccepted_only (s.verifySettled 5) anvil .verify (by cases anvil <;> simp [imagePart])
    · exact clearAccepted_only (s.verifySettled 5) anvil .faults (by cases anvil <;> simp [imagePart])

end Sys2Proof.Machine
end

section
/-! SUPPORT. DRAM commands and pauses of a Smith (02 R69 to R80). -/

namespace Sys2Proof.Machine

/-! ### CMD (R71 to R74) -/

/-- What Table 2.13 permits, as the model decides it. -/
theorem State.cmdPermitted_of_allowed {s : State} {m : SmithId} {c : Chan} {k : Code} {op : Nat} (h : cmdAllowed s m c k op) :
    s.cmdPermitted m c (some k) op = true := by
  have hfree : (k = .mrr ∨ (k = .mpc ∧ Config.oscOps.contains op = true)) → freeCode (some k) op = true := by
    rintro (rfl | ⟨rfl, hop⟩)
    · rfl
    · exact hop
  have hplain : ¬ (k = .sre ∨ k = .srx ∨ k = .pde ∨ k = .pdx) → powerCode (some k) = false := fun hk => by
    cases k <;> simp_all [powerCode]
  simp only [State.cmdPermitted, State.bankSteps, State.inService, Bool.or_eq_true, Bool.and_eq_true, beq_iff_eq, Bool.not_eq_true']
  rcases h with h | h | h | ⟨hmode, h⟩
  · exact .inl (.inl h)
  · exact .inl (.inr (.inl h))
  · exact .inl (.inr (.inr h))
  · refine .inr ⟨?_, h.imp hfree (fun ⟨hk, hpaused⟩ => ⟨hpaused, hplain hk⟩)⟩
    rcases hmode with h | h | h
    · exact .inl (.inl h)
    · exact .inl (.inr h)
    · exact .inr h

/-- CODE of a command word (Table 2.11). -/
theorem codeOf_wbits (w : Word) : codeOf (wbits w 31 28) = codeOf (w.toNat / 2 ^ 28) := by
  have := w.isLt
  have hcode : wbits w 31 28 = w.toNat / 2 ^ 28 := by
    simp only [wbits, bits]
    omega
  rw [hcode]

/-- A permitted CMD on the channel that its immediate names is sent, or refused for its parity. -/
theorem exec_cmd {s : State} {m : SmithId} {d a : RegNo} {imm : BitVec 14} {c : Chan} {k : Code}
    (h : s.ready m { op := 0x28, d := some d, a := some a, imm := some imm } = true) (hc : chanFor m (imm.toNat % 32) = some c)
    (hk : codeOf ((s.g m a).toNat / 2 ^ 28) = some k) (hallowed : cmdAllowed s m c k ((s.g m a).toNat % 256)) :
    exec (.cmd m d a imm) s = .next
      (if evenOnes (s.g m a) then s.cmdSend m c d k (s.g m a) else s.cmdRefused m c d (s.g m a) 4) := by
  have hcode := (codeOf_wbits (s.g m a)).trans hk
  have hpermitted : s.cmdPermitted m c (some k) (wbits (s.g m a) 7 0) = true :=
    State.cmdPermitted_of_allowed (by rwa [wbits_zero])
  show execCmd m d a imm s = _
  rw [execCmd, h, occur_true, State.withChan_some (x := uimm imm % 32) _ hc]
  simp only [State.cmdOn, hcode, hpermitted]
  cases evenOnes (s.g m a) <;> rfl

theorem insert7_only (s : State) (c : Chan) (l : Cmd) : Only (· = .anvil c) s (s.insert7 c l) := onAnvil_only s c _

/-- The heat-7 work of an anvil after an insertion (R72). -/
theorem State.insert7_heat7 (s : State) (c : Chan) (l : Cmd) :
    (s.insert7 c l).anvils[c].heat7.map Prod.fst = s.anvils[c].heat7.map Prod.fst ++
      [{ l with bound := (l.code == .mrr || l.code == .mpc) && !s.heldAny c }] := by
  rw [State.insert7, State.onAnvil_get]
  simp [Anvil.push7]

theorem State.insert7_hist (s : State) (c : Chan) (l : Cmd) : (s.insert7 c l).anvils[c].hist = s.anvils[c].hist := by
  rw [State.insert7, State.onAnvil_get, Anvil.push7]

/-- A CMD with even parity, a fifth MRR excepted, waits at heat 7 and so does its Smith (R72). -/
theorem cmdSend_waits {s : State} {m : SmithId} {c : Chan} (d : RegNo) {k : Code} (w : Word)
    (h : ¬ (k = .mrr ∧ 4 ≤ s.smiths[m].mrrOn c)) :
    Only (fun p => p = .smith m ∨ p = .anvil c) s (s.cmdSend m c d k w) ∧
      (s.cmdSend m c d k w).smiths[m] = { s.smiths[m] with run := .waiting, wait := some (.cmd d c) } ∧
      (s.cmdSend m c d k w).anvils[c].heat7.map Prod.fst = s.anvils[c].heat7.map Prod.fst ++
        [{ cmdOfWord k w (.smith m) with bound := (k == .mrr || k == .mpc) && !s.heldAny c }] ∧
      (s.cmdSend m c d k w).anvils[c].hist = s.anvils[c].hist := by
  have hsend : s.cmdSend m c d k w = (s.smithWait m (.cmd d c)).insert7 c (cmdOfWord k w (.smith m)) := if_neg h
  rw [hsend]
  exact ⟨(smithWait_only s m _).seq (insert7_only _ c _), (insert7_only _ c _ (.smith m) (by simp)).trans (State.smithWait_get s m _),
    State.insert7_heat7 _ c _, State.insert7_hist _ c _⟩

/-- The frame of the record of a command error. -/
def cmdErrorParts (c : Chan) (x : Part) : Prop :=
  x = .reg (regHome (aCMDERR c.val)) ∨ x = .smith masterSmith ∨ x = .smith (anvilSmith c)

theorem recordCmdError_only (s : State) (c : Chan) (cause : Nat) : Only (cmdErrorParts c) s (s.recordCmdError c cause) := by
  have hreg : ∀ u v : State, Only (· = .reg (regHome (aCMDERR c.val))) u v → Only (cmdErrorParts c) u v :=
    fun _ _ h => h.mono (fun _ h => .inl h)
  have hfirst : Only (cmdErrorParts c) s (if s.flag (aCMDERR c.val) 31 then s
      else (s.setFld (aCMDERR c.val) 3 0 cause).setFlag (aCMDERR c.val) 31 true) :=
    Only.ite (Only.refl _ s) ((hreg _ _ (setFld_only s _ _ _ _)).trans (hreg _ _ (setFlag_only _ _ _ _)))
  unfold State.recordCmdError State.eventBoth
  exact ((hfirst.trans (hreg _ _ (count_only _ _ _ _))).trans ((eventMS_only _ 7).mono (fun _ h => .inr (.inl h)))).trans
    ((event_only _ (anvilSmith c) 7).mono (fun _ h => .inr (.inr h)))

/-- A Smith that has received an event is as before but for its pending events. -/
theorem State.event_eventsApart (s : State) (m n : SmithId) (k : Nat) : s.smiths[n].EventsApart (s.event m k).smiths[n] := by
  rw [State.event, State.onSmith_smiths, upd_get]
  split
  case isTrue h => exact ⟨_, by rw [h]⟩
  case isFalse => exact .refl _

theorem Smith.EventsApart.trans {h h' h'' : Smith} (a : h.EventsApart h') (b : h'.EventsApart h'') : h.EventsApart h'' := by
  obtain ⟨e, rfl⟩ := a
  obtain ⟨e', rfl⟩ := b
  exact ⟨e', rfl⟩

/-- The record of a command error gives Smiths events alone. -/
theorem recordCmdError_eventsApart (s : State) (c : Chan) (cause : Nat) (m : SmithId) :
    s.smiths[m].EventsApart (s.recordCmdError c cause).smiths[m] := by
  have hsmiths : (((if s.flag (aCMDERR c.val) 31 then s
      else (s.setFld (aCMDERR c.val) 3 0 cause).setFlag (aCMDERR c.val) 31 true)).count (aCMDERR c.val) 23 16).smiths = s.smiths := by
    split <;> rfl
  have hfirst := State.event_eventsApart (((if s.flag (aCMDERR c.val) 31 then s
    else (s.setFld (aCMDERR c.val) 3 0 cause).setFlag (aCMDERR c.val) 31 true)).count (aCMDERR c.val) 23 16) masterSmith m 7
  rw [hsmiths] at hfirst
  exact hfirst.trans (State.event_eventsApart _ (anvilSmith c) m 7)

/-- A CMD refused for its parity on a populated channel sends fault 0x05 and returns 1 (R73). -/
theorem cmdRefused_parity {s : State} {m : SmithId} {c : Chan} (d : RegNo) (w : Word) (hp : s.populated c.val = true)
    (hgo : GoesOn s m (s.smiths[m].pc.toNat + 1)) :
    (s.cmdRefused m c d w 4).anvils[c].heat7 = s.anvils[c].heat7 ∧
      (s.cmdRefused m c d w 4).g m d = (if d = 0 then 0 else 1) ∧
      ∃ e, (s.cmdRefused m c d w 4).faults.arriving = s.faults.arriving ++ [e] ∧ e.kind = 0x05 ∧ e.source = BitVec.ofNat 8 c.val := by
  obtain ⟨sent, hsent⟩ : ∃ u, u = s.send c.val 0x05 sevUncorrected 0 (4 + wbits w 26 26 * 2 ^ 4 + wbits w 25 22 * 2 ^ 5) := ⟨_, rfl⟩
  have herror : s.cmdError c 4 sevUncorrected 0 (wbits w 26 26) (wbits w 25 22) = sent.recordCmdError c 4 := by
    rw [hsent, State.cmdError, if_pos hp]
  have hsend : Only (· = .faults) s sent := by
    rw [hsent]
    exact send_only s _ _ _ _ _
  have hrecord := recordCmdError_only sent c 4
  obtain ⟨ev, hev⟩ := recordCmdError_eventsApart sent c 4 m
  rw [hsend (.smith m) (by simp)] at hev
  have hfin := hgo.setDone (u := sent.recordCmdError c 4) (by rw [hev]) (by rw [hev])
    ((hrecord.image (by simp [cmdErrorParts]) (by simp [cmdErrorParts]) m).trans (hsend.image (by simp) (by simp) m)) d 1
  have hrefused : s.cmdRefused m c d w 4 = (sent.recordCmdError c 4).setDone m d 1 := by
    rw [State.cmdRefused, herror]
    rfl
  have hfaults : ((sent.recordCmdError c 4).setDone m d 1).faults = sent.faults :=
    (hfin.only .faults (by simp)).trans (hrecord .faults (by simp [cmdErrorParts]))
  have hanvil : ((sent.recordCmdError c 4).setDone m d 1).anvils[c] = s.anvils[c] :=
    (hfin.only (.anvil c) (by simp)).trans ((hrecord (.anvil c) (by simp [cmdErrorParts])).trans (hsend (.anvil c) (by simp)))
  rw [hrefused, hanvil]
  exact ⟨rfl, hfin.dest, _, congrArg FaultUnit.arriving (hfaults.trans (congrArg State.faults hsent)), rfl, rfl⟩

/-! ### RDMR (R75) -/

/-- The oldest result of a channel leaves the list. -/
theorem takeMrr_oldest {c : Chan} {x : Option (BitVec 16)} {after : List MrrResult} :
    ∀ before : List MrrResult, (∀ r ∈ before, r.chan ≠ c) → takeMrr c (before ++ { chan := c, value := x } :: after) = before ++ after := by
  intro before
  induction before with
  | nil => exact fun _ => if_pos rfl
  | cons r l ih =>
    intro h
    obtain ⟨hr, hl⟩ := List.forall_mem_cons.mp h
    exact (if_neg hr).trans (congrArg (r :: ·) (ih hl))

/-- The oldest result of a channel is what an RDMR finds. -/
theorem find?_mrr_oldest {c : Chan} {r : MrrResult} {before after : List MrrResult} (hr : r.chan = c)
    (h : ∀ r ∈ before, r.chan ≠ c) : (before ++ r :: after).find? (fun r => r.chan == c) = some r := by
  have hnone : before.find? (fun r => r.chan == c) = none := by simpa [List.find?_eq_none] using h
  rw [List.find?_append, hnone, Option.none_or, List.find?_cons_of_pos (by simpa using hr)]

/-- A Smith that waits in an RDMR whose oldest result has crossed takes it and goes on (R75). -/
theorem State.rdmrDone_of_result {s : State} {m : SmithId} {c : Chan} {d : RegNo} {x : BitVec 16} {before after : List MrrResult}
    (hwait : s.smiths[m].wait = some (.rdmr d c)) (hbefore : ∀ r ∈ before, r.chan ≠ c)
    (hmrr : s.smiths[m].mrr = before ++ { chan := c, value := some x } :: after) :
    s.rdmrDone m c = (s.onSmith m (fun h => { h with mrr := before ++ after })).setDone m d (x.setWidth 32) := by
  have hfind := find?_mrr_oldest (after := after) (r := { chan := c, value := some x }) rfl hbefore
  have htake := takeMrr_oldest (x := some x) (after := after) before hbefore
  rw [State.rdmrDone, hwait, hmrr, hfind]
  refine (if_pos rfl).trans ?_
  rw [State.onSmith_congr (f := fun h => { h with mrr := takeMrr c h.mrr })
    (g := fun h => { h with mrr := before ++ after }) (by rw [hmrr, htake])]
  rfl

/-- RDMR of a channel with a result that has crossed. -/
theorem exec_rdmr_result {s : State} {m : SmithId} {d : RegNo} {imm : BitVec 14} {c : Chan} {x : BitVec 16}
    {before after : List MrrResult} (h : s.ready m { op := 0x29, d := some d, imm := some imm } = true)
    (hc : chanFor m (imm.toNat % 32) = some c) (hbefore : ∀ r ∈ before, r.chan ≠ c)
    (hmrr : s.smiths[m].mrr = before ++ { chan := c, value := some x } :: after) :
    exec (.rdmr m d imm) s = .next
      (((s.smithWait m (.rdmr d c)).onSmith m (fun h => { h with mrr := before ++ after })).setDone m d (x.setWidth 32)) := by
  have hon : s.smiths[m].mrrOn c ≠ 0 := by
    rw [Smith.mrrOn, hmrr]
    simp
  have hwaits := State.smithWait_get s m (.rdmr d c)
  show execRdmr m d imm s = _
  rw [execRdmr, h, occur_true, State.withChan_some (x := uimm imm % 32) _ hc, State.rdmrOn, if_neg hon,
    State.rdmrDone_of_result (d := d) (by rw [hwaits]) hbefore (by rw [hwaits]; exact hmrr)]

/-! ### Pauses (R76 to R80) -/

theorem applyZq_only (s : State) (c : Chan) : Only (· = .anvil c) s (s.applyZq c) := onAnvil_only s c _

/-- New ZQ codes touch neither the pauses of a channel nor its time. -/
theorem State.applyZq_granted (s : State) (c : Chan) : (s.applyZq c).anvils[c].granted = s.anvils[c].granted := by
  rw [State.applyZq, State.onAnvil_get]
  split <;> rfl

/-- PAUSE of 1 to 512 CK by a Smith that has no pause on the channel. -/
theorem exec_pause {s : State} {m : SmithId} {d a : RegNo} {imm : BitVec 14} {now : Nat} {c : Chan}
    (h : s.ready m { op := 0x2C, d := some d, a := some a, imm := some imm } = true)
    (hc : chanFor m ((s.g m a).toNat % 32) = some c) (hlo : 1 ≤ imm.toNat) (hhi : imm.toNat ≤ 512) (hp : s.pausedBy m c = false) :
    exec (.pause m d a imm now) s = .next
      (if s.modes.mode = .kindle then (s.at now).pauseNow m d imm.toNat c else (s.at now).pauseAsk m d imm.toNat c) := by
  have hchan : chanFor m (wbits (s.g m a) 4 0) = some c := by rwa [wbits_zero]
  have hgood : ¬ (imm.toNat = 0 ∨ 512 < imm.toNat ∨ (s.at now).pausedBy m c = true) := by
    have hp' : (s.at now).pausedBy m c = false := hp
    rw [hp']
    simp
    omega
  exact congrArg Host.Outcome.next ((timed_pos h).trans ((State.withChan_some _ hchan).trans (if_neg hgood)))

/-- An anvil after a pause that is granted at once. -/
theorem pauseNow_spec {s : State} {m : SmithId} (d : RegNo) (n : Nat) (c : Chan) (hgo : GoesOn s m (s.smiths[m].pc.toNat + 1)) :
    (s.pauseNow m d n c).anvils[c].granted = s.anvils[c].granted ++ [{ smith := m, n := n, start := s.anvils[c].ck }] ∧
      (s.pauseNow m d n c).g m d = (if d = 0 then 0 else BitVec.ofNat 32 s.timebase) ∧
      (s.pauseNow m d n c).smiths[m].run = .running ∧ (s.pauseNow m d n c).smiths[m].pc = wrapPc m (s.smiths[m].pc.toNat + 1) ∧
      Only (fun p => p = .smith m ∨ p = .anvil c) s (s.pauseNow m d n c) := by
  obtain ⟨u, hu⟩ : ∃ u, u = (s.onAnvil c (fun v =>
    let v := (v.owe m).unplace
    { v with granted := v.granted ++ [{ smith := m, n := n, start := v.ck }] })).applyZq c := ⟨_, rfl⟩
  have honly : Only (· = .anvil c) s u := by
    rw [hu]
    exact (onAnvil_only s c _).trans (applyZq_only _ c)
  have hgranted : u.anvils[c].granted = s.anvils[c].granted ++ [{ smith := m, n := n, start := s.anvils[c].ck }] := by
    rw [hu, State.applyZq_granted, State.onAnvil_get]
    rfl
  have hfin := hgo.setDone_of_only honly (by simp) (by simp) (by simp) d (BitVec.ofNat 32 s.timebase)
  have hnow : s.pauseNow m d n c = u.setDone m d (BitVec.ofNat 32 s.timebase) := by
    rw [hu]
    rfl
  rw [hnow]
  refine ⟨?_, hfin.dest, hfin.run, hfin.pc, (honly.seq hfin.only).mono (fun _ h => h.symm)⟩
  have hanvil : (u.setDone m d (BitVec.ofNat 32 s.timebase)).anvils[c] = u.anvils[c] := hfin.only (.anvil c) (by simp)
  rw [hanvil, hgranted]

/-- ENDP of a pause that is owed (R78 to R80). -/
theorem exec_endp {s : State} {m : SmithId} {d a : RegNo} {c : Chan} {expired : Bool}
    (h : s.ready m { op := 0x2D, d := some d, a := some a } = true) (hc : chanFor m ((s.g m a).toNat % 32) = some c)
    (howed : s.anvils[c].owed.find? (fun o => o.1 == m) = some (m, expired)) :
    exec (.endp m d a) s = .next ((s.onAnvil c (fun v =>
      let v := v.endPause m
      { v with owed := v.owed.filter (fun x => x.1 != m) })).setDone m d (flagWord (expired && s.modes.mode != .kindle))) := by
  have hchan : chanFor m (wbits (s.g m a) 4 0) = some c := by rwa [wbits_zero]
  show execEndp m d a s = _
  rw [execEndp, h, occur_true, State.withChan_some _ hchan, State.endpOn, howed]

/-- Settles O6: `cmdSend_waits` and `cmdRefused_parity` for CMD, `exec_rdmr_result` for RDMR, `pauseNow_spec` for a pause in
KINDLE, `exec_endp` for ENDP. -/
theorem smithDramCommandAndPauseInstructions : Obligations.SmithDramCommandAndPauseInstructions := by
  unfold Obligations.SmithDramCommandAndPauseInstructions
  intro s m d a imm c now w next here hgo
  refine ⟨?cmd, ?rdmr, ?pause, ?endp⟩
  case cmd =>
    intro k hready hc hk hallowed
    have hexec := exec_cmd hready hc hk hallowed
    constructor
    · intro heven hfifth
      rw [if_pos heven] at hexec
      exact ⟨_, hexec, cmdSend_waits d w hfifth⟩
    · intro hodd hp
      rw [if_neg (ne_true_of_eq_false hodd)] at hexec
      exact ⟨_, hexec, cmdRefused_parity d w hp hgo⟩
  case rdmr =>
    intro x before after hready hc hbefore hmrr
    have hsmith := (State.onSmith_get (s.smithWait m (.rdmr d c)) m (fun h => { h with mrr := before ++ after }))
    rw [State.smithWait_get] at hsmith
    have hfin := hgo.setDone (u := (s.smithWait m (.rdmr d c)).onSmith m (fun h => { h with mrr := before ++ after }))
      (by rw [hsmith]) (by rw [hsmith]) (by rw [State.image_onSmith]; exact State.image_onSmith s m m _) d (x.setWidth 32)
    refine ⟨_, exec_rdmr_result hready hc hbefore hmrr, hfin.dest, ?_, hfin.run, hfin.pc, ?_⟩
    · rw [hfin.smith, hsmith]
    · exact ((smithWait_only s m _).trans (onSmith_only _ m _)).trans hfin.only
  case pause =>
    intro hready hc hlo hhi hp
    have hexec := exec_pause (now := now) hready hc hlo hhi hp
    have hat : Only (fun p => p = .smith m ∨ p = .anvil c ∨ p = .time) s (s.at now) :=
      (at_only s now).mono (fun _ h => .inr (.inr h))
    constructor
    · intro hkindle
      rw [if_pos hkindle] at hexec
      obtain ⟨hgranted, hg, hrun, hpc, honly⟩ := pauseNow_spec (s := s.at now) d imm.toNat c (hgo.at now)
      exact ⟨_, hexec, hgranted, hg, hrun, hpc, hat.trans (honly.mono (fun _ h => h.imp_right .inl))⟩
    · intro hservice hstep
      have hkindle : s.modes.mode ≠ .kindle := by
        rcases hservice with h | h <;> rw [h] <;> decide
      have hprep : (!(s.at now).inService || (s.at now).bankSteps) = false := by
        have hin : s.inService = true := by rcases hservice with h | h <;> simp [State.inService, h]
        have hbank : s.bankSteps = false := by simp [State.bankSteps, hstep]
        rw [show (s.at now).inService = s.inService from rfl, show (s.at now).bankSteps = s.bankSteps from rfl, hin, hbank]
        rfl
      rw [if_neg hkindle] at hexec
      have hask : Only (· = .anvil c) (s.at now) ((s.at now).askPause m imm.toNat c) := onAnvil_only _ c _
      have hwait := smithWait_only ((s.at now).askPause m imm.toNat c) m (.pause d c)
      have hanvil : ((s.at now).pauseAsk m d imm.toNat c).anvils[c] = ((s.at now).askPause m imm.toNat c).anvils[c] :=
        hwait (.anvil c) (by simp)
      refine ⟨_, hexec, ?_, ?_, State.smithWait_get _ m _, hat.trans ((hask.seq hwait).mono ?_)⟩
      · rw [hanvil, State.askPause, State.onAnvil_get, hprep]
        rfl
      · rw [hanvil, State.askPause, State.onAnvil_get]
        rfl
      · exact fun _ h => h.symm.imp_right .inl
  case endp =>
    intro expired hready hc howed
    have hend := onAnvil_only s c (fun v =>
      let v := v.endPause m
      { v with owed := v.owed.filter (fun x => x.1 != m) })
    have hfin := hgo.setDone_of_only hend (by simp) (by simp) (by simp) d (flagWord (expired && s.modes.mode != .kindle))
    refine ⟨_, exec_endp hready hc howed, (hend.seq hfin.only).mono (fun _ h => h.symm), ?_, ?_, hfin.run, hfin.pc⟩
    · rw [State.pausedBy, hfin.only (.anvil c) (by simp), State.onAnvil_get]
      simp [Anvil.endPause]
    · rw [hfin.dest]
      by_cases hd : d = 0 <;> by_cases hm : s.modes.mode = .kindle <;> cases expired <;> simp [hd, hm, flagWord]

end Sys2Proof.Machine
end

section
/-! SUPPORT. PHY instructions of a Smith and the events that end them (02 R81 to R84, 07 R252). -/

namespace Sys2Proof.Machine

/-! ### DLY (R81, R82) -/

/-- Class 0 without ALL and with BIT 7 names no lane; every other selector names one (Table 2.14). -/
theorem lanesOf_none_eq_false {w : Word} (h : ¬ ((lanesOf w).cls = 0 ∧ (lanesOf w).all = false ∧ (lanesOf w).bitNo = 7)) :
    (lanesOf w).none = false := by
  have hempty : ∀ l : Lanes, ¬ (l.cls = 0 ∧ l.all = false ∧ l.bitNo = 7) → l.none = false := by
    intro l hl
    simp only [Lanes.none, Lanes.offsets]
    split
    case h_1 hcls =>
      cases hall : l.all with
      | true => rfl
      | false =>
        have hbit : l.bitNo ≠ 7 := fun e => hl ⟨hcls, hall, e⟩
        simp [hbit]
    all_goals first
      | rfl
      | (split <;> rfl)
  exact hempty _ h

/-- DLY of a held channel with a selector that names a lane. -/
theorem exec_dly_waits {s : State} {m : SmithId} {a b : RegNo} {c : Chan}
    (h : s.ready m { op := 0x30, a := some a, b := some b } = true) (hc : chanFor m (lanesOf (s.g m a)).chan = some c)
    (hholds : s.holds m c = true) (hlane : (lanesOf (s.g m a)).none = false) :
    exec (.dly m a b) s = .next (s.smithWait m
      (.dly c (lanesOf (s.g m a)).offsets ((s.g m b).setWidth 10) (s.anvils[c].ck + 6))) := by
  show execDly m a b s = _
  simp only [execDly, h, occur_true, State.withChan_some _ hc, State.dlyOn, hholds, hlane]
  rfl

/-- The live codes after one is set; a reserved offset takes nothing. -/
theorem Anvil.liveSet_live (v : Anvil) (o k : Nat) (code : BitVec 10) :
    SMap.get (fun _ => 0) (v.liveSet o code).live k =
      if dlyOffset o = true ∧ k = o then code else SMap.get (fun _ => 0) v.live k := by
  unfold Anvil.liveSet
  by_cases ho : dlyOffset o = true <;> simp [ho]

/-- The delay store after an entry is set; a reserved offset takes nothing (R251). -/
theorem Anvil.dlySet_get (v : Anvil) (i k : Nat) (code : BitVec 10) :
    (v.dlySet i code).dlyGet k = if dlyOffset (i % 128) = true ∧ k = i then code else v.dlyGet k := by
  unfold Anvil.dlySet Anvil.dlyGet
  by_cases hi : dlyOffset (i % 128) = true
  · by_cases hk : k = i
    · subst hk
      simp [hi]
    · simp [hi, hk]
  · simp [hi]

theorem Anvil.liveSet_dlyGet (v : Anvil) (o k : Nat) (code : BitVec 10) : (v.liveSet o code).dlyGet k = v.dlyGet k := by
  unfold Anvil.liveSet
  split <;> rfl

theorem Anvil.dlySet_live (v : Anvil) (i : Nat) (code : BitVec 10) : (v.dlySet i code).live = v.live := by
  unfold Anvil.dlySet
  split <;> rfl

theorem Anvil.liveSet_dram (v : Anvil) (o : Nat) (code : BitVec 10) : (v.liveSet o code).dram = v.dram := by
  unfold Anvil.liveSet
  split <;> rfl

theorem Anvil.dlySet_dram (v : Anvil) (i : Nat) (code : BitVec 10) : (v.dlySet i code).dram = v.dram := by
  unfold Anvil.dlySet
  split <;> rfl

/-- An anvil after the lanes of a DLY have taken a code in set point `n` (R252). -/
def Anvil.lanesSet (v : Anvil) (n : Nat) (offsets : List Nat) (code : BitVec 10) : Anvil :=
  offsets.foldl (fun v o => (v.liveSet o code).dlySet (128 * n + o) code) v

theorem Anvil.lanesSet_cons (v : Anvil) (n o : Nat) (l : List Nat) (code : BitVec 10) :
    v.lanesSet n (o :: l) code = ((v.liveSet o code).dlySet (128 * n + o) code).lanesSet n l code := rfl

theorem Anvil.lanesSet_live (n : Nat) (code : BitVec 10) (k : Nat) (l : List Nat) (v : Anvil) :
    SMap.get (fun _ => 0) (v.lanesSet n l code).live k =
      if dlyOffset k = true ∧ k ∈ l then code else SMap.get (fun _ => 0) v.live k := by
  induction l generalizing v with
  | nil => simp [Anvil.lanesSet]
  | cons o l ih =>
    rw [Anvil.lanesSet_cons, ih, Anvil.dlySet_live, Anvil.liveSet_live]
    by_cases hko : k = o
    · subst hko
      by_cases hk : dlyOffset k = true <;> simp [hk]
    · simp [hko]

/-- The store entries of the set point that the lanes of a DLY have taken. -/
theorem Anvil.lanesSet_dlyGet (n : Nat) (code : BitVec 10) {k : Nat} (hk : dlyOffset k = true) (l : List Nat) (v : Anvil) :
    (v.lanesSet n l code).dlyGet (128 * n + k) = if k ∈ l then code else v.dlyGet (128 * n + k) := by
  induction l generalizing v with
  | nil => simp [Anvil.lanesSet]
  | cons o l ih =>
    rw [Anvil.lanesSet_cons, ih, Anvil.dlySet_get, Anvil.liveSet_dlyGet]
    by_cases hko : k = o
    · subst hko
      have hmod : (128 * n + k) % 128 = k := by
        have hlt : k < 128 := by
          simp only [dlyOffset, Bool.or_eq_true, Bool.and_eq_true, decide_eq_true_eq] at hk
          omega
        omega
      simp [hmod, hk]
    · simp [hko]

theorem Anvil.lanesSet_dram (n : Nat) (code : BitVec 10) (l : List Nat) (v : Anvil) : (v.lanesSet n l code).dram = v.dram := by
  induction l generalizing v with
  | nil => rfl
  | cons o l ih => rw [Anvil.lanesSet_cons, ih, Anvil.dlySet_dram, Anvil.liveSet_dram]

/-- DLY_EFFECT at a CK edge of a locked hearth at or after the one that its lanes wait for. -/
theorem exec_dlyEffect_due {s : State} {m : SmithId} {c : Chan} {offsets : List Nat} {code : BitVec 10} {due ck : Nat}
    (hwait : s.smiths[m].wait = some (.dly c offsets code due)) (hlock : s.pllLock c = true) (hdue : due ≤ ck) :
    exec (.dlyEffect m ck) s = .next ((s.onAnvil c (fun v =>
      { v.lanesSet (s.fsp c) offsets code with ck := max (v.lanesSet (s.fsp c) offsets code).ck ck })).smithDone m) := by
  show execDlyEffect m ck s = _
  have hone : (s.dlyEffect c offsets code).onAnvil c (fun v => { v with ck := max v.ck ck }) = s.onAnvil c (fun v =>
      { v.lanesSet (s.fsp c) offsets code with ck := max (v.lanesSet (s.fsp c) offsets code).ck ck }) := by
    simp [State.dlyEffect, Anvil.lanesSet, State.onAnvil, upd]
  rw [execDlyEffect, hwait]
  simp only [hlock, hdue, decide_true, Bool.and_true, occur_true, hone]

/-! ### EYE (R83) -/

/-- EYE of a held channel whose pattern may be used with its lanes. -/
theorem exec_eye_waits {s : State} {m : SmithId} {d a b : RegNo} {c : Chan}
    (h : s.ready m { op := 0x31, d := some d, a := some a, b := some b } = true)
    (hc : chanFor m (lanesOf (s.g m a)).chan = some c) (hholds : s.holds m c = true) (hlane : (lanesOf (s.g m a)).none = false)
    (hcls : (patternClasses ((s.g m b).toNat % 16)).contains (lanesOf (s.g m a)).cls = true) :
    exec (.eye m d a b) s = .next (s.smithWait m
      (.eye d c (lanesOf (s.g m a)).rank ((s.g m b).toNat % 16) (lanesOf (s.g m a)).mask)) := by
  have hpattern : wbits (s.g m b) 3 0 = (s.g m b).toNat % 16 := wbits_zero _ 3
  show execEye m d a b s = _
  simp only [execEye, h, occur_true, State.withChan_some _ hc, State.eyeOn, hholds, hlane, hpattern, hcls]
  rfl

/-- The lanes of the selector that passed in every repetition (R83). -/
theorem Anvil.passMap_getLsbD (v : Anvil) (rank pattern : Nat) (i : Nat) (xs : List EyeSample) (mask : Word) :
    (v.passMap rank pattern mask xs).getLsbD i = (mask.getLsbD i && xs.all (fun x => (v.eyeMap rank pattern x).getLsbD i)) := by
  induction xs generalizing mask with
  | nil => simp [Anvil.passMap]
  | cons x xs ih =>
    have hcons : v.passMap rank pattern mask (x :: xs) = v.passMap rank pattern (mask &&& v.eyeMap rank pattern x) xs := rfl
    rw [hcons, ih, List.all_cons, BitVec.getLsbD_and, Bool.and_assoc]

/-- EYE_END over the repetitions of its pattern, of a Smith that runs no reference program. -/
theorem exec_eyeEnd {s : State} {m : SmithId} {d : RegNo} {c : Chan} {rank pattern : Nat} {mask : Word} {samples : List EyeSample}
    (hwait : s.smiths[m].wait = some (.eye d c rank pattern mask)) (hwork : s.working m = false) (hlock : s.pllLock c = true)
    (hlen : samples.length = s.fld (aEYECFG c.val) 7 0 + 1) :
    exec (.eyeEnd m samples) s = .next (s.setDone m d (s.anvils[c].passMap rank pattern mask samples)) := by
  have hreps : (samples.length == s.eyeReps c) = true := beq_iff_eq.mpr hlen
  show execEyeEnd m samples s = _
  rw [execEyeEnd, hwait]
  simp only [hlock, hreps, Bool.and_true, occur_true, hwork]
  rfl

/-! ### OSC (R84) -/

/-- OSC of a channel on which an MRR is permitted. -/
theorem exec_osc_starts {s : State} {m : SmithId} {d a : RegNo} {c : Chan}
    (h : s.ready m { op := 0x32, d := some d, a := some a } = true) (hc : chanFor m (lanesOf (s.g m a)).chan = some c)
    (hallowed : cmdAllowed s m c .mrr 0) :
    exec (.osc m d a) s = .next ((s.smithWait m (.osc d c (lanesOf (s.g m a)).rank (lanesOf (s.g m a)).osc)).insert7 c
      (oscCmd m (lanesOf (s.g m a)).rank (lanesOf (s.g m a)).osc)) := by
  have hpermitted := State.cmdPermitted_of_allowed hallowed
  show execOsc m d a s = _
  simp only [execOsc, h, occur_true, State.withChan_some _ hc, State.oscOn, hpermitted]
  rfl

/-- The count that an OSC returns, as a number: the upper die's half is 0 with a single x16 die. -/
theorem oscCount_eq (c : Chan) (lower upper : BitVec 16) : oscCount c lower upper =
    BitVec.ofNat 32 (lower.toNat + 2 ^ 16 * (if Config.byteMode c.val then upper.toNat else 0)) := by
  have hupper : (upperDie c upper).toNat = if Config.byteMode c.val then upper.toNat else 0 := by
    unfold upperDie
    split <;> rfl
  have hcount : ∀ lo up : BitVec 16, up.setWidth 32 <<< 16 ||| lo.setWidth 32 = BitVec.ofNat 32 (lo.toNat + 2 ^ 16 * up.toNat) := by
    intro lo up
    have hlo := lo.isLt
    have hup := up.isLt
    apply BitVec.eq_of_toNat_eq
    simp only [BitVec.toNat_or, BitVec.toNat_shiftLeft, BitVec.toNat_setWidth, BitVec.toNat_ofNat]
    rw [Nat.mod_eq_of_lt (a := lo.toNat) (by omega), Nat.mod_eq_of_lt (a := up.toNat) (by omega),
      Nat.mod_eq_of_lt (by rw [Nat.shiftLeft_eq]; omega), ← Nat.shiftLeft_add_eq_or_of_lt hlo, Nat.shiftLeft_eq]
    omega
  rw [oscCount, hcount, hupper]

/-- OSC_END once both MRRs have issued, of a Smith that runs no reference program. -/
theorem exec_oscEnd {s : State} {m : SmithId} {d : RegNo} {c : Chan} {rank : Nat} {dqo : Bool} {lower upper : BitVec 16}
    (hwait : s.smiths[m].wait = some (.osc d c rank dqo)) (hwork : s.working m = false)
    (hread : (s.anvils[c].bursts.filter (fun b => b.ofOsc m)).length = 2) :
    exec (.oscEnd m lower upper) s = .next ((s.onAnvil c (fun v => v.takeOsc m)).setDone m d (oscCount c lower upper)) := by
  have hboth : s.anvils[c].oscRead m = true := beq_iff_eq.mpr hread
  have hwork' : (s.onAnvil c (fun v => v.takeOsc m)).working m = false := hwork
  show execOscEnd m lower upper s = _
  rw [execOscEnd, hwait]
  simp only [hboth, occur_true, hwork']
  rfl

/-- Settles O7: `exec_dly_waits` and `exec_eye_waits` for the instructions that wait, `Anvil.lanesSet_live` and
`Anvil.lanesSet_dlyGet` for DLY_EFFECT, `Anvil.passMap_getLsbD` for EYE_END, `exec_osc_starts` and `oscCount_eq` for OSC. -/
theorem smithPhyInstructionsAndTheirEnds : Obligations.SmithPhyInstructionsAndTheirEnds := by
  unfold Obligations.SmithPhyInstructionsAndTheirEnds
  intro s m d a b c ck l next
  refine ⟨?dly, ?dlyEffect, ?eye, ?eyeEnd, ?osc, ?oscEnd⟩
  case dly =>
    intro hready hc hholds hlane
    exact ⟨_, exec_dly_waits hready hc hholds (lanesOf_none_eq_false hlane), smithWait_only s m _, State.smithWait_get s m _⟩
  case dlyEffect =>
    intro offsets code due hwait hlock hdue hgo
    have hset := onAnvil_only s c (fun v =>
      { v.lanesSet (s.fsp c) offsets code with ck := max (v.lanesSet (s.fsp c) offsets code).ck ck })
    have hfin := hgo.setDone_of_only hset (by simp) (by simp) (by simp) 0 0
    have hanvil := (hfin.only (.anvil c) (by simp)).trans (State.onAnvil_get s c _)
    refine ⟨_, exec_dlyEffect_due hwait hlock hdue, fun o ho hmem => ⟨?_, ?_⟩, fun o hnot => ?_, ?_, hfin.run, hfin.pc,
      (hset.seq hfin.only).mono (fun _ h => h.symm)⟩
    all_goals rw [State.smithDone_eq_setDone, hanvil]
    · exact (Anvil.lanesSet_live _ _ _ _ _).trans (if_pos ⟨ho, hmem⟩)
    · exact (Anvil.lanesSet_dlyGet _ _ ho _ _).trans (if_pos hmem)
    · exact (Anvil.lanesSet_live _ _ _ _ _).trans (if_neg (fun h => hnot h.2))
    · exact Anvil.lanesSet_dram _ _ _ _
  case eye =>
    intro hready hc hholds hlane hcls
    exact ⟨_, exec_eye_waits hready hc hholds (lanesOf_none_eq_false hlane) hcls, smithWait_only s m _, State.smithWait_get s m _⟩
  case eyeEnd =>
    intro rank pattern mask samples hwait hwork hlock hlen hgo
    exact ⟨_, _, exec_eyeEnd hwait hwork hlock hlen, finished_setDone hgo d _, fun i => Anvil.passMap_getLsbD _ _ _ i _ _⟩
  case osc =>
    intro hready hc hallowed
    refine ⟨_, exec_osc_starts hready hc hallowed, (insert7_only _ c _ (.smith m) (by simp)).trans (State.smithWait_get s m _),
      ⟨_, State.insert7_heat7 _ c _, rfl, rfl, rfl, rfl⟩, (smithWait_only s m _).seq (insert7_only _ c _)⟩
  case oscEnd =>
    intro rank dqo lower upper hwait hwork hread hgo
    have htake := onAnvil_only s c (fun v => v.takeOsc m)
    have hfin := hgo.setDone_of_only htake (by simp) (by simp) (by simp) d (oscCount c lower upper)
    refine ⟨_, exec_oscEnd hwait hwork hread, ?_, hfin.smith, ?_, (htake.seq hfin.only).mono (fun _ h => h.symm)⟩
    · rw [hfin.dest, oscCount_eq]
    · rw [hfin.only (.anvil c) (by simp), State.onAnvil_get]
      rfl

end Sys2Proof.Machine
end

section
/-! SUPPORT. A write of ANV_CMDERR that sets HOLD while a client command stands in the command slot (05 R204). -/

namespace Sys2Proof.Machine

/-- FORGE, with an RD of a client's read in the command slot of channel 0, and HOLD and VALID of its ANV_CMDERR at 0. -/
def clientInSlot : State :=
  (State.reset.onModes (fun m => { m with mode := .forge })).onAnvil 0 (fun v => { v with slot := [plainCmd .rd 0 0 0 (.readEnt 0 0)] })

/-- The client's command leaves the slot as HOLD is set (R204). -/
theorem clientInSlot_leaves : ∀ t, exec (.holdSet 0 0x40000000) clientInSlot = .next t → t.anvils[(0 : Chan)].slot = [] := by
  intro t ht
  have hslot : (match exec (.holdSet 0 0x40000000) clientInSlot with
    | .next t => decide (t.anvils[(0 : Chan)].slot = [])
    | _ => false) = true := by decide +kernel
  rw [ht] at hslot
  exact of_decide_eq_true hslot

/-- Refutes O32: the frame of its clause on setting HOLD leaves out the anvil, and in `clientInSlot` the client's command
leaves the command slot. -/
theorem not_pausesAreGrantedForcedAndExpire : ¬ Obligations.PausesAreGrantedForcedAndExpire := by
  unfold Obligations.PausesAreGrantedForcedAndExpire
  intro h
  let r : PauseReq := { smith := 0, n := 0, time := 0, prep := false, forced := false }
  obtain ⟨-, -, -, hhold⟩ := h clientInSlot 0 0 0 r [] 0 0x40000000
  obtain ⟨hset, -⟩ := hhold (by decide +kernel) (by decide +kernel)
  obtain ⟨t, ht, -, -, -, -, -, -, -, honly⟩ := hset (by decide) (by decide +kernel) (by decide +kernel)
  have hanvil : t.anvils[(0 : Chan)] = clientInSlot.anvils[(0 : Chan)] := honly (.anvil 0) (by simp)
  have hslot := clientInSlot_leaves t ht
  rw [hanvil] at hslot
  exact absurd hslot (by decide +kernel)

end Sys2Proof.Machine
end

section
/-! SUPPORT. The last RD of the Gleaner's reads, with auto-precharge, before its row visit has entered every line (05 R184,
09 R306, R323). -/

namespace Sys2Proof.Machine

/-- FORGE under the swath code, with the RD of a Gleaner's read in the command slot of channel 0: it is the last one queued for
row 7 of bank 1, the patrol wants another row of that bank, and the row visit has a line left to read. -/
def visitCutShort : State :=
  let row : Place := { rank := 0, bank := 1, row := 7 }
  let gleans : ReadEnt :=
    { seq := 5, stamp := 0, kind := .scrub, place := row, secs := [4], todo := [4], flying := [], got := [], heat := 0,
      port := none, waits := [], waitsM := [], locate := false }
  let wants : ReadEnt := { gleans with seq := 6, kind := .patrol false false, place := { row with row := 9 } }
  let s := Tests.anv .forge (fun v => { v with slot := [plainCmd .rd 0 1 7 (.readEnt 5 4)], pages := v.pages.set 1 (some 7),
                                               reads := [gleans, wants] })
  let s := s.setFlag aCAP 30 true
  s.onAnvil 0 (fun v =>
    { v with visit := some { row := s.rowIndex 0 row, left := [[6]], got := [], dirty := false, again := [], mended := false, last := false } })

/-- With the row the visit closes, which begins again: its reads leave the queue (R306). -/
theorem visitCutShort_drops : ∀ t, exec (.rd 0 1000) visitCutShort = .next t → ∀ x ∈ t.anvils[(0 : Chan)].reads, x.seq ≠ 5 := by
  intro t ht
  have hgone : (match exec (.rd 0 1000) visitCutShort with
    | .next t => t.anvils[(0 : Chan)].reads.all (fun x => x.seq != 5)
    | _ => false) = true := by decide +kernel
  rw [ht] at hgone
  exact fun x hx => bne_iff_ne.mp (List.all_eq_true.mp hgone x hx)

/-- Refutes O29: its clause on RD keeps the read entry, with the position in flight, and in `visitCutShort` the RD closes its row
by auto-precharge, with which the Gleaner's visit and its entry go. -/
theorem not_burstAndModeCommandsIssue : ¬ Obligations.BurstAndModeCommandsIssue := by
  unfold Obligations.BurstAndModeCommandsIssue
  intro h
  have hdriver : driver visitCutShort (plainCmd .rd 0 1 7 (.readEnt 5 4)) := fun m hm => by simp [plainCmd] at hm
  obtain ⟨hrd, -⟩ := h visitCutShort 0 1000 0 (plainCmd .rd 0 1 7 (.readEnt 5 4)) 5 4 0 0 (by decide) (by decide) hdriver
  obtain ⟨hclient, -⟩ := hrd (by decide +kernel)
  obtain ⟨t, b, ht, -, -, -, -, ⟨x, hx, hseq, -, -⟩, -, -⟩ := hclient _ rfl rfl
  exact visitCutShort_drops t ht x hx hseq

end Sys2Proof.Machine
end

section
/-! SUPPORT. Read data and MRR results that cross back into the core (02 R74, R75, 09 R294, R296). -/

namespace Sys2Proof.Machine

/-! ### What a returned burst leaves of its anvil -/

theorem State.onAnvil_onAnvil (s : State) (c : Chan) (f g : Anvil → Anvil) :
    (s.onAnvil c f).onAnvil c g = s.onAnvil c (fun v => g (f v)) := by
  simp only [State.onAnvil, upd_upd]

/-- A change that the anvil's state decides. -/
theorem State.onAnvil_congr {s : State} {c : Chan} {f g : Anvil → Anvil} (h : f s.anvils[c] = g s.anvils[c]) :
    s.onAnvil c f = s.onAnvil c g := by
  simp only [State.onAnvil, upd, h]

/-- A change of a slice that leaves it as it is changes nothing. -/
theorem State.onSlice_of_fixed {s : State} {c : Chan} {f : Slice → Slice} (h : f s.slices[c] = s.slices[c]) :
    s.onSlice c f = s := by
  simp only [State.onSlice, upd, h]
  simp

/-- Bursts that are left on their way, and the read entries of an anvil. -/
def State.received (s : State) (c : Chan) (bursts : List Burst) (reads : List ReadEnt) : State :=
  s.onAnvil c (fun v => { v with bursts := bursts, reads := reads })

@[simp] theorem State.received_get (s : State) (c : Chan) (bursts : List Burst) (reads : List ReadEnt) :
    (s.received c bursts reads).anvils[c] = { s.anvils[c] with bursts := bursts, reads := reads } := State.onAnvil_get s c _

theorem received_only (s : State) (c : Chan) (bursts : List Burst) (reads : List ReadEnt) :
    Only (· = .anvil c) s (s.received c bursts reads) := onAnvil_only s c _

/-- The anvil's read entries, bursts on their way and DRAM are the same. -/
def Anvil.SameReads (v v' : Anvil) : Prop := v'.reads = v.reads ∧ v'.bursts = v.bursts ∧ v'.dram = v.dram

theorem Anvil.SameReads.refl (v : Anvil) : v.SameReads v := ⟨rfl, rfl, rfl⟩

theorem Anvil.SameReads.trans {v v' v'' : Anvil} (h : v.SameReads v') (h' : v'.SameReads v'') : v.SameReads v'' := by
  obtain ⟨hr, hb, hd⟩ := h
  obtain ⟨hr', hb', hd'⟩ := h'
  exact ⟨hr'.trans hr, hb'.trans hb, hd'.trans hd⟩

theorem Anvil.hold_sameReads (v : Anvil) (swath : Bool) (q : Place) (pos : Nat) (d : Sector) : v.SameReads (v.hold swath q pos d) := by
  unfold Anvil.hold
  dsimp only
  generalize (if 256 ≤ (v.cache.filter (fun e => !(e.place == q && e.pos == pos))).length then _ else _ : Option (List Check)) = room
  cases room <;> exact .refl v

/-- A step at an anvil that leaves its read entries, its bursts on their way and its DRAM. -/
def KeepsReads (c : Chan) (s t : State) : Prop := Only (· = .anvil c) s t ∧ s.anvils[c].SameReads t.anvils[c]

theorem KeepsReads.refl (c : Chan) (s : State) : KeepsReads c s s := ⟨Only.refl _ s, .refl _⟩

theorem KeepsReads.trans {c : Chan} {s t u : State} (h : KeepsReads c s t) (h' : KeepsReads c t u) : KeepsReads c s u :=
  ⟨h.1.trans h'.1, h.2.trans h'.2⟩

theorem KeepsReads.onAnvil {s : State} {c : Chan} {f : Anvil → Anvil} (h : s.anvils[c].SameReads (f s.anvils[c])) :
    KeepsReads c s (s.onAnvil c f) :=
  ⟨onAnvil_only s c f, by rwa [State.onAnvil_get]⟩

/-- A check sector that has been read is held or not. -/
theorem holdRead_keeps (s : State) (c : Chan) (b : Burst) (q : Place) (pos : Nat) (was got : Sector) :
    KeepsReads c s (s.holdRead c b q pos was got) := by
  unfold State.holdRead
  dsimp only
  split
  · exact .onAnvil (Anvil.hold_sameReads _ _ _ _ _)
  · exact .refl c s

theorem noteSeal_keeps (s : State) (c : Chan) (b : Burst) (q : Place) (pos : Nat) (got : Sector) :
    KeepsReads c s (s.noteSeal c b q pos got) := by
  unfold State.noteSeal
  split
  · exact .onAnvil ⟨rfl, rfl, rfl⟩
  · exact .refl c s

theorem turn_keeps (s : State) (c : Chan) : KeepsReads c s (s.turn c) := by
  unfold State.turn
  exact .onAnvil ⟨rfl, rfl, rfl⟩

/-! ### READ_DATA_RETURN -/

/-- READ_DATA_RETURN of a burst with no Tongs bite. -/
theorem exec_readDataReturn {s : State} {c : Chan} {b : Burst} (err : Sector) (now : Nat) (hb : s.anvils[c].readBurst = some b)
    (hbite : s.tongs.bitten = none) : exec (.readDataReturn c err now) s = .next ((s.at now).takeBurst c b err) := by
  have hb' : (s.at now).anvils[c].readBurst = some b := hb
  have hbite' : (s.at now).tongs.bitten = none := hbite
  show Host.Outcome.next (timed now _ _ s) = _
  rw [timed_pos (by simp only [hb', Option.any_some, State.burstHeld, hbite', Option.isSome_none, Bool.false_and, Bool.not_false])]
  simp only [hb']

/-- A read entry with the burst of position `pos` taken. -/
def ReadEnt.took (e : ReadEnt) (pos : Nat) (x : Sector) : ReadEnt :=
  { e with flying := e.flying.erase pos, got := e.got ++ [(pos, x)] }

/-- The burst of the only read entry joins it, before its check sector is held and the entry is judged. -/
theorem State.takeBurst_eq {s : State} {c : Chan} {b : Burst} {err d : Sector} {seq pos : Nat} {e : ReadEnt}
    (hsrc : b.cmd.src = .readEnt seq pos) (hdata : b.data = some d) (hreads : s.anvils[c].reads = [e]) (hseq : e.seq = seq) :
    s.takeBurst c b err =
      let u := ((s.received c (s.anvils[c].bursts.erase b) [e.took pos (d ^^^ err)]).holdRead c b e.place pos d (d ^^^ err)).noteSeal
        c b e.place pos (d ^^^ err)
      ((if u.readComplete c (e.took pos (d ^^^ err)) then u.completeRead c (e.took pos (d ^^^ err)) else u).settle c).turn c := by
  have hfind : (s.onAnvil c (fun v => { v with bursts := v.bursts.erase b })).anvils[c].reads.find? (fun e => e.seq == seq) =
      some e := by
    rw [State.onAnvil_get, hreads]
    simp [hseq]
  have hput : ((s.onAnvil c (fun v => { v with bursts := v.bursts.erase b })).onRead c seq (fun _ => e.took pos (d ^^^ err))) =
      s.received c (s.anvils[c].bursts.erase b) [e.took pos (d ^^^ err)] := by
    rw [State.onRead, State.onAnvil_onAnvil, State.received]
    exact State.onAnvil_congr (by simp only [hreads, List.map_cons, List.map_nil, hseq, if_true])
  rw [State.takeBurst, hsrc, hdata]
  simp only [hfind]
  rw [← hput]
  rfl

/-- With no read entry that can be delivered, nothing is. -/
theorem State.settle_of_none {s : State} {c : Chan} (h : ∀ e ∈ s.anvils[c].reads, s.settled c e = false) : s.settle c = s := by
  have hnone : s.anvils[c].reads.find? (s.settled c) = none := List.find?_eq_none.mpr (fun e he => by simp [h e he])
  unfold State.settle
  split
  · rfl
  · rw [State.settleReads, hnone]

/-- A read entry with a burst on its way is not complete. -/
theorem State.readComplete_of_flying {s : State} {c : Chan} {e : ReadEnt} (h : e.flying ≠ []) : s.readComplete c e = false := by
  have hfly : e.flying.isEmpty = false := by simpa using h
  rw [State.readComplete, hfly, Bool.false_and]

/-- A burst of a read entry with others on their way joins it. -/
theorem takeBurst_joins {s : State} {c : Chan} {b : Burst} {err d : Sector} {seq pos : Nat} {e : ReadEnt}
    (hsrc : b.cmd.src = .readEnt seq pos) (hdata : b.data = some d) (hreads : s.anvils[c].reads = [e]) (hseq : e.seq = seq)
    (hfly : e.flying.erase pos ≠ []) :
    (s.takeBurst c b err).anvils[c].reads = [e.took pos (d ^^^ err)] ∧
      (s.takeBurst c b err).anvils[c].bursts = s.anvils[c].bursts.erase b ∧
      (s.takeBurst c b err).anvils[c].dram = s.anvils[c].dram ∧ Only (· = .anvil c) s (s.takeBurst c b err) := by
  have hput := received_only s c (s.anvils[c].bursts.erase b) [e.took pos (d ^^^ err)]
  have hget := State.received_get s c (s.anvils[c].bursts.erase b) [e.took pos (d ^^^ err)]
  have hkeeps := (holdRead_keeps (s.received c (s.anvils[c].bursts.erase b) [e.took pos (d ^^^ err)]) c b e.place pos d
    (d ^^^ err)).trans (noteSeal_keeps _ c b e.place pos (d ^^^ err))
  have heq := State.takeBurst_eq (err := err) hsrc hdata hreads hseq
  generalize s.received c (s.anvils[c].bursts.erase b) [e.took pos (d ^^^ err)] = r at hput hget hkeeps heq
  generalize (r.holdRead c b e.place pos d (d ^^^ err)).noteSeal c b e.place pos (d ^^^ err) = u at hkeeps heq
  have hbusy : u.readComplete c (e.took pos (d ^^^ err)) = false := State.readComplete_of_flying hfly
  have hreads' : u.anvils[c].reads = [e.took pos (d ^^^ err)] := by
    rw [hkeeps.2.1, hget]
  have hsettle : u.settle c = u := State.settle_of_none (fun x hx => by
    rw [hreads', List.mem_singleton] at hx
    rw [hx, State.settled, hbusy, Bool.false_and])
  have hturn := hkeeps.trans (turn_keeps u c)
  obtain ⟨honly, hr, hb, hd⟩ := hturn
  rw [heq]
  simp only [hbusy, Bool.false_eq_true, if_false, hsettle]
  rw [hget] at hr hb hd
  exact ⟨hr, hb, hd, hput.trans honly⟩

/-! ### A demand read of one sector that is complete (R296) -/

/-- What an entry has read of a position stays there. -/
theorem lookup_append_isSome {l l' : RowData} {p : Nat} (h : (l.lookup p).isSome = true) : ((l ++ l').lookup p).isSome = true := by
  rw [List.lookup_append, Option.isSome_or, h, Bool.true_or]

/-- An entry that has read what it needs takes nothing from the check-sector cache. -/
theorem State.takes_of_got {s : State} {c : Chan} {e : ReadEnt} {ps : List Nat} (h : ∀ p ∈ ps, (e.got.lookup p).isSome = true) :
    s.takes c e ps = e := by
  have hnone : ps.filter (fun p => (e.got.lookup p).isNone) = [] := by
    rw [List.filter_eq_nil_iff]
    intro p hp
    rw [← Option.not_isSome, h p hp]
    simp
  simp only [State.takes, hnone, List.filterMap_nil, List.append_nil]

theorem State.dropLines_nil (s : State) (c : Chan) (q : Place) : s.dropLines c q [] = s := State.onSlice_of_fixed (by simp)

theorem State.poisonSecs_nil (s : State) (c : Chan) (q : Place) (heat : Nat) (port : Option Nat) :
    s.poisonSecs c q [] heat port = s := rfl

/-- Good sectors are neither counted nor reported. -/
theorem State.reportAll_good {s : State} {c : Chan} {finder : Nat} {e : ReadEnt} {n : Nat} {d : Decoded} (h : d.found = .good) :
    s.reportAll c finder e [(n, d)] = s := by
  have hlines : ([(n, d)].filter (fun (x : Nat × Decoded) => x.2.found.status == .addressFault)) = [] := by
    simp [h, Found.status]
  have honce : firstOf s.swath [(n, d)] [] = [(n, d)] := rfl
  simp only [State.reportAll, honce, hlines, List.foldl_cons, List.foldl_nil, State.reportFixes, State.reportBad, h, List.map_nil,
    State.dropLines_nil]
  simp

/-- A complete demand read of one written sector, entry `e` of an anvil whose only read entry it is, and which has read all that it
needs. -/
structure DemandDone (s : State) (c : Chan) (e : ReadEnt) (miss pos : Nat) : Prop where
  kind : e.kind = .demand miss (true, false)
  secs : e.secs = [pos]
  flying : e.flying = []
  todo : e.todo = []
  free : s.readBlocked c e = false
  written : s.secWritten c e.place pos = true
  checks : ∀ p ∈ s.readChecks c e, (e.got.lookup p).isSome = true
  good : (s.decode c e.place e.got pos).found = .good
  located : s.needsLocate c e.place e.got pos = false
  mapped : s.needsBitmap c e.place e.got pos = false

namespace DemandDone

variable {s : State} {c : Chan} {e : ReadEnt} {miss pos : Nat} (h : DemandDone s c e miss pos)

include h

theorem writtenSecs : e.secs.filter (s.secWritten c e.place) = [pos] := by
  simp [h.secs, h.written]

theorem decoded : s.decodeRead c e = [(pos, s.decode c e.place e.got pos)] := by
  rw [State.decodeRead, h.writtenSecs]
  rfl

theorem complete : s.readComplete c e = true := by
  have hchecks : s.checksLeft c e = [] := by
    rw [State.checksLeft, List.filter_eq_nil_iff]
    intro p hp
    rw [← Option.not_isSome, h.checks p hp]
    simp
  have htodo : s.todoNow c e = [] := by
    simp [State.todoNow, h.kind, h.todo]
  simp [State.readComplete, h.flying, State.rdsLeft, h.free, State.rdsNow, htodo, hchecks]

theorem withHeld : s.withHeld c e = e := by
  have hbitmap : s.bitmapWanted c e = [] := by
    simp [State.bitmapWanted, h.kind, h.writtenSecs, h.mapped]
  rw [State.withHeld, State.takes_of_got h.checks, hbitmap]
  exact State.takes_of_got (by simp)

theorem moreReads : s.moreReads c e = none := by
  simp [State.moreReads, h.writtenSecs, h.located, h.mapped]

theorem noWait : s.waitsRoom c e = false := by
  simp [State.waitsRoom, h.kind, h.decoded, h.good]

/-- The result of the sector. -/
theorem result : s.secResult c e.place pos (s.decode c e.place e.got pos) =
    { status := .ok, data := s.decrypt c (s.secLa c e.place pos) (s.decode c e.place e.got pos).data, poisoned := false } := by
  simp [State.secResult, h.written, h.good, Found.status]

/-- The read leaves the queue, and its result crosses to the slice. -/
theorem delivers : s.completeRead c e = (s.dropRead c e.seq).onSlice c (fun l => l.pushFill miss [(false,
    { status := .ok, data := s.decrypt c (s.secLa c e.place pos) (s.decode c e.place e.got pos).data, poisoned := false })] false) := by
  have huse : s.useHeld c e = s := by
    rw [State.useHeld, h.withHeld, List.drop_length, List.foldl_nil]
  have hfinish : s.completeRead c e = s.finishDemand c e miss (true, false) := by
    simp only [State.completeRead, h.withHeld, huse, h.kind, h.moreReads, h.noWait, Bool.false_eq_true, if_false]
  have hcrc : crcFound [(pos, s.decode c e.place e.got pos)] = false := by
    simp [crcFound, h.good]
  have hpoison : ∀ u : State, u.poisonFound [(pos, s.decode c e.place e.got pos)] = [] := fun u => by
    simp [State.poisonFound, h.good]
  rw [hfinish, State.finishDemand]
  dsimp only
  rw [h.decoded, State.reportAll_good h.good, hcrc, if_neg Bool.false_ne_true, hpoison, State.poisonSecs_nil, h.secs]
  simp [h.result, h.good]
  rfl

end DemandDone

/-! ### The return that completes a demand read -/

/-- A data sector is no check sector: nothing is held, and no row seal is judged. -/
theorem State.holdRead_data {s : State} {c : Chan} {b : Burst} {q : Place} {pos : Nat} {was got : Sector}
    (h : s.isCheck pos = false) : s.holdRead c b q pos was got = s := by
  simp [State.holdRead, h]

theorem State.noteSeal_data {s : State} {c : Chan} {b : Burst} {q : Place} {pos : Nat} {got : Sector} (h : s.isCheck pos = false) :
    s.noteSeal c b q pos got = s := by
  have hpos : pos ≠ 31 := by
    have hlt : ¬ s.rowSectors ≤ pos := of_decide_eq_false h
    unfold State.rowSectors at hlt
    split at hlt <;> omega
  simp [State.noteSeal, hpos]

theorem State.secWritten_received (s : State) (c : Chan) (bursts : List Burst) (reads : List ReadEnt) (q : Place) :
    (s.received c bursts reads).secWritten c q = s.secWritten c q := by
  funext n
  simp only [State.secWritten, State.received_get]
  rfl

/-- Table 9.2 depends on the state through the two halves alone. The definition is put in for its name before it is applied: the
kernel then compares the two sides without evaluating the decoder on unknown data. -/
theorem State.abSector_congr {s u : State} {c : Chan} {q : Place} {r : RowData} {n : Nat} (h : u.halves c q r n = s.halves c q r n) :
    u.abSector c q r n = s.abSector c q r n := by
  have hdef : State.abSector = State.abSector := rfl
  conv at hdef =>
    rhs
    delta State.abSector
  rw [hdef]
  beta_reduce
  rw [h]

/-- What is decoded of a row depends on its address, the code in use and the failed seals. -/
theorem State.decode_congr {s u : State} {c : Chan} {q : Place} {n : Nat} (r : RowData) (hgid : u.gid = s.gid)
    (hswath : u.swath = s.swath) (hla : u.secLa c q n = s.secLa c q n) (hseal : u.anvils[c].sealBad = s.anvils[c].sealBad) :
    u.decode c q r n = s.decode c q r n := by
  have hhalves : u.halves c q r n = s.halves c q r n := by
    rw [State.halves, State.halves, hla, hgid]
  have hsw : u.swSector c q r n = s.swSector c q r n := by
    rw [State.swSector, State.swSector, hgid, hseal]
  rw [State.decode, State.decode, State.abSector_congr hhalves, hsw, hswath]

theorem State.decode_received (s : State) (c : Chan) (bursts : List Burst) (reads : List ReadEnt) (q : Place) (r : RowData) (n : Nat) :
    (s.received c bursts reads).decode c q r n = s.decode c q r n :=
  State.decode_congr r rfl rfl rfl (by rw [State.received_get])

theorem State.decode_at (s : State) (now : Nat) (c : Chan) (q : Place) (r : RowData) (n : Nat) :
    (s.at now).decode c q r n = s.decode c q r n := State.decode_congr r rfl rfl rfl rfl

theorem State.decrypt_at (s : State) (now : Nat) (c : Chan) (la : Nat) (d : Sector) :
    (s.at now).decrypt c la d = s.decrypt c la d := rfl

theorem State.readBlocked_received (s : State) (c : Chan) (bursts : List Burst) (reads : List ReadEnt) (e : ReadEnt) :
    (s.received c bursts reads).readBlocked c e = s.readBlocked c e := by
  simp only [State.readBlocked, State.received_get]
  rfl

theorem State.readChecks_demand {s : State} {c : Chan} {e : ReadEnt} {miss : Nat} {half : Bool × Bool}
    (h : e.kind = .demand miss half) : s.readChecks c e = s.checkPositions (e.secs.filter (s.secWritten c e.place)) := by
  simp only [State.readChecks, h]

theorem Slice.pushFill_new {l : Slice} {miss : Nat} {r : SecRes} (h : ∀ f ∈ l.fills, f.miss ≠ miss) :
    l.pushFill miss [(false, r)] false = { l with fills := l.fills ++ [{ miss := miss, fresh := false, res := (some r, none) }] } := by
  have hnone : l.fills.any (fun f => f.miss == miss) = false := by
    simpa using h
  rw [Slice.pushFill, hnone]
  rfl

@[simp] theorem State.onSlice_get (s : State) (c : Chan) (f : Slice → Slice) : (s.onSlice c f).slices[c] = f s.slices[c] := by
  simp

/-- The delivery of a demand read that is an anvil's only read entry. -/
theorem DemandDone.deliver_spec {s : State} {c : Chan} {e : ReadEnt} {miss pos : Nat} (h : DemandDone s c e miss pos)
    (hreads : s.anvils[c].reads = [e]) (hfills : ∀ f ∈ s.slices[c].fills, f.miss ≠ miss) :
    (s.completeRead c e).anvils[c].reads = [] ∧
      (s.completeRead c e).slices[c].fills = s.slices[c].fills ++ [{ miss := miss, fresh := false, res := (some
        { status := .ok, data := s.decrypt c (s.secLa c e.place pos) (s.decode c e.place e.got pos).data, poisoned := false }, none) }] ∧
      Only (fun p => p = .anvil c ∨ p = .slice c) s (s.completeRead c e) := by
  rw [h.delivers]
  generalize s.decrypt c (s.secLa c e.place pos) (s.decode c e.place e.got pos).data = data
  have hdrop : Only (· = .anvil c) s (s.dropRead c e.seq) := onAnvil_only s c _
  have hempty : (s.dropRead c e.seq).anvils[c].reads = [] := by
    rw [State.dropRead, State.onAnvil_get, hreads]
    simp
  have hslice : (s.dropRead c e.seq).slices[c] = s.slices[c] := hdrop (.slice c) (by simp)
  refine ⟨hempty, ?_, hdrop.seq (onSlice_only _ c _)⟩
  rw [State.onSlice_get, hslice, Slice.pushFill_new hfills]

/-- The last burst of a demand read of one sector: the read leaves the queue, and its result crosses to the slice. -/
theorem takeBurst_delivers {s : State} {c : Chan} {b : Burst} {err d : Sector} {seq pos miss : Nat} {e : ReadEnt}
    (hsrc : b.cmd.src = .readEnt seq pos) (hdata : b.data = some d) (hreads : s.anvils[c].reads = [e]) (hseq : e.seq = seq)
    (hcheck : s.isCheck pos = false) (hfills : ∀ f ∈ s.slices[c].fills, f.miss ≠ miss)
    (hdone : DemandDone (s.received c (s.anvils[c].bursts.erase b) [e.took pos (d ^^^ err)]) c (e.took pos (d ^^^ err)) miss pos) :
    (s.takeBurst c b err).anvils[c].reads = [] ∧
      (s.takeBurst c b err).slices[c].fills = s.slices[c].fills ++ [{ miss := miss, fresh := false, res := (some
        { status := .ok, data := s.decrypt c (s.secLa c e.place pos) (s.decode c e.place (e.got ++ [(pos, d ^^^ err)]) pos).data,
          poisoned := false }, none) }] ∧
      Only (fun p => p = .anvil c ∨ p = .slice c) s (s.takeBurst c b err) := by
  have hput := received_only s c (s.anvils[c].bursts.erase b) [e.took pos (d ^^^ err)]
  have hone : (s.received c (s.anvils[c].bursts.erase b) [e.took pos (d ^^^ err)]).anvils[c].reads = [e.took pos (d ^^^ err)] := by
    rw [State.received_get]
  have hdata' : (s.received c (s.anvils[c].bursts.erase b) [e.took pos (d ^^^ err)]).isCheck pos = false := hcheck
  have hdec := State.decode_received s c (s.anvils[c].bursts.erase b) [e.took pos (d ^^^ err)] e.place (e.took pos (d ^^^ err)).got pos
  have heq := State.takeBurst_eq (err := err) hsrc hdata hreads hseq
  have hdecrypt : ∀ x, (s.received c (s.anvils[c].bursts.erase b) [e.took pos (d ^^^ err)]).decrypt c
      ((s.received c (s.anvils[c].bursts.erase b) [e.took pos (d ^^^ err)]).secLa c e.place pos) x =
      s.decrypt c (s.secLa c e.place pos) x := fun _ => rfl
  dsimp only at heq
  rw [State.holdRead_data hdata', State.noteSeal_data hdata'] at heq
  obtain ⟨hempty, hfill, honly⟩ := hdone.deliver_spec hone hfills
  rw [show (e.took pos (d ^^^ err)).place = e.place from rfl, hdec, hdecrypt,
    show (e.took pos (d ^^^ err)).got = e.got ++ [(pos, d ^^^ err)] from rfl] at hfill
  rw [if_pos hdone.complete] at heq
  generalize s.received c (s.anvils[c].bursts.erase b) [e.took pos (d ^^^ err)] = u at hput heq honly hempty hfill
  generalize u.completeRead c (e.took pos (d ^^^ err)) = w at heq honly hempty hfill
  have hsettle : w.settle c = w := State.settle_of_none (fun x hx => by
    rw [hempty] at hx
    exact absurd hx List.not_mem_nil)
  obtain ⟨hturn, hturned, -, -⟩ := turn_keeps w c
  have hslice : u.slices[c] = s.slices[c] := hput (.slice c) (by simp)
  have hkept : (w.turn c).slices[c] = w.slices[c] := hturn (.slice c) (by simp)
  rw [hsettle] at heq
  rw [heq, hkept, ← hslice]
  exact ⟨hturned.trans hempty, hfill, ((hput.seq honly).seq hturn).mono (by simp +contextual [or_imp])⟩

/-! ### MRR_RESULT (02 R74, R75) -/

/-- A Smith that does not wait in RDMR goes nowhere with a result. -/
theorem State.rdmrDone_of_notWaiting {s : State} {m : SmithId} {c : Chan} (h : ∀ g y, s.smiths[m].wait ≠ some (.rdmr g y)) :
    s.rdmrDone m c = s := by
  unfold State.rdmrDone
  split
  next hwait _ => exact absurd hwait (h _ _)
  next => rfl

/-- MRR_RESULT of the oldest MRR of a Smith. -/
theorem exec_mrrResult {s : State} {c : Chan} {b : Burst} {m : SmithId} (lower upper : Byte) (hb : s.anvils[c].mrrBurst = some b)
    (hsrc : b.cmd.src = .smith m) :
    exec (.mrrResult c lower upper) s = .next (((s.onAnvil c (fun v => { v with bursts := v.bursts.erase b })).onSmith m (fun h =>
      { h with mrr := fillMrr c ((if Config.byteMode c.val then upper else 0).setWidth 16 <<< 8 ||| lower.setWidth 16) h.mrr })).rdmrDone
        m c) := by
  show execMrrResult c lower upper s = _
  simp only [execMrrResult, hb, hsrc]
  rfl

/-- A Smith that waits in RDMR for its only result on the channel takes it (02 R75). -/
theorem State.rdmrDone_filled {s : State} {m : SmithId} {c : Chan} {g : RegNo} (x : BitVec 16)
    (hwait : s.smiths[m].wait = some (.rdmr g c)) (hmrr : s.smiths[m].mrr = [{ chan := c, value := none }]) :
    (s.onSmith m (fun h => { h with mrr := fillMrr c x h.mrr })).rdmrDone m c =
      (s.onSmith m (fun h => { h with mrr := [] })).setDone m g (x.setWidth 32) := by
  have hget := State.onSmith_get s m (fun h => { h with mrr := fillMrr c x h.mrr })
  have hfilled : (s.onSmith m (fun h => { h with mrr := fillMrr c x h.mrr })).smiths[m].mrr =
      [] ++ { chan := c, value := some x } :: [] := by
    rw [hget, hmrr]
    simp [fillMrr]
  rw [State.rdmrDone_of_result (d := g) (by rw [hget]; exact hwait) (by simp) hfilled, State.onSmith_onSmith]
  rfl

/-- Settles O30: `takeBurst_joins` and `takeBurst_delivers` for READ_DATA_RETURN, `exec_mrrResult` with
`State.rdmrDone_of_notWaiting` or `State.rdmrDone_of_result` for MRR_RESULT. -/
theorem readDataAndMrrResultsReturn : Obligations.ReadDataAndMrrResultsReturn := by
  unfold Obligations.ReadDataAndMrrResultsReturn
  intro s c now err b seq pos d e lower upper m v
  have hat : ∀ P : Part → Prop, P .time → Only P s (s.at now) := fun P hP => (at_only s now).mono (fun _ h => h ▸ hP)
  constructor
  · intro hb hsrc hdata hreads hseq hbite
    constructor
    · intro hfly
      obtain ⟨hr, hbursts, hdram, honly⟩ := takeBurst_joins (s := s.at now) (err := err) hsrc hdata hreads hseq hfly
      exact ⟨_, _, exec_readDataReturn err now hb hbite, hr, rfl, hbursts, hdram,
        (hat _ (.inr rfl)).trans (honly.mono (fun _ h => .inl h))⟩
    · intro i hkind hsecs hflying htodo hfree hcheck hchecks _ hwritten hfills got hgood hlocated hmapped
      have hdone : DemandDone ((s.at now).received c ((s.at now).anvils[c].bursts.erase b) [e.took pos (d ^^^ err)]) c
          (e.took pos (d ^^^ err)) i pos :=
        { kind := hkind
          secs := hsecs
          flying := by rw [ReadEnt.took, hflying]; simp
          todo := htodo
          free := (State.readBlocked_received (s.at now) c _ _ _).trans hfree
          written := (congrFun (State.secWritten_received (s.at now) c _ _ _) pos).trans hwritten
          checks := by
            intro p hp
            rw [State.readChecks_demand (e := e.took pos (d ^^^ err)) hkind, State.secWritten_received] at hp
            rw [State.readChecks_demand hkind] at hchecks
            exact lookup_append_isSome (hchecks p hp)
          good := (congrArg Decoded.found ((State.decode_received (s.at now) c _ _ _ _ _).trans
            (State.decode_at s now c _ _ _))).trans hgood
          located := hlocated
          mapped := hmapped }
      obtain ⟨hr, hf, honly⟩ := takeBurst_delivers (s := s.at now) hsrc hdata hreads hseq hcheck hfills hdone
      rw [State.decode_at, State.decrypt_at] at hf
      exact ⟨_, exec_readDataReturn err now hb hbite, hr, hf,
        (hat _ (.inr (.inr rfl))).trans (honly.mono (fun _ h => h.imp_right .inl))⟩
  · intro hb hsrc x
    constructor
    · intro hwait
      have hexec := exec_mrrResult lower upper hb hsrc
      rw [State.rdmrDone_of_notWaiting (by simpa using hwait)] at hexec
      exact ⟨_, hexec, State.onSmith_get _ m _, (onAnvil_only s c _).seq (onSmith_only _ m _)⟩
    · intro g hwait hmrr hgo
      have hexec := exec_mrrResult lower upper hb hsrc
      have htaken := onAnvil_only s c (fun v => { v with bursts := v.bursts.erase b })
      have hsmith : (s.onAnvil c (fun v => { v with bursts := v.bursts.erase b })).smiths[m] = s.smiths[m] := rfl
      have himage : (s.onAnvil c (fun v => { v with bursts := v.bursts.erase b })).image m = s.image m := rfl
      generalize s.onAnvil c (fun v => { v with bursts := v.bursts.erase b }) = u at hexec htaken hsmith himage
      rw [State.rdmrDone_filled _ (by rw [hsmith]; exact hwait) (by rw [hsmith]; exact hmrr)] at hexec
      have hget := State.onSmith_get u m (fun h => { h with mrr := [] })
      rw [hsmith] at hget
      have hset := onSmith_only u m (fun h => { h with mrr := [] })
      have himage' := (State.image_onSmith u m m (fun h => { h with mrr := [] })).trans himage
      generalize u.onSmith m (fun h => { h with mrr := [] }) = w at hexec hget hset himage'
      have hfin := hgo.setDone (by rw [hget]) (by rw [hget]) himage' g (x.setWidth 32)
      have hg := hfin.1
      refine ⟨_, hexec, fun y => (hg y).trans ?_, ?_, hfin.run, hfin.pc, ?_⟩
      · rw [show w.g m y = s.g m y from State.g_congr (by rw [hget]) y]
      · rw [hfin.smith, hget]
      · exact ((htaken.seq hset).seq hfin.only).mono (by simp +contextual)

end Sys2Proof.Machine
end

section
/-! SUPPORT. The CSR accesses of a Smith (02 R53 to R59, Table 2.4). -/

namespace Sys2Proof.Machine

/-! ### What decides where a Smith goes on -/

/-- The Smith's program counter, the stop that may wait for it and its image are as they were. -/
def SameCourse (m : SmithId) (s u : State) : Prop :=
  u.smiths[m].stopReq = s.smiths[m].stopReq ∧ u.smiths[m].pc = s.smiths[m].pc ∧ u.image m = s.image m

namespace SameCourse

theorem refl (m : SmithId) (s : State) : SameCourse m s s := ⟨rfl, rfl, rfl⟩

theorem trans {m : SmithId} {s t u : State} (h : SameCourse m s t) (h' : SameCourse m t u) : SameCourse m s u := by
  obtain ⟨hstop, hpc, himage⟩ := h
  obtain ⟨hstop', hpc', himage'⟩ := h'
  exact ⟨hstop'.trans hstop, hpc'.trans hpc, himage'.trans himage⟩

theorem ite {m : SmithId} {s t u : State} {c : Prop} [Decidable c] (h : SameCourse m s t) (h' : SameCourse m s u) :
    SameCourse m s (if c then t else u) := by split <;> assumption

theorem of_only {P : Part → Prop} {m : SmithId} {s u : State} (h : Only P s u) (hm : ¬ P (.smith m)) (hMS : ¬ P .imageMS)
    (hAS : ¬ P .imageAS) : SameCourse m s u := by
  have hsmith : u.smiths[m] = s.smiths[m] := h (.smith m) hm
  exact ⟨by rw [hsmith], by rw [hsmith], h.image hMS hAS m⟩

theorem wr (m : SmithId) (s : State) (a : Nat) (w : Word) : SameCourse m s (s.wr a w) :=
  of_only (wr_only s a w) (by simp) (by simp) (by simp)

theorem setFld (m : SmithId) (s : State) (a hi lo v : Nat) : SameCourse m s (s.setFld a hi lo v) := wr m s a _

theorem onEvq (m : SmithId) (s : State) (f : Evq → Evq) : SameCourse m s (s.onEvq f) :=
  of_only (onEvq_only s f) (by simp) (by simp) (by simp)

theorem onGang (m : SmithId) (s : State) (f : Gang → Gang) : SameCourse m s (s.onGang f) :=
  of_only (onGang_only s f) (by simp) (by simp) (by simp)

theorem onCaps (m : SmithId) (s : State) (f : Captures → Captures) : SameCourse m s (s.onCaps (.smith m) f) := by
  have hcaps : (s.onCaps (.smith m) f).smiths[m] = { s.smiths[m] with caps := f s.smiths[m].caps } := State.onSmith_get s m _
  exact ⟨by rw [hcaps], by rw [hcaps], State.image_onSmith s m m _⟩

end SameCourse

/-- An instruction that would go on completes also after a change that leaves its Smith's course. -/
theorem GoesOn.setDone_of_sameCourse {s u : State} {m : SmithId} (hgo : GoesOn s m (s.smiths[m].pc.toNat + 1))
    (h : SameCourse m s u) (d : RegNo) (v : Word) : Finished u (u.setDone m d v) m d v (s.smiths[m].pc.toNat + 1) := by
  obtain ⟨hstop, hpc, himage⟩ := h
  exact hgo.setDone hstop hpc himage d v

/-! ### A read leaves the reader's course (R54, R58, R562, R563) -/

theorem evqRemove_sameCourse (m : SmithId) (s : State) (id : Nat) : SameCourse m s (s.evqRemove (.smith m) id) := by
  unfold State.evqRemove
  split
  · exact .refl m s
  · exact .ite ((SameCourse.onCaps m s _).trans (.onEvq m _ _)) (.refl m s)

theorem evqReadLo_sameCourse (m : SmithId) (s : State) : SameCourse m s (s.evqReadLo (.smith m)).2 := by
  unfold State.evqReadLo
  split
  · split
    · exact .onCaps m s _
    · exact .setFld m s _ _ _ _
  · exact .refl m s

theorem evqReadHi_sameCourse (m : SmithId) (s : State) : SameCourse m s (s.evqReadHi (.smith m)).2 := by
  unfold State.evqReadHi
  split
  · split
    · exact (SameCourse.onCaps m s _).trans (evqRemove_sameCourse m _ _)
    · exact .setFld m s _ _ _ _
  · exact .refl m s

theorem readMsgLo_sameCourse (m : SmithId) (s : State) : SameCourse m s (s.readMsgLo (.smith m)).2 := by
  unfold State.readMsgLo
  split
  · exact .onGang m s _
  · exact .onCaps m s _

theorem readMsgHi_sameCourse (m : SmithId) (s : State) : SameCourse m s (s.readMsgHi (.smith m)).2 := by
  unfold State.readMsgHi
  split
  · exact .refl m s
  · exact .ite ((SameCourse.onCaps m s _).trans (.onGang m _ _)) (.onCaps m s _)

theorem dlyStep_sameCourse (m : SmithId) (s : State) (c : Chan) : SameCourse m s (s.dlyStep c) :=
  .ite (.setFld m s _ _ _ _) (.refl m s)

theorem patStep_sameCourse (m : SmithId) (s : State) (c : Chan) : SameCourse m s (s.patStep c) :=
  .ite (.ite ((SameCourse.setFld m s _ _ _ _).trans (.setFld m _ _ _ _ _)) (.setFld m s _ _ _ _)) (.refl m s)

theorem readEffect_sameCourse (m : SmithId) (s : State) (x : Nat) : SameCourse m s (s.readEffect (.smith m) x) := by
  unfold State.readEffect
  refine .ite (dlyStep_sameCourse m s _) (.ite (patStep_sameCourse m s _) ?_)
  split
  · exact .refl m s
  · exact .ite (.wr m s _ _) (.refl m s)

theorem anvRead_sameCourse (m : SmithId) (s : State) (x : Nat) : SameCourse m s (s.anvRead (.smith m) x).2 := by
  simp only [State.anvRead, apply_ite Prod.snd]
  exact .ite (.onCaps m s _) (.ite (.onCaps m s _) (.ite (.onCaps m s _) (.ite (.onCaps m s _) (readEffect_sameCourse m s x))))

theorem regRead_sameCourse (m : SmithId) (s : State) (x : Nat) : SameCourse m s (s.regRead (.smith m) x).2 := by
  simp only [State.regRead, apply_ite Prod.snd]
  exact .ite (.refl m s) (.ite (.onCaps m s _) (.ite (.onCaps m s _) (.ite (evqReadLo_sameCourse m s)
    (.ite (evqReadHi_sameCourse m s) (.ite (readMsgLo_sameCourse m s) (.ite (readMsgHi_sameCourse m s)
      (.ite (.refl m s) (.ite (anvRead_sameCourse m s x) (readEffect_sameCourse m s x)))))))))

theorem csrRead_sameCourse (m : SmithId) (s : State) (x : Nat) : SameCourse m s (s.csrRead m x).2 := by
  simp only [State.csrRead, apply_ite Prod.snd]
  exact .ite (.refl m s) (regRead_sameCourse m s x)

/-! ### The rows -/

/-- CSRR of an address within the Smith's reach (R53). -/
theorem exec_csrr_permitted {s : State} {m : SmithId} {d a : RegNo} {imm : BitVec 14} {x : Nat} (now : Nat)
    (h : s.ready m { op := 0x1C, d := some d, a := some a, imm := some imm } = true) (hx : s.csrAddr m a imm = x)
    (hreach : csrReach m x false = true) :
    exec (.csrr m d a imm now) s = .next (((s.at now).csrRead m x).2.setDone m d ((s.at now).csrRead m x).1) := by
  subst hx
  show Host.Outcome.next (timed now _ _ s) = _
  rw [timed_pos ((State.ready_at s now m _).trans h)]
  exact congrArg _ (if_pos hreach)

/-- CSRW of an address within the Smith's reach (R53). -/
theorem exec_csrw_permitted {s : State} {m : SmithId} {a b : RegNo} {imm : BitVec 14} {x : Nat} (now : Nat)
    (h : s.ready m { op := 0x1D, a := some a, b := some b, imm := some imm } = true) (hx : s.csrAddr m a imm = x)
    (hreach : csrReach m x true = true) :
    exec (.csrw m a b imm now) s = .next (((s.at now).csrWrite m x (s.g m b)).doneIfRunning m) := by
  subst hx
  show Host.Outcome.next (timed now _ _ s) = _
  rw [timed_pos ((State.ready_at s now m _).trans h)]
  exact congrArg _ (if_pos hreach)

/-- What CSRS and CSRC of a permitted address write: the word that R57 makes of the one read, at the address as the read left
it, or as it stood before where one access steps an index once (log entry 27). -/
def State.modified (s : State) (set : Bool) (m : SmithId) (b : RegNo) (x : Nat) : State :=
  (if steppedWindow x then s else (s.csrRead m x).2).csrWrite m x (rmwWord set x (s.csrRead m x).1 (s.g m b))

/-- CSRS or CSRC of an address within the Smith's reach (R57). -/
theorem State.rmw_permitted {s : State} {set : Bool} {m : SmithId} {d b : RegNo} {x : Nat} (hreach : csrReach m x true = true) :
    s.rmw set m d b x = ((s.modified set m b x).setG m d (s.csrRead m x).1).doneIfRunning m := if_pos hreach

theorem exec_csrs_permitted {s : State} {m : SmithId} {d a b : RegNo} {imm : BitVec 14} {x : Nat} (now : Nat)
    (h : s.ready m { op := 0x1E, d := some d, a := some a, b := some b, imm := some imm } = true) (hx : s.csrAddr m a imm = x)
    (hreach : csrReach m x true = true) :
    exec (.csrs m d a b imm now) s =
      .next ((((s.at now).modified true m b x).setG m d ((s.at now).csrRead m x).1).doneIfRunning m) := by
  subst hx
  show Host.Outcome.next (timed now _ _ s) = _
  rw [timed_pos ((State.ready_at s now m _).trans h)]
  exact congrArg _ (State.rmw_permitted hreach)

theorem exec_csrc_permitted {s : State} {m : SmithId} {d a b : RegNo} {imm : BitVec 14} {x : Nat} (now : Nat)
    (h : s.ready m { op := 0x1F, d := some d, a := some a, b := some b, imm := some imm } = true) (hx : s.csrAddr m a imm = x)
    (hreach : csrReach m x true = true) :
    exec (.csrc m d a b imm now) s =
      .next ((((s.at now).modified false m b x).setG m d ((s.at now).csrRead m x).1).doneIfRunning m) := by
  subst hx
  show Host.Outcome.next (timed now _ _ s) = _
  rw [timed_pos ((State.ready_at s now m _).trans h)]
  exact congrArg _ (State.rmw_permitted hreach)

theorem State.run_of_ready {s : State} {m : SmithId} {f : Fields} (h : s.ready m f = true) : s.smiths[m].run = .running := by
  simp only [State.ready, Bool.and_eq_true, beq_iff_eq] at h
  exact h.1

/-- A Smith that its write left running completes the instruction (R91). -/
theorem State.doneIfRunning_setG {u : State} {m : SmithId} (h : u.smiths[m].run = .running) (d : RegNo) (v : Word) :
    (u.setG m d v).doneIfRunning m = u.setDone m d v := by
  have hrun : (u.setG m d v).smiths[m].run = .running := by rw [State.setG_smith]; exact h
  exact if_pos hrun

theorem State.doneIfRunning_of_running {u : State} {m : SmithId} (h : u.smiths[m].run = .running) :
    u.doneIfRunning m = u.setDone m 0 0 := State.doneIfRunning_setG h 0 0

/-- An instruction without a result leaves every register. -/
theorem Finished.regs {u t : State} {m : SmithId} {v : Word} {pc : Nat} (h : Finished u t m 0 v pc) (y : RegNo) :
    t.g m y = u.g m y := by
  obtain ⟨hregs, -, -⟩ := h
  exact (hregs y).trans (if_neg (fun e => e.2 e.1))

theorem Finished.dmem {u t : State} {m : SmithId} {d : RegNo} {v : Word} {pc : Nat} (h : Finished u t m d v pc) :
    t.smiths[m].dmem = u.smiths[m].dmem := by
  rw [h.smith]

/-! ### GLB_SCRATCH0 to GLB_SCRATCH3 -/

/-- GLB_SCRATCH has 32 RW bits (Table 18.4). -/
def scratchInfo : RegInfo := { rw := 0xFFFFFFFF }

theorem regInfo_scratch (k : Fin 4) : regInfo (aSCRATCH k) = some scratchInfo := by fin_cases k <;> rfl

theorem regHome_scratch (k : Fin 4) : regHome (aSCRATCH k) = aSCRATCH k := by fin_cases k <;> rfl

theorem csrReach_scratch (k : Fin 4) (write : Bool) : csrReach masterSmith (aSCRATCH k) write = true := by
  fin_cases k <;> cases write <;> rfl

theorem steppedWindow_scratch (k : Fin 4) : steppedWindow (aSCRATCH k) = false := by fin_cases k <;> rfl

theorem w1cMask_scratch (k : Fin 4) : w1cMask (aSCRATCH k) = 0 := by fin_cases k <;> rfl

theorem csrWrite_scratch (s : State) (k : Fin 4) (w : Word) :
    s.csrWrite masterSmith (aSCRATCH k) w = s.typed (aSCRATCH k) w := by fin_cases k <;> rfl

theorem csrRead_scratch (s : State) (k : Fin 4) :
    s.csrRead masterSmith (aSCRATCH k) = (s.rd (aSCRATCH k), s.wr (aSCRATCH k) (clearOnRead scratchInfo (s.rd (aSCRATCH k)))) := by
  fin_cases k <;> rfl

theorem csrRead_scratch_only (s : State) (k : Fin 4) :
    Only (· = .reg (aSCRATCH k)) s (s.csrRead masterSmith (aSCRATCH k)).2 := by
  rw [csrRead_scratch]
  have h := wr_only s (aSCRATCH k) (clearOnRead scratchInfo (s.rd (aSCRATCH k)))
  rwa [regHome_scratch] at h

theorem csrRead_scratch_rd (s : State) (k : Fin 4) :
    (s.csrRead masterSmith (aSCRATCH k)).2.rd (aSCRATCH k) = s.rd (aSCRATCH k) := by
  rw [csrRead_scratch, State.rd_wr, if_pos rfl]
  simp [clearOnRead, scratchInfo, and_ones]

theorem csrWrite_scratch_only (s : State) (k : Fin 4) (w : Word) :
    Only (· = .reg (aSCRATCH k)) s (s.csrWrite masterSmith (aSCRATCH k) w) := by
  rw [csrWrite_scratch]
  have h := typed_only s (aSCRATCH k) w
  rwa [regHome_scratch] at h

theorem csrWrite_scratch_rd (s : State) (k : Fin 4) (w : Word) :
    (s.csrWrite masterSmith (aSCRATCH k) w).rd (aSCRATCH k) = w := by
  rw [csrWrite_scratch, State.typed_plain_rd (regInfo_scratch k) rfl (by simp [scratchInfo])]
  simp [scratchInfo, and_ones]

theorem modified_scratch_only (s : State) (set : Bool) (b : RegNo) (k : Fin 4) :
    Only (· = .reg (aSCRATCH k)) s (s.modified set masterSmith b (aSCRATCH k)) :=
  (Only.ite (Only.refl _ s) (csrRead_scratch_only s k)).trans (csrWrite_scratch_only _ k _)

theorem modified_scratch_rd (s : State) (set : Bool) (b : RegNo) (k : Fin 4) :
    (s.modified set masterSmith b (aSCRATCH k)).rd (aSCRATCH k) =
      rmwWord set (aSCRATCH k) (s.rd (aSCRATCH k)) (s.g masterSmith b) := by
  rw [State.modified, csrWrite_scratch_rd, csrRead_scratch]

/-! ### The local registers (Table 2.4, R59) -/

theorem csrReach_of_local {m : SmithId} {x : Nat} (write : Bool) (h : localAt x = true) : csrReach m x write = true := by
  simp [csrReach, h]

theorem localAt_vec (n : Fin 16) : localAt (0xFFFF40 + 4 * n.val) = true := by fin_cases n <;> rfl

theorem localAt_readOnly {x : Nat} (hx : x = 0xFFFF00 ∨ x = 0xFFFF0C) : localAt x = true := by rcases hx with rfl | rfl <;> rfl

theorem State.localRead_at (s : State) (now : Nat) (m : SmithId) (x : Nat) : (s.at now).localRead m x = s.localRead m x := rfl

theorem State.localRead_vec (s : State) (m : SmithId) (n : Fin 16) :
    s.localRead m (0xFFFF40 + 4 * n.val) = s.smiths[m].vec[n] &&& 0x80001FFF := by fin_cases n <;> rfl

theorem State.localRead_evpend (s : State) (m : SmithId) : s.localRead m 0xFFFF04 = s.smiths[m].evpend.setWidth 32 := rfl

theorem State.localRead_evmask (s : State) (m : SmithId) : s.localRead m 0xFFFF08 = s.smiths[m].evmask.setWidth 32 := rfl

theorem State.localRead_evcause (s : State) (m : SmithId) : s.localRead m 0xFFFF0C = s.smiths[m].evcause.setWidth 32 := rfl

theorem State.localRead_tick (s : State) (m : SmithId) : s.localRead m 0xFFFF10 = s.smiths[m].tick.setWidth 32 := rfl

theorem State.localRead_sigset (s : State) (m : SmithId) : s.localRead m 0xFFFF14 = s.smiths[m].sigset.setWidth 32 := rfl

theorem State.localRead_self (s : State) (m : SmithId) :
    s.localRead m 0xFFFF00 = if m = masterSmith then 0x100 else BitVec.ofNat 32 m.val := by
  show (if isMaster m then _ else _) = _
  simp [isMaster]

theorem localWrite_only (s : State) (m : SmithId) (x : Nat) (w : Word) : Only (· = .smith m) s (s.localWrite m x w) :=
  onSmith_only s m _

/-- A write of a local register changes fields of Table 2.4 alone. -/
theorem State.localWrite_smith (s : State) (m : SmithId) (x : Nat) (w : Word) :
    ∃ ep em tk tf ss vc, (s.localWrite m x w).smiths[m] =
      { s.smiths[m] with evpend := ep, evmask := em, tick := tk, tickFrom := tf, sigset := ss, vec := vc } := by
  simp only [State.localWrite, State.onSmith_get]
  split_ifs <;> exact ⟨_, _, _, _, _, _, rfl⟩

theorem State.localWrite_readOnly (s : State) (m : SmithId) {x : Nat} (w : Word) (hx : x = 0xFFFF00 ∨ x = 0xFFFF0C) :
    (s.localWrite m x w).smiths[m] = s.smiths[m] := by
  rcases hx with rfl | rfl
  · exact State.onSmith_get s m _
  · exact State.onSmith_get s m _

theorem State.localWrite_evpend (s : State) (m : SmithId) (w : Word) : (s.localWrite m 0xFFFF04 w).smiths[m] =
    { s.smiths[m] with evpend := s.smiths[m].evpend &&& ~~~ w.setWidth 16 } := State.onSmith_get s m _

theorem State.localWrite_evmask (s : State) (m : SmithId) (w : Word) : (s.localWrite m 0xFFFF08 w).smiths[m] =
    { s.smiths[m] with evmask := w.setWidth 16 } := State.onSmith_get s m _

theorem State.localWrite_tick (s : State) (m : SmithId) (w : Word) : (s.localWrite m 0xFFFF10 w).smiths[m] =
    { s.smiths[m] with tick := w.setWidth 14, tickFrom := s.timebase } := State.onSmith_get s m _

theorem State.localWrite_sigset (s : State) (m : SmithId) (w : Word) : (s.localWrite m 0xFFFF14 w).smiths[m] =
    { s.smiths[m] with sigset := s.smiths[m].sigset &&& ~~~ w.setWidth 25 } := State.onSmith_get s m _

theorem State.localWrite_vec (s : State) (m : SmithId) (n : Fin 16) (w : Word) :
    (s.localWrite m (0xFFFF40 + 4 * n.val) w).smiths[m] =
      { s.smiths[m] with vec := upd s.smiths[m].vec n (fun _ => w &&& 0x80001FFF) } := by
  fin_cases n <;> exact State.onSmith_get s m _

theorem State.csrRead_local (s : State) (m : SmithId) {x : Nat} (h : localAt x = true) : s.csrRead m x = (s.localRead m x, s) :=
  if_pos h

theorem State.csrWrite_local (s : State) (m : SmithId) {x : Nat} (w : Word) (h : localAt x = true) :
    s.csrWrite m x w = s.localWrite m x w := if_pos h

/-- CSRS and CSRC of a local register write what R57 makes of the word it reads. -/
theorem State.modified_local (s : State) (set : Bool) (m : SmithId) (b : RegNo) {x : Nat} (h : localAt x = true) :
    s.modified set m b x = s.localWrite m x (rmwWord set x (s.localRead m x) (s.g m b)) := by
  rw [State.modified, State.csrRead_local s m h, ite_self, State.csrWrite_local s m _ h]

/-! ### The word of CSRS and CSRC (R57) -/

theorem rmwWord_set_plain {x : Nat} (h : w1cMask x = 0) (old v : Word) : rmwWord true x old v = old ||| v := by
  simp [rmwWord, h, and_ones]

theorem rmwWord_clear_plain {x : Nat} (h : w1cMask x = 0) (old v : Word) : rmwWord false x old v = old &&& ~~~ v := by
  simp [rmwWord, h, and_ones]

theorem rmwWord_set_w1c {x : Nat} (h : w1cMask x = 0xFFFFFFFF) (old v : Word) : rmwWord true x old v = v := by
  simp [rmwWord, h, and_ones]

theorem rmwWord_clear_w1c {x : Nat} (h : w1cMask x = 0xFFFFFFFF) (old v : Word) : rmwWord false x old v = 0 := by
  simp [rmwWord, h]

theorem setBits_evmask (s : State) (m : SmithId) (v : Word) :
    (rmwWord true 0xFFFF08 (s.localRead m 0xFFFF08) v).setWidth 16 = s.smiths[m].evmask ||| v.setWidth 16 := by
  rw [rmwWord_set_plain rfl, BitVec.setWidth_or, State.localRead_evmask]
  simp

theorem clearBits_evmask (s : State) (m : SmithId) (v : Word) :
    (rmwWord false 0xFFFF08 (s.localRead m 0xFFFF08) v).setWidth 16 = s.smiths[m].evmask &&& ~~~ v.setWidth 16 := by
  rw [rmwWord_clear_plain rfl, BitVec.setWidth_and, BitVec.setWidth_not (by decide), State.localRead_evmask]
  simp

/-! ### CSR accesses that complete -/

/-- An access of a local register that has completed: beside its Smith only time has passed, and the Smith runs on at
pc + 1 with its data memory. -/
def LocalDone (s : State) (m : SmithId) (now : Nat) (t : State) : Prop :=
  Only (fun p => p = .smith m ∨ p = .time) s t ∧ t.timebase = s.timeAt now ∧
    t.smiths[m].pc = wrapPc m (s.smiths[m].pc.toNat + 1) ∧ t.smiths[m].dmem = s.smiths[m].dmem

theorem Finished.localDone {s u t : State} {m : SmithId} {now : Nat} {d : RegNo} {v : Word}
    (h : Finished u t m d v (s.smiths[m].pc.toNat + 1)) (hu : Only (· = .smith m) (s.at now) u)
    (hdmem : u.smiths[m].dmem = s.smiths[m].dmem) : LocalDone s m now t := by
  have htime : t.timebase = u.timebase := (h.only .time (by simp)).1
  exact ⟨((at_only s now).seq (hu.trans h.only)).mono (by simp +contextual [or_imp]), htime.trans (hu .time (by simp)).1, h.pc,
    h.dmem.trans hdmem⟩

/-- An instruction that completes without a result leaves every register. -/
theorem State.smithDone_g {u : State} {m : SmithId} (h : GoesOn u m (u.smiths[m].pc.toNat + 1)) :
    (u.smithDone m).smiths[m].g = u.smiths[m].g := by
  rw [State.smithDone, State.smithGo_goesOn h, State.onSmith_get]

theorem localWrite_sameCourse (m : SmithId) (s : State) (x : Nat) (w : Word) : SameCourse m s (s.localWrite m x w) := by
  obtain ⟨_, _, _, _, _, _, hsmith⟩ := s.localWrite_smith m x w
  exact ⟨by rw [hsmith], by rw [hsmith], State.image_onSmith s m m _⟩

section
variable {s : State} {m : SmithId} {d a b : RegNo} {imm : BitVec 14} {x : Nat}

/-- CSRR of a local register. -/
theorem exec_csrr_local (now : Nat) (hgo : GoesOn s m (s.smiths[m].pc.toNat + 1)) (hx : s.csrAddr m a imm = x)
    (hlocal : localAt x = true) {v : Word} (hv : s.localRead m x = v)
    (h : s.ready m { op := 0x1C, d := some d, a := some a, imm := some imm } = true) :
    ∃ t, exec (.csrr m d a imm now) s = .next t ∧ LocalDone s m now t ∧ t.g m d = if d = 0 then 0 else v := by
  subst hv
  have hexec := exec_csrr_permitted now h hx (csrReach_of_local false hlocal)
  simp only [State.csrRead_local _ m hlocal, State.localRead_at] at hexec
  have hfin := (hgo.at now).setDone_of_sameCourse (SameCourse.refl m _) d (s.localRead m x)
  exact ⟨_, hexec, hfin.localDone (s := s) (now := now) (Only.refl _ _) rfl, hfin.dest⟩

/-- CSRW of a local register. -/
theorem exec_csrw_local (now : Nat) (hgo : GoesOn s m (s.smiths[m].pc.toNat + 1)) (hx : s.csrAddr m a imm = x)
    (hlocal : localAt x = true) {f : Smith} (hf : ((s.at now).localWrite m x (s.g m b)).smiths[m] = f)
    (h : s.ready m { op := 0x1D, a := some a, b := some b, imm := some imm } = true) :
    ∃ t, exec (.csrw m a b imm now) s = .next t ∧ LocalDone s m now t ∧
      t.smiths[m] = { f with pc := wrapPc m (s.smiths[m].pc.toNat + 1), run := .running, wait := none } := by
  subst hf
  have hexec := exec_csrw_permitted now h hx (csrReach_of_local true hlocal)
  rw [State.csrWrite_local _ m _ hlocal] at hexec
  obtain ⟨_, _, _, _, _, _, hsmith⟩ := (s.at now).localWrite_smith m x (s.g m b)
  have hcourse := localWrite_sameCourse m (s.at now) x (s.g m b)
  have hu := localWrite_only (s.at now) m x (s.g m b)
  generalize (s.at now).localWrite m x (s.g m b) = u at hexec hsmith hcourse hu ⊢
  have hrun : u.smiths[m].run = .running := by rw [hsmith]; exact State.run_of_ready h
  rw [State.doneIfRunning_of_running hrun] at hexec
  have hfin := (hgo.at now).setDone_of_sameCourse hcourse 0 0
  refine ⟨_, hexec, hfin.localDone (s := s) (now := now) hu (by rw [hsmith]; rfl), ?_⟩
  obtain ⟨hstop, hpc, himage⟩ := hcourse
  have hgo' : GoesOn u m (u.smiths[m].pc.toNat + 1) := by
    obtain ⟨hs, hlen, hop⟩ := hgo.at now
    rw [hpc]
    exact ⟨hstop.trans hs, by rwa [himage], by rwa [himage]⟩
  rw [hfin.smith, ← State.smithDone_eq_setDone, State.smithDone_g hgo']
  rfl

/-- CSRS or CSRC of a local register. -/
theorem rmw_local (now : Nat) {i : Instr} {set : Bool} (hgo : GoesOn s m (s.smiths[m].pc.toNat + 1)) (hrun : s.smiths[m].run = .running)
    (hlocal : localAt x = true) {f : Smith}
    (hf : ((s.at now).localWrite m x (rmwWord set x (s.localRead m x) (s.g m b))).smiths[m] = f)
    (hexec : exec i s = .next ((((s.at now).modified set m b x).setG m d ((s.at now).csrRead m x).1).doneIfRunning m)) :
    ∃ t, exec i s = .next t ∧ LocalDone s m now t ∧
      t.smiths[m] =
        { f with g := t.smiths[m].g, pc := wrapPc m (s.smiths[m].pc.toNat + 1), run := .running, wait := none } ∧
      t.g m d = if d = 0 then 0 else s.localRead m x := by
  subst hf
  simp only [State.modified_local _ set m b hlocal, State.csrRead_local _ m hlocal, State.localRead_at, State.g_at] at hexec
  generalize rmwWord set x (s.localRead m x) (s.g m b) = w at hexec ⊢
  obtain ⟨_, _, _, _, _, _, hsmith⟩ := (s.at now).localWrite_smith m x w
  have hcourse := localWrite_sameCourse m (s.at now) x w
  have hu := localWrite_only (s.at now) m x w
  generalize (s.at now).localWrite m x w = u at hexec hsmith hcourse hu ⊢
  have hrun' : u.smiths[m].run = .running := by rw [hsmith]; exact hrun
  rw [State.doneIfRunning_setG hrun'] at hexec
  have hfin := (hgo.at now).setDone_of_sameCourse hcourse d (s.localRead m x)
  exact ⟨_, hexec, hfin.localDone (s := s) (now := now) hu (by rw [hsmith]; rfl), hfin.smith, hfin.dest⟩

end

/-- An access of GLB_SCRATCH that has completed with `w` in the register. -/
def ScratchDone (s : State) (m : SmithId) (x : Nat) (w : Word) (t : State) : Prop :=
  t.rd x = w ∧ (t.smiths[m].run = .running ∧ t.smiths[m].pc = wrapPc m (s.smiths[m].pc.toNat + 1)) ∧
    t.smiths[m].dmem = s.smiths[m].dmem ∧ Only (fun p => p = .smith m ∨ p = .time ∨ p = .reg x) s t

/-- An access that has changed at most the register completes its instruction. -/
theorem GoesOn.scratchDone {s u : State} {m : SmithId} {now x : Nat} {w : Word}
    (hgo : GoesOn s m (s.smiths[m].pc.toNat + 1)) (hu : Only (· = .reg x) (s.at now) u) (hw : u.rd x = w) (d : RegNo) (v : Word) :
    ScratchDone s m x w (u.setDone m d v) ∧ (u.setDone m d v).g m d = if d = 0 then 0 else v := by
  have hfin := (hgo.at now).setDone_of_only hu (by simp) (by simp) (by simp) d v
  have hsmith : u.smiths[m] = s.smiths[m] := hu (.smith m) (by simp)
  exact ⟨⟨(hfin.only.rd (by simp)).trans hw, ⟨hfin.run, hfin.pc⟩, hfin.dmem.trans (by rw [hsmith]),
    ((at_only s now).seq (hu.seq hfin.only)).mono (by simp +contextual [or_imp])⟩, hfin.dest⟩

/-- A change of at most a register leaves a Smith running. -/
theorem running_of_only_reg {s u : State} {m : SmithId} {now x : Nat} (hu : Only (· = .reg x) (s.at now) u)
    (hrun : s.smiths[m].run = .running) : u.smiths[m].run = .running := by
  have hsmith : u.smiths[m] = s.smiths[m] := hu (.smith m) (by simp)
  rw [hsmith, hrun]

section
variable {s : State} {d a b : RegNo} {imm : BitVec 14} {k : Fin 4}

/-- CSRR of GLB_SCRATCH by the Master Smith. -/
theorem exec_csrr_scratch (now : Nat) (hgo : GoesOn s masterSmith (s.smiths[masterSmith].pc.toNat + 1))
    (hx : s.csrAddr masterSmith a imm = aSCRATCH k)
    (h : s.ready masterSmith { op := 0x1C, d := some d, a := some a, imm := some imm } = true) :
    ∃ t, exec (.csrr masterSmith d a imm now) s = .next t ∧
      (t.g masterSmith d = if d = 0 then 0 else s.rd (aSCRATCH k)) ∧
      ScratchDone s masterSmith (aSCRATCH k) (s.rd (aSCRATCH k)) t := by
  have hexec := exec_csrr_permitted now h hx (csrReach_scratch k false)
  have hval : ((s.at now).csrRead masterSmith (aSCRATCH k)).1 = s.rd (aSCRATCH k) := congrArg Prod.fst (csrRead_scratch _ k)
  rw [hval] at hexec
  obtain ⟨hdone, hgot⟩ :=
    hgo.scratchDone (csrRead_scratch_only (s.at now) k) (csrRead_scratch_rd _ k) d (s.rd (aSCRATCH k))
  exact ⟨_, hexec, hgot, hdone⟩

/-- CSRW of GLB_SCRATCH by the Master Smith. -/
theorem exec_csrw_scratch (now : Nat) (hgo : GoesOn s masterSmith (s.smiths[masterSmith].pc.toNat + 1))
    (hx : s.csrAddr masterSmith a imm = aSCRATCH k)
    (h : s.ready masterSmith { op := 0x1D, a := some a, b := some b, imm := some imm } = true) :
    ∃ t, exec (.csrw masterSmith a b imm now) s = .next t ∧
      ScratchDone s masterSmith (aSCRATCH k) (s.g masterSmith b) t := by
  have hexec := exec_csrw_permitted now h hx (csrReach_scratch k true)
  have hu := csrWrite_scratch_only (s.at now) k (s.g masterSmith b)
  rw [State.doneIfRunning_of_running (running_of_only_reg hu (State.run_of_ready h))] at hexec
  exact ⟨_, hexec, (hgo.scratchDone hu (csrWrite_scratch_rd _ k _) 0 0).1⟩

/-- CSRS or CSRC of GLB_SCRATCH by the Master Smith. -/
theorem rmw_scratch (now : Nat) {i : Instr} {set : Bool} (hgo : GoesOn s masterSmith (s.smiths[masterSmith].pc.toNat + 1))
    (hrun : s.smiths[masterSmith].run = .running)
    (hexec : exec i s = .next ((((s.at now).modified set masterSmith b (aSCRATCH k)).setG masterSmith d
      ((s.at now).csrRead masterSmith (aSCRATCH k)).1).doneIfRunning masterSmith)) :
    ∃ t, exec i s = .next t ∧ (t.g masterSmith d = if d = 0 then 0 else s.rd (aSCRATCH k)) ∧
      ScratchDone s masterSmith (aSCRATCH k) (rmwWord set (aSCRATCH k) (s.rd (aSCRATCH k)) (s.g masterSmith b)) t := by
  have hval : ((s.at now).csrRead masterSmith (aSCRATCH k)).1 = s.rd (aSCRATCH k) := congrArg Prod.fst (csrRead_scratch _ k)
  have hu := modified_scratch_only (s.at now) set b k
  rw [hval, State.doneIfRunning_setG (running_of_only_reg hu hrun)] at hexec
  obtain ⟨hdone, hgot⟩ := hgo.scratchDone hu (modified_scratch_rd _ set b k) d (s.rd (aSCRATCH k))
  exact ⟨_, hexec, hgot, hdone⟩

end

/-- A write that lets its Smith go on from the same place completes the instruction. -/
theorem finished_setDone_of_pc {s u : State} {m : SmithId} (hpc : u.smiths[m].pc = s.smiths[m].pc)
    (hgo : GoesOn u m (s.smiths[m].pc.toNat + 1)) (d : RegNo) (v : Word) :
    Finished u (u.setDone m d v) m d v (s.smiths[m].pc.toNat + 1) := by
  rw [← hpc] at hgo ⊢
  exact finished_setDone hgo d v

/-- CSRR of an address within the Smith's reach completes. -/
theorem exec_csrr_completes {s : State} {m : SmithId} {d a : RegNo} {imm : BitVec 14} {x : Nat} (now : Nat)
    (h : s.ready m { op := 0x1C, d := some d, a := some a, imm := some imm } = true) (hx : s.csrAddr m a imm = x)
    (hreach : csrReach m x false = true) (hgo : GoesOn s m (s.smiths[m].pc.toNat + 1)) :
    ∃ t, exec (.csrr m d a imm now) s = .next t ∧
      Finished ((s.at now).csrRead m x).2 t m d ((s.at now).csrRead m x).1 (s.smiths[m].pc.toNat + 1) :=
  ⟨_, exec_csrr_permitted now h hx hreach, (hgo.at now).setDone_of_sameCourse (csrRead_sameCourse m (s.at now) x) d _⟩

/-- A write that leaves its Smith running at the same place, and lets it go on, completes the instruction. -/
theorem write_completes {s u : State} {m : SmithId} {i : Instr} {d : RegNo} {v : Word}
    (hexec : exec i s = .next ((u.setG m d v).doneIfRunning m)) (hrun : u.smiths[m].run = .running)
    (hpc : u.smiths[m].pc = s.smiths[m].pc) (hgo : GoesOn u m (s.smiths[m].pc.toNat + 1)) :
    ∃ t, exec i s = .next t ∧ Finished u t m d v (s.smiths[m].pc.toNat + 1) := by
  rw [State.doneIfRunning_setG hrun] at hexec
  exact ⟨_, hexec, finished_setDone_of_pc hpc hgo d v⟩

/-! ### CSRS and CSRC of the scratch and local registers -/

section
variable {s : State} {d a b : RegNo} {imm : BitVec 14} {k : Fin 4}

theorem exec_csrs_scratch (now : Nat) (hgo : GoesOn s masterSmith (s.smiths[masterSmith].pc.toNat + 1))
    (hx : s.csrAddr masterSmith a imm = aSCRATCH k)
    (h : s.ready masterSmith { op := 0x1E, d := some d, a := some a, b := some b, imm := some imm } = true) :
    ∃ t, exec (.csrs masterSmith d a b imm now) s = .next t ∧
      (t.g masterSmith d = if d = 0 then 0 else s.rd (aSCRATCH k)) ∧
      ScratchDone s masterSmith (aSCRATCH k) (s.rd (aSCRATCH k) ||| s.g masterSmith b) t := by
  rw [← rmwWord_set_plain (w1cMask_scratch k)]
  exact rmw_scratch now hgo (State.run_of_ready h) (exec_csrs_permitted now h hx (csrReach_scratch k true))

theorem exec_csrc_scratch (now : Nat) (hgo : GoesOn s masterSmith (s.smiths[masterSmith].pc.toNat + 1))
    (hx : s.csrAddr masterSmith a imm = aSCRATCH k)
    (h : s.ready masterSmith { op := 0x1F, d := some d, a := some a, b := some b, imm := some imm } = true) :
    ∃ t, exec (.csrc masterSmith d a b imm now) s = .next t ∧
      (t.g masterSmith d = if d = 0 then 0 else s.rd (aSCRATCH k)) ∧
      ScratchDone s masterSmith (aSCRATCH k) (s.rd (aSCRATCH k) &&& ~~~ s.g masterSmith b) t := by
  rw [← rmwWord_clear_plain (w1cMask_scratch k)]
  exact rmw_scratch now hgo (State.run_of_ready h) (exec_csrc_permitted now h hx (csrReach_scratch k true))

end

section
variable {s : State} {m : SmithId} {d a b : RegNo} {imm : BitVec 14} {x : Nat}

theorem exec_csrs_local (now : Nat) (hgo : GoesOn s m (s.smiths[m].pc.toNat + 1)) (hx : s.csrAddr m a imm = x)
    (hlocal : localAt x = true) {f : Smith}
    (hf : ((s.at now).localWrite m x (rmwWord true x (s.localRead m x) (s.g m b))).smiths[m] = f)
    (h : s.ready m { op := 0x1E, d := some d, a := some a, b := some b, imm := some imm } = true) :
    ∃ t, exec (.csrs m d a b imm now) s = .next t ∧ LocalDone s m now t ∧
      t.smiths[m] =
        { f with g := t.smiths[m].g, pc := wrapPc m (s.smiths[m].pc.toNat + 1), run := .running, wait := none } ∧
      t.g m d = if d = 0 then 0 else s.localRead m x :=
  rmw_local now hgo (State.run_of_ready h) hlocal hf (exec_csrs_permitted now h hx (csrReach_of_local true hlocal))

theorem exec_csrc_local (now : Nat) (hgo : GoesOn s m (s.smiths[m].pc.toNat + 1)) (hx : s.csrAddr m a imm = x)
    (hlocal : localAt x = true) {f : Smith}
    (hf : ((s.at now).localWrite m x (rmwWord false x (s.localRead m x) (s.g m b))).smiths[m] = f)
    (h : s.ready m { op := 0x1F, d := some d, a := some a, b := some b, imm := some imm } = true) :
    ∃ t, exec (.csrc m d a b imm now) s = .next t ∧ LocalDone s m now t ∧
      t.smiths[m] =
        { f with g := t.smiths[m].g, pc := wrapPc m (s.smiths[m].pc.toNat + 1), run := .running, wait := none } ∧
      t.g m d = if d = 0 then 0 else s.localRead m x :=
  rmw_local now hgo (State.run_of_ready h) hlocal hf (exec_csrc_permitted now h hx (csrReach_of_local true hlocal))

end

/-! ### The statement -/

/-- Settles O5: a read leaves the course of its Smith (`exec_csrr_completes`), a write that lets its Smith go on completes
(`write_completes`), and the lemmas `exec_csr*_scratch` and `exec_csr*_local` say what the accesses of GLB_SCRATCH and of
the local registers leave. -/
theorem smithCsrAccessesOfLocalRegisters : Obligations.SmithCsrAccessesOfLocalRegisters := by
  unfold Obligations.SmithCsrAccessesOfLocalRegisters
  intro s m d a b imm now n h x v next quiet got goes read written modified lets
  have hx : s.csrAddr m a imm = x := by rw [State.csrAddr, State.effAddr, simm_eq_ofInt]
  refine ⟨fun hready hreach hgo => ?_, fun hreach => ⟨fun hready hlets => ?_, fun hready hlets => ?_, fun hready hlets => ?_⟩,
    ?_, fun hgo => ⟨fun hready => ?_, fun hready => ?_, fun hready => ?_, fun hready => ?_⟩⟩
  · obtain ⟨t, hexec, hfin⟩ := exec_csrr_completes now hready hx hreach hgo
    exact ⟨t, hexec, hfin.dest, ⟨hfin.run, hfin.pc⟩, hfin.only⟩
  · obtain ⟨hrun, hpc, hgo⟩ := hlets
    obtain ⟨t, hexec, hfin⟩ := write_completes (d := 0) (v := 0) (exec_csrw_permitted now hready hx hreach) hrun hpc hgo
    exact ⟨t, hexec, ⟨hfin.run, hfin.pc⟩, hfin.only, hfin.regs⟩
  · obtain ⟨hrun, hpc, hgo⟩ := hlets
    obtain ⟨t, hexec, hfin⟩ := write_completes (exec_csrs_permitted now hready hx hreach) hrun hpc hgo
    exact ⟨t, hexec, hfin.dest, ⟨hfin.run, hfin.pc⟩, hfin.only⟩
  · obtain ⟨hrun, hpc, hgo⟩ := hlets
    obtain ⟨t, hexec, hfin⟩ := write_completes (exec_csrc_permitted now hready hx hreach) hrun hpc hgo
    exact ⟨t, hexec, hfin.dest, ⟨hfin.run, hfin.pc⟩, hfin.only⟩
  · intro k hm hk hgo reg scratch
    have hk' := hx.trans hk
    clear_value x
    subst hm hk
    exact ⟨exec_csrr_scratch now hgo hk', exec_csrw_scratch now hgo hk', exec_csrs_scratch now hgo hk',
      exec_csrc_scratch now hgo hk'⟩
  · exact ⟨fun hk => exec_csrr_local now hgo (hx.trans hk) rfl (State.localRead_self s m) hready,
      fun hk => exec_csrr_local now hgo (hx.trans hk) rfl (State.localRead_evpend s m) hready,
      fun hk => exec_csrr_local now hgo (hx.trans hk) rfl (State.localRead_evmask s m) hready,
      fun hk => exec_csrr_local now hgo (hx.trans hk) rfl (State.localRead_evcause s m) hready,
      fun hk => exec_csrr_local now hgo (hx.trans hk) rfl (State.localRead_tick s m) hready,
      fun hk => exec_csrr_local now hgo (hx.trans hk) rfl (State.localRead_sigset s m) hready,
      fun hk => exec_csrr_local now hgo (hx.trans hk) (localAt_vec n) (State.localRead_vec s m n) hready⟩
  · refine ⟨fun hk => ?_, fun hk => ?_, fun hk => ?_, fun hk => ?_, fun hk => ?_, fun hk => ?_⟩
    · exact exec_csrw_local now hgo hx (localAt_readOnly hk) (State.localWrite_readOnly _ m _ hk) hready
    · obtain ⟨t, hexec, hdone, hsmith⟩ :=
        exec_csrw_local now hgo (hx.trans hk) rfl (State.localWrite_evpend _ m _) hready
      exact ⟨t, hexec, hdone, by rw [hsmith]; rfl⟩
    · obtain ⟨t, hexec, hdone, hsmith⟩ :=
        exec_csrw_local now hgo (hx.trans hk) rfl (State.localWrite_evmask _ m _) hready
      exact ⟨t, hexec, hdone, by rw [hsmith]⟩
    · obtain ⟨t, hexec, hdone, hsmith⟩ :=
        exec_csrw_local now hgo (hx.trans hk) rfl (State.localWrite_tick _ m _) hready
      exact ⟨t, hexec, hdone, by rw [hsmith], by rw [hsmith]; rfl⟩
    · obtain ⟨t, hexec, hdone, hsmith⟩ :=
        exec_csrw_local now hgo (hx.trans hk) rfl (State.localWrite_sigset _ m _) hready
      exact ⟨t, hexec, hdone, by rw [hsmith]; rfl⟩
    · obtain ⟨t, hexec, hdone, hsmith⟩ :=
        exec_csrw_local now hgo (hx.trans hk) (localAt_vec n) (State.localWrite_vec _ m n _) hready
      exact ⟨t, hexec, hdone, fun k => by rw [hsmith]; exact upd_get _ n k _⟩
  · refine ⟨fun hk => ?_, fun hk => ?_⟩
    · obtain ⟨t, hexec, hdone, hsmith, hgot⟩ :=
        exec_csrs_local now hgo (hx.trans hk) rfl (State.localWrite_evmask _ m _) hready
      exact ⟨t, hexec, hdone, by rw [hsmith]; exact setBits_evmask s m v, hgot⟩
    · obtain ⟨t, hexec, hdone, hsmith, hgot⟩ :=
        exec_csrs_local now hgo (hx.trans hk) rfl (State.localWrite_evpend _ m _) hready
      exact ⟨t, hexec, hdone, by rw [hsmith, rmwWord_set_w1c rfl]; rfl, hgot⟩
  · refine ⟨fun hk => ?_, fun hk => ?_⟩
    · obtain ⟨t, hexec, hdone, hsmith, hgot⟩ :=
        exec_csrc_local now hgo (hx.trans hk) rfl (State.localWrite_evmask _ m _) hready
      exact ⟨t, hexec, hdone, by rw [hsmith]; exact clearBits_evmask s m v, hgot⟩
    · obtain ⟨t, hexec, hdone, hsmith, hgot⟩ :=
        exec_csrc_local now hgo (hx.trans hk) rfl (State.localWrite_evpend _ m _) hready
      exact ⟨t, hexec, hdone, by rw [hsmith, rmwWord_clear_w1c rfl]; exact BitVec.and_allOnes, hgot⟩

end Sys2Proof.Machine
end

section
/-! SUPPORT. The requests of a port: the answer to one of them, and the writes that the port adapter has judged (03 R109,
R110, R119, R120). -/

namespace Sys2Proof.Machine

/-! ### One port -/

/-- The machine with `v` as its port `p`. -/
def State.withPort (s : State) (p : PortId) (v : Port) : State := s.onPort p (fun _ => v)

theorem State.onPort_eq_withPort (s : State) (p : PortId) (f : Port → Port) : s.onPort p f = s.withPort p (f s.ports[p]) := rfl

@[simp] theorem State.withPort_port (s : State) (p : PortId) (v : Port) : (s.withPort p v).ports[p] = v := State.onPort_port s p _

@[simp] theorem State.withPort_withPort (s : State) (p : PortId) (v v' : Port) : (s.withPort p v).withPort p v' = s.withPort p v' := by
  simp only [State.withPort, State.onPort, upd_upd]

theorem withPort_only (s : State) (p : PortId) (v : Port) : Only (· = .port p) s (s.withPort p v) := onPort_only s p _

/-- A command that leaves `v` as port `p` and changes nothing else. -/
theorem becomes_of_withPort {s : State} {p : PortId} {i : Instr} {v : Port} (h : exec i s = .next (s.withPort p v)) :
    ∃ t, exec i s = .next t ∧ t.ports[p] = v ∧ Only (· = .port p) s t :=
  ⟨_, h, State.withPort_port s p v, withPort_only s p v⟩

/-! ### One request of a port -/

section
variable {before after : List Req} {r : Req} (hid : ∀ q ∈ before ++ after, q.id ≠ r.id)
include hid

/-- Changes of the request of an id leave the requests of other ids. -/
theorem map_onId (f : Req → Req) :
    (before ++ r :: after).map (fun q => if q.id = r.id then f q else q) = before ++ f r :: after := by
  have hother : ∀ l : List Req, (∀ q ∈ l, q.id ≠ r.id) → l.map (fun q => if q.id = r.id then f q else q) = l := fun l hl =>
    (List.map_congr_left fun q hq => if_neg (hl q hq)).trans (List.map_id' l)
  obtain ⟨hb, ha⟩ := List.forall_mem_append.mp hid
  rw [List.map_append, List.map_cons, if_pos rfl, hother before hb, hother after ha]

theorem find_onId : (before ++ r :: after).find? (fun q => q.id == r.id) = some r := by
  have hnone : before.find? (fun q => q.id == r.id) = none :=
    List.find?_eq_none.mpr fun q hq => by simpa using hid q (List.mem_append_left _ hq)
  rw [List.find?_append, hnone, Option.none_or, List.find?_cons_of_pos (by simp)]

theorem Port.onReq_split {v : Port} (hreqs : v.reqs = before ++ r :: after) (f : Req → Req) :
    v.onReq r.id f = { v with reqs := before ++ f r :: after } := by
  rw [Port.onReq, hreqs, map_onId hid]

end

/-- The port whose request `r`, between `before` and `after`, has been answered by one beat without data (R122). -/
def Port.answerAt (v : Port) (before : List Req) (r : Req) (after : List Req) (st : Status) : Port :=
  { v with
    reqs := before ++ { r with stage := .answered, beats := [] } :: after
    respq := v.respq ++ [{ req := r.id, tag := r.tag, status := BitVec.ofNat 4 st.code, data := false, beats := [(0, false)] }] }

/-- The answer to a request in which nothing was inverted. -/
theorem State.answer_split {s : State} {p : PortId} {before after : List Req} {r : Req} (st : Status)
    (hid : ∀ q ∈ before ++ after, q.id ≠ r.id) (hreqs : s.ports[p].reqs = before ++ r :: after) (hflip : r.flip = Flip.none) :
    s.answer p r.id st = s.withPort p (s.ports[p].answerAt before r after st) := by
  have hfind : s.ports[p].reqs.find? (fun q => q.id == r.id) = some r := by rw [hreqs, find_onId hid]
  have hstatus : BitVec.ofNat 4 st.code ^^^ r.flip.status = BitVec.ofNat 4 st.code := by rw [hflip]; exact BitVec.xor_zero
  rw [State.answer_eq_respond st hfind hflip, State.respond, State.onPort_eq_withPort]
  simp only [hfind, Port.onReq_split hid hreqs, Option.map_some, Option.getD_some, hstatus, Port.answerAt]

/-! ### Judged writes (R119, R120) -/

/-- The request is no write that has all its beats and still awaits an answer for what the port adapter found. -/
def Req.judged (r : Req) : Prop :=
  isWriteOp r.op = true → r.len < r.beats.length →
    r.stage ≠ .draining ∧ (r.stage = .crossing → r.cause = 0 ∧ r.refusal = none ∧ r.dropInj = false) ∧
    (r.stage = .crossing ∨ r.stage = .queued → lastGood r.beats = true)

theorem noneUnjudged_iff (v : Port) : noneUnjudged v ↔ ∀ r ∈ v.reqs, r.judged := Iff.rfl

/-- A write that still lacks beats awaits no judgement. -/
theorem Req.judged_of_short {r : Req} (h : r.beats.length ≤ r.len) : r.judged := fun _ hlt => absurd h (by omega)

theorem Req.judged_of_answered {r : Req} (h : r.stage = .answered) : r.judged := fun _ _ => by simp [h]

/-- The writes that `State.settlePort` looks at: those with all their beats that are not in their queue yet. -/
def Req.settles (r : Req) : Bool :=
  isWriteOp r.op && (r.stage == .draining || r.stage == .crossing) && decide (r.len < r.beats.length)

theorem State.settlePort_eq (s : State) (p : PortId) :
    s.settlePort p = (s.ports[p].reqs.filter Req.settles).foldl (fun s r => s.settleWrite p r) s := rfl

/-- A write that has been judged is not judged again. -/
theorem State.settleWrite_of_judged {r : Req} (s : State) (p : PortId) (hj : r.judged) (hs : r.settles = true) :
    s.settleWrite p r = s := by
  simp only [Req.settles, Bool.and_eq_true, Bool.or_eq_true, beq_iff_eq, decide_eq_true_eq] at hs
  obtain ⟨⟨hw, hstage⟩, hlen⟩ := hs
  obtain ⟨hdrain, hfound, hlast⟩ := hj hw hlen
  have hcross : r.stage = .crossing := hstage.resolve_left hdrain
  obtain ⟨hcause, hrefusal, hdrop⟩ := hfound hcross
  simp [State.settleWrite, hcause, hrefusal, hdrop, hlast (.inl hcross)]

theorem State.settle_judged (s : State) (p : PortId) {l : List Req} (h : ∀ r ∈ l, r.judged) :
    (l.filter Req.settles).foldl (fun s r => s.settleWrite p r) s = s := by
  have hkeep : ∀ (u : State), ∀ r ∈ l.filter Req.settles, u.settleWrite p r = u := fun u r hr =>
    u.settleWrite_of_judged p (h r (List.mem_of_mem_filter hr)) (List.mem_filter.mp hr).2
  exact (List.foldl_ext _ (fun u _ => u) s hkeep).trans (List.foldl_fixed _)

theorem State.settlePort_of_judged {s : State} {p : PortId} (h : noneUnjudged s.ports[p]) : s.settlePort p = s :=
  s.settle_judged p h

/-- One write is judged where every other one has been. -/
theorem State.settlePort_split {s : State} {p : PortId} {before after : List Req} {r : Req}
    (hreqs : s.ports[p].reqs = before ++ r :: after) (hj : ∀ q ∈ before ++ after, q.judged) (hr : r.settles = true) :
    s.settlePort p = s.settleWrite p r := by
  obtain ⟨hb, ha⟩ := List.forall_mem_append.mp hj
  rw [State.settlePort_eq, hreqs, List.filter_append, List.filter_cons_of_pos hr, List.foldl_append, List.foldl_cons,
    s.settle_judged p hb, State.settle_judged _ p ha]

/-- No queued write with a misplaced WLAST is among judged ones. -/
theorem State.settleQueued_of_judged {s : State} {p : PortId} (h : noneUnjudged s.ports[p]) : s.settleQueued p = s := by
  have hnone : s.ports[p].reqs.filter (fun r => r.stage == .queued && isWriteOp r.op && !r.lacksBeats && !lastGood r.beats) = [] := by
    rw [List.filter_eq_nil_iff]
    intro r hr hbad
    simp only [Req.lacksBeats, Bool.and_eq_true, beq_iff_eq, Bool.not_eq_true', Bool.and_eq_false_iff, decide_eq_false_iff_not,
      not_le] at hbad
    obtain ⟨⟨⟨hstage, hw⟩, hlen⟩, hlast⟩ := hbad
    have hlong : r.len < r.beats.length := hlen.resolve_left (by simp [hw])
    obtain ⟨-, -, hgood⟩ := h r hr hw hlong
    rw [hgood (.inr hstage)] at hlast
    exact Bool.noConfusion hlast
  rw [State.settleQueued, hnone, List.foldl_nil]

end Sys2Proof.Machine
end

section
/-! SUPPORT. Write beats, response beats, PANIC and SEAL_DONE (03 R105, R109, R110, R117, R127, 01 R40). -/

namespace Sys2Proof.Machine

/-! ### WRITE_BEAT -/

/-- A beat joins the first write that owes one. -/
theorem Port.takeBeat_split {v : Port} {before after : List Req} {r : Req} (b : Beat) (hid : ∀ q ∈ before ++ after, q.id ≠ r.id)
    (hreqs : v.reqs = before ++ r :: after) (hbefore : ∀ q ∈ before, q.owes = false) (hr : r.owes = true) :
    v.takeBeat b = { v with reqs := before ++ { r with beats := r.beats ++ [b] } :: after } := by
  have hnone : before.find? Req.owes = none := List.find?_eq_none.mpr fun q hq => by simp [hbefore q hq]
  have hfind : v.reqs.find? Req.owes = some r := by
    rw [hreqs, List.find?_append, hnone, Option.none_or, List.find?_cons_of_pos hr]
  simp only [Port.takeBeat, hfind, Port.onReq_split hid hreqs]

/-- A beat waits for its request where no write owes one. -/
theorem Port.takeBeat_early {v : Port} (b : Beat) (h : ∀ q ∈ v.reqs, q.owes = false) :
    v.takeBeat b = { v with early := v.early ++ [b] } := by
  have hfind : v.reqs.find? Req.owes = none := List.find?_eq_none.mpr fun q hq => by simp [h q hq]
  simp only [Port.takeBeat, hfind]

/-- WRITE_BEAT on a port that takes beats: the beat is taken, then complete writes are judged. -/
theorem exec_writeBeat_ready {s : State} {p : PortId} {data : Sector} {be : BitVec 64} {wpoison wlast : Bool} {v : Port}
    (h : s.wReady p = true) (hv : s.ports[p].takeBeat { data := data, be := be, wpoison := wpoison, wlast := wlast } = v) :
    exec (.writeBeat p data be wpoison wlast) s = .next (((s.withPort p v).settlePort p).settleQueued p) := by
  subst hv
  show execWriteBeat p data be wpoison wlast s = _
  rw [execWriteBeat, h, occur_true]
  rfl

/-- A beat that leaves no write to judge is all that WRITE_BEAT does. -/
theorem exec_writeBeat_judged {s : State} {p : PortId} {data : Sector} {be : BitVec 64} {wpoison wlast : Bool} {v : Port}
    (h : s.wReady p = true) (hv : s.ports[p].takeBeat { data := data, be := be, wpoison := wpoison, wlast := wlast } = v)
    (hj : noneUnjudged v) : exec (.writeBeat p data be wpoison wlast) s = .next (s.withPort p v) := by
  have hj' : noneUnjudged (s.withPort p v).ports[p] := by rwa [State.withPort_port]
  rw [exec_writeBeat_ready h hv, State.settlePort_of_judged hj', State.settleQueued_of_judged hj']

/-- The last beat of a refused write brings its answer (R120). -/
theorem State.settleWrite_refused (s : State) (p : PortId) {r : Req} {st : Status} (hdrop : r.dropInj = false)
    (hcause : r.cause = 0) (hlast : lastGood r.beats = true) (hrefusal : r.refusal = some st) :
    s.settleWrite p r = s.answer p r.id st := by
  simp [State.settleWrite, hdrop, hcause, hlast, hrefusal]

/-- A beat that completes a draining write with its answer decided: the write is answered, and the judged ones stay. -/
theorem exec_writeBeat_refused {s : State} {p : PortId} {data : Sector} {be : BitVec 64} {wpoison wlast : Bool} {v : Port}
    {before after : List Req} {r : Req} {st : Status} (h : s.wReady p = true)
    (hv : s.ports[p].takeBeat { data := data, be := be, wpoison := wpoison, wlast := wlast } = v)
    (hreqs : v.reqs = before ++ r :: after) (hid : ∀ q ∈ before ++ after, q.id ≠ r.id) (hj : ∀ q ∈ before ++ after, q.judged)
    (hr : r.settles = true) (hsettle : ∀ u : State, u.settleWrite p r = u.answer p r.id st) (hflip : r.flip = Flip.none) :
    exec (.writeBeat p data be wpoison wlast) s = .next (s.withPort p (v.answerAt before r after st)) := by
  have hreqs' : (s.withPort p v).ports[p].reqs = before ++ r :: after := by rwa [State.withPort_port]
  have hanswered : noneUnjudged (s.withPort p (v.answerAt before r after st)).ports[p] := by
    obtain ⟨hb, ha⟩ := List.forall_mem_append.mp hj
    rw [State.withPort_port, noneUnjudged_iff, Port.answerAt, List.forall_mem_append, List.forall_mem_cons]
    exact ⟨hb, Req.judged_of_answered rfl, ha⟩
  rw [exec_writeBeat_ready h hv, State.settlePort_split hreqs' hj hr, hsettle,
    State.answer_split st hid hreqs' hflip, State.withPort_withPort, State.withPort_port, State.settleQueued_of_judged hanswered]

/-! ### RESPONSE_BEAT -/

/-- With no injection armed on the port the front beat transfers as it is. -/
theorem exec_responseBeat_plain {s : State} {p : PortId} {q : Resp} {rest : List Resp} (hcorrupt : s.armed false p.val 2 = false)
    (hswap : s.armed false p.val 3 = false) (hq : s.ports[p].respq = q :: rest) :
    exec (.responseBeat p) s = .next (s.withPort p (s.ports[p].popBeat none)) := by
  show execResponseBeat p s = _
  simp only [execResponseBeat, hq, hcorrupt, hswap, Bool.and_false, Bool.false_eq_true, if_false]
  rfl

/-- What the transfer of a beat leaves of its port: with the last beat the request is no longer outstanding (R108). -/
theorem Port.popBeat_cons {v : Port} {q : Resp} {rest : List Resp} {x : Sector × Bool} {more : List (Sector × Bool)}
    (hq : v.respq = q :: rest) (hbeats : q.beats = x :: more) :
    v.popBeat none = { v with
      out := some { tag := q.tag, status := q.status, data := x.1, rpoison := x.2, rlast := decide (more = []) },
      reserved := if q.data then v.reserved - 1 else v.reserved,
      respq := if more = [] then rest else { q with beats := more } :: rest,
      reqs := if more = [] then v.reqs.filter (fun y => y.id != q.req) else v.reqs } := by
  simp only [Port.popBeat, hq, hbeats]
  cases more <;> rfl

/-! ### PANIC and SEAL_DONE -/

theorem exec_panic_sampled {s : State} {p : PortId} (level : BitVec 2) (hport : s.portEn p = true ∨ s.portActive p = true)
    (hheat : (s.staticHeat p).isSome = true) :
    exec (.panic p level) s = .next (s.withPort p { s.ports[p] with panic := level }) := by
  have hon : (s.portEn p || s.portActive p) = true := Bool.or_eq_true_iff.mpr hport
  show execPanic p level s = _
  rw [execPanic, hon, hheat]
  rfl

/-- A SEAL with no SEAL and no unanswered write before it is the one to be answered. -/
theorem sealReady_split {before : List Req} {r : Req} (after : List Req)
    (hbefore : ∀ q ∈ before, q.openWrite = false ∧ q.stage ≠ .seal) (hopen : r.openWrite = false) (hseal : r.stage = .seal) :
    sealReady (before ++ r :: after) = some r := by
  induction before with
  | nil => simp [sealReady, hopen, hseal]
  | cons q before ih =>
    obtain ⟨⟨hq, hstage⟩, hrest⟩ := List.forall_mem_cons.mp hbefore
    simp [sealReady, hq, hstage, ih hrest]

theorem exec_sealDone_first {s : State} {p : PortId} {before after : List Req} {r : Req}
    (hreqs : s.ports[p].reqs = before ++ r :: after) (hid : ∀ q ∈ before ++ after, q.id ≠ r.id)
    (hbefore : ∀ q ∈ before, q.openWrite = false ∧ q.stage ≠ .seal) (hopen : r.openWrite = false) (hseal : r.stage = .seal)
    (hflip : r.flip = Flip.none) :
    exec (.sealDone p) s = .next (s.withPort p (s.ports[p].answerAt before r after .sealDone)) := by
  have hready : sealReady s.ports[p].reqs = some r := by rw [hreqs, sealReady_split after hbefore hopen hseal]
  show execSealDone p s = _
  simp only [execSealDone, hready]
  rw [State.answer_split .sealDone hid hreqs hflip]

/-- Settles O14: `Port.takeBeat_early` or `Port.takeBeat_split` says where a beat goes, `exec_writeBeat_refused` answers a
refused write, and `Port.popBeat_cons` and `exec_sealDone_first` are the response beat and SEAL_DONE. -/
theorem writeAndResponseBeatsTransferInOrder : Obligations.WriteAndResponseBeatsTransferInOrder := by
  unfold Obligations.WriteAndResponseBeatsTransferInOrder
  intro s p data be wpoison wlast level before after r v b becomes
  refine ⟨fun hready hj => ⟨fun hnone => ?_, fun hreqs hbefore howes hlen hid => ?_,
    fun st hreqs hbefore hid hstage hw hlen hlast hcause hdrop hrefusal hflip => ?_⟩,
    fun q rest x more hcorrupt hswap hq hbeats => ?_, fun hport hheat => ?_, fun hreqs hbefore hafter hseal hw hflip => ?_⟩
  · exact becomes_of_withPort (exec_writeBeat_judged hready (Port.takeBeat_early b hnone) hj)
  · have hv := Port.takeBeat_split b hid hreqs hbefore howes
    refine becomes_of_withPort (exec_writeBeat_judged hready hv ?_)
    rw [noneUnjudged_iff, hreqs, List.forall_mem_append, List.forall_mem_cons] at hj
    obtain ⟨hjb, -, hja⟩ := hj
    have hshort : Req.judged { r with beats := r.beats ++ [b] } := Req.judged_of_short (by simpa using hlen)
    exact List.forall_mem_append.mpr ⟨hjb, List.forall_mem_cons.mpr ⟨hshort, hja⟩⟩
  · have howes : r.owes = true := by simp [Req.owes, Req.lacksBeats, hw, hlen, hstage]
    have hv := Port.takeBeat_split b hid hreqs hbefore howes
    rw [noneUnjudged_iff, hreqs, List.forall_mem_append, List.forall_mem_cons] at hj
    obtain ⟨hjb, -, hja⟩ := hj
    have hexec := exec_writeBeat_refused hready hv rfl hid (List.forall_mem_append.mpr ⟨hjb, hja⟩)
      (by simp [Req.settles, hw, hstage, hlen]) (fun u => u.settleWrite_refused p hdrop hcause hlast hrefusal) hflip
    exact becomes_of_withPort hexec
  · have hexec := exec_responseBeat_plain hcorrupt hswap hq
    rw [Port.popBeat_cons hq hbeats] at hexec
    exact becomes_of_withPort hexec
  · exact becomes_of_withPort (exec_panic_sampled level hport hheat)
  · have hid : ∀ q ∈ before ++ after, q.id ≠ r.id :=
      List.forall_mem_append.mpr ⟨fun q hq => by obtain ⟨-, -, hne⟩ := hbefore q hq; exact hne, hafter⟩
    have hclosed : ∀ q ∈ before, q.openWrite = false ∧ q.stage ≠ .seal := fun q hq => by
      obtain ⟨hq', hstage, -⟩ := hbefore q hq
      exact ⟨hq', hstage⟩
    exact becomes_of_withPort (exec_sealDone_first hreqs hid hclosed (by simp [Req.openWrite, hw]) hseal hflip)

end Sys2Proof.Machine
end

section
/-! SUPPORT. Requests at the request channel (03 R101, R108, R111, R117, R119, R120, 01 R41). -/

namespace Sys2Proof.Machine

/-! ### Protocol errors (R119, R121) -/

theorem recordPerr_only (s : State) (p cause : Nat) : Only (· = .reg aPERR) s (s.recordPerr p cause) := by
  unfold State.recordPerr
  refine Only.trans ?_ (count_only _ aPERR 23 16)
  split
  · exact Only.refl _ s
  · exact ((setFlag_only _ aPERR 31 true).trans (setFld_only _ aPERR 10 8 cause)).trans (setFld_only _ aPERR 6 0 p)

theorem uncount_only (s : State) (p : PortId) (r : Req) : Only (· = .port p) s (s.uncount p r) := onPort_only s p _

/-- What a protocol error touches. -/
def perrParts (p : PortId) (x : Part) : Prop := x = .port p ∨ x = .faults ∨ x = .reg aPERR

/-- A protocol error is answered DENIED, sends fault 0x0C and is recorded in SWD_PERR. -/
theorem State.protocolError_split {s : State} {p : PortId} {before after : List Req} {r : Req} (cause : Nat)
    (hid : ∀ q ∈ before ++ after, q.id ≠ r.id) (hreqs : s.ports[p].reqs = before ++ r :: after) (hflip : r.flip = Flip.none) :
    let t := s.protocolError p r cause
    t.ports[p].respq = s.ports[p].respq ++ [{ req := r.id, tag := r.tag, status := 7, data := false, beats := [(0, false)] }] ∧
    t.faults.arriving = s.faults.arriving ++
      [{ source := 0x41, kind := 0x0C, sev := 0, addr := BitVec.ofNat 41 (alignAddr r.addr),
         detail := BitVec.ofNat 23 (p.val + cause * 2 ^ 8), raiser := none }] ∧
    Only (perrParts p) s t := by
  have hrecord := recordPerr_only (s.uncount p r) p cause
  have hsend := send_only ((s.uncount p r).recordPerr p cause) 0x41 0x0C sevInfo (alignAddr r.addr) (p.val + cause * 2 ^ 8)
  unfold State.protocolError
  generalize hu : ((s.uncount p r).recordPerr p cause).send 0x41 0x0C sevInfo (alignAddr r.addr) (p.val + cause * 2 ^ 8) = u
    at hsend
  have hport : u.ports[p] = (s.uncount p r).ports[p] := (hsend (.port p) (by simp)).trans (hrecord (.port p) (by simp))
  have huncount : (s.uncount p r).ports[p].reqs = before ++ { r with booked := 0 } :: after ∧
      (s.uncount p r).ports[p].respq = s.ports[p].respq := by
    rw [State.uncount, State.onPort_port, Port.onReq_split hid hreqs]
    exact ⟨rfl, rfl⟩
  rw [← hport] at huncount
  obtain ⟨hu', hrespq⟩ := huncount
  have hanswer : u.answer p r.id .denied = _ := State.answer_split (r := { r with booked := 0 }) .denied hid hu' hflip
  rw [hanswer]
  refine ⟨?_, ?_, ?_⟩
  · rw [State.withPort_port, Port.answerAt, hrespq]
    rfl
  · have harriving : u.faults.arriving = _ := hu ▸ State.send_arriving _ 0x41 0x0C sevInfo _ _
    have hfaults : ((s.uncount p r).recordPerr p cause).faults = s.faults := hrecord .faults (by simp)
    exact harriving.trans (by rw [hfaults]; rfl)
  · exact ((((uncount_only s p r).mono (fun _ h => .inl h)).trans (hrecord.mono (fun _ h => .inr (.inr h)))).trans
      (hsend.mono (fun _ h => .inr (.inl h)))).trans ((withPort_only u p _).mono (fun _ h => .inl h))

/-- Cause 2 is a request other than a SEAL that runs past its 4 KiB page (R114). -/
theorem protocolCause_of_op {op : Nat} (addr len : Nat) (h5 : op < 5) (h3 : op ≠ 3) :
    protocolCause op addr len = if decide (addr / 64 * 64 % 4096 + 64 * (len + 1) ≤ 4096) = true then 0 else 2 := by
  have h5' : ¬ 5 ≤ op := by omega
  by_cases hfits : addr / 64 * 64 % 4096 + 64 * (len + 1) ≤ 4096
  · simp [protocolCause, crosses4K, alignAddr, h5', h3, hfits, not_lt.mpr hfits]
  · simp [protocolCause, crosses4K, alignAddr, h5', h3, hfits, not_le.mp hfits]

/-! ### Arrivals -/

/-- A request with no beats as the port adapter holds it, with what it has found in it (R108, R119, R120). -/
def Port.arrival (v : Port) (op addr len : Nat) (tag : BitVec 9) (label : Nat) (colour : BitVec 2) (attr : BitVec 4)
    (stage : Stage) (cause : Nat) (refusal : Option Status) : Req :=
  { newReq v (BitVec.ofNat 4 op) addr len tag label colour attr stage with cause := cause, refusal := refusal }

/-- The port with one more outstanding request, its newest. -/
def Port.join (v : Port) (r : Req) : Port := { v with reqs := v.reqs ++ [r], nextId := v.nextId + 1 }

theorem State.join_reqs (s : State) (p : PortId) (r : Req) :
    (s.withPort p (s.ports[p].join r)).ports[p].reqs = s.ports[p].reqs ++ r :: [] := by
  rw [State.withPort_port, Port.join]

/-- What rows 1 and 2 of Table 1.7 say of a request: a SEAL is refused in QUENCH alone (01 R41). -/
def State.arrivalRefusal (s : State) (op addr len : Nat) : Option Status :=
  if op = 3 then (if s.modes.mode = .quench then some .denied else none) else s.adapterRefusal addr len

theorem State.arrivalRefusal_of_ne (s : State) {op : Nat} (addr len : Nat) (h3 : op ≠ 3) :
    s.arrivalRefusal op addr len = s.adapterRefusal addr len := if_neg h3

section
variable {s : State} {p : PortId} {op addr len : Nat} {tag : BitVec 9} {label : Nat} {colour : BitVec 2} {attr : BitVec 4}
  (hready : s.reqReady p = true) (hdrop : s.armed false p.val 1 = false)
include hready hdrop

/-- A write joins the outstanding requests in every case, and waits for its beats. -/
theorem State.arrive_write (hearly : s.ports[p].early = []) (hj : noneUnjudged s.ports[p]) (hop : op = 1 ∨ op = 2)
    {fits : Bool} (hcause : protocolCause op addr len = if fits = true then 0 else 2) :
    s.arrive p op addr len tag label colour attr = s.withPort p (s.ports[p].join (s.ports[p].arrival op addr len tag label
      colour attr (if fits && (s.adapterRefusal addr len).isNone then .crossing else .draining) (if fits then 0 else 2)
      (s.adapterRefusal addr len))) := by
  have h3 : op ≠ 3 := by omega
  have hearly' : s.ports[p.val].early = [] := hearly
  have hsettled : ∀ r : Req, r.beats = [] → (s.withPort p (s.ports[p].join r)).settlePort p = s.withPort p (s.ports[p].join r) :=
    fun r hr => State.settlePort_of_judged (by
      rw [State.withPort_port]
      exact List.forall_mem_append.mpr ⟨hj, List.forall_mem_singleton.mpr (Req.judged_of_short (by simp [hr]))⟩)
  rw [← hsettled _ rfl]
  cases fits <;> cases hrefusal : s.adapterRefusal addr len <;>
    simp [State.arrive, hready, hdrop, hcause, h3, hop, hrefusal, State.onPort_eq_withPort, Port.join, Port.arrival, newReq,
      hearly']

/-- A request without beats in which the port adapter finds nothing joins the outstanding requests. -/
theorem State.arrive_accepted (hop : ¬ (op = 1 ∨ op = 2)) (hcause : protocolCause op addr len = 0)
    (hrefusal : s.arrivalRefusal op addr len = none) :
    s.arrive p op addr len tag label colour attr = s.withPort p (s.ports[p].join (newReq s.ports[p] (BitVec.ofNat 4 op) addr
      len tag label colour attr (if op = 3 then .seal else .crossing))) := by
  rw [State.arrivalRefusal] at hrefusal
  simp [State.arrive, hready, hdrop, hcause, hop, hrefusal, State.onPort_eq_withPort, Port.join, newReq]

/-- A request without beats that the port adapter refuses is answered at once. -/
theorem State.arrive_refused {st : Status} (hop : ¬ (op = 1 ∨ op = 2)) (hcause : protocolCause op addr len = 0)
    (hrefusal : s.arrivalRefusal op addr len = some st) :
    s.arrive p op addr len tag label colour attr =
      let r := s.ports[p].arrival op addr len tag label colour attr .draining 0 (some st)
      (s.withPort p (s.ports[p].join r)).answer p r.id st := by
  rw [State.arrivalRefusal] at hrefusal
  simp [State.arrive, hready, hdrop, hcause, hop, hrefusal, State.onPort_eq_withPort, Port.join, Port.arrival, newReq]

/-- A malformed request without beats is a protocol error at once. -/
theorem State.arrive_malformed {cause : Nat} (hop : ¬ (op = 1 ∨ op = 2)) (hcause : protocolCause op addr len = cause)
    (h0 : cause ≠ 0) :
    s.arrive p op addr len tag label colour attr =
      let r := s.ports[p].arrival op addr len tag label colour attr .draining cause (s.arrivalRefusal op addr len)
      (s.withPort p (s.ports[p].join r)).protocolError p r cause := by
  simp [State.arrive, hready, hdrop, hcause, hop, h0, State.onPort_eq_withPort, Port.join, Port.arrival, newReq,
    State.arrivalRefusal]

section
variable (hfresh : ∀ r ∈ s.ports[p].reqs, r.id ≠ s.ports[p].nextId)
include hfresh

/-- A command whose request is refused at once answers it and touches its port alone. -/
theorem arrive_refused_answers {i : Instr} {st : Status}
    (hi : exec i s = .next (s.arrive p op addr len tag label colour attr)) (hop : ¬ (op = 1 ∨ op = 2))
    (hcause : protocolCause op addr len = 0) (hrefusal : s.arrivalRefusal op addr len = some st) :
    ∃ t, exec i s = .next t ∧
      t.ports[p].respq = s.ports[p].respq ++
        [{ req := s.ports[p].nextId, tag := tag, status := BitVec.ofNat 4 st.code, data := false, beats := [(0, false)] }] ∧
      Only (· = .port p) s t := by
  rw [State.arrive_refused hready hdrop hop hcause hrefusal] at hi
  dsimp only at hi
  rw [State.answer_split st (fun q hq => hfresh q (by simpa using hq)) (State.join_reqs s p _) rfl, State.withPort_withPort] at hi
  exact ⟨_, hi, by rw [State.withPort_port, State.withPort_port]; rfl, withPort_only s p _⟩

/-- A command whose request is malformed answers it DENIED and reports it. -/
theorem arrive_malformed_reports {i : Instr} {cause : Nat}
    (hi : exec i s = .next (s.arrive p op addr len tag label colour attr)) (hop : ¬ (op = 1 ∨ op = 2))
    (hcause : protocolCause op addr len = cause) (h0 : cause ≠ 0) :
    ∃ t, exec i s = .next t ∧
      t.ports[p].respq = s.ports[p].respq ++
        [{ req := s.ports[p].nextId, tag := tag, status := 7, data := false, beats := [(0, false)] }] ∧
      (∃ e, t.faults.arriving = s.faults.arriving ++ [e] ∧ e.kind = 0x0C ∧ e.source = 0x41 ∧
        e.addr = BitVec.ofNat 41 (addr / 64 * 64) ∧ e.detail = BitVec.ofNat 23 (p.val + cause * 2 ^ 8)) ∧
      Only (perrParts p) s t := by
  rw [State.arrive_malformed hready hdrop hop hcause h0] at hi
  obtain ⟨hrespq, hfault, honly⟩ := State.protocolError_split cause (fun q hq => hfresh q (by simpa using hq))
    (State.join_reqs s p (s.ports[p].arrival op addr len tag label colour attr .draining cause (s.arrivalRefusal op addr len))) rfl
  refine ⟨_, hi, ?_, ⟨_, hfault, rfl, rfl, rfl, rfl⟩, ((withPort_only s p _).mono (fun _ h => .inl h)).trans honly⟩
  rw [hrespq, State.withPort_port]
  rfl

end
end

/-! ### The rows -/

theorem exec_read_occurs {s : State} (p : PortId) {op : BitVec 4} (addr : BitVec 41) (len : BitVec 6) (tag : BitVec 9)
    (label : BitVec 5) (colour : BitVec 2) (attr : BitVec 4) (h : op = 0 ∨ 5 ≤ op.toNat) :
    exec (.read p op addr len tag label colour attr) s =
      .next (s.arrive p op.toNat addr.toNat len.toNat tag label.toNat colour attr) := by
  have hoccurs : (op == 0 || decide (5 ≤ op.toNat)) = true := by simpa using h
  show execRead p op addr len tag label colour attr s = _
  rw [execRead, hoccurs, occur_true]

/-- Settles O13: `State.arrive_write` and `State.arrive_accepted` say what joins, `arrive_refused_answers` and
`arrive_malformed_reports` what is answered at once. -/
theorem clientRequestsBecomeOutstanding : Obligations.ClientRequestsBecomeOutstanding := by
  unfold Obligations.ClientRequestsBecomeOutstanding
  intro s p op addr len tag label colour attr v fits refused joins new write reply answered wrong hready hdrop hearly hj
  have hwrite : exec (.write p addr len tag label colour attr) s =
      .next (s.arrive p 1 addr.toNat len.toNat tag label.toNat colour attr) := rfl
  have hmasked : exec (.writeMasked p addr len tag label colour attr) s =
      .next (s.arrive p 2 addr.toNat len.toNat tag label.toNat colour attr) := rfl
  have hread : exec (.read p 0 addr len tag label colour attr) s =
      .next (s.arrive p 0 addr.toNat len.toNat tag label.toNat colour attr) :=
    exec_read_occurs p addr len tag label colour attr (.inl rfl)
  have hhint : exec (.hint p addr len tag label colour attr) s =
      .next (s.arrive p 4 addr.toNat len.toNat tag label.toNat colour attr) := rfl
  have hseal : exec (.seal p tag) s = .next (s.arrive p 3 0 0 tag 0 0 0) := rfl
  have hpage : ∀ n : Nat, n < 5 → n ≠ 3 → protocolCause n addr.toNat len.toNat = if fits = true then 0 else 2 := fun n =>
    protocolCause_of_op addr.toNat len.toNat
  have hfit : ∀ n : Nat, n < 5 → n ≠ 3 → fits = true → protocolCause n addr.toNat len.toNat = 0 := fun n h5 h3 h =>
    (hpage n h5 h3).trans (if_pos h)
  have hcross : ∀ n : Nat, n < 5 → n ≠ 3 → fits = false → protocolCause n addr.toNat len.toNat = 2 := fun n h5 h3 h =>
    (hpage n h5 h3).trans (if_neg (by simp [h]))
  have hrefusal : ∀ n : Nat, n ≠ 3 → s.arrivalRefusal n addr.toNat len.toNat = refused := fun n =>
    s.arrivalRefusal_of_ne addr.toNat len.toNat
  refine ⟨?_, ?_, fun hfits hrefused => ⟨?_, ?_⟩, fun hmode => ?_, fun hfresh => ⟨fun st hfits hrefused => ⟨?_, ?_⟩,
    fun hmode => ?_, fun hop => ?_, fun hfits => ⟨?_, ?_⟩⟩⟩
  · rw [State.arrive_write hready hdrop hearly hj (.inl rfl) (hpage 1 (by decide) (by decide))] at hwrite
    exact becomes_of_withPort hwrite
  · rw [State.arrive_write hready hdrop hearly hj (.inr rfl) (hpage 2 (by decide) (by decide))] at hmasked
    exact becomes_of_withPort hmasked
  · rw [State.arrive_accepted hready hdrop (by decide) (hfit 0 (by decide) (by decide) hfits)
      ((hrefusal 0 (by decide)).trans hrefused)] at hread
    exact becomes_of_withPort hread
  · rw [State.arrive_accepted hready hdrop (by decide) (hfit 4 (by decide) (by decide) hfits)
      ((hrefusal 4 (by decide)).trans hrefused)] at hhint
    exact becomes_of_withPort hhint
  · rw [State.arrive_accepted hready hdrop (by decide) (by decide) (by simp [State.arrivalRefusal, hmode])] at hseal
    exact becomes_of_withPort hseal
  · exact arrive_refused_answers hready hdrop hfresh hread (by decide) (hfit 0 (by decide) (by decide) hfits)
      ((hrefusal 0 (by decide)).trans hrefused)
  · exact arrive_refused_answers hready hdrop hfresh hhint (by decide) (hfit 4 (by decide) (by decide) hfits)
      ((hrefusal 4 (by decide)).trans hrefused)
  · exact arrive_refused_answers hready hdrop hfresh hseal (by decide) (by decide) (by simp [State.arrivalRefusal, hmode])
  · exact arrive_malformed_reports hready hdrop hfresh (exec_read_occurs p addr len tag label colour attr (.inr hop)) (by omega)
      (by rw [protocolCause, if_pos hop]) (by decide)
  · exact arrive_malformed_reports hready hdrop hfresh hread (by decide) (hcross 0 (by decide) (by decide) hfits) (by decide)
  · exact arrive_malformed_reports hready hdrop hfresh hhint (by decide) (hcross 4 (by decide) (by decide) hfits) (by decide)

end Sys2Proof.Machine
end

section
/-! SUPPORT. The port registers: SWD_EN, SWD_ACTIVE and BLW_HALT (03 R101, R104, R132). -/

namespace Sys2Proof.Machine

/-! ### SWD_EN and SWD_ACTIVE -/

theorem regHome_SWD_EN (k : Fin 4) : regHome (aSWD_EN k.val) = aSWD_EN k.val := by fin_cases k <;> rfl

theorem regHome_SWD_ACTIVE (k : Fin 4) : regHome (aSWD_ACTIVE k.val) = aSWD_ACTIVE k.val := by fin_cases k <;> rfl

theorem aSWD_ACTIVE_ne_EN (k : Fin 4) : aSWD_ACTIVE k.val ≠ aSWD_EN k.val := by
  simp only [aSWD_ACTIVE, aSWD_EN]
  omega

/-- SWD_EN has 32 RW bits (Table 18.4). -/
theorem typed_SWD_EN (s : State) (k : Fin 4) (w : Word) : s.typed (aSWD_EN k.val) w = s.wr (aSWD_EN k.val) w := by
  have hinfo : regInfo (aSWD_EN k.val) = some { rw := 0xFFFFFFFF } := by fin_cases k <;> rfl
  rw [State.typed_eq_wr hinfo, typedWrite_of_plain _ _ rfl (by simp)]
  simp [and_ones]

/-- What a write of SWD_ENk leaves: the word, and every enabled port active. -/
theorem State.swdWrite_spec (s : State) (k : Fin 4) (w : Word) :
    let t := s.swdWrite k.val w
    t.rd (aSWD_EN k.val) = w ∧ t.rd (aSWD_ACTIVE k.val) = s.rd (aSWD_ACTIVE k.val) ||| w ∧
      Only (fun x => x = .reg (aSWD_EN k.val) ∨ x = .reg (aSWD_ACTIVE k.val)) s t := by
  have hne : regHome (aSWD_ACTIVE k.val) ≠ regHome (aSWD_EN k.val) := by
    rw [regHome_SWD_ACTIVE, regHome_SWD_EN]
    exact aSWD_ACTIVE_ne_EN k
  have hen := wr_only s (aSWD_EN k.val) w
  have hactive := wr_only (s.wr (aSWD_EN k.val) w) (aSWD_ACTIVE k.val) (s.rd (aSWD_ACTIVE k.val) ||| w)
  rw [regHome_SWD_EN] at hen
  rw [regHome_SWD_ACTIVE] at hactive
  simp only [State.swdWrite, typed_SWD_EN, State.rd_wr, if_true, if_neg hne, if_neg hne.symm, true_and]
  exact (hen.mono (fun _ h => .inl h)).trans (hactive.mono (fun _ h => .inr h))

/-- A host write of SWD_ENk outside COLD and BANKED. -/
theorem hostWriteRow_SWD_EN {s : State} (k : Fin 4) (w : Word) (hc : s.modes.mode ≠ .cold) (hb : s.modes.mode ≠ .banked) :
    hostWriteRow (aSWD_EN k.val) w s = .next { s.swdWrite k.val w with hrpRvalid := true } := by
  have hglobal : globalReg (aSWD_EN k.val) = true := by fin_cases k <;> decide +kernel
  have hwrite : s.globalWrite .host (aSWD_EN k.val) w = s.swdWrite k.val w := by fin_cases k <;> rfl
  simp only [hostWriteRow, hostAccessRow, hostRow, occur_true, if_neg hc, hostAccess_global w hb hglobal, hwrite]

/-- The registers after a host write of SWD_ENk, whether it enables ports or disables them. -/
theorem portWriteRow_spec {s : State} {i : Instr} (k : Fin 4) (w : Word) (hc : s.modes.mode ≠ .cold)
    (hb : s.modes.mode ≠ .banked) (hi : exec i s = hostWriteRow (aSWD_EN k.val) w s) :
    ∃ t, exec i s = .next t ∧ t.rd (aSWD_EN k.val) = w ∧ t.rd (aSWD_ACTIVE k.val) = s.rd (aSWD_ACTIVE k.val) ||| w ∧
      HostOnly (fun x => x = .reg (aSWD_EN k.val) ∨ x = .reg (aSWD_ACTIVE k.val)) s t := by
  obtain ⟨hen, hactive, honly⟩ := s.swdWrite_spec k w
  exact ⟨_, hi.trans (hostWriteRow_SWD_EN k w hc hb), hen, hactive, honly.hostOnly⟩

/-! ### BLW_HALT -/

/-- BLW_HALT of a port lies among the port blocks, at offset 4 of its own. -/
theorem aHALT_place (p : PortId) : 0x010000 ≤ aHALT p.val ∧ aHALT p.val < 0x020000 ∧ aHALT p.val % 4 = 0 ∧
    (aHALT p.val - 0x010000) / 0x200 = p.val ∧ aHALT p.val % 0x200 = 4 := by
  have hp := p.isLt
  simp only [aHALT, aPort]
  omega

theorem windowAt_halt (p : PortId) : windowAt (aHALT p.val) = false := by
  obtain ⟨hlo, hhi, -⟩ := aHALT_place p
  simp only [windowAt, Bool.or_eq_false_iff, decide_eq_false_iff_not]
  omega

theorem regHome_halt (p : PortId) : regHome (aHALT p.val) = aHALT p.val := by
  obtain ⟨-, hhi, -⟩ := aHALT_place p
  exact if_neg (by omega)

/-- BLW_HALT has 32 W1C bits (Table 18.5). -/
theorem regInfo_halt (p : PortId) : regInfo (aHALT p.val) = some { w1c := 0xFFFFFFFF } := by
  obtain ⟨hlo, hhi, -, -, hoff⟩ := aHALT_place p
  have hglobal : ¬ aHALT p.val < 0x005000 := by omega
  rw [regInfo, if_neg hglobal, if_pos ⟨hlo, hhi⟩, hoff]
  rfl

theorem regWrite_halt (s : State) (p : PortId) (w : Word) : s.regWrite .host (aHALT p.val) w = s.typed (aHALT p.val) w := by
  obtain ⟨hlo, hhi, -, hport, hoff⟩ := aHALT_place p
  have hglobal : ¬ aHALT p.val < 0x005000 := by omega
  have hp : portOf p.val = p := Fin.ext (Nat.mod_eq_of_lt p.isLt)
  simp [State.regWrite, windowAt_halt, hglobal, hhi, State.portWrite, hport, hoff, hp, State.haltWrite]

/-- HALT_CLEAR outside COLD and BANKED. -/
theorem exec_haltClear_up {s : State} (p : PortId) (w : Word) (hc : s.modes.mode ≠ .cold) (hb : s.modes.mode ≠ .banked) :
    exec (.haltClear p w) s = .next { s.typed (aHALT p.val) w with hrpRvalid := true } := by
  obtain ⟨-, -, h4, -⟩ := aHALT_place p
  have hcause : s.hostCause true (aHALT p.val) = none :=
    State.hostCause_of_populated true h4 (by rw [populatedAt, regInfo_halt, Option.isSome_some, Bool.or_true]) hb
  show execHaltClear p w s = _
  simp only [execHaltClear, hostWriteRow, hostAccessRow, hostRow, occur_true, if_neg hc, State.hostAccess, State.hostWrite,
    hcause, regWrite_halt]

theorem typed_halt_rd (s : State) (p : PortId) (w : Word) :
    (s.typed (aHALT p.val) w).rd (aHALT p.val) = s.rd (aHALT p.val) &&& ~~~w := by
  rw [State.typed_plain_rd (regInfo_halt p) rfl (by simp)]
  simp [and_ones]

/-! ### PORT_DRAIN_END -/

/-- A disabled port with nothing outstanding and an empty buffer. -/
theorem exec_portDrainEnd_drained {s : State} {p : PortId} (hen : s.portEn p = false) (hactive : s.portActive p = true)
    (hreqs : s.ports[p].reqs = []) (hearly : s.ports[p].early = []) :
    exec (.portDrainEnd p) s = .next (s.setFlag (aSWD_ACTIVE (p.val / 32)) (p.val % 32) false) := by
  show execPortDrainEnd p s = _
  simp only [execPortDrainEnd, hen, hactive, hreqs, hearly, List.isEmpty_nil, Bool.not_false, Bool.and_self, occur_true]

/-- The word of SWD_ACTIVE that holds the bit of a port. -/
def swdWord (p : PortId) : Fin 4 := ⟨p.val / 32, by omega⟩

/-- A cleared bit of SWD_ACTIVE is the one bit that changes. -/
theorem portActive_setFlag (s : State) (p q : PortId) :
    (s.setFlag (aSWD_ACTIVE (p.val / 32)) (p.val % 32) false).portActive q = (decide (q ≠ p) && s.portActive q) := by
  have hbit : q.val % 32 < 32 := Nat.mod_lt _ (by decide)
  by_cases hword : swdWord q = swdWord p
  · have hdiv : q.val / 32 = p.val / 32 := congrArg Fin.val hword
    rw [State.portActive, State.setFlag, hdiv, State.flag_setFld _ _ _ _ _ _ (Nat.le_refl _) hbit]
    by_cases hq : q = p
    · simp [hq, b2n, bit]
    · have hne : ¬ (p.val % 32 ≤ q.val % 32 ∧ q.val % 32 ≤ p.val % 32) := fun h => hq (Fin.ext (by omega))
      simp [hne, hq, State.portActive, hdiv]
  · have hhome : regHome (aSWD_ACTIVE (swdWord q).val) ≠ regHome (aSWD_ACTIVE (swdWord p).val) := by
      rw [regHome_SWD_ACTIVE, regHome_SWD_ACTIVE]
      intro h
      exact hword (Fin.ext (by simp only [aSWD_ACTIVE] at h; omega))
    have hq : q ≠ p := fun h => hword (congrArg swdWord h)
    have hrd := (setFlag_only s (aSWD_ACTIVE (swdWord p).val) (p.val % 32) false).rd (a := aSWD_ACTIVE (swdWord q).val)
      (by simpa using hhome)
    rw [decide_eq_true hq, Bool.true_and]
    exact congrArg (fun x => wbit x (q.val % 32)) hrd

/-- Settles O15: `portWriteRow_spec` for the writes of SWD_EN, `typed_halt_rd` for BLW_HALT, and `portActive_setFlag` for the
end of a drain. -/
theorem portEnableDisableAndHaltRegisters : Obligations.PortEnableDisableAndHaltRegisters := by
  unfold Obligations.PortEnableDisableAndHaltRegisters
  intro s p k w written
  refine ⟨fun hc hb => ⟨portWriteRow_spec k w hc hb rfl, portWriteRow_spec k w hc hb rfl, ?_⟩,
    fun hen hactive hreqs hearly => ?_⟩
  · have honly := typed_only s (aHALT p.val) w
    rw [regHome_halt] at honly
    exact ⟨_, exec_haltClear_up p w hc hb, typed_halt_rd s p w, honly.hostOnly⟩
  · have honly := setFlag_only s (aSWD_ACTIVE (swdWord p).val) (p.val % 32) false
    rw [regHome_SWD_ACTIVE] at honly
    exact ⟨_, exec_portDrainEnd_drained hen hactive hreqs hearly, portActive_setFlag s p, honly⟩

end Sys2Proof.Machine
end

section
/-! SUPPORT. What LOCKED protects (04 R170): the bits of a register memory that only RST_N changes, and the writes that leave
them. -/

namespace Sys2Proof.Machine

/-! ### The bits

The parts after this one hold one lemma for each function of the model that the step reaches, in the model's order: `f_regs`
where `f` writes no register, `f_lockBits` where its writes leave the protected bits, `exec…_keeps` for a command. Where `f`
reaches a write by the types of the fields, or sets LOCKED (`typed`, `kindleLeft`), LOCKED has to be 1 already (`LockSet`).
They call `simp -implicitDefEqProofs` where a lemma that holds by `rfl` has to rewrite under a condition. -/

/-- The bits of the register at `a` that hardware and software leave alone while LOCKED is 1: its LK fields, and in GLB_CAP
LOCKED itself (04 R170). -/
def lockMask (a : Nat) : Word := ((regInfo a).map RegInfo.lk).getD 0 ||| (if a = aCAP then 0x80000000 else 0)

/-- What a register memory holds in those bits. -/
def lockBits (m : WMem) (a : Nat) : Word := SMap.get resetWord m a &&& lockMask a

/-- LOCKED is 1 among such bits. -/
def LockSet (b : Nat → Word) : Prop := wbit (b aCAP) 31 = true

theorem lockSet_iff (s : State) : LockSet (lockBits s.regs) ↔ s.locked = true := by
  have hmask : lockMask aCAP = 0x8000001F := by decide
  have hhome : regHome aCAP = aCAP := by decide
  simp [LockSet, lockBits, hmask, State.locked, State.flag, State.rd, hhome, wbit_eq_getLsbD]

theorem mem_of_lookup {β : Type} {l : List (Nat × β)} {a : Nat} {r : β} (h : l.lookup a = some r) : (a, r) ∈ l := by
  obtain ⟨l₁, l₂, rfl, -⟩ := List.lookup_eq_some_iff.mp h
  simp

theorem portReg_lk {o : Nat} {r : RegInfo} (h : portReg o = some r) : r.lk = 0 := by
  unfold portReg at h
  split_ifs at h <;> cases h <;> rfl

theorem anvilRegs_lk : ∀ e ∈ anvilRegs, e.1 ≠ 0 → e.2.lk = 0 := by decide

theorem anvilRegs2_lk : ∀ e ∈ anvilRegs2, e.2.lk = 0 := by decide

theorem sliceRegs_lk : ∀ e ∈ sliceRegs, e.2.lk = 0 := by decide

theorem lockMask_eq_zero {a : Nat} (ha : 0x5000 ≤ a) (hmap : 0x20000 ≤ a → a < 0x2C000 → a % 0x800 ≠ 0) : lockMask a = 0 := by
  have hcap : a ≠ aCAP := by unfold aCAP; omega
  suffices h : ∀ r, regInfo a = some r → r.lk = 0 by
    unfold lockMask
    cases hr : regInfo a with
    | none => simp [hcap]
    | some r => simp [hcap, h r hr]
  intro r hr
  unfold regInfo at hr
  split_ifs at hr with h1 h2 h3 h4
  · omega
  · exact portReg_lk hr
  · split at hr
    case h_1 r' hlook =>
      cases hr
      exact anvilRegs_lk _ (mem_of_lookup hlook) (hmap h3.1 h3.2)
    case h_2 => exact anvilRegs2_lk _ (mem_of_lookup hr)
  · exact sliceRegs_lk _ (mem_of_lookup hr)

/-! ### The registers that hardware writes -/

@[simp] theorem lockMask_aAnv (c : Nat) {o : Nat} (h0 : 0 < o) (h : o < 0x800) : lockMask (regHome (aAnv c o)) = 0 := by
  unfold regHome aAnv
  split_ifs with hhome
  · exact lockMask_eq_zero (by omega) (by omega)
  · exact lockMask_eq_zero (by omega) (by omega)

theorem regHome_of_lt {a : Nat} (h : a < 0x20000) : regHome a = a := if_neg (by omega)

@[simp] theorem lockMask_aLft (c o : Nat) : lockMask (regHome (aLft c o)) = 0 := by
  unfold regHome aLft
  split_ifs with hhome
  · omega
  · exact lockMask_eq_zero (by omega) (by omega)

@[simp] theorem lockMask_aPort (p : PortId) {o : Nat} (h : o < 0x200) : lockMask (regHome (aPort p.val o)) = 0 := by
  have hp : p.val < 128 := p.isLt
  rw [regHome_of_lt (by unfold aPort; omega)]
  exact lockMask_eq_zero (by unfold aPort; omega) (by unfold aPort; omega)

@[simp] theorem lockMask_aHALT (p : PortId) : lockMask (regHome (aHALT p.val)) = 0 := lockMask_aPort p (by decide)

theorem lockMask_aLabel {p l k : Nat} (hp : p < 128) (hl : l < 32) (hk : k < 2) : lockMask (regHome (aLabel p l k)) = 0 :=
  lockMask_aPort ⟨p, hp⟩ (show 0x100 + 8 * l + 4 * k < 0x200 by omega)

@[simp] theorem lockMask_aVer (anvil : Bool) : lockMask (regHome (aVer anvil)) = 0 := by
  cases anvil <;> decide

@[simp] theorem lockMask_aLINK (k : Fin 3) : lockMask (regHome (aLINK k.val)) = 0 := by
  revert k
  decide

theorem lockMask_aSWD_ACTIVE {k : Nat} (h : k < 4) : lockMask (regHome (aSWD_ACTIVE k)) = 0 := by
  revert k
  decide

@[simp] theorem lockMask_aSWD_ACTIVE_port (p : PortId) : lockMask (regHome (aSWD_ACTIVE (p.val / 32))) = 0 :=
  lockMask_aSWD_ACTIVE (Nat.div_lt_of_lt_mul p.isLt)

theorem lockMask_aLAPSE {p : Nat} (h : p < 128) : lockMask (regHome (aLAPSE (p / 32))) = 0 := by
  have hk : p / 32 < 4 := by omega
  generalize p / 32 = k at hk
  revert k
  decide

@[simp] theorem lockMask_aMBOX_ARG {n : Nat} (h : n < 4) : lockMask (regHome (aMBOX_ARG n)) = 0 := by
  revert n
  decide

@[simp] theorem lockMask_anvil (c : Nat) : lockMask (regHome (aSTAT c)) = 0 ∧ lockMask (regHome (aDERATE c)) = 0 ∧
    lockMask (regHome (aWM c)) = 0 ∧ lockMask (regHome (aCMDERR c)) = 0 ∧ lockMask (regHome (aREFRESH c)) = 0 ∧
    lockMask (regHome (aRFSTAT c)) = 0 ∧ lockMask (regHome (aSLOT c)) = 0 ∧ lockMask (regHome (aTLO c)) = 0 ∧
    lockMask (regHome (aTHI c)) = 0 ∧ lockMask (regHome (aLOST c)) = 0 ∧ lockMask (regHome (aECC_STAT c)) = 0 ∧
    lockMask (regHome (aECC_CNT c)) = 0 ∧ lockMask (regHome (aGLN_CTL c)) = 0 ∧ lockMask (regHome (aLAP_LO c)) = 0 ∧
    lockMask (regHome (aLAP_HI c)) = 0 ∧ lockMask (regHome (aFILL c)) = 0 ∧ lockMask (regHome (aPAT_CTL c)) = 0 ∧
    lockMask (regHome (aPAT_POS c)) = 0 ∧ lockMask (regHome (aPLL c)) = 0 ∧ lockMask (regHome (aFSP c)) = 0 ∧
    lockMask (regHome (aZQ c)) = 0 ∧ lockMask (regHome (aDLYIDX c)) = 0 ∧ lockMask (regHome (aPATIDX c)) = 0 ∧
    lockMask (regHome (aPATPTR c)) = 0 ∧ lockMask (regHome (aDRIFT c)) = 0 ∧ lockMask (regHome (aPSTAT c)) = 0 ∧
    lockMask (regHome (aTSTAT c)) = 0 := by
  and_intros <;> exact lockMask_aAnv c (by decide) (by decide)

@[simp] theorem lockMask_slice (c : Nat) : lockMask (regHome (aPF c)) = 0 ∧ lockMask (regHome (aLSTAT c)) = 0 :=
  ⟨lockMask_aLft c _, lockMask_aLft c _⟩

@[simp] theorem lockMask_status : lockMask (regHome aHERR) = 0 ∧ lockMask (regHome aHERR_ADDR) = 0 ∧
    lockMask (regHome aMODE) = 0 ∧ lockMask (regHome aMODE_REQ) = 0 ∧ lockMask (regHome aSHED) = 0 ∧
    lockMask (regHome aRFM) = 0 ∧ lockMask (regHome aSTATE1) = 0 ∧ lockMask (regHome aLOAD) = 0 ∧
    lockMask (regHome aVER_MS) = 0 ∧ lockMask (regHome aVER_AS) = 0 ∧ lockMask (regHome aMBOX_CMD) = 0 ∧
    lockMask (regHome aMBOX_STATUS) = 0 ∧ lockMask (regHome aPERR) = 0 ∧ lockMask (regHome aHANG) = 0 := by
  decide

@[simp] theorem lockMask_units : lockMask (regHome (aFIRST 0)) = 0 ∧ lockMask (regHome (aFIRST 1)) = 0 ∧
    lockMask (regHome (aFIRST 2)) = 0 ∧ lockMask (regHome aOVF) = 0 ∧ lockMask (regHome aQSTAT) = 0 ∧
    lockMask (regHome aPIN_HOLD) = 0 ∧ lockMask (regHome aLINKINJ) = 0 ∧ lockMask (regHome aEVQ_STATUS) = 0 ∧
    lockMask (regHome aHDG_STAT) = 0 ∧ lockMask (regHome aKEYHELD) = 0 ∧ lockMask (regHome aVIOL) = 0 ∧
    lockMask (regHome aVCNT) = 0 ∧ lockMask (regHome aRELSTAT) = 0 ∧ lockMask (regHome aSAG) = 0 ∧
    lockMask (regHome aRATE) = 0 ∧ lockMask (regHome aAGE) = 0 ∧ lockMask (regHome aVREQ) = 0 ∧
    lockMask (regHome aGUARD) = 0 ∧ lockMask (regHome aGNG_CTL) = 0 ∧ lockMask (regHome aGNG_STAT) = 0 ∧
    lockMask (regHome aPEER) = 0 ∧ lockMask (regHome aSKEW) = 0 ∧ lockMask (regHome aAST_STAT) = 0 := by
  decide

theorem lockMask_aRELSTAT : lockMask (regHome aRELSTAT) = 0 := by decide

/-! ### Writes -/

theorem lockBits_set_of_and {m : WMem} {a : Nat} {w : Word} (h : w &&& lockMask a = SMap.get resetWord m a &&& lockMask a) :
    lockBits (SMap.set resetWord m a w) = lockBits m := by
  funext b
  simp only [lockBits, SMap.get_set]
  split_ifs with hb
  · rw [hb, h]
  · rfl

@[simp] theorem lockBits_set (m : WMem) {a : Nat} (w : Word) (h : lockMask a = 0) :
    lockBits (SMap.set resetWord m a w) = lockBits m := lockBits_set_of_and (by simp [h])

theorem lockBits_setFld {s : State} {a hi lo : Nat} (v : Nat) (h : lo ≤ hi)
    (hmask : maskBits hi lo &&& lockMask (regHome a) = 0) : lockBits (s.setFld a hi lo v).regs = lockBits s.regs := by
  rw [State.setFld_regs]
  refine lockBits_set_of_and (BitVec.eq_of_getLsbD_eq fun i hi32 => ?_)
  have hbit := congrArg (fun x => x.getLsbD i) hmask
  simp only [BitVec.getLsbD_and, maskBits_getLsbD _ _ _ h] at hbit
  simp only [BitVec.getLsbD_and, putBits_getLsbD _ _ _ _ _ h, State.rd]
  by_cases hin : lo ≤ i ∧ i ≤ hi
  · have hzero : (lockMask (regHome a)).getLsbD i = false := by simpa [hi32, hin] using hbit
    simp [hzero]
  · simp [hin, hi32]

/-- A field under the mask is told by the protected bits. -/
theorem fld_eq_of_lockBits {s t : State} (h : lockBits s.regs = lockBits t.regs) {a hi lo : Nat} (hle : lo ≤ hi)
    (hmask : maskBits hi lo &&& ~~~lockMask (regHome a) = 0) : s.fld a hi lo = t.fld a hi lo := by
  apply Nat.eq_of_testBit_eq
  intro i
  simp only [State.fld, wbits_testBit]
  by_cases hi' : lo + i ≤ hi ∧ lo + i < 32
  · have hbit := congrArg (fun x => x.getLsbD (lo + i)) hmask
    have hword := congrArg (fun x => x.getLsbD (lo + i)) (congrFun h (regHome a))
    simp only [BitVec.getLsbD_and, maskBits_getLsbD _ _ _ hle, BitVec.getLsbD_not] at hbit
    have hone : (lockMask (regHome a)).getLsbD (lo + i) = true := by simpa [hi'] using hbit
    simp only [lockBits, BitVec.getLsbD_and, hone, Bool.and_true] at hword
    simp only [State.rd, hword]
  · by_cases h32 : lo + i < 32
    · have hout : ¬ i < hi - lo + 1 := by omega
      simp [hout]
    · simp [BitVec.getLsbD_of_ge _ _ (Nat.le_of_not_lt h32)]

/-- A field that is set to what it holds. -/
theorem setFld_fld_lockBits {s : State} {a hi lo v : Nat} (h : lo ≤ hi) (hv : v = s.fld a hi lo) :
    lockBits (s.setFld a hi lo v).regs = lockBits s.regs := by
  rw [State.setFld_eq_wr, hv, State.fld, putBits_wbits_self _ _ _ h, State.wr_regs]
  exact lockBits_set_of_and rfl

/-! ### Control flow -/

@[simp] theorem State.regs_ite (c : Prop) [Decidable c] (s t : State) :
    (if c then s else t).regs = if c then s.regs else t.regs :=
  apply_ite State.regs c s t

@[simp] theorem lockBits_ite (c : Prop) [Decidable c] (m n : WMem) :
    lockBits (if c then m else n) = if c then lockBits m else lockBits n := apply_ite lockBits c m n

theorem lockBits_of_ite {c : Prop} [Decidable c] {s t : State} {b : Nat → Word} (hs : c → lockBits s.regs = b)
    (ht : ¬ c → lockBits t.regs = b) : lockBits (if c then s else t).regs = b := by
  split_ifs with h
  · exact hs h
  · exact ht h

@[simp] theorem occur_regs (c : Bool) (s t : State) : (occur c s t).regs = if c then t.regs else s.regs := by cases c <;> rfl

@[simp] theorem timed_regs (now : Nat) (c : State → Bool) (f : State → State) (s : State) :
    (timed now c f s).regs = if c (s.at now) then (f (s.at now)).regs else s.regs := by simp [timed]

/-- A time-driven event leaves what its effect leaves. -/
theorem timed_lockBits {now : Nat} {c : State → Bool} {f : State → State} {s : State}
    (hf : lockBits (f (s.at now)).regs = lockBits s.regs) : lockBits (timed now c f s).regs = lockBits s.regs := by
  rw [timed_regs]
  split_ifs
  · exact hf
  · rfl

@[simp] theorem foldl_regs {α : Type} {f : State → α → State} (hf : ∀ u x, (f u x).regs = u.regs) (l : List α) (s : State) :
    (l.foldl f s).regs = s.regs :=
  foldl_keeps (P := fun t => t.regs = s.regs) (fun u x hu => (hf u x).trans hu) l rfl

@[simp] theorem foldl_lockBits {α : Type} {f : State → α → State}
    (hf : ∀ u x, lockBits (f u x).regs = lockBits u.regs) (l : List α) (s : State) :
    lockBits (l.foldl f s).regs = lockBits s.regs :=
  foldl_keeps (P := fun t => lockBits t.regs = lockBits s.regs) (fun u x hu => (hf u x).trans hu) l rfl

theorem foldl_lockBits_of_mem {α : Type} {f : State → α → State} {l : List α}
    (hf : ∀ x ∈ l, ∀ u, lockBits (f u x).regs = lockBits u.regs) (s : State) : lockBits (l.foldl f s).regs = lockBits s.regs :=
  List.foldlRecOn (motive := fun t => lockBits t.regs = lockBits s.regs) l f rfl fun u hu x hx => (hf x hx u).trans hu

/-- Steps that leave what LOCKED protects while it is 1 leave it all together. -/
theorem foldl_lockBits_of_locked {α : Type} {f : State → α → State}
    (hf : ∀ u x, LockSet (lockBits u.regs) → lockBits (f u x).regs = lockBits u.regs) (l : List α) {s : State}
    (hl : LockSet (lockBits s.regs)) : lockBits (l.foldl f s).regs = lockBits s.regs :=
  foldl_keeps (P := fun t => lockBits t.regs = lockBits s.regs) (fun u x hu => (hf u x (hu ▸ hl)).trans hu) l rfl

/-! ### What a command answers -/

/-- A command answers with what LOCKED protects as in `b`. -/
def Out.Keeps (o : Out) (b : Nat → Word) : Prop := ∀ t, o = .next t → lockBits t.regs = b

@[simp] theorem keeps_next (t : State) (b : Nat → Word) : Out.Keeps (.next t) b ↔ lockBits t.regs = b := by
  simp [Out.Keeps]

theorem hostRow_keeps {l : List (Nat × Option Word)} {ok : Bool} {f : State → State} {s : State}
    (hf : lockBits (f s).regs = lockBits s.regs) : (hostRow l ok f s).Keeps (lockBits s.regs) := by
  simp [hostRow, State.holdAccess, hf]

theorem hostRowAt_keeps {now : Nat} {l : List (Nat × Option Word)} {ok : Bool} {f : State → State} {s : State}
    (hf : lockBits (f (s.at now)).regs = lockBits s.regs) : (hostRowAt now l ok f s).Keeps (lockBits s.regs) := by
  simp [hostRowAt, State.holdAccess, hf]

/-! ### Writes by the types of the fields (00 Table 0.4) -/

/-- Only the mapping registers have bits that LOCKED protects. -/
theorem lockMask_ne_zero {a : Nat} (h : lockMask a ≠ 0) : a ∈ mapRegs ∨ 0x20000 ≤ a ∧ a < 0x2C000 ∧ a % 0x800 = 0 := by
  have hglobal : ∀ e ∈ globalRegs, e.1 ∈ mapRegs ∨ e.2.lk = 0 := by decide +kernel
  by_cases hlow : a < 0x5000
  · by_contra hno
    refine h ?_
    have hcap : a ≠ aCAP := fun heq => hno (.inl (heq ▸ by decide))
    rw [lockMask, regInfo, if_pos hlow, if_neg hcap]
    cases hlook : globalRegs.lookup a with
    | none => rfl
    | some r =>
      have hlk : r.lk = 0 := (hglobal _ (mem_of_lookup hlook)).resolve_left fun hmap => hno (.inl hmap)
      simp [hlk]
  · by_contra hno
    exact h (lockMask_eq_zero (by omega) (by omega))

theorem regInfo_of_lockMask {a : Nat} {r : RegInfo} (h : regInfo a = some r) (hm : lockMask a ≠ 0) :
    r.rw = 0 ∧ r.w1c = 0 ∧ r.rc = 0 := by
  have hglobal : ∀ b ∈ mapRegs, (regInfo b).all (fun r => r.rw == 0 && r.w1c == 0 && r.rc == 0) = true := by decide
  have hanvil : ∀ e ∈ anvilRegs, e.1 = 0 → e.2.rw = 0 ∧ e.2.w1c = 0 ∧ e.2.rc = 0 := by decide
  rcases lockMask_ne_zero hm with hmap | ⟨hlo, hhi, hmod⟩
  · simpa [h, and_assoc] using hglobal a hmap
  · rw [regInfo, if_neg (by omega), if_neg (by omega), if_pos ⟨hlo, hhi⟩, hmod] at h
    exact hanvil _ (mem_of_lookup (by simpa [List.lookup, anvilRegs] using h)) rfl

theorem regHome_of_lockMask {a : Nat} (h : lockMask (regHome a) ≠ 0) : regHome a = a := by
  by_contra hne
  have hhome : 0x020000 ≤ a ∧ a < 0x02C000 ∧ 0x400 ≤ a % 0x800 ∧ a % 0x800 < 0x40C := by
    by_contra hno
    exact hne (if_neg hno)
  refine h ?_
  rw [regHome, if_pos hhome]
  exact lockMask_eq_zero (by unfold aAnv; omega) (by unfold aAnv; omega)

/-- A write by the types of the fields leaves what LOCKED protects while it is 1 (04 R170). -/
@[simp] theorem State.typed_lockBits (s : State) (a : Nat) (w : Word) (hl : LockSet (lockBits s.regs)) :
    lockBits (s.typed a w).regs = lockBits s.regs := by
  cases hr : regInfo a with
  | none => simp only [State.typed, hr]
  | some r =>
    rw [State.typed_eq_wr hr, State.wr_regs]
    by_cases hm : lockMask (regHome a) = 0
    · exact lockBits_set _ _ hm
    · have hhome := regHome_of_lockMask hm
      obtain ⟨hrw, hw1c, -⟩ := regInfo_of_lockMask hr (hhome ▸ hm)
      rw [(lockSet_iff s).mp hl, typedWrite_locked _ w hrw hw1c]
      exact lockBits_set_of_and rfl

/-! ### GLB_CAP -/

@[simp] theorem State.setFlag_aCAP_lockBits (s : State) {i : Nat} (b : Bool) (h : i = 29 ∨ i = 30) :
    lockBits (s.setFlag aCAP i b).regs = lockBits s.regs := by
  rcases h with rfl | rfl <;> exact lockBits_setFld _ (Nat.le_refl _) (by decide)

@[simp] theorem State.recap_lockBits (s : State) : lockBits s.recap.regs = lockBits s.regs :=
  (lockBits_setFld _ (by decide) (by decide)).trans (s.setFlag_aCAP_lockBits _ (.inr rfl))

/-- LOCKED is set where it is set already. -/
@[simp] theorem State.kindleLeft_lockBits (s : State) (hl : LockSet (lockBits s.regs)) :
    lockBits s.kindleLeft.regs = lockBits s.regs := by
  have hflag : wbit (s.rd aCAP) 31 = true := (lockSet_iff s).mp hl
  have hv : b2n true = wbits (s.rd aCAP) 31 31 := by
    apply Nat.eq_of_testBit_eq
    intro i
    rw [wbits_testBit]
    rcases i with _ | i
    · simpa [b2n, wbit_eq_getLsbD] using hflag.symm
    · simp [b2n, Nat.testBit_succ]
  have hsame : (s.setFlag aCAP 31 true) = s.wr aCAP (s.rd aCAP) := by
    rw [State.setFlag_eq_wr, hv, putBits_wbits_self _ _ _ (Nat.le_refl _)]
  rw [State.kindleLeft, hsame, State.setFlag_regs, lockBits_set _ _ lockMask_status.2.2.1]
  exact lockBits_set_of_and rfl

/-! ### The step of a Loft line -/

/-- The state that the step of a line leaves, whether the line is taken or holds the head. -/
def Took.state : Took → State
  | .done s => s
  | .held s => s

@[simp] theorem Took.state_done (s : State) : (Took.done s).state = s := rfl

@[simp] theorem Took.state_held (s : State) : (Took.held s).state = s := rfl

@[simp] theorem Took.state_ite (c : Prop) [Decidable c] (a b : Took) :
    (if c then a else b).state = if c then a.state else b.state :=
  apply_ite Took.state c a b

end Sys2Proof.Machine
end

section
/-! SUPPORT. The mapping lock: the fault unit, the links, the ports, the event FIFO, the Smiths, the Bellows, the Tongs and the
gang. -/

namespace Sys2Proof.Machine

/-! ### The register space: what each register's fields are (Table 0.4), its reset value (Tables 18.4 to 18.7), its reserved
encodings (R17), and the raw read and write of a stored register -/

@[simp] theorem State.setMode_lockBits (s : State) (m : Mode) : lockBits (s.setMode m).regs = lockBits s.regs := by
  simp [State.setMode]

@[simp] theorem State.eventBoth_regs (s : State) (c : Chan) (n : Nat) : (s.eventBoth c n).regs = s.regs := rfl

/-! ### The fault unit: acceptance, the first-error latch, FAULT_N and the fault message port (15) -/

@[simp] theorem State.takeSeq_lockBits (s : State) : lockBits s.takeSeq.regs = lockBits s.regs := by
  simp [State.takeSeq]

@[simp] theorem State.latchFirst_lockBits (s : State) (w : BitVec 96) : lockBits (s.latchFirst w).regs = lockBits s.regs := by
  simp [State.latchFirst]

@[simp] theorem State.pulseFor_lockBits (s : State) (m : Msg) : lockBits (s.pulseFor m).regs = lockBits s.regs := by
  simp [State.pulseFor]

@[simp] theorem State.setHang_lockBits (s : State) (detail heat : Nat) :
    lockBits (s.setHang detail heat).regs = lockBits s.regs := by
  simp [State.setHang]

@[simp] theorem State.noteHang_lockBits (s : State) (m : Msg) : lockBits (s.noteHang m).regs = lockBits s.regs := by
  unfold State.noteHang
  split <;> simp

@[simp] theorem State.judgeMsg_lockBits (s : State) (m : Msg) : lockBits (s.judgeMsg m).regs = lockBits s.regs := by
  unfold State.judgeMsg
  split <;> simp

@[simp] theorem execFaultMessageTransfer_keeps (s : State) : (execFaultMessageTransfer s).Keeps (lockBits s.regs) := by
  unfold execFaultMessageTransfer
  split <;> simp

@[simp] theorem execFaultPulseEnd_keeps (s : State) : (execFaultPulseEnd s).Keeps (lockBits s.regs) := by
  simp [execFaultPulseEnd]

@[simp] theorem State.force_regs (s : State) (k : Fin 3) (w : Word) : (s.force k w).regs = s.regs := by
  simp -implicitDefEqProofs [State.force]

/-! ### Status records that hardware sets: the first-event registers with their counts -/

@[simp] theorem State.recordPerr_lockBits (s : State) (p cause : Nat) :
    lockBits (s.recordPerr p cause).regs = lockBits s.regs := by
  simp [State.recordPerr]

@[simp] theorem State.recordViol_lockBits (s : State) (classA : Bool) (detail : Nat) :
    lockBits (s.recordViol classA detail).regs = lockBits s.regs := by
  simp [State.recordViol]

/-! ### The gang links seen from the core: wiring, headers and credits (17 R533 to R536) -/

@[simp] theorem State.onLink_regs (s : State) (k : Fin 3) (f : Link → Link) : (s.onLink k f).regs = s.regs := rfl

@[simp] theorem State.onPeer_regs (s : State) (i : Fin 4) (f : Peer → Peer) : (s.onPeer i f).regs = s.regs := rfl

@[simp] theorem State.linkSend_regs (s : State) (k : Fin 3) (x : Piece) : (s.linkSend k x).regs = s.regs := rfl

@[simp] theorem State.linkDropped_regs (s : State) (k : Fin 3) (stag : Nat) : (s.linkDropped k stag).regs = s.regs := rfl

@[simp] theorem State.linkReply_regs (s : State) (k : Fin 3) (stag : Nat) (x : Piece) : (s.linkReply k stag x).regs = s.regs :=
  rfl

/-! ### The port adapters: requests, write beats, responses, PANIC, SEAL and port drain (03) -/

@[simp] theorem State.respond_regs (s : State) (p : PortId) (id : Nat) (st : Status) (data : Bool)
    (beats : List (Sector × Bool)) : (s.respond p id st data beats).regs = s.regs := rfl

@[simp] theorem State.answer_regs (s : State) (p : PortId) (id : Nat) (st : Status) : (s.answer p id st).regs = s.regs := rfl

@[simp] theorem State.uncount_regs (s : State) (p : PortId) (r : Req) : (s.uncount p r).regs = s.regs := rfl

@[simp] theorem State.refuse_regs (s : State) (p : PortId) (r : Req) (st : Status) : (s.refuse p r st).regs = s.regs := by
  simp [State.refuse]

@[simp] theorem State.protocolError_lockBits (s : State) (p : PortId) (r : Req) (cause : Nat) :
    lockBits (s.protocolError p r cause).regs = lockBits s.regs := by
  simp [State.protocolError]

@[simp] theorem State.fire_lockBits (s : State) (gang : Bool) (target mode addr : Nat) :
    lockBits (s.fire gang target mode addr).regs = lockBits s.regs := by
  simp [State.fire]

@[simp] theorem State.settleWrite_lockBits (s : State) (p : PortId) (r : Req) :
    lockBits (s.settleWrite p r).regs = lockBits s.regs := by
  unfold State.settleWrite
  repeat' split
  all_goals simp

@[simp] theorem State.settlePort_lockBits (s : State) (p : PortId) : lockBits (s.settlePort p).regs = lockBits s.regs := by
  simp [State.settlePort]

@[simp] theorem State.arrive_lockBits (s : State) (p : PortId) (op addr len : Nat) (tag : BitVec 9) (label : Nat)
    (colour : BitVec 2) (attr : BitVec 4) : lockBits (s.arrive p op addr len tag label colour attr).regs = lockBits s.regs := by
  dsimp only [State.arrive]
  repeat' split
  all_goals simp -implicitDefEqProofs

@[simp] theorem execRead_keeps (p : PortId) (op : BitVec 4) (addr : BitVec 41) (len : BitVec 6) (tag : BitVec 9)
    (label : BitVec 5) (colour : BitVec 2) (attr : BitVec 4) (s : State) :
    (execRead p op addr len tag label colour attr s).Keeps (lockBits s.regs) := by
  simp [execRead]

@[simp] theorem execWrite_keeps (p : PortId) (addr : BitVec 41) (len : BitVec 6) (tag : BitVec 9) (label : BitVec 5)
    (colour : BitVec 2) (attr : BitVec 4) (s : State) :
    (execWrite p addr len tag label colour attr s).Keeps (lockBits s.regs) := by
  simp [execWrite]

@[simp] theorem execWriteMasked_keeps (p : PortId) (addr : BitVec 41) (len : BitVec 6) (tag : BitVec 9)
    (label : BitVec 5) (colour : BitVec 2) (attr : BitVec 4) (s : State) :
    (execWriteMasked p addr len tag label colour attr s).Keeps (lockBits s.regs) := by
  simp [execWriteMasked]

@[simp] theorem execSeal_keeps (p : PortId) (tag : BitVec 9) (s : State) : (execSeal p tag s).Keeps (lockBits s.regs) := by
  simp [execSeal]

@[simp] theorem execHint_keeps (p : PortId) (addr : BitVec 41) (len : BitVec 6) (tag : BitVec 9) (label : BitVec 5)
    (colour : BitVec 2) (attr : BitVec 4) (s : State) :
    (execHint p addr len tag label colour attr s).Keeps (lockBits s.regs) := by
  simp [execHint]

@[simp] theorem execResponseBeat_keeps (p : PortId) (s : State) : (execResponseBeat p s).Keeps (lockBits s.regs) := by
  unfold execResponseBeat
  split <;> simp

@[simp] theorem execPanic_keeps (p : PortId) (level : BitVec 2) (s : State) :
    (execPanic p level s).Keeps (lockBits s.regs) := by
  simp [execPanic]

@[simp] theorem execSealDone_keeps (p : PortId) (s : State) : (execSealDone p s).Keeps (lockBits s.regs) := by
  unfold execSealDone
  split <;> simp

@[simp] theorem execPortDrainEnd_keeps (p : PortId) (s : State) : (execPortDrainEnd p s).Keeps (lockBits s.regs) := by
  simp [execPortDrainEnd]

/-! ### The event FIFO (15 R506 to R516) -/

@[simp] theorem State.evqIrq_lockBits (s : State) : lockBits s.evqIrq.regs = lockBits s.regs := by
  simp [State.evqIrq]

@[simp] theorem State.evqComplete_lockBits (s : State) (id : Nat) : lockBits (s.evqComplete id).regs = lockBits s.regs := by
  simp [State.evqComplete]

@[simp] theorem State.evqEnter_lockBits (s : State) (id : Nat) (w : BitVec 64) :
    lockBits (s.evqEnter id w).regs = lockBits s.regs := by
  dsimp only [State.evqEnter]
  split <;> simp

@[simp] theorem State.evqGap_lockBits (s : State) : lockBits s.evqGap.regs = lockBits s.regs := by
  simp [State.evqGap]

@[simp] theorem State.evqStart_lockBits (s : State) (n prio type source arg : Nat) :
    lockBits (s.evqStart n prio type source arg).1.regs = lockBits s.regs := by
  dsimp only [State.evqStart]
  repeat' split
  all_goals simp -implicitDefEqProofs

@[simp] theorem State.evqRecord_lockBits (s : State) (prio type source arg : Nat) (ws : List (BitVec 64)) :
    lockBits (s.evqRecord prio type source arg ws).regs = lockBits s.regs := by
  unfold State.evqRecord
  have hstart := s.evqStart_lockBits (ws.length + 1) prio type source arg
  split
  case h_1 h => rw [h] at hstart; simpa using hstart
  case h_2 h => rw [h] at hstart; exact hstart

@[simp] theorem State.evqFinish_lockBits (s : State) : lockBits s.evqFinish.regs = lockBits s.regs := by
  unfold State.evqFinish
  split <;> simp

@[simp] theorem State.evqPutHdr_lockBits (s : State) (w : Word) : lockBits (s.evqPutHdr w).regs = lockBits s.regs := by
  dsimp only [State.evqPutHdr]
  have hstart := s.evqFinish.evqStart_lockBits (wbits w 2 0 + 1) (wbits w 4 3) (wbits w 15 8) 0x50 (wbits w 31 24)
  rw [State.evqFinish_lockBits] at hstart
  split
  case h_1 h => rw [h] at hstart; exact hstart
  case h_2 h => rw [h] at hstart; exact hstart

@[simp] theorem State.evqPutLo_regs (s : State) (w : Word) : (s.evqPutLo w).regs = s.regs := rfl

@[simp] theorem State.evqPutHi_lockBits (s : State) (w : Word) : lockBits (s.evqPutHi w).regs = lockBits s.regs := by
  dsimp only [State.evqPutHi]
  repeat' split
  all_goals simp -implicitDefEqProofs

@[simp] theorem State.evqFlush_regs (s : State) : s.evqFlush.regs = s.regs := rfl

@[simp] theorem State.onCaps_regs (s : State) (who : Agent) (f : Captures → Captures) : (s.onCaps who f).regs = s.regs := by
  unfold State.onCaps
  split <;> simp

@[simp] theorem State.evqReadLo_lockBits (s : State) (who : Agent) : lockBits (s.evqReadLo who).2.regs = lockBits s.regs := by
  unfold State.evqReadLo
  repeat' split
  all_goals simp

@[simp] theorem State.evqRemove_regs (s : State) (who : Agent) (id : Nat) : (s.evqRemove who id).regs = s.regs := by
  unfold State.evqRemove
  split <;> simp

@[simp] theorem State.evqReadHi_lockBits (s : State) (who : Agent) : lockBits (s.evqReadHi who).2.regs = lockBits s.regs := by
  unfold State.evqReadHi
  repeat' split
  all_goals simp

@[simp] theorem execEvqTimeout_keeps (now : Nat) (s : State) : (execEvqTimeout now s).Keeps (lockBits s.regs) := by
  simp [execEvqTimeout]

/-! ### Holding a channel (02 R70) and the end of a pause (02 R78, R89, 07 R266) -/

@[simp] theorem State.askPause_regs (s : State) (m : SmithId) (n : Nat) (c : Chan) : (s.askPause m n c).regs = s.regs := rfl

/-! ### The Smith machine: fetch, completion of an instruction, faults, start and stop (02) -/

@[simp] theorem State.setG_regs (s : State) (m : SmithId) (x : RegNo) (w : Word) : (s.setG m x w).regs = s.regs := by
  simp [State.setG]

@[simp] theorem State.mboxNoSmith_lockBits (s : State) : lockBits s.mboxNoSmith.regs = lockBits s.regs := by
  simp [State.mboxNoSmith]

@[simp] theorem State.signal_regs (s : State) (m to_ : SmithId) : (s.signal m to_).regs = s.regs := rfl

@[simp] theorem State.smithStop_lockBits (s : State) (m : SmithId) : lockBits (s.smithStop m).regs = lockBits s.regs := by
  simp [State.smithStop]

@[simp] theorem State.smithWait_regs (s : State) (m : SmithId) (w : Wait) : (s.smithWait m w).regs = s.regs := rfl

@[simp] theorem State.smithFault_regs (s : State) (m : SmithId) (cause addr : Nat) :
    (s.smithFault m cause addr).regs = s.regs := rfl

@[simp] theorem State.fetchNext_regs (s : State) (m : SmithId) : (s.fetchNext m).regs = s.regs := by
  simp [State.fetchNext]

@[simp] theorem State.smithGo_lockBits (s : State) (m : SmithId) (pc : Nat) :
    lockBits (s.smithGo m pc).regs = lockBits s.regs := by
  simp [State.smithGo]

@[simp] theorem State.smithDone_lockBits (s : State) (m : SmithId) : lockBits (s.smithDone m).regs = lockBits s.regs := by
  simp [State.smithDone]

@[simp] theorem State.clobber_regs (s : State) (m : SmithId) : (s.clobber m).regs = s.regs := rfl

@[simp] theorem State.refuseResume_regs (s : State) (m : SmithId) : (s.refuseResume m).regs = s.regs := rfl

@[simp] theorem State.masterEntry_regs (s : State) : s.masterEntry.regs = s.regs := by
  simp [State.masterEntry]

@[simp] theorem State.anvilEntry_regs (s : State) (m : SmithId) : (s.anvilEntry m).regs = s.regs := rfl

@[simp] theorem State.enterImage_regs (s : State) (m : SmithId) : (s.enterImage m).regs = s.regs := by
  simp [State.enterImage]

@[simp] theorem State.modeHandler_regs (s : State) : s.modeHandler.regs = s.regs := by
  simp [State.modeHandler]

@[simp] theorem State.endHandler_regs (s : State) : s.endHandler.regs = s.regs := by
  simp [State.endHandler]

@[simp] theorem State.smithStart_lockBits (s : State) (m : SmithId) : lockBits (s.smithStart m).regs = lockBits s.regs := by
  simp [State.smithStart]

@[simp] theorem State.smithHalt_lockBits (s : State) (m : SmithId) : lockBits (s.smithHalt m).regs = lockBits s.regs := by
  unfold State.smithHalt
  repeat' split
  all_goals simp

@[simp] theorem State.smithIdle_lockBits (s : State) (m : SmithId) : lockBits (s.smithIdle m).regs = lockBits s.regs := by
  simp [State.smithIdle]

@[simp] theorem State.dispatch_lockBits (s : State) (m : SmithId) : lockBits (s.dispatch m).regs = lockBits s.regs := by
  unfold State.dispatch
  split <;> simp

@[simp] theorem State.doTick_regs (s : State) (m : SmithId) : (s.doTick m).regs = s.regs := rfl

@[simp] theorem execTick_keeps (m : SmithId) (now : Nat) (s : State) : (execTick m now s).Keeps (lockBits s.regs) := by
  simp [execTick]

@[simp] theorem State.raiseDone_lockBits (s : State) (who : Option SmithId) :
    lockBits (s.raiseDone who).regs = lockBits s.regs := by
  unfold State.raiseDone
  repeat' split
  all_goals simp

@[simp] theorem execFaultAccept_keeps (i : Nat) (s : State) : (execFaultAccept i s).Keeps (lockBits s.regs) := by
  unfold execFaultAccept
  split <;> simp

/-! ### The slot tables: banks, entries, lengths and periods (12 R406 to R411) -/

@[simp] theorem State.writeShadow_regs (s : State) (c : Chan) (i : Nat) (x : Byte) : (s.writeShadow c i x).regs = s.regs := rfl

@[simp] theorem State.slwDone_lockBits (s : State) (c : Chan) : lockBits (s.slwDone c).regs = lockBits s.regs := by
  refine foldl_lockBits (fun u m => ?_) _ _
  split
  · split_ifs <;> simp
  · rfl

@[simp] theorem State.cancelCommit_lockBits (s : State) (c : Chan) : lockBits (s.cancelCommit c).regs = lockBits s.regs := by
  simp [State.cancelCommit]

/-! ### The Bellows: label queues, policing, shaping, windows, latency, heat and release (11) -/

@[simp] theorem State.onLabel_regs (s : State) (p : PortId) (l : Nat) (f : LabelRun → LabelRun) :
    (s.onLabel p l f).regs = s.regs := rfl

@[simp] theorem State.examine_regs (s : State) (p : PortId) (l : Nat) : (s.examine p l).regs = s.regs := by
  simp [State.examine]

@[simp] theorem State.newHead_regs (s : State) (p : PortId) (l : Nat) : (s.newHead p l).regs = s.regs := by
  simp [State.newHead]

@[simp] theorem State.accept_regs (s : State) (p : PortId) (r : Req) : (s.accept p r).regs = s.regs := by
  simp [State.accept]

@[simp] theorem execRequestAccept_keeps (p : PortId) (now : Nat) (s : State) :
    (execRequestAccept p now s).Keeps (lockBits s.regs) := by
  refine (keeps_next _ _).mpr (timed_lockBits ?_)
  split <;> simp

@[simp] theorem execShaperWheelDue_keeps (p : PortId) (now : Nat) (s : State) :
    (execShaperWheelDue p now s).Keeps (lockBits s.regs) := by
  simp [execShaperWheelDue]

@[simp] theorem execWindowBoundary_keeps (p : PortId) (now : Nat) (s : State) :
    (execWindowBoundary p now s).Keeps (lockBits s.regs) := by
  simp -implicitDefEqProofs [execWindowBoundary]

@[simp] theorem State.passBoundaries_regs (s : State) (p : PortId) : (s.passBoundaries p).regs = s.regs := rfl

@[simp] theorem State.weighted_regs (s : State) (p : PortId) (strict fuel : Nat) :
    (s.weighted p strict fuel).1.regs = s.regs := by
  induction fuel generalizing s with
  | zero => rfl
  | succ fuel ih =>
    dsimp only [State.weighted]
    split
    · split_ifs
      · rfl
      · simp [ih]
    · simp [ih]

@[simp] theorem State.selectLabel_regs (s : State) (p : PortId) : (s.selectLabel p).1.regs = s.regs := by
  dsimp only [State.selectLabel]
  split
  · rfl
  · split_ifs
    · simp
    · rfl

@[simp] theorem State.tongsPush_regs (s : State) (ret : Bool) (w : Waiting) : (s.tongsPush ret w).regs = s.regs := rfl

@[simp] theorem State.spend_regs (s : State) (p : PortId) (r : Req) : (s.spend p r).regs = s.regs := by
  simp [State.spend]

@[simp] theorem State.leaveQueue_regs (s : State) (p : PortId) (r : Req) : (s.leaveQueue p r).regs = s.regs := by
  dsimp only [State.leaveQueue]
  split <;> simp

@[simp] theorem State.onPiece_regs (s : State) (tag : Nat) (f : Piece → Piece) : (s.onPiece tag f).regs = s.regs := rfl

@[simp] theorem State.freePiece_regs (s : State) (tag : Nat) : (s.freePiece tag).regs = s.regs := rfl

@[simp] theorem State.deliver_regs (s : State) (x : Piece) : (s.deliver x).regs = s.regs := by
  unfold State.deliver
  split <;> simp

@[simp] theorem State.answerLost_regs (s : State) (x : Piece) : (s.answerLost x).regs = s.regs := by
  simp [State.answerLost]

@[simp] theorem State.releasePiece_regs (s : State) (p : PortId) (r : Req) : (s.releasePiece p r).regs = s.regs := by
  dsimp only [State.releasePiece]
  split <;> simp

@[simp] theorem State.chosen_regs (s : State) (p : PortId) : (s.chosen p).1.regs = s.regs := by
  dsimp only [State.chosen]
  repeat' split
  all_goals simp -implicitDefEqProofs

@[simp] theorem execRelease_keeps (p : PortId) (now : Nat) (s : State) : (execRelease p now s).Keeps (lockBits s.regs) := by
  refine (keeps_next _ _).mpr (timed_lockBits ?_)
  dsimp only
  split <;> simp

@[simp] theorem State.sample_regs (s : State) (p : PortId) (r : Req) : (s.sample p r).regs = s.regs := rfl

@[simp] theorem State.haltLabelNow_lockBits (s : State) (p : PortId) (l : Nat) :
    lockBits (s.haltLabelNow p l).regs = lockBits s.regs := by
  simp [State.haltLabelNow]

@[simp] theorem State.settleQueued_lockBits (s : State) (p : PortId) : lockBits (s.settleQueued p).regs = lockBits s.regs := by
  simp [State.settleQueued]

@[simp] theorem execWriteBeat_keeps (p : PortId) (data : Sector) (be : BitVec 64) (wpoison wlast : Bool) (s : State) :
    (execWriteBeat p data be wpoison wlast s).Keeps (lockBits s.regs) := by
  simp [execWriteBeat]

/-! ### The Tongs: grants, the watchdog, and the entry of responses into the response queues (01, 03) -/

@[simp] theorem State.arriveAt_regs (s : State) (ret : Bool) (o : Nat) (x : Piece) : (s.arriveAt ret o x).regs = s.regs := by
  unfold State.arriveAt
  repeat' split
  all_goals simp

@[simp] theorem execTongsGrant_keeps (ret : Bool) (output : Fin 131) (now : Nat) (s : State) :
    (execTongsGrant ret output now s).Keeps (lockBits s.regs) := by
  refine (keeps_next _ _).mpr (timed_lockBits ?_)
  repeat' split
  all_goals simp -implicitDefEqProofs

@[simp] theorem State.bite_lockBits (s : State) (ret : Bool) (o at_ : Nat) :
    lockBits (s.bite ret o at_).regs = lockBits s.regs := by
  simp [State.bite]

@[simp] theorem execTongsWatchdogBite_keeps (ret : Bool) (output : Fin 131) (now : Nat) (s : State) :
    (execTongsWatchdogBite ret output now s).Keeps (lockBits s.regs) := by
  simp -implicitDefEqProofs [execTongsWatchdogBite]

@[simp] theorem State.conclude_lockBits (s : State) (p : PortId) (r : Req) :
    lockBits (s.conclude p r).regs = lockBits s.regs := by
  unfold State.conclude
  repeat' split
  all_goals simp

@[simp] theorem execResponseEnter_keeps (p : PortId) (now : Nat) (s : State) :
    (execResponseEnter p now s).Keeps (lockBits s.regs) := by
  refine (keeps_next _ _).mpr (timed_lockBits ?_)
  dsimp only
  repeat' split
  all_goals simp -implicitDefEqProofs

/-! ### Gangs of instances (17): link words, membership, heartbeats, departures and Smith messages -/

@[simp] theorem State.sendCtrl_regs (s : State) (k : Fin 3) (m : BitVec 128) : (s.sendCtrl k m).regs = s.regs := rfl

@[simp] theorem State.sendHeartbeats_regs (s : State) (mode : Nat) : (s.sendHeartbeats mode).regs = s.regs := by
  simp -implicitDefEqProofs [State.sendHeartbeats]

@[simp] theorem State.queueRange_regs (s : State) (r : Range) : (s.queueRange r).regs = s.regs := by
  simp -implicitDefEqProofs [State.queueRange]

@[simp] theorem State.stopPeer_regs (s : State) (i : Fin 4) : (s.stopPeer i).regs = s.regs := by
  simp [State.stopPeer]

@[simp] theorem State.depart_lockBits (s : State) (i : Fin 4) (cause : Nat) :
    lockBits (s.depart i cause).regs = lockBits s.regs := by
  simp [State.depart]

@[simp] theorem State.leaveGang_lockBits (s : State) (m : Mode) : lockBits (s.leaveGang m).regs = lockBits s.regs := by
  simp [State.leaveGang]

@[simp] theorem State.addHeader_regs (s : State) (k : Fin 3) (h : BitVec 160) : (s.addHeader k h).regs = s.regs := rfl

@[simp] theorem State.enterRequest_regs (s : State) (k : Fin 3) (it : LinkItem) : (s.enterRequest k it).regs = s.regs := rfl

@[simp] theorem State.enterResponse_regs (s : State) (k : Fin 3) (it : LinkItem) (flip : Flip) :
    (s.enterResponse k it flip).regs = s.regs := by
  unfold State.enterResponse
  split <;> simp

@[simp] theorem State.returnCredits_regs (s : State) (k : Fin 3) (it : LinkItem) : (s.returnCredits k it).regs = s.regs := by
  simp [State.returnCredits]

@[simp] theorem State.takeItem_lockBits (s : State) (k : Fin 3) (it : LinkItem) :
    lockBits (s.takeItem k it).regs = lockBits s.regs := by
  simp [State.takeItem]

@[simp] theorem State.drainItems_lockBits (s : State) (k : Fin 3) (fuel : Nat) :
    lockBits (s.drainItems k fuel).regs = lockBits s.regs := by
  induction fuel generalizing s with
  | zero => rfl
  | succ fuel ih =>
    unfold State.drainItems
    repeat' split
    all_goals simp [ih]

@[simp] theorem State.linkDown_lockBits (s : State) (k : Fin 3) : lockBits (s.linkDown k).regs = lockBits s.regs := by
  simp [State.linkDown]

@[simp] theorem State.takeNak_lockBits (s : State) (k : Fin 3) (ack : BitVec 8) :
    lockBits (s.takeNak k ack).regs = lockBits s.regs := by
  simp [State.takeNak]

@[simp] theorem State.takeWord_lockBits (s : State) (k : Fin 3) (w : BitVec 1024) :
    lockBits (s.takeWord k w).regs = lockBits s.regs := by
  simp -implicitDefEqProofs [State.takeWord]

@[simp] theorem State.badWord_lockBits (s : State) (k : Fin 3) (seq : BitVec 8) :
    lockBits (s.badWord k seq).regs = lockBits s.regs := by
  simp [State.badWord]

@[simp] theorem execLinkWordReceive_keeps (k : Fin 3) (word : BitVec 1024) (s : State) :
    (execLinkWordReceive k word s).Keeps (lockBits s.regs) := by
  simp [execLinkWordReceive]

@[simp] theorem execLinkTrained_keeps (k : Fin 3) (delay : BitVec 16) (s : State) :
    (execLinkTrained k delay s).Keeps (lockBits s.regs) := by
  simp [execLinkTrained]

@[simp] theorem State.linksEnable_lockBits (s : State) (on : Bool) : lockBits (s.linksEnable on).regs = lockBits s.regs := by
  simp [State.linksEnable]

@[simp] theorem State.exchange_regs (s : State) : s.exchange.regs = s.regs := by
  simp -implicitDefEqProofs [State.exchange]

@[simp] theorem State.popCtrl_regs (s : State) (k : Fin 3) (m : BitVec 128) : (s.popCtrl k m).regs = s.regs := rfl

@[simp] theorem State.stepTimebase_regs (s : State) (t : Nat) : (s.stepTimebase t).regs = s.regs := rfl

@[simp] theorem State.admitPeer_regs (s : State) (k : Fin 3) (m : BitVec 128) : (s.admitPeer k m).regs = s.regs := by
  simp [State.admitPeer]

@[simp] theorem State.takeCredentials_lockBits (s : State) (k : Fin 3) :
    lockBits (s.takeCredentials k).regs = lockBits s.regs := by
  dsimp only [State.takeCredentials]
  repeat' split
  all_goals simp -implicitDefEqProofs

@[simp] theorem execCredentials_keeps (k : Fin 3) (now : Nat) (s : State) :
    (execCredentials k now s).Keeps (lockBits s.regs) := by
  simp [execCredentials]

@[simp] theorem execHeartbeatSend_keeps (now : Nat) (s : State) : (execHeartbeatSend now s).Keeps (lockBits s.regs) := by
  simp [execHeartbeatSend]

@[simp] theorem State.skewStatus_lockBits (s : State) (i : Fin 4) : lockBits (s.skewStatus i).regs = lockBits s.regs := by
  simp [State.skewStatus]

@[simp] theorem State.recordHeartbeat_lockBits (s : State) (k : Fin 3) (m : BitVec 128) :
    lockBits (s.recordHeartbeat k m).regs = lockBits s.regs := by
  simp [State.recordHeartbeat]

@[simp] theorem State.lastWords_regs (s : State) (k : Fin 3) (m : BitVec 128) : (s.lastWords k m).regs = s.regs := rfl

@[simp] theorem State.takeHeartbeat_lockBits (s : State) (k : Fin 3) : lockBits (s.takeHeartbeat k).regs = lockBits s.regs := by
  dsimp only [State.takeHeartbeat]
  repeat' split
  all_goals simp -implicitDefEqProofs

@[simp] theorem execHeartbeat_keeps (k : Fin 3) (now : Nat) (s : State) : (execHeartbeat k now s).Keeps (lockBits s.regs) := by
  simp [execHeartbeat]

@[simp] theorem execHeartbeatTimeout_keeps (i : Fin 4) (now : Nat) (s : State) :
    (execHeartbeatTimeout i now s).Keeps (lockBits s.regs) := by
  simp [execHeartbeatTimeout]

@[simp] theorem State.endStarting_lockBits (s : State) (i : Fin 4) : lockBits (s.endStarting i).regs = lockBits s.regs := by
  simp -implicitDefEqProofs [State.endStarting]

@[simp] theorem execPeerStartingEnd_keeps (i : Fin 4) (now : Nat) (s : State) :
    (execPeerStartingEnd i now s).Keeps (lockBits s.regs) := by
  simp [execPeerStartingEnd]

@[simp] theorem State.peerSeen_lockBits (s : State) (i : Fin 4) : lockBits (s.peerSeen i).regs = lockBits s.regs := by
  simp [State.peerSeen]

@[simp] theorem execPeerStoppingEnd_keeps (i : Fin 4) (s : State) : (execPeerStoppingEnd i s).Keeps (lockBits s.regs) := by
  simp [execPeerStoppingEnd]

@[simp] theorem State.sendSmith_regs (s : State) (hi : Word) : (s.sendSmith hi).regs = s.regs := by
  simp -implicitDefEqProofs [State.sendSmith]

@[simp] theorem execSmithMessage_keeps (k : Fin 3) (s : State) : (execSmithMessage k s).Keeps (lockBits s.regs) := by
  unfold execSmithMessage
  split <;> simp

/-! ### The Loft's lines, ways, replacement tree, functions and merge buffer as the other blocks use them (10) -/

@[simp] theorem State.flushAll_regs (s : State) : s.flushAll.regs = s.regs := rfl

@[simp] theorem State.loftStopping_regs (s : State) (k : Fin 6) : (s.loftStopping k).regs = s.regs := by
  simp [State.loftStopping]

@[simp] theorem State.loftRequest_regs (s : State) (k : Fin 6) : (s.loftRequest k).regs = s.regs := by
  simp [State.loftRequest]

@[simp] theorem State.loftRequests_regs (s : State) : s.loftRequests.regs = s.regs := by
  simp [State.loftRequests]

end Sys2Proof.Machine
end

section
/-! SUPPORT. The mapping lock: shed levels, Hedge's keys, refresh, and the queues and the selection of an anvil. -/

namespace Sys2Proof.Machine

/-! ### Shed levels, the modes of service and the start of a BANKED transition (13 R435 to R449) -/

@[simp] theorem State.cancelCommits_lockBits (s : State) : lockBits s.cancelCommits.regs = lockBits s.regs := by
  simp [State.cancelCommits]

@[simp] theorem State.beginBanked_lockBits (s : State) (host : Bool) :
    lockBits (s.beginBanked host).regs = lockBits s.regs := by
  simp [State.beginBanked]

@[simp] theorem State.throttleEdge_regs (s before : State) : (s.throttleEdge before).regs = s.regs := by
  simp [State.throttleEdge]

@[simp] theorem State.shedBank_lockBits (s : State) : lockBits s.shedBank.regs = lockBits s.regs := by
  simp [State.shedBank]

@[simp] theorem State.setShed_lockBits (s : State) (level : Nat) : lockBits (s.setShed level).regs = lockBits s.regs := by
  simp -implicitDefEqProofs [State.setShed]

@[simp] theorem State.thermalFloor_lockBits (s : State) : lockBits s.thermalFloor.regs = lockBits s.regs := by
  simp [State.thermalFloor]

@[simp] theorem State.shedWrite_lockBits (s : State) (level : Nat) : lockBits (s.shedWrite level).regs = lockBits s.regs := by
  simp [State.shedWrite]

@[simp] theorem State.showSag_lockBits (s : State) : lockBits s.showSag.regs = lockBits s.regs := by
  simp [State.showSag]

@[simp] theorem State.samplePm_lockBits (s : State) : lockBits s.samplePm.regs = lockBits s.regs := by
  simp [State.samplePm]

@[simp] theorem State.glnRequest_regs (s : State) (c : Chan) : (s.glnRequest c).regs = s.regs := rfl

/-! ### Hedge's regions, keys and verdicts as the other blocks use them (14) -/

@[simp] theorem State.onRegion_regs (s : State) (r : RegionId) (f : Region → Region) : (s.onRegion r f).regs = s.regs := rfl

@[simp] theorem State.keySweep_regs (s : State) (r : RegionId) : (s.keySweep r).regs = s.regs := by
  simp [State.keySweep]

/-! ### Refresh debt, MR4 polling, activate tallies, neighbour refresh and refresh management (06) -/

@[simp] theorem State.clearDebt_regs (s : State) (c : Chan) : (s.clearDebt c).regs = s.regs := rfl

@[simp] theorem State.clearNew_regs (s : State) (c : Chan) (before : List (Fin 2)) : (s.clearNew c before).regs = s.regs := by
  simp -implicitDefEqProofs [State.clearNew]

@[simp] theorem State.newRound_regs (s : State) (c : Chan) : (s.newRound c).regs = s.regs := rfl

@[simp] theorem State.stopRefresh_regs (s : State) (c : Chan) : (s.stopRefresh c).regs = s.regs := rfl

@[simp] theorem State.startPoll_regs (s : State) (c : Chan) : (s.startPoll c).regs = s.regs := rfl

@[simp] theorem State.forgetMr4_lockBits (s : State) (c : Chan) : lockBits (s.forgetMr4 c).regs = lockBits s.regs := by
  simp [State.forgetMr4]

@[simp] theorem State.releaseRefresh_regs (s : State) (c : Chan) (k : Fin 2) : (s.releaseRefresh c k).regs = s.regs := by
  unfold State.releaseRefresh
  repeat' split
  all_goals simp

@[simp] theorem State.releaseAll_regs (s : State) (c : Chan) : (s.releaseAll c).regs = s.regs := by
  simp [State.releaseAll]

@[simp] theorem State.raiseDebt_lockBits (s : State) (c : Chan) (k : Fin 2) :
    lockBits (s.raiseDebt c k).regs = lockBits s.regs := by
  simp [State.raiseDebt]

@[simp] theorem execRefreshDebtTick_keeps (c : Chan) (rank : Fin 2) (now : Nat) (s : State) :
    (execRefreshDebtTick c rank now s).Keeps (lockBits s.regs) := by
  simp [execRefreshDebtTick]

@[simp] theorem execMr4Poll_keeps (c : Chan) (now : Nat) (s : State) : (execMr4Poll c now s).Keeps (lockBits s.regs) := by
  simp [execMr4Poll]

@[simp] theorem State.setMult_lockBits (s : State) (c : Chan) (old new v : Nat) :
    lockBits (s.setMult c old new v).regs = lockBits s.regs := by
  simp [State.setMult]

@[simp] theorem State.takeMr4_lockBits (s : State) (c : Chan) (v : Nat) : lockBits (s.takeMr4 c v).regs = lockBits s.regs := by
  simp [State.takeMr4]

@[simp] theorem execMr4Result_keeps (c : Chan) (rank0 rank1 : List (BitVec 5)) (s : State) :
    (execMr4Result c rank0 rank1 s).Keeps (lockBits s.regs) := by
  simp [execMr4Result]

@[simp] theorem State.pushNeighbour_regs (s : State) (c : Chan) (q : Place) : (s.pushNeighbour c q).regs = s.regs := by
  unfold State.pushNeighbour
  split <;> simp

@[simp] theorem State.tallyRow_regs (s : State) (c : Chan) (q : Place) : (s.tallyRow c q).regs = s.regs := by
  simp [State.tallyRow]

@[simp] theorem State.useBudget_lockBits (s : State) (c : Chan) : lockBits (s.useBudget c).1.regs = lockBits s.regs := by
  simp [State.useBudget]

@[simp] theorem State.neighbourAct_lockBits (s : State) (c : Chan) (q : Place) :
    lockBits (s.neighbourAct c q).regs = lockBits s.regs := by
  simp [State.neighbourAct]

@[simp] theorem State.sweepOn_regs (s : State) (c : Chan) (l : List Place) : (s.sweepOn c l).regs = s.regs := by
  induction l generalizing s with
  | nil => rfl
  | cons q l ih =>
    unfold State.sweepOn
    split_ifs <;> simp [ih]

@[simp] theorem State.neighbourDone_regs (s : State) (c : Chan) (q : Place) (beyond : Bool) :
    (s.neighbourDone c q beyond).regs = s.regs := by
  simp [State.neighbourDone]

@[simp] theorem State.neighbourPre_regs (s : State) (c : Chan) (q : Place) : (s.neighbourPre c q).regs = s.regs := by
  unfold State.neighbourPre
  repeat' split
  all_goals simp

@[simp] theorem State.hammerSweep_regs (s : State) (c : Chan) : (s.hammerSweep c).regs = s.regs := by
  simp [State.hammerSweep]

@[simp] theorem State.pushSre_regs (s : State) (c : Chan) (src : CmdSrc) : (s.pushSre c src).regs = s.regs := by
  simp [State.pushSre]

@[simp] theorem State.pushPrea_regs (s : State) (c : Chan) : (s.pushPrea c).regs = s.regs := by
  simp -implicitDefEqProofs [State.pushPrea]

@[simp] theorem State.raaAct_regs (s : State) (c : Chan) (rank bank : Nat) : (s.raaAct c rank bank).regs = s.regs := by
  simp [State.raaAct]

@[simp] theorem State.raaRefresh_regs (s : State) (c : Chan) (covered : Nat → Nat → Bool) (n : Nat) :
    (s.raaRefresh c covered n).regs = s.regs := by
  simp [State.raaRefresh]

@[simp] theorem State.rfmFirst_regs (s : State) (c : Chan) (rank bank : Nat) : (s.rfmFirst c rank bank).regs = s.regs := by
  simp [State.rfmFirst]

@[simp] theorem State.pushRfm_regs (s : State) (c : Chan) (rank bank : Nat) : (s.pushRfm c rank bank).regs = s.regs := by
  simp [State.pushRfm]

@[simp] theorem State.releaseRfm_regs (s : State) (c : Chan) : (s.releaseRfm c).regs = s.regs := by
  simp [State.releaseRfm]

/-! ### The data path of an anvil: DRAM cells, encryption, and decoding of what a row visit has read (09, 14 R471 to R473) -/

@[simp] theorem State.corrected_lockBits (s : State) (c : Chan) (finder : Nat) (q : Place) (addr : Nat) (f : Fix) :
    lockBits (s.corrected c finder q addr f).regs = lockBits s.regs := by
  simp -implicitDefEqProofs [State.corrected]

@[simp] theorem State.countBad_lockBits (s : State) (c : Chan) : lockBits (s.countBad c).regs = lockBits s.regs := by
  simp [State.countBad]

@[simp] theorem State.eccFault_regs (s : State) (c : Chan) (kind sev finder : Nat) (q : Place) (addr : Nat) (f : Fix) :
    (s.eccFault c kind sev finder q addr f).regs = s.regs := rfl

/-! ### The read and write entries of an anvil: arrival, hazards, pre-reads, plot fills and what a completed read does (05 R173
to R200, 09 R296 to R317) -/

@[simp] theorem State.dropLines_regs (s : State) (c : Chan) (q : Place) (ns : List Nat) : (s.dropLines c q ns).regs = s.regs :=
  rfl

@[simp] theorem State.dropRead_regs (s : State) (c : Chan) (seq : Nat) : (s.dropRead c seq).regs = s.regs := rfl

@[simp] theorem State.addRead_regs (s : State) (c : Chan) (kind : ReadKind) (q : Place) (secs todo : List Nat) (heat : Nat)
    (port : Option Nat) (waits waitsM : List Nat) : (s.addRead c kind q secs todo heat port waits waitsM).regs = s.regs := rfl

@[simp] theorem State.touchRow_regs (s : State) (c : Chan) (q : Place) : (s.touchRow c q).regs = s.regs := rfl

@[simp] theorem State.addReady_regs (s : State) (c : Chan) (kind : WriteKind) (q : Place) (secs : List WSec)
    (enc : List (Nat × Sector × Bool)) (todo : List Nat) (heat : Nat) (port : Option Nat) (marks recode : List Nat ) :
    (s.addReady c kind q secs enc todo heat port marks recode).regs = s.regs := rfl

@[simp] theorem State.poisonSecs_regs (s : State) (c : Chan) (q : Place) (ns : List Nat) (heat : Nat) (port : Option Nat)
    (recode : List Nat ) : (s.poisonSecs c q ns heat port recode).regs = s.regs := by
  simp [State.poisonSecs]

@[simp] theorem State.rebuildBitmap_regs (s : State) (c : Chan) (q : Place) (heat : Nat) (port : Option Nat) :
    (s.rebuildBitmap c q heat port).regs = s.regs := rfl

@[simp] theorem State.addMend_lockBits (s : State) (c : Chan) (ri : Nat) :
    lockBits (s.addMend c ri).regs = lockBits s.regs := by
  simp [State.addMend]

@[simp] theorem State.flushFor_regs (s : State) (c : Chan) (merges : List Nat) : (s.flushFor c merges).regs = s.regs := rfl

@[simp] theorem State.addScrub_regs (s : State) (c : Chan) (kind : ReadKind) (q : Place) (secs todo ns : List Nat)
    (heat : Nat) : (s.addScrub c kind q secs todo ns heat).regs = s.regs := rfl

@[simp] theorem State.feedVisit_regs (s : State) (c : Chan) (fuel : Nat) : (s.feedVisit c fuel).regs = s.regs := by
  induction fuel generalizing s with
  | zero => rfl
  | succ fuel ih =>
    dsimp only [State.feedVisit]
    repeat' split
    all_goals simp [ih]

@[simp] theorem State.finishScrub_regs (s : State) (c : Chan) (e : ReadEnt) : (s.finishScrub c e).regs = s.regs := by
  simp [State.finishScrub]

@[simp] theorem State.acceptPart_regs (s : State) (c : Chan) (m : Miss) (part : Place × List (Bool × Nat)) :
    (s.acceptPart c m part).regs = s.regs := by
  simp [State.acceptPart]

@[simp] theorem State.bitmapErr_lockBits (s : State) (c : Chan) (plot : Nat) (err : BitmapErr) :
    lockBits (s.bitmapErr c plot err).regs = lockBits s.regs := by
  unfold State.bitmapErr
  split <;> simp

@[simp] theorem execLineReadAccept_keeps (c : Chan) (err : BitmapErr) (now : Nat) (s : State) :
    (execLineReadAccept c err now s).Keeps (lockBits s.regs) := by
  refine (keeps_next _ _).mpr (timed_lockBits ?_)
  split <;> simp

@[simp] theorem State.onWrite_regs (s : State) (c : Chan) (seq : Nat) (f : WriteEnt → WriteEnt) :
    (s.onWrite c seq f).regs = s.regs := rfl

@[simp] theorem State.onRead_regs (s : State) (c : Chan) (seq : Nat) (f : ReadEnt → ReadEnt) :
    (s.onRead c seq f).regs = s.regs := rfl

@[simp] theorem State.makeReady_regs (s : State) (c : Chan) (w : WriteEnt) (old : List (Nat × Decoded)) :
    (s.makeReady c w old).regs = s.regs := rfl

@[simp] theorem State.spawn_regs (s : State) (c : Chan) (seq : Nat) : (s.spawn c seq).regs = s.regs := by
  unfold State.spawn
  split <;> simp

@[simp] theorem State.advanceFill_regs (s : State) (c : Chan) : (s.advanceFill c).regs = s.regs := by
  unfold State.advanceFill
  repeat' split
  all_goals simp

@[simp] theorem State.startFill_regs (s : State) (c : Chan) (plot heat : Nat) (port : Option Nat) :
    (s.startFill c plot heat port).regs = s.regs := by
  simp [State.startFill]

@[simp] theorem State.fillReached_regs (s : State) (c : Chan) (seq : Nat) : (s.fillReached c seq).regs = s.regs := by
  simp [State.fillReached]

@[simp] theorem State.enterWrite_regs (s : State) (c : Chan) (kind : WriteKind) (seq : Nat) (q : Place)
    (secs : List WSec) (heat : Nat) (port group : Option Nat) (found : ReadEnt → Bool) (but : Nat → Bool) :
    (s.enterWrite c kind seq q secs heat port group found but).regs = s.regs := by
  simp [State.enterWrite]

@[simp] theorem State.addWrite_regs (s : State) (c : Chan) (q : Place) (secs : List WSec) (heat : Nat)
    (port group : Option Nat) (found : ReadEnt → Bool) : (s.addWrite c q secs heat port group found).regs = s.regs := by
  simp [State.addWrite]

@[simp] theorem State.feedIn_regs (s : State) (c : Chan) (l : List FeedWrite) : (s.feedIn c l).regs = s.regs := by
  induction l generalizing s with
  | nil => rfl
  | cons x l ih =>
    unfold State.feedIn
    split <;> simp [ih]

@[simp] theorem State.feedWrites_regs (s : State) (c : Chan) : (s.feedWrites c).regs = s.regs := by
  simp [State.feedWrites]

@[simp] theorem State.arriveFeed_regs (s : State) (c : Chan) (save : Bool) (q : Place) (secs : List WSec) :
    (s.arriveFeed c save q secs).regs = s.regs := rfl

@[simp] theorem State.dropWrite_regs (s : State) (c : Chan) (w : WriteEnt) : (s.dropWrite c w).regs = s.regs := by
  simp [State.dropWrite]

@[simp] theorem State.acceptWrite_regs (s : State) (c : Chan) (m : Merge) (part : Place × List (Bool × Nat)) :
    (s.acceptWrite c m part).regs = s.regs := by
  simp [State.acceptWrite]

@[simp] theorem State.loftCorrected_regs (s : State) (c : Chan) (line detail : Nat) :
    (s.loftCorrected c line detail).regs = s.regs := by
  simp [State.loftCorrected]

@[simp] theorem State.mergeErr_lockBits (s : State) (c : Chan) (m : Merge) (err : StoreErr) :
    lockBits (s.mergeErr c m err).1.regs = lockBits s.regs := by
  unfold State.mergeErr
  split <;> simp

@[simp] theorem execMergeFlushAccept_keeps (c : Chan) (errs : BitmapErr × StoreErr) (now : Nat) (s : State) :
    (execMergeFlushAccept c errs now s).Keeps (lockBits s.regs) := by
  refine (keeps_next _ _).mpr (timed_lockBits ?_)
  split <;> simp

@[simp] theorem State.reportFixes_lockBits (s : State) (c : Chan) (finder : Nat) (q : Place) (n : Nat) (d : Decoded) :
    lockBits (s.reportFixes c finder q n d).regs = lockBits s.regs := by
  simp [State.reportFixes]

@[simp] theorem State.reportBad_regs (s : State) (c : Chan) (finder : Nat) (q : Place) (n : Nat) (d : Decoded) :
    (s.reportBad c finder q n d).regs = s.regs := by
  unfold State.reportBad
  split <;> simp

@[simp] theorem State.reportAll_lockBits (s : State) (c : Chan) (finder : Nat) (e : ReadEnt)
    (ds : List (Nat × Decoded)) : lockBits (s.reportAll c finder e ds).regs = lockBits s.regs := by
  simp [State.reportAll]

@[simp] theorem State.finishDemand_lockBits (s : State) (c : Chan) (e : ReadEnt) (miss : Nat) (half : Bool × Bool) :
    lockBits (s.finishDemand c e miss half).regs = lockBits s.regs := by
  simp [State.finishDemand]

@[simp] theorem State.sealFailure_regs (s : State) (c : Chan) (w : WriteEnt) : (s.sealFailure c w).regs = s.regs := by
  simp [State.sealFailure]

@[simp] theorem State.finishPreread_lockBits (s : State) (c : Chan) (e : ReadEnt) (seq : Nat) :
    lockBits (s.finishPreread c e seq).regs = lockBits s.regs := by
  dsimp only [State.finishPreread]
  split <;> simp

@[simp] theorem State.startLocate_regs (s : State) (c : Chan) (e : ReadEnt) (ns : List Nat) :
    (s.startLocate c e ns).regs = s.regs := rfl

/-! ### What the scrubbers do with their findings, and the completion of a read entry whose RDs have returned (09 R296, R307,
R323, R324, R328) -/

@[simp] theorem State.latent_lockBits (s : State) (c : Chan) (kind addr detail : Nat) :
    lockBits (s.latent c kind addr detail).regs = lockBits s.regs := by
  simp [State.latent]

@[simp] theorem State.mendRow_regs (s : State) (c : Chan) (q : Place) (got : RowData) (ds : List (Nat × Decoded)) :
    (s.mendRow c q got ds).regs = s.regs := by
  simp [State.mendRow]

@[simp] theorem State.scrubFault_lockBits (s : State) (c : Chan) (kind finder : Nat) (q : Place) (x : Nat × Decoded) :
    lockBits (s.scrubFault c kind finder q x).regs = lockBits s.regs := by
  simp [State.scrubFault]

@[simp] theorem State.mendBitmap_lockBits (s : State) (c : Chan) (finder : Nat) (q : Place) (got : RowData)
    (ds : List (Nat × Decoded)) (marks : List Nat) :
    lockBits (s.mendBitmap c finder q got ds marks).regs = lockBits s.regs := by
  simp [State.mendBitmap]

@[simp] theorem State.actFindings_lockBits (s : State) (c : Chan) (finder : Nat) (q : Place) (got : RowData)
    (ds : List (Nat × Decoded)) (again : List Nat) :
    lockBits (s.actFindings c finder q got ds again).regs = lockBits s.regs := by
  simp [State.actFindings]

@[simp] theorem State.closeRow_regs (s : State) (c : Chan) (q : Place) : (s.closeRow c q).regs = s.regs := rfl

@[simp] theorem State.patrolRead_regs (s : State) (c : Chan) (q : Place) (n : Nat) (again : Bool) :
    (s.patrolRead c q n again).regs = s.regs := rfl

@[simp] theorem State.finishPatrol_lockBits (s : State) (c : Chan) (e : ReadEnt) (again dirty : Bool) :
    lockBits (s.finishPatrol c e again dirty).regs = lockBits s.regs := by
  simp [State.finishPatrol]

@[simp] theorem State.useHeld_regs (s : State) (c : Chan) (e : ReadEnt) : (s.useHeld c e).regs = s.regs := by
  simp -implicitDefEqProofs [State.useHeld]

@[simp] theorem State.completeRead_lockBits (s : State) (c : Chan) (e : ReadEnt) :
    lockBits (s.completeRead c e).regs = lockBits s.regs := by
  dsimp only [State.completeRead]
  repeat' split
  all_goals simp -implicitDefEqProofs

@[simp] theorem State.settleReads_lockBits (s : State) (c : Chan) (fuel : Nat) :
    lockBits (s.settleReads c fuel).regs = lockBits s.regs := by
  induction fuel generalizing s with
  | zero => rfl
  | succ fuel ih =>
    unfold State.settleReads
    split
    · simp [ih]
    · rfl

@[simp] theorem State.settle_lockBits (s : State) (c : Chan) : lockBits (s.settle c).regs = lockBits s.regs := by
  simp [State.settle]

/-! ### Selection of the next command of an anvil: effective heat, direction, ranking and command errors (05 R178 to R188, R202
to R205) -/

@[simp] theorem State.turn_regs (s : State) (c : Chan) : (s.turn c).regs = s.regs := rfl

@[simp] theorem State.prepareClose_regs (s : State) (c : Chan) : (s.prepareClose c).regs = s.regs := by
  simp [State.prepareClose]

@[simp] theorem State.recordCmdError_lockBits (s : State) (c : Chan) (cause : Nat) :
    lockBits (s.recordCmdError c cause).regs = lockBits s.regs := by
  simp [State.recordCmdError]

@[simp] theorem State.cmdError_lockBits (s : State) (c : Chan) (cause sev addr rank bank : Nat) :
    lockBits (s.cmdError c cause sev addr rank bank).regs = lockBits s.regs := by
  simp [State.cmdError]

@[simp] theorem State.readParity_lockBits (s : State) (c : Chan) (e : ReadEnt) :
    lockBits (s.readParity c e).regs = lockBits s.regs := by
  unfold State.readParity
  split <;> simp

@[simp] theorem State.writeParity_lockBits (s : State) (c : Chan) (w : WriteEnt) (bothBad : Bool) :
    lockBits (s.writeParity c w bothBad).regs = lockBits s.regs := by
  simp [State.writeParity]

@[simp] theorem State.cacheError_regs (s : State) (c : Chan) (x : Cand) : (s.cacheError c x).regs = s.regs := by
  unfold State.cacheError
  split <;> simp

@[simp] theorem State.parityError_lockBits (s : State) (c : Chan) (x : Cand) (p : EntryParity) :
    lockBits (s.parityError c x p).regs = lockBits s.regs := by
  unfold State.parityError
  repeat' split
  all_goals simp

@[simp] theorem State.select7_regs (s : State) (c : Chan) (l : Cmd × Bool) : (s.select7 c l).regs = s.regs := by
  simp [State.select7]

@[simp] theorem State.selectClient_lockBits (s : State) (c : Chan) (p : EntryParity) :
    lockBits (s.selectClient c p).regs = lockBits s.regs := by
  dsimp only [State.selectClient]
  split <;> simp

@[simp] theorem State.respawn_regs (s : State) (c : Chan) : (s.respawn c).regs = s.regs := by
  simp [State.respawn]

@[simp] theorem State.sealClose_regs (s : State) (c : Chan) : (s.sealClose c).regs = s.regs := by
  simp -implicitDefEqProofs [State.sealClose]

@[simp] theorem State.refreshed_lockBits (s : State) (c : Chan) : lockBits (s.refreshed c).regs = lockBits s.regs := by
  simp [State.refreshed]

@[simp] theorem State.selectOne_lockBits (s : State) (c : Chan) (p : EntryParity) :
    lockBits (s.selectOne c p).regs = lockBits s.regs := by
  dsimp only [State.selectOne]
  repeat' split
  all_goals simp -implicitDefEqProofs

@[simp] theorem execCommandSelect_keeps (c : Chan) (parity : EntryParity) (s : State) :
    (execCommandSelect c parity s).Keeps (lockBits s.regs) := by
  simp [execCommandSelect]

end Sys2Proof.Machine
end

section
/-! SUPPORT. The mapping lock: the command stage, read data, the Gleaner and Hedge. -/

namespace Sys2Proof.Machine

/-! ### Delay codes, the pattern buffer and the hold of a channel (07 R243 to R256, 05 R210) -/

@[simp] theorem State.dlyWrite_regs (s : State) (c : Chan) (i : Nat) (code : BitVec 10) :
    (s.dlyWrite c i code).regs = s.regs := by
  simp [State.dlyWrite]

@[simp] theorem State.dlyEffect_regs (s : State) (c : Chan) (offsets : List Nat) (code : BitVec 10) :
    (s.dlyEffect c offsets code).regs = s.regs := by
  simp [State.dlyEffect]

@[simp] theorem State.dlyStep_lockBits (s : State) (c : Chan) : lockBits (s.dlyStep c).regs = lockBits s.regs := by
  simp [State.dlyStep]

@[simp] theorem State.startHold_regs (s : State) (c : Chan) : (s.startHold c).regs = s.regs := by
  simp [State.startHold]

@[simp] theorem State.timWrite_regs (s : State) (c : Chan) : (s.timWrite c).regs = s.regs := by
  simp [State.timWrite]

@[simp] theorem State.patStep_lockBits (s : State) (c : Chan) : lockBits (s.patStep c).regs = lockBits s.regs := by
  simp [State.patStep]

@[simp] theorem State.smithWr_lockBits (s : State) (c : Chan) (l : Cmd) : lockBits (s.smithWr c l).regs = lockBits s.regs := by
  dsimp only [State.smithWr]
  split <;> simp

@[simp] theorem State.smithRd_lockBits (s : State) (c : Chan) (l : Cmd) : lockBits (s.smithRd c l).regs = lockBits s.regs := by
  simp [State.smithRd]

/-! ### The command stage: issue of every command at a CK edge, and what the issue does (05 R182 to R191, R206 to R208, 06 R228
to R240, 02 R71 to R74) -/

@[simp] theorem State.applyZq_regs (s : State) (c : Chan) : (s.applyZq c).regs = s.regs := by
  simp [State.applyZq]

@[simp] theorem State.zqAt_regs (s : State) (c : Chan) (ck : Nat) : (s.zqAt c ck).regs = s.regs := by
  simp [State.zqAt]

@[simp] theorem State.issue_regs (s : State) (c : Chan) (l : Cmd) (ck : Nat) : (s.issue c l ck).regs = s.regs := by
  simp [State.issue]

@[simp] theorem State.cmdDone_lockBits (s : State) (src : CmdSrc) : lockBits (s.cmdDone src).regs = lockBits s.regs := by
  unfold State.cmdDone
  repeat' split
  all_goals simp

@[simp] theorem State.rewind_regs (s : State) (c : Chan) (q : Place) : (s.rewind c q).regs = s.regs := by
  simp [State.rewind]

@[simp] theorem State.closeBank_regs (s : State) (c : Chan) (rank bank : Nat) : (s.closeBank c rank bank).regs = s.regs := by
  unfold State.closeBank
  split <;> simp

@[simp] theorem State.deferAct_regs (s : State) (c : Chan) (l : Cmd) : (s.deferAct c l).regs = s.regs := by
  simp [State.deferAct]

@[simp] theorem State.actEffect_lockBits (s : State) (c : Chan) (l : Cmd) :
    lockBits (s.actEffect c l).regs = lockBits s.regs := by
  unfold State.actEffect
  split <;> simp

@[simp] theorem execAct_keeps (c : Chan) (ck : Nat) (s : State) : (execAct c ck s).Keeps (lockBits s.regs) := by
  unfold execAct
  split <;> simp

@[simp] theorem execPre_keeps (c : Chan) (ck : Nat) (s : State) : (execPre c ck s).Keeps (lockBits s.regs) := by
  unfold execPre
  repeat' split
  all_goals simp

@[simp] theorem execPrea_keeps (c : Chan) (ck : Nat) (s : State) : (execPrea c ck s).Keeps (lockBits s.regs) := by
  unfold execPrea
  split <;> simp

@[simp] theorem State.takeHeld_regs (s : State) (c : Chan) (e : ReadEnt) : (s.takeHeld c e).regs = s.regs := by
  simp [State.takeHeld]

@[simp] theorem State.clientRd_regs (s : State) (c : Chan) (l : Cmd) (seq pos ck : Nat) :
    (s.clientRd c l seq pos ck).regs = s.regs := by
  unfold State.clientRd
  split <;> simp

@[simp] theorem execRd_keeps (c : Chan) (ck : Nat) (s : State) : (execRd c ck s).Keeps (lockBits s.regs) := by
  unfold execRd
  repeat' split
  all_goals simp

@[simp] theorem State.reached_regs (s : State) (c : Chan) (w : WriteEnt) : (s.reached c w).regs = s.regs := by
  simp [State.reached]

@[simp] theorem State.clientWrite_lockBits (s : State) (c : Chan) (l : Cmd) (seq pos ck : Nat) :
    lockBits (s.clientWrite c l seq pos ck).regs = lockBits s.regs := by
  unfold State.clientWrite
  split <;> simp

@[simp] theorem execWr_keeps (c : Chan) (ck : Nat) (s : State) : (execWr c ck s).Keeps (lockBits s.regs) := by
  unfold execWr
  repeat' split
  all_goals simp

@[simp] theorem execRefpb_keeps (c : Chan) (ck : Nat) (s : State) : (execRefpb c ck s).Keeps (lockBits s.regs) := by
  unfold execRefpb
  split <;> simp

@[simp] theorem execRefab_keeps (c : Chan) (ck : Nat) (s : State) : (execRefab c ck s).Keeps (lockBits s.regs) := by
  unfold execRefab
  split <;> simp

@[simp] theorem execRfm_keeps (c : Chan) (ck : Nat) (s : State) : (execRfm c ck s).Keeps (lockBits s.regs) := by
  unfold execRfm
  split <;> simp

@[simp] theorem execMrw_keeps (c : Chan) (ck : Nat) (s : State) : (execMrw c ck s).Keeps (lockBits s.regs) := by
  unfold execMrw
  split <;> simp

@[simp] theorem execMrr_keeps (c : Chan) (ck : Nat) (s : State) : (execMrr c ck s).Keeps (lockBits s.regs) := by
  unfold execMrr
  repeat' split
  all_goals simp

@[simp] theorem State.insert7_regs (s : State) (c : Chan) (l : Cmd) : (s.insert7 c l).regs = s.regs := by
  simp [State.insert7]

@[simp] theorem State.oscNext_regs (s : State) (c : Chan) (m : SmithId) (l : Cmd) (ck : Nat) :
    (s.oscNext c m l ck).regs = s.regs := by
  unfold State.oscNext
  repeat' split
  all_goals simp

@[simp] theorem execMpc_keeps (c : Chan) (ck : Nat) (s : State) : (execMpc c ck s).Keeps (lockBits s.regs) := by
  unfold execMpc
  repeat' split
  all_goals simp

@[simp] theorem State.dropSegments_regs (s : State) (c : Chan) (rank : Nat) : (s.dropSegments c rank).regs = s.regs := by
  simp -implicitDefEqProofs [State.dropSegments]

@[simp] theorem execSre_keeps (c : Chan) (ck : Nat) (s : State) : (execSre c ck s).Keeps (lockBits s.regs) := by
  unfold execSre
  split <;> simp

@[simp] theorem execSrx_keeps (c : Chan) (ck : Nat) (now : Nat) (s : State) : (execSrx c ck now s).Keeps (lockBits s.regs) := by
  unfold execSrx
  split <;> simp

@[simp] theorem execPde_keeps (c : Chan) (ck : Nat) (s : State) : (execPde c ck s).Keeps (lockBits s.regs) := by
  unfold execPde
  split <;> simp

@[simp] theorem execPdx_keeps (c : Chan) (ck : Nat) (s : State) : (execPdx c ck s).Keeps (lockBits s.regs) := by
  unfold execPdx
  split <;> simp

@[simp] theorem State.rdmrDone_lockBits (s : State) (m : SmithId) (c : Chan) :
    lockBits (s.rdmrDone m c).regs = lockBits s.regs := by
  unfold State.rdmrDone
  split <;> simp

@[simp] theorem execMrrResult_keeps (c : Chan) (lower upper : Byte) (s : State) :
    (execMrrResult c lower upper s).Keeps (lockBits s.regs) := by
  unfold execMrrResult
  repeat' split
  all_goals simp

/-! ### Read data that crosses back into the core: READ_DATA_RETURN (09 R294 to R313) -/

@[simp] theorem State.holdRead_regs (s : State) (c : Chan) (b : Burst) (q : Place) (pos : Nat) (was got : Sector) :
    (s.holdRead c b q pos was got).regs = s.regs := by
  simp [State.holdRead]

@[simp] theorem State.noteSeal_regs (s : State) (c : Chan) (b : Burst) (q : Place) (pos : Nat) (got : Sector) :
    (s.noteSeal c b q pos got).regs = s.regs := by
  simp [State.noteSeal]

@[simp] theorem State.takeBurst_lockBits (s : State) (c : Chan) (b : Burst) (err : Sector) :
    lockBits (s.takeBurst c b err).regs = lockBits s.regs := by
  dsimp only [State.takeBurst]
  repeat' split
  all_goals simp -implicitDefEqProofs

@[simp] theorem execReadDataReturn_keeps (c : Chan) (err : Sector) (now : Nat) (s : State) :
    (execReadDataReturn c err now s).Keeps (lockBits s.regs) := by
  refine (keeps_next _ _).mpr (timed_lockBits ?_)
  split <;> simp

/-! ### The Gleaner, the patrol and the checker self-test (09 R319 to R329) -/

@[simp] theorem State.beginVisit_regs (s : State) (c : Chan) (ri : Nat) (again : List Nat) (mended last : Bool) :
    (s.beginVisit c ri again mended last).regs = s.regs := by
  simp [State.beginVisit]

@[simp] theorem State.endLap_lockBits (s : State) (c : Chan) : lockBits (s.endLap c).regs = lockBits s.regs := by
  simp [State.endLap]

@[simp] theorem State.glnFill_lockBits (s : State) (c : Chan) (plot : Nat) :
    lockBits (s.glnFill c plot).regs = lockBits s.regs := by
  unfold State.glnFill
  extract_lets u
  have hu : lockBits u.regs = lockBits s.regs := by simp [u]
  split
  · rw [State.startFill_regs, hu]
  · exact hu

@[simp] theorem execGleanerVisit_keeps (c : Chan) (now : Nat) (s : State) :
    (execGleanerVisit c now s).Keeps (lockBits s.regs) := by
  refine (keeps_next _ _).mpr (timed_lockBits ?_)
  split <;> simp

@[simp] theorem State.visitDone_lockBits (s : State) (c : Chan) (x : Visit) :
    lockBits (s.visitDone c x).regs = lockBits s.regs := by
  simp [State.visitDone]

@[simp] theorem execGleanerVisitEnd_keeps (c : Chan) (now : Nat) (s : State) :
    (execGleanerVisitEnd c now s).Keeps (lockBits s.regs) := by
  refine (keeps_next _ _).mpr (timed_lockBits ?_)
  split <;> simp

@[simp] theorem execGleanerTransitionEnd_keeps (c : Chan) (s : State) :
    (execGleanerTransitionEnd c s).Keeps (lockBits s.regs) := by
  dsimp only [execGleanerTransitionEnd]
  split <;> simp

@[simp] theorem execLapOverdue_keeps (c : Chan) (now : Nat) (s : State) : (execLapOverdue c now s).Keeps (lockBits s.regs) := by
  simp [execLapOverdue]

@[simp] theorem State.patrolNext_lockBits (s : State) (c : Chan) : lockBits (s.patrolNext c).regs = lockBits s.regs := by
  simp [State.patrolNext]

@[simp] theorem State.patrolStep_lockBits (s : State) (c : Chan) : lockBits (s.patrolStep c).regs = lockBits s.regs := by
  simp [State.patrolStep]

@[simp] theorem execPatrolAdvance_keeps (c : Chan) (now : Nat) (s : State) :
    (execPatrolAdvance c now s).Keeps (lockBits s.regs) := by
  simp [execPatrolAdvance]

@[simp] theorem State.startSelfTest_lockBits (s : State) (c : Chan) : lockBits (s.startSelfTest c).regs = lockBits s.regs := by
  simp [State.startSelfTest]

@[simp] theorem State.anvilRequest_regs (s : State) (c : Chan) : (s.anvilRequest c).regs = s.regs := by
  simp [State.anvilRequest]

@[simp] theorem execSelfTestEnd_keeps (c : Chan) (failing : Option (Fin 96)) (s : State) :
    (execSelfTestEnd c failing s).Keeps (lockBits s.regs) := by
  unfold execSelfTestEnd
  split <;> simp

/-! ### Hedge: violations and the security alarm, QUENCH, the key port, region transitions and buffer releases (14 R474 to R487,
13 R444) -/

@[simp] theorem State.denyReq_regs (s : State) (p : PortId) (r : Req) : (s.denyReq p r).regs = s.regs := by
  simp [State.denyReq]

@[simp] theorem State.denyPort_regs (s : State) (p : PortId) : (s.denyPort p).regs = s.regs := by
  simp [State.denyPort]

@[simp] theorem State.quenchAnvil_regs (s : State) (c : Chan) : (s.quenchAnvil c).regs = s.regs := by
  simp [State.quenchAnvil]

@[simp] theorem State.endByAlarm_lockBits (s : State) : lockBits s.endByAlarm.regs = lockBits s.regs := by
  simp [State.endByAlarm]

@[simp] theorem State.endAssay_lockBits (s : State) : lockBits s.endAssay.regs = lockBits s.regs := by
  simp [State.endAssay]

@[simp] theorem State.enterQuench_lockBits (s : State) (hl : LockSet (lockBits s.regs)) :
    lockBits s.enterQuench.regs = lockBits s.regs := by
  simp [State.enterQuench, hl]

@[simp] theorem State.regionStopping_regs (s : State) (r : RegionId) (staged : Bool) :
    (s.regionStopping r staged).regs = s.regs := by
  simp -implicitDefEqProofs [State.regionStopping]

@[simp] theorem State.regionRequest_regs (s : State) (r : RegionId) (want : Bool) : (s.regionRequest r want).regs = s.regs := by
  simp [State.regionRequest]

@[simp] theorem State.alarmRegion_regs (s : State) (r : RegionId) : (s.alarmRegion r).regs = s.regs := by
  simp [State.alarmRegion]

@[simp] theorem State.raiseAlarm_lockBits (s : State) (type : Nat) (hl : LockSet (lockBits s.regs)) :
    lockBits (s.raiseAlarm type).regs = lockBits s.regs := by
  simp [State.raiseAlarm, hl]

@[simp] theorem State.violMsg_regs (s : State) (a : Bool) (addr detail : Nat) : (s.violMsg a addr detail).regs = s.regs := by
  simp [State.violMsg]

@[simp] theorem State.violation_lockBits (s : State) (type addr detail : Nat) (hl : LockSet (lockBits s.regs)) :
    lockBits (s.violation type addr detail).regs = lockBits s.regs := by
  simp [State.violation, hl]

@[simp] theorem State.loadKey_lockBits (s : State) (second : Bool) (r : RegionId) (k : BitVec 256)
    (hl : LockSet (lockBits s.regs)) : lockBits (s.loadKey second r k).regs = lockBits s.regs := by
  simp [State.loadKey, hl]

@[simp] theorem State.eraseKeys_regs (s : State) (r : RegionId) : (s.eraseKeys r).regs = s.regs := by
  simp [State.eraseKeys]

@[simp] theorem State.keyOp_lockBits (s : State) (op : BitVec 2) (beats : List KeyBeat)
    (hl : LockSet (lockBits s.regs)) : lockBits (s.keyOp op beats).regs = lockBits s.regs := by
  unfold State.keyOp
  split <;> simp [hl]

@[simp] theorem execLoadK1_keeps (beats : List KeyBeat) (s : State) (hl : LockSet (lockBits s.regs)) :
    (execLoadK1 beats s).Keeps (lockBits s.regs) := by
  simp [execLoadK1, hl]

@[simp] theorem execLoadK2_keeps (beats : List KeyBeat) (s : State) (hl : LockSet (lockBits s.regs)) :
    (execLoadK2 beats s).Keeps (lockBits s.regs) := by
  simp [execLoadK2, hl]

@[simp] theorem execErase_keeps (beats : List KeyBeat) (s : State) (hl : LockSet (lockBits s.regs)) :
    (execErase beats s).Keeps (lockBits s.regs) := by
  simp [execErase, hl]

@[simp] theorem State.keyctl_regs (s : State) (w : Word) : (s.keyctl w).regs = s.regs := by
  simp [State.keyctl]

@[simp] theorem execRegionStartingEnd_keeps (r : RegionId) (s : State) :
    (execRegionStartingEnd r s).Keeps (lockBits s.regs) := by
  simp [execRegionStartingEnd]

@[simp] theorem execRegionStoppingEnd_keeps (r : RegionId) (s : State) :
    (execRegionStoppingEnd r s).Keeps (lockBits s.regs) := by
  simp [execRegionStoppingEnd]

@[simp] theorem State.feedLines_regs (s : State) (c : Chan) (save : Bool) (l : List (Nat × WSec)) :
    (s.feedLines c save l).regs = s.regs := by
  simp -implicitDefEqProofs [State.feedLines]

@[simp] theorem State.zeroWrites_regs (s : State) (c : Chan) (p : Nat) (ns : List Nat) :
    (s.zeroWrites c p ns).regs = s.regs := by
  rw [State.zeroWrites, State.feedLines_regs]

/-- What an honoured release does to one plot of an anvil (14 R484 steps 2 and 3). -/
def plotReleased (c : Chan) (r : Release) (s : State) (p : Nat) : State :=
  if s.whollyIn c r p then s.onAnvil c (fun v => v.markPlot p false) else s.zeroWrites c p (s.releasedIn c r p)

theorem State.releaseIn_eq (s : State) (c : Chan) (r : Release) :
    s.releaseIn c r = (s.releasedPlots c r).foldl (plotReleased c r) s := rfl

theorem plotReleased_regs (c : Chan) (r : Release) (s : State) (p : Nat) : (plotReleased c r s p).regs = s.regs := by
  unfold plotReleased
  split
  · rfl
  · exact State.zeroWrites_regs ..

@[simp] theorem State.releaseIn_regs (s : State) (c : Chan) (r : Release) : (s.releaseIn c r).regs = s.regs := by
  rw [State.releaseIn_eq]
  exact foldl_regs (plotReleased_regs c r) _ _

@[simp] theorem State.popRelease_regs (s : State) : s.popRelease.regs = s.regs := by
  simp [State.popRelease]

@[simp] theorem State.judgeReleases_lockBits (s : State) (fuel : Nat) :
    lockBits (s.judgeReleases fuel).regs = lockBits s.regs := by
  induction fuel generalizing s with
  | zero => rfl
  | succ fuel ih =>
    unfold State.judgeReleases
    repeat' split
    all_goals simp [ih]

@[simp] theorem execBufferRelease_keeps (base : BitVec 35) (size : BitVec 30) (claim owner : PortId) (s : State) :
    (execBufferRelease base size claim owner s).Keeps (lockBits s.regs) := by
  simp [execBufferRelease]

theorem foldl_releaseIn_regs (u : State) (r : Release) (l : List Chan) :
    (l.foldl (fun s c => State.releaseIn s c r) u).regs = u.regs := by
  induction l generalizing u with
  | nil => rfl
  | cons c l ih => rw [List.foldl_cons, ih, State.releaseIn_regs]

@[simp] theorem execReleaseHonour_keeps (now : Nat) (s : State) : (execReleaseHonour now s).Keeps (lockBits s.regs) := by
  refine (keeps_next _ _).mpr (timed_lockBits ?_)
  split
  · rfl
  · extract_lets a b
    have ha : a.regs = s.regs := foldl_releaseIn_regs _ _ _
    have hb : b.regs = s.regs := by rw [State.popRelease_regs, State.queueRange_regs, ha]
    rw [State.judgeReleases_lockBits, State.count_regs, hb, lockBits_set _ _ lockMask_aRELSTAT]

end Sys2Proof.Machine
end

section
/-! SUPPORT. The mapping lock: the Loft, and the programs of the reference Anvil Smith image. -/

namespace Sys2Proof.Machine

/-! ### The steps of a Loft slice (10 R337 to R373) and Hedge's verdict at its input (14 R469) -/

@[simp] theorem State.popHead_regs (s : State) (c : Chan) : (s.popHead c).regs = s.regs := by
  simp [State.popHead]

@[simp] theorem State.reply_regs (s : State) (c : Chan) (tag : Nat) : (s.reply c tag).regs = s.regs := by
  unfold State.reply
  split <;> simp

@[simp] theorem State.replyStatus_regs (s : State) (c : Chan) (tag : Nat) (st : Status) :
    (s.replyStatus c tag st).regs = s.regs := by
  simp [State.replyStatus]

@[simp] theorem State.finishRead_regs (s : State) (c : Chan) (tag : Nat) : (s.finishRead c tag).regs = s.regs := by
  unfold State.finishRead
  split <;> simp

@[simp] theorem State.refusePiece_lockBits (s : State) (c : Chan) (x : Piece) (st : Status) (v : Option Nat)
    (hl : LockSet (lockBits s.regs)) : lockBits (s.refusePiece c x st v).regs = lockBits s.regs := by
  unfold State.refusePiece
  split <;> simp [hl]

@[simp] theorem State.lookupErr_lockBits (s : State) (c : Chan) (line : Nat) (err : StoreErr) :
    lockBits (s.lookupErr c line err).regs = lockBits s.regs := by
  dsimp only [State.lookupErr]
  split <;> simp

@[simp] theorem State.usedPrefetch_lockBits (s : State) (c : Chan) (x : Line) (read : Bool) :
    lockBits (s.usedPrefetch c x read).regs = lockBits s.regs := by
  simp [State.usedPrefetch]

@[simp] theorem State.install_regs (s : State) (c : Chan) (x : Line) (pin : Bool) (place : Option Nat) :
    (s.install c x pin place).regs = s.regs := by
  unfold State.install
  split <;> simp

@[simp] theorem State.lookup_lockBits (s : State) (c : Chan) (line : Nat) (pin read : Bool) :
    lockBits (s.lookup c line pin read).2.regs = lockBits s.regs := by
  dsimp only [State.lookup]
  repeat' split
  all_goals simp -implicitDefEqProofs

@[simp] theorem State.raiseMiss_regs (s : State) (c : Chan) (id heat : Nat) : (s.raiseMiss c id heat).regs = s.regs := by
  simp [State.raiseMiss]

@[simp] theorem State.openMiss_regs (s : State) (c : Chan) (line : Nat) (opener : Opener) (ws : List Waiter) (heat : Nat)
    (pin : Bool) (port : Option Nat) (gone : Bool ) : (s.openMiss c line opener ws heat pin port gone).regs = s.regs := by
  simp [State.openMiss]

@[simp] theorem State.missLine_regs (s : State) (c : Chan) (x : Piece) (line : Nat) (halves : List Bool) (hint : Bool) :
    (s.missLine c x line halves hint).state.regs = s.regs := by
  dsimp only [State.missLine]
  split <;> simp

@[simp] theorem State.sendPrefetch_regs (s : State) (quota : List (Nat × Nat)) (port : Nat) (pin : Bool) (y : Int) :
    (s.sendPrefetch quota port pin y).1.regs = s.regs := by
  dsimp only [State.sendPrefetch]
  split <;> simp

@[simp] theorem State.train_regs (s : State) (port label lines addr : Nat) (pin : Bool) :
    (s.train port label lines addr pin).regs = s.regs := by
  dsimp only [State.train]
  split
  · rfl
  · rename_i t _
    refine List.foldlRecOn (motive := fun acc : State × List (Nat × Nat) => acc.1.regs = s.regs) _ _ rfl
      (fun acc hacc i _ => ?_)
    rw [State.sendPrefetch_regs, hacc]

@[simp] theorem State.trainPiece_regs (s : State) (x : Piece) : (s.trainPiece x).regs = s.regs := by
  unfold State.trainPiece
  repeat' split
  all_goals simp

@[simp] theorem State.judge_lockBits (s : State) (c : Chan) (x : Piece) (hl : LockSet (lockBits s.regs)) :
    lockBits (s.judge c x).1.regs = lockBits s.regs := by
  unfold State.judge
  repeat' split
  all_goals simp [hl]

@[simp] theorem State.giveResults_regs (s : State) (tag : Nat) (rs : List (Nat × SecRes)) :
    (s.giveResults tag rs).regs = s.regs := by
  simp [State.giveResults]

@[simp] theorem State.readLine_lockBits (s : State) (c : Chan) (x : Piece) (err : StoreErr) :
    lockBits (s.readLine c x err).state.regs = lockBits s.regs := by
  dsimp only [State.readLine]
  have hlook := (s.lookupErr c (s.nextLine x) err).lookup_lockBits c (s.nextLine x) x.pin true
  rw [State.lookupErr_lockBits] at hlook
  split
  case h_1 h => rw [h] at hlook; simpa using hlook
  case h_2 h => rw [h] at hlook; simpa using hlook

theorem State.takeLines_lockBits (c : Chan) (tag : Nat) {step : State → Piece → Took}
    (hstep : ∀ u x, lockBits (step u x).state.regs = lockBits u.regs) (fuel : Nat) (s : State) :
    lockBits (s.takeLines c tag step fuel).regs = lockBits s.regs := by
  induction fuel generalizing s with
  | zero => rfl
  | succ fuel ih =>
    unfold State.takeLines
    split
    · rfl
    · rename_i x _
      split
      · rfl
      · have hx := hstep s x
        split
        case h_1 h => rw [h] at hx; exact hx
        case h_2 h => rw [h] at hx; rw [ih]; exact hx

@[simp] theorem readStep_lockBits (c : Chan) (first : Nat) (errs : List StoreErr) (s : State) (x : Piece) :
    lockBits (readStep c first errs s x).state.regs = lockBits s.regs := by
  simp [readStep]

@[simp] theorem execLoftRead_keeps (c : Chan) (errs : List StoreErr) (now : Nat) (s : State)
    (hl : LockSet (lockBits s.regs)) : (execLoftRead c errs now s).Keeps (lockBits s.regs) := by
  refine (keeps_next _ _).mpr (timed_lockBits ?_)
  split
  · rfl
  · rename_i x _
    extract_lets j u
    have hj : lockBits j.1.regs = lockBits s.regs := (s.at now).judge_lockBits c x hl
    split
    · exact hj
    · have hu : lockBits u.regs = lockBits s.regs :=
        (State.takeLines_lockBits c x.tag (fun v y => readStep_lockBits c x.next errs v y) 64 j.1).trans hj
      split <;> simp [hu]

@[simp] theorem State.joinGroup_regs (s : State) (c : Chan) (g : Nat) (e : Nat × List Bool) :
    (s.joinGroup c g e).regs = s.regs := by
  unfold State.joinGroup
  split <;> simp

@[simp] theorem State.assemble_regs (s : State) (c : Chan) (la : Nat) : (s.assemble c la).regs = s.regs := by
  dsimp only [State.assemble]
  repeat' split
  all_goals simp -implicitDefEqProofs

@[simp] theorem State.assembleLine_regs (s : State) (c : Chan) (line : Nat) : (s.assembleLine c line).regs = s.regs := by
  unfold State.assembleLine
  split <;> simp

@[simp] theorem State.touchHit_regs (s : State) (c : Chan) (line : Nat) : (s.touchHit c line).regs = s.regs := by
  unfold State.touchHit
  split <;> simp

@[simp] theorem State.mergeBeat_regs (s : State) (c : Chan) (x : Piece) (line : Nat) (half : Bool) (b : Beat) :
    (s.mergeBeat c x line half b).regs = s.regs := by
  simp [State.mergeBeat]

@[simp] theorem State.mergeBeats_lockBits (s : State) (c : Chan) (x : Piece) (line : Nat) (err : StoreErr)
    (beats : List (Bool × Beat)) : lockBits (s.mergeBeats c x line err beats).regs = lockBits s.regs := by
  simp [State.mergeBeats]

@[simp] theorem State.openErr_lockBits (s : State) (c : Chan) (line : Nat) (err : StoreErr) :
    lockBits (s.openErr c line err).regs = lockBits s.regs := by
  unfold State.openErr
  split <;> simp

@[simp] theorem writeStep_lockBits (c : Chan) (first : Nat) (errs : List (StoreErr × StoreErr)) (s : State) (x : Piece) :
    lockBits (writeStep c first errs s x).state.regs = lockBits s.regs := by
  simp [writeStep]

@[simp] theorem execLoftWrite_keeps (c : Chan) (met : Nat × List (StoreErr × StoreErr)) (s : State)
    (hl : LockSet (lockBits s.regs)) : (execLoftWrite c met s).Keeps (lockBits s.regs) := by
  refine (keeps_next _ _).mpr (timed_lockBits ?_)
  split
  · rfl
  · rename_i x _
    extract_lets j u v
    have hj : lockBits j.1.regs = lockBits s.regs := (s.at met.1).judge_lockBits c x hl
    split
    · exact hj
    · have hu : lockBits u.regs = lockBits s.regs :=
        (State.takeLines_lockBits c x.tag (fun v y => writeStep_lockBits c x.next met.2 v y) 64 j.1).trans hj
      have hv : lockBits v.regs = lockBits s.regs := by
        unfold v
        split <;> simp [hu]
      split
      · simp [hv]
      · split <;> simp [hv]

@[simp] theorem hintStep_lockBits (c : Chan) (first : Nat) (errs : List StoreErr) (s : State) (x : Piece) :
    lockBits (hintStep c first errs s x).state.regs = lockBits s.regs := by
  dsimp only [hintStep]
  have hlook := (s.lookupErr c (s.nextLine x) (s.errAt x first errs .none)).lookup_lockBits c (s.nextLine x) x.pin false
  rw [State.lookupErr_lockBits] at hlook
  split
  case h_1 h => rw [h] at hlook; exact hlook
  case h_2 h => rw [h] at hlook; simpa using hlook

@[simp] theorem execLoftHint_keeps (c : Chan) (met : Nat × List StoreErr) (s : State) (hl : LockSet (lockBits s.regs)) :
    (execLoftHint c met s).Keeps (lockBits s.regs) := by
  refine (keeps_next _ _).mpr (timed_lockBits ?_)
  split
  · rfl
  · rename_i x _
    extract_lets j u
    have hj : lockBits j.1.regs = lockBits s.regs := (s.at met.1).judge_lockBits c x hl
    split
    · exact hj
    · have hu : lockBits u.regs = lockBits s.regs :=
        (State.takeLines_lockBits c x.tag (fun v y => hintStep_lockBits c x.next met.2 v y) 64 j.1).trans hj
      split
      · simp [hj]
      · split
        · simp [hu]
        · split <;> simp [hu]

@[simp] theorem execLoftPrefetch_keeps (read : Chan × StoreErr) (s : State) :
    (execLoftPrefetch read s).Keeps (lockBits s.regs) := by
  dsimp only [execLoftPrefetch]
  split <;> simp

@[simp] theorem State.answerWaiter_regs (s : State) (c : Chan) (m : Miss) (r : SecRes × SecRes) (w : Waiter) :
    (s.answerWaiter c m r w).regs = s.regs := by
  unfold State.answerWaiter
  split <;> simp

@[simp] theorem State.countPrefetch_lockBits (s : State) (c : Chan) (m : Miss) :
    lockBits (s.countPrefetch c m).regs = lockBits s.regs := by
  simp [State.countPrefetch]

@[simp] theorem State.fillErr_lockBits (s : State) (c : Chan) (m : Miss) (err : StoreErr) :
    lockBits (s.fillErr c m err).regs = lockBits s.regs := by
  dsimp only [State.fillErr]
  repeat' split
  all_goals simp -implicitDefEqProofs

@[simp] theorem State.fillLine_lockBits (s : State) (c : Chan) (m : Miss) (f : Fill) (r : SecRes × SecRes)
    (err : StoreErr) : lockBits (s.fillLine c m f r err).regs = lockBits s.regs := by
  simp [State.fillLine]

@[simp] theorem execLoftFill_keeps (read : Chan × StoreErr) (s : State) : (execLoftFill read s).Keeps (lockBits s.regs) := by
  dsimp only [execLoftFill]
  repeat' split
  all_goals simp -implicitDefEqProofs

@[simp] theorem execLineDrop_keeps (c : Chan) (s : State) : (execLineDrop c s).Keeps (lockBits s.regs) := by
  simp [execLineDrop]

@[simp] theorem execMergeTimer_keeps (c : Chan) (entry now : Nat) (s : State) :
    (execMergeTimer c entry now s).Keeps (lockBits s.regs) := by
  refine (keeps_next _ _).mpr (timed_lockBits ?_)
  split <;> simp

@[simp] theorem execBlockingModeEnd_keeps (c : Chan) (now : Nat) (s : State) :
    (execBlockingModeEnd c now s).Keeps (lockBits s.regs) := by
  simp -implicitDefEqProofs [execBlockingModeEnd]

@[simp] theorem State.markErased_regs (s : State) (c : Chan) (r : Range) : (s.markErased c r).regs = s.regs := by
  simp -implicitDefEqProofs [State.markErased]

@[simp] theorem execSweepStart_keeps (c : Chan) (s : State) : (execSweepStart c s).Keeps (lockBits s.regs) := by
  unfold execSweepStart
  split <;> simp

@[simp] theorem execSweepEnd_keeps (c : Chan) (s : State) : (execSweepEnd c s).Keeps (lockBits s.regs) := by
  unfold execSweepEnd
  split <;> simp

@[simp] theorem State.invalidateAll_regs (s : State) : s.invalidateAll.regs = s.regs := by
  simp [State.invalidateAll]

@[simp] theorem State.clearFn_regs (s : State) (k : Fin 6) : (s.clearFn k).regs = s.regs := by
  simp [State.clearFn]

@[simp] theorem execLoftFunctionStarted_keeps (f : LoftFn) (s : State) :
    (execLoftFunctionStarted f s).Keeps (lockBits s.regs) := by
  simp [execLoftFunctionStarted]

@[simp] theorem execLoftFunctionStopped_keeps (f : LoftFn) (s : State) :
    (execLoftFunctionStopped f s).Keeps (lockBits s.regs) := by
  simp [execLoftFunctionStopped]

/-! ### The programs of the reference Anvil Smith image: training, the short retraining of bank-out, drift retraining and MARGIN
(07 R255 to R262, 08 R271, R273, R278) -/

@[simp] theorem State.setJob_regs (s : State) (c : Chan) (j : Option Job) : (s.setJob c j).regs = s.regs := by
  simp [State.setJob]

@[simp] theorem State.onJob_regs (s : State) (c : Chan) (f : Job → Job) : (s.onJob c f).regs = s.regs := by
  simp [State.onJob]

@[simp] theorem State.jobIdle_lockBits (s : State) (c : Chan) : lockBits (s.jobIdle c).regs = lockBits s.regs := by
  simp [State.jobIdle]

@[simp] theorem State.report_regs (s : State) (c : Chan) (r : Report) : (s.report c r).regs = s.regs := by
  simp [State.report]

@[simp] theorem State.order_regs (s : State) (c : Chan) (o : Order) : (s.order c o).regs = s.regs := by
  simp [State.order]

@[simp] theorem State.progMrw_regs (s : State) (c : Chan) (rank ma op : Nat) : (s.progMrw c rank ma op).regs = s.regs := by
  simp [State.progMrw]

@[simp] theorem State.setCodes_regs (s : State) (c : Chan) (l : List (Nat × BitVec 10)) : (s.setCodes c l).regs = s.regs := by
  simp [State.setCodes]

@[simp] theorem State.setStep_lockBits (s : State) (c : Chan) (step : Nat) :
    lockBits (s.setStep c step).regs = lockBits s.regs := by
  simp [State.setStep]

@[simp] theorem State.trainFault_regs (s : State) (c : Chan) (step rank cls : Nat) :
    (s.trainFault c step rank cls).regs = s.regs := by
  simp [State.trainFault]

@[simp] theorem State.sleepAnvil_regs (s : State) (c : Chan) : (s.sleepAnvil c).regs = s.regs := by
  simp [State.sleepAnvil]

@[simp] theorem State.jobEnd_lockBits (s : State) (c : Chan) (j : Job) : lockBits (s.jobEnd c j).regs = lockBits s.regs := by
  unfold State.jobEnd
  split <;> simp

@[simp] theorem State.jobFail_lockBits (s : State) (c : Chan) (j : Job) (step rank cls : Nat) :
    lockBits (s.jobFail c j step rank cls).regs = lockBits s.regs := by
  unfold State.jobFail
  split <;> simp

@[simp] theorem State.progField_regs (s : State) (c : Chan) (rank ma hi lo x : Nat) :
    (s.progField c rank ma hi lo x).regs = s.regs := by
  simp [State.progField]

@[simp] theorem State.progFsp_regs (s : State) (c : Chan) (rank n : Nat) : (s.progFsp c rank n).regs = s.regs := by
  simp [State.progFsp]

@[simp] theorem State.setDbi_regs (s : State) (c : Chan) (on : Bool) : (s.setDbi c on).regs = s.regs := by
  simp [State.setDbi]

@[simp] theorem State.jobSample_regs (s : State) (c : Chan) (rank pattern cls dir : Nat) :
    (s.jobSample c rank pattern cls dir).regs = s.regs := by
  simp [State.jobSample]

@[simp] theorem State.sweepSample_regs (s : State) (c : Chan) (rank pattern cls dir code : Nat) :
    (s.sweepSample c rank pattern cls dir code).regs = s.regs := by
  simp [State.sweepSample]

@[simp] theorem State.jobPause_regs (s : State) (c : Chan) : (s.jobPause c).regs = s.regs := by
  simp [State.jobPause]

@[simp] theorem State.jobRelease_regs (s : State) (c : Chan) : (s.jobRelease c).regs = s.regs := by
  simp [State.jobRelease]

@[simp] theorem State.sweepTry_regs (s : State) (c : Chan) (step rank cls dir code : Nat) :
    (s.sweepTry c step rank cls dir code).regs = s.regs := by
  simp [State.sweepTry]

@[simp] theorem State.jobOsc_regs (s : State) (c : Chan) (rank : Nat) (dqo : Bool) : (s.jobOsc c rank dqo).regs = s.regs := by
  simp [State.jobOsc]

@[simp] theorem State.setDrift_lockBits (s : State) (c : Chan) (j : Job) :
    lockBits (s.setDrift c j).regs = lockBits s.regs := by
  simp [State.setDrift]

@[simp] theorem State.takeBaseline_regs (s : State) (c : Chan) (l : List (CountKey × Nat)) :
    (s.takeBaseline c l).regs = s.regs := by
  simp [State.takeBaseline]

@[simp] theorem State.moveDone_regs (s : State) (c : Chan) (j : Job) (rank : Nat) : (s.moveDone c j rank).regs = s.regs := by
  simp [State.moveDone]

@[simp] theorem State.trainStart_lockBits (s : State) (c : Chan) (n : Nat) :
    lockBits (s.trainStart c n).regs = lockBits s.regs := by
  simp [State.trainStart]

@[simp] theorem State.jobRun_lockBits (s : State) (c : Chan) (l : List JobStep) :
    lockBits (s.jobRun c l).regs = lockBits s.regs := by
  induction l generalizing s with
  | nil =>
    unfold State.jobRun
    split
    · simp
    · rfl
  | cons x l ih =>
    dsimp only [State.jobRun]
    split <;> (try split) <;> simp [ih]

@[simp] theorem State.jobNext_lockBits (s : State) (c : Chan) : lockBits (s.jobNext c).regs = lockBits s.regs := by
  unfold State.jobNext
  split <;> simp

@[simp] theorem State.jobBegin_lockBits (s : State) (c : Chan) (j : Job) :
    lockBits (s.jobBegin c j).regs = lockBits s.regs := by
  simp [State.jobBegin]

@[simp] theorem State.setCk_regs (s : State) (c : Chan) (step cls : Nat) : (s.setCk c step cls).regs = s.regs := by
  simp [State.setCk]

end Sys2Proof.Machine
end

section
/-! SUPPORT. The mapping lock: set points and pauses, the slot tables, the save path and the modes. -/

namespace Sys2Proof.Machine

/-! ### The programs of the reference Anvil Smith image: training, the short retraining of bank-out, drift retraining and MARGIN
(07 R255 to R262, 08 R271, R273, R278) -/

@[simp] theorem State.windowDone_lockBits (s : State) (c : Chan) (j : Job) (step rank cls dir : Nat) :
    lockBits (s.windowDone c j step rank cls dir).regs = lockBits s.regs := by
  simp [State.windowDone]

@[simp] theorem State.levelDone_lockBits (s : State) (c : Chan) (j : Job) (rank : Nat) :
    lockBits (s.levelDone c j rank).regs = lockBits s.regs := by
  unfold State.levelDone
  split <;> simp

@[simp] theorem State.checkFail_lockBits (s : State) (c : Chan) (j : Job) (rank cls : Nat) :
    lockBits (s.checkFail c j rank cls).regs = lockBits s.regs := by
  unfold State.checkFail
  split <;> simp

@[simp] theorem State.sweepNext_lockBits (s : State) (c : Chan) (j : Job) (map : Word) (step rank cls dir : Nat)
    {done : State → Job → State} (hdone : ∀ u k, lockBits (done u k).regs = lockBits u.regs) :
    lockBits (s.sweepNext c j map step rank cls dir done).regs = lockBits s.regs := by
  dsimp only [State.sweepNext]
  split
  · simp
  · split <;> simp [hdone]

@[simp] theorem State.jobEye_lockBits (s : State) (c : Chan) (map : Word) :
    lockBits (s.jobEye c map).regs = lockBits s.regs := by
  dsimp only [State.jobEye]
  repeat' split
  all_goals simp -implicitDefEqProofs

@[simp] theorem State.jobCount_lockBits (s : State) (c : Chan) (w : Word) :
    lockBits (s.jobCount c w).regs = lockBits s.regs := by
  dsimp only [State.jobCount]
  repeat' split
  all_goals simp -implicitDefEqProofs

@[simp] theorem State.jobGranted_lockBits (s : State) (c : Chan) : lockBits (s.jobGranted c).regs = lockBits s.regs := by
  dsimp only [State.jobGranted]
  repeat' split
  all_goals simp -implicitDefEqProofs

@[simp] theorem State.jobLook_lockBits (s : State) (c : Chan) : lockBits (s.jobLook c).regs = lockBits s.regs := by
  unfold State.jobLook
  split <;> simp

/-! ### Set points and the PLL, retraining, ZQ calibration, and the grant and end of a pause (07 R242 to R268, 02 R76 to R80) -/

@[simp] theorem State.startLock_lockBits (s : State) (c : Chan) : lockBits (s.startLock c).regs = lockBits s.regs := by
  simp [State.startLock]

@[simp] theorem State.newRate_lockBits (s : State) (c : Chan) : lockBits (s.newRate c).regs = lockBits s.regs := by
  simp -implicitDefEqProofs [State.newRate]

@[simp] theorem State.rateIgnored_lockBits (s : State) (c : Chan) : lockBits (s.rateIgnored c).regs = lockBits s.regs := by
  simp [State.rateIgnored]

@[simp] theorem State.fspJudge_lockBits (s : State) (c : Chan) (old : Nat) :
    lockBits (s.fspJudge c old).regs = lockBits s.regs := by
  simp [State.fspJudge]

@[simp] theorem State.pllWrite_lockBits (s : State) (c : Chan) (w : Word) (hl : LockSet (lockBits s.regs)) :
    lockBits (s.pllWrite c w).regs = lockBits s.regs := by
  simp [State.pllWrite, hl]

@[simp] theorem State.rateJudge_lockBits (s : State) (c : Chan) (old : Word) (n : Nat) :
    lockBits (s.rateJudge c old n).regs = lockBits s.regs := by
  simp [State.rateJudge]

@[simp] theorem State.fspWrite_lockBits (s : State) (c : Chan) (w : Word) (hl : LockSet (lockBits s.regs)) :
    lockBits (s.fspWrite c w).regs = lockBits s.regs := by
  simp [State.fspWrite, hl]

@[simp] theorem State.lockRise_lockBits (s : State) (h : HearthId) : lockBits (s.lockRise h).regs = lockBits s.regs := by
  simp -implicitDefEqProofs [State.lockRise]

@[simp] theorem execPllLock_keeps (h : HearthId) (s : State) : (execPllLock h s).Keeps (lockBits s.regs) := by
  simp [execPllLock]

@[simp] theorem State.lockFault_regs (s : State) (h : HearthId) : (s.lockFault h).regs = s.regs := by
  unfold State.lockFault
  split <;> simp

@[simp] theorem execPllLockLoss_keeps (h : HearthId) (s : State) : (execPllLockLoss h s).Keeps (lockBits s.regs) := by
  simp [execPllLockLoss]

@[simp] theorem State.dlydatRead_lockBits (s : State) (c : Chan) : lockBits (s.dlydatRead c).2.regs = lockBits s.regs := by
  simp [State.dlydatRead]

@[simp] theorem State.dlydatWrite_lockBits (s : State) (c : Chan) (w : Word) :
    lockBits (s.dlydatWrite c w).regs = lockBits s.regs := by
  simp [State.dlydatWrite]

@[simp] theorem State.patdatRead_lockBits (s : State) (c : Chan) : lockBits (s.patdatRead c).2.regs = lockBits s.regs := by
  simp [State.patdatRead]

@[simp] theorem State.patdatWrite_lockBits (s : State) (c : Chan) (w : Word) :
    lockBits (s.patdatWrite c w).regs = lockBits s.regs := by
  simp [State.patdatWrite]

@[simp] theorem execRetrain_keeps (c : Chan) (now : Nat) (s : State) : (execRetrain c now s).Keeps (lockBits s.regs) := by
  simp [execRetrain]

@[simp] theorem State.retrainWrite_lockBits (s : State) (c : Chan) (w : Word) (hl : LockSet (lockBits s.regs)) :
    lockBits (s.retrainWrite c w).regs = lockBits s.regs := by
  simp [State.retrainWrite, hl]

@[simp] theorem execZqCalibration_keeps (h : HearthId) (now : Nat) (s : State) :
    (execZqCalibration h now s).Keeps (lockBits s.regs) := by
  simp [execZqCalibration]

@[simp] theorem execZqCalibrationEnd_keeps (h : HearthId) (pcode ncode : BitVec 6) (s : State) :
    (execZqCalibrationEnd h pcode ncode s).Keeps (lockBits s.regs) := by
  simp -implicitDefEqProofs [execZqCalibrationEnd]

@[simp] theorem execZqCodeApply_keeps (edge : Chan × Nat) (s : State) : (execZqCodeApply edge s).Keeps (lockBits s.regs) := by
  simp [execZqCodeApply]

@[simp] theorem State.startLatches_regs (s : State) (c : Chan) : (s.startLatches c).regs = s.regs := by
  simp [State.startLatches]

@[simp] theorem execZqLatchDue_keeps (c : Chan) (rank : Fin 2) (now : Nat) (s : State) :
    (execZqLatchDue c rank now s).Keeps (lockBits s.regs) := by
  simp [execZqLatchDue]

@[simp] theorem State.pauseDone_lockBits (s : State) (m : SmithId) : lockBits (s.pauseDone m).regs = lockBits s.regs := by
  unfold State.pauseDone
  split <;> simp

@[simp] theorem State.grantPause_lockBits (s : State) (c : Chan) (r : PauseReq) (ck : Nat) :
    lockBits (s.grantPause c r ck).regs = lockBits s.regs := by
  simp [State.grantPause]

@[simp] theorem execPauseGrant_keeps (c : Chan) (ck now : Nat) (s : State) :
    (execPauseGrant c ck now s).Keeps (lockBits s.regs) := by
  refine (keeps_next _ _).mpr (timed_lockBits ?_)
  split <;> simp

@[simp] theorem State.forcePause_lockBits (s : State) (c : Chan) : lockBits (s.forcePause c).regs = lockBits s.regs := by
  simp [State.forcePause]

@[simp] theorem execPauseForce_keeps (c : Chan) (now : Nat) (s : State) : (execPauseForce c now s).Keeps (lockBits s.regs) := by
  simp [execPauseForce]

@[simp] theorem execPauseExpire_keeps (c : Chan) (ck : Nat) (s : State) : (execPauseExpire c ck s).Keeps (lockBits s.regs) := by
  simp [execPauseExpire]

/-! ### Slot boundaries and grants, the search for a pause window, the commit and the switch of a slot table, and the bank
windows (12 R408 to R421, 07 R263, 02 R87) -/

@[simp] theorem State.loseSlot_lockBits (s : State) (c : Chan) (i hi lo : Nat) :
    lockBits (s.loseSlot c i hi lo).regs = lockBits s.regs := by
  unfold State.loseSlot
  split <;> simp

@[simp] theorem State.setGrant_regs (s : State) (c : Chan) (g : Grant) : (s.setGrant c g).regs = s.regs := by
  simp [State.setGrant]

@[simp] theorem State.freshGrant_regs (s : State) (c : Chan) (i : Nat) : (s.freshGrant c i).regs = s.regs := by
  unfold State.freshGrant
  repeat' split
  all_goals simp

@[simp] theorem State.decideGrant_lockBits (s : State) (c : Chan) (i ck : Nat) :
    lockBits (s.decideGrant c i ck).regs = lockBits s.regs := by
  dsimp only [State.decideGrant]
  repeat' split
  all_goals simp -implicitDefEqProofs

@[simp] theorem State.seekWindow_regs (s : State) (c : Chan) (i : Nat) : (s.seekWindow c i).regs = s.regs := by
  dsimp only [State.seekWindow]
  split <;> simp

@[simp] theorem State.anchorTable_regs (s : State) (c : Chan) (ck : Nat) : (s.anchorTable c ck).regs = s.regs := by
  simp [State.anchorTable]

@[simp] theorem State.boundary_lockBits (s : State) (c : Chan) (ck : Nat) :
    lockBits (s.boundary c ck).regs = lockBits s.regs := by
  simp [State.boundary]

@[simp] theorem execSlotBoundary_keeps (c : Chan) (ck : Nat) (s : State) :
    (execSlotBoundary c ck s).Keeps (lockBits s.regs) := by
  simp [execSlotBoundary]

@[simp] theorem State.fixStart_lockBits (s : State) (c : Chan) (t : Nat) :
    lockBits (s.fixStart c t).regs = lockBits s.regs := by
  simp [State.fixStart]

@[simp] theorem State.lateCommit_lockBits (s : State) (c : Chan) (n : Nat) :
    lockBits (s.lateCommit c n).regs = lockBits s.regs := by
  simp [State.lateCommit]

@[simp] theorem State.commit_lockBits (s : State) (c : Chan) (t : Nat) : lockBits (s.commit c t).2.regs = lockBits s.regs := by
  dsimp only [State.commit]
  repeat' split
  all_goals simp -implicitDefEqProofs

@[simp] theorem State.switchTable_lockBits (s : State) (c : Chan) (ck : Nat) :
    lockBits (s.switchTable c ck).regs = lockBits s.regs := by
  simp [State.switchTable]

@[simp] theorem execSlotTableSwitch_keeps (c : Chan) (ck now : Nat) (s : State) :
    (execSlotTableSwitch c ck now s).Keeps (lockBits s.regs) := by
  simp [execSlotTableSwitch]

@[simp] theorem State.bankWrite_lockBits (s : State) (c : Chan) (b : Bool) (w : Nat) (x : Word) :
    lockBits (s.bankWrite c b w x).regs = lockBits s.regs := by
  simp [State.bankWrite]

@[simp] theorem State.slotWrite_lockBits (s : State) (c : Chan) (w : Word) (hl : LockSet (lockBits s.regs)) :
    lockBits (s.slotWrite c w).regs = lockBits s.regs := by
  simp [State.slotWrite, hl]

@[simp] theorem State.restartTable_regs (s : State) (c : Chan) : (s.restartTable c).regs = s.regs := by
  simp [State.restartTable]

/-! ### The save path and the restore of the banking area (16 R517, R518, 09 R318) -/

@[simp] theorem State.saveFill_regs (s : State) (c : Chan) (plot : Nat) : (s.saveFill c plot).regs = s.regs := by
  simp [State.saveFill]

@[simp] theorem State.saveAnvil_regs (s : State) (c : Chan) : (s.saveAnvil c).regs = s.regs := by
  simp [State.saveAnvil]

@[simp] theorem State.notRestored_regs (s : State) (c : Chan) (i : Nat) : (s.notRestored c i).regs = s.regs := by
  simp [State.notRestored]

@[simp] theorem State.restoreAnvil_regs (s : State) (full : Bool) (c : Chan) : (s.restoreAnvil full c).regs = s.regs := by
  simp [State.restoreAnvil]

@[simp] theorem State.restoreAll_regs (s : State) (full : Bool) : (s.restoreAll full).regs = s.regs := by
  simp [State.restoreAll]

/-! ### Mode requests, the completion of a transition, BANKED entry and shed levels (13 R431 to R449) -/

@[simp] theorem State.modeIgnored_lockBits (s : State) : lockBits s.modeIgnored.regs = lockBits s.regs := by
  simp [State.modeIgnored]

@[simp] theorem State.reportAssay_lockBits (s : State) (m : Mode) (hl : LockSet (lockBits s.regs)) :
    lockBits (s.reportAssay m).regs = lockBits s.regs := by
  simp [State.reportAssay, hl]

@[simp] theorem State.startTransition_lockBits (s : State) (m : Mode) :
    lockBits (s.startTransition m).regs = lockBits s.regs := by
  simp [State.startTransition]

@[simp] theorem State.startExit_regs (s : State) : s.startExit.regs = s.regs := by
  simp [State.startExit]

@[simp] theorem State.leaveBanked_lockBits (s : State) : lockBits s.leaveBanked.regs = lockBits s.regs := by
  simp [State.leaveBanked]

@[simp] theorem State.beginAssay_lockBits (s : State) : lockBits s.beginAssay.regs = lockBits s.regs := by
  simp [State.beginAssay]

@[simp] theorem State.acceptRequest_lockBits (s : State) (m : Mode) (host : Bool) :
    lockBits (s.acceptRequest m host).regs = lockBits s.regs := by
  unfold State.acceptRequest
  split <;> simp

@[simp] theorem State.judgeRequest_lockBits (s : State) (m : Mode) (host : Bool) (hl : LockSet (lockBits s.regs)) :
    lockBits (s.judgeRequest m host).regs = lockBits s.regs := by
  simp [State.judgeRequest, hl]

@[simp] theorem State.startOff_lockBits (s : State) : lockBits s.startOff.regs = lockBits s.regs := by
  simp [State.startOff]

@[simp] theorem State.judgeRecorded_lockBits (s : State) (hl : LockSet (lockBits s.regs)) :
    lockBits s.judgeRecorded.regs = lockBits s.regs := by
  unfold State.judgeRecorded
  split <;> simp [hl]

@[simp] theorem State.endTransition_lockBits (s : State) (hl : LockSet (lockBits s.regs)) :
    lockBits s.endTransition.regs = lockBits s.regs := by
  simp [State.endTransition, hl]

@[simp] theorem State.modeRequest_lockBits (s : State) (w : Word) (hl : LockSet (lockBits s.regs)) :
    lockBits (s.modeRequest w).regs = lockBits s.regs := by
  unfold State.modeRequest
  split <;> simp [hl]

@[simp] theorem execModeRequest_keeps (w : Word) (s : State) (hl : LockSet (lockBits s.regs)) :
    (execModeRequest w s).Keeps (lockBits s.regs) :=
  hostRow_keeps (s.modeRequest_lockBits w hl)

@[simp] theorem State.serviceStarts_lockBits (s : State) : lockBits s.serviceStarts.regs = lockBits s.regs := by
  simp [State.serviceStarts]

@[simp] theorem State.startRound_regs (s : State) : s.startRound.regs = s.regs := by
  simp [State.startRound]

@[simp] theorem State.lockMap_lockBits (s : State) (hl : LockSet (lockBits s.regs)) :
    lockBits s.lockMap.regs = lockBits s.regs := by
  have h := s.setFlag_aCAP_lockBits (i := 29) false (.inl rfl)
  rw [State.lockMap, State.kindleLeft_lockBits _ (h ▸ hl), h]

@[simp] theorem State.kindleToService_lockBits (s : State) : lockBits s.kindleToService.regs = lockBits s.regs := by
  simp [State.kindleToService]

@[simp] theorem State.firstRound_regs (s : State) : s.firstRound.regs = s.regs := by
  simp -implicitDefEqProofs [State.firstRound]

@[simp] theorem State.toAssay_lockBits (s : State) : lockBits s.toAssay.regs = lockBits s.regs := by
  simp -implicitDefEqProofs [State.toAssay]

@[simp] theorem State.leaveKindle_lockBits (s : State) (target : Mode) (hl : LockSet (lockBits s.regs)) :
    lockBits (s.leaveKindle target).regs = lockBits s.regs := by
  unfold State.leaveKindle
  split
  · extract_lets u
    have hu : lockBits u.regs = lockBits s.regs := s.lockMap_lockBits hl
    split <;> simp [hu, hl]
  · have h : lockBits ((s.setFlag aCAP 29 true).modeIgnored).regs = lockBits s.regs :=
      (State.modeIgnored_lockBits _).trans (s.setFlag_aCAP_lockBits _ (.inl rfl))
    rw [State.endTransition_lockBits _ (h ▸ hl), h]

@[simp] theorem State.selfTests_lockBits (s : State) : lockBits s.selfTests.regs = lockBits s.regs := by
  simp [State.selfTests]

@[simp] theorem State.grantWaiting_lockBits (s : State) (c : Chan) : lockBits (s.grantWaiting c).regs = lockBits s.regs := by
  simp [State.grantWaiting]

end Sys2Proof.Machine
end

section
/-! SUPPORT. The mapping lock: BANKED entry, the Assay engine, Temper, power and reset. -/

namespace Sys2Proof.Machine

/-! ### Mode requests, the completion of a transition, BANKED entry and shed levels (13 R431 to R449) -/

@[simp] theorem State.assayToKindle_lockBits (s : State) : lockBits s.assayToKindle.regs = lockBits s.regs := by
  simp [State.assayToKindle]

@[simp] theorem State.startRun_lockBits (s : State) (k : RunKind) (quarters : List Nat) :
    lockBits (s.startRun k quarters).regs = lockBits s.regs := by
  simp [State.startRun]

@[simp] theorem State.enterBanked_lockBits (s : State) (hl : LockSet (lockBits s.regs)) :
    lockBits s.enterBanked.regs = lockBits s.regs := by
  simp -implicitDefEqProofs [State.enterBanked, hl]

@[simp] theorem State.orderBanks_regs (s : State) : s.orderBanks.regs = s.regs := by
  unfold State.orderBanks
  repeat' split
  all_goals simp

@[simp] theorem State.bankInAnvil_lockBits (s : State) (c : Chan) : lockBits (s.bankInAnvil c).regs = lockBits s.regs := by
  simp [State.bankInAnvil]

@[simp] theorem State.bankIn_regs (s : State) (c : Chan) : (s.bankIn c).regs = s.regs := by
  simp [State.bankIn]

@[simp] theorem execBankedQueuesEmpty_keeps (s : State) : (execBankedQueuesEmpty s).Keeps (lockBits s.regs) := by
  simp [execBankedQueuesEmpty]

@[simp] theorem State.setExitLevel_lockBits (s : State) : lockBits s.setExitLevel.regs = lockBits s.regs := by
  simp [State.setExitLevel]

@[simp] theorem State.restartPort_regs (s : State) (p : PortId) : (s.restartPort p).regs = s.regs := by
  simp [State.restartPort]

@[simp] theorem State.restartChannel_regs (s : State) (c : Chan) : (s.restartChannel c).regs = s.regs := by
  simp -implicitDefEqProofs [State.restartChannel]

@[simp] theorem State.bankedToService_lockBits (s : State) : lockBits s.bankedToService.regs = lockBits s.regs := by
  simp [State.bankedToService]

@[simp] theorem State.complete13_lockBits (s : State) (m : Mode) (hl : LockSet (lockBits s.regs)) :
    lockBits (s.complete13 m).regs = lockBits s.regs := by
  unfold State.complete13
  split <;> simp [hl]

@[simp] theorem State.modeWrite_lockBits (s : State) (master : Bool) (w : Word) (hl : LockSet (lockBits s.regs)) :
    lockBits (s.modeWrite master w).regs = lockBits s.regs := by
  unfold State.modeWrite
  split <;> simp [hl]

@[simp] theorem State.handlerEnds_regs (s : State) (was : Mode) : (s.handlerEnds was).regs = s.regs := by
  simp [State.handlerEnds]

@[simp] theorem execModeComplete_keeps (w : Word) (now : Nat) (s : State) (hl : LockSet (lockBits s.regs)) :
    (execModeComplete w now s).Keeps (lockBits s.regs) := by
  simp -implicitDefEqProofs [execModeComplete, hl]

@[simp] theorem execShedLevelChange_keeps (w : Word) (s : State) : (execShedLevelChange w s).Keeps (lockBits s.regs) := by
  simp [execShedLevelChange]

@[simp] theorem execShedStepTimer_keeps (now : Nat) (s : State) : (execShedStepTimer now s).Keeps (lockBits s.regs) := by
  simp [execShedStepTimer]

/-! ### The Assay engine: repair allocation, results, direct runs and the test access port, and the end of COLD (16 R519 to
R532) -/

@[simp] theorem State.putRepair_regs (s : State) (r : Repair) : (s.putRepair r).regs = s.regs := by
  simp [State.putRepair]

@[simp] theorem State.record_regs (s : State) (i : Nat) (w : Word) : (s.record i w).regs = s.regs := by
  simp [State.record]

@[simp] theorem State.finding_regs (s : State) (id find q : Nat) (short : Bool) (sev : Nat) :
    (s.finding id find q short sev).regs = s.regs := by
  simp [State.finding]

@[simp] theorem State.sendFindings_regs (s : State) : s.sendFindings.regs = s.regs := by
  simp -implicitDefEqProofs [State.sendFindings]

@[simp] theorem State.countRepairs_lockBits (s : State) : lockBits s.countRepairs.regs = lockBits s.regs := by
  simp [State.countRepairs]

@[simp] theorem State.countFail_lockBits (s : State) : lockBits s.countFail.regs = lockBits s.regs := by
  simp [State.countFail]

@[simp] theorem State.unrepairable_lockBits (s : State) (k : RunKind) (q m : Nat) :
    lockBits (s.unrepairable k q m).regs = lockBits s.regs := by
  unfold State.unrepairable
  split <;> simp

@[simp] theorem State.macroResult_lockBits (s : State) (k : RunKind) (q : Nat) (f : MacroFinding) :
    lockBits (s.macroResult k q f).regs = lockBits s.regs := by
  simp [State.macroResult]

@[simp] theorem State.clearQuarter_regs (s : State) (q : Nat) : (s.clearQuarter q).regs = s.regs := by
  simp [State.clearQuarter]

@[simp] theorem State.memoryTest_lockBits (s : State) (k : RunKind) (q : Nat) (fs : List MacroFinding) :
    lockBits (s.memoryTest k q fs).regs = lockBits s.regs := by
  simp [State.memoryTest]

@[simp] theorem State.marchChannel_regs (s : State) (c : Chan) : (s.marchChannel c).regs = s.regs := by
  simp [State.marchChannel]

@[simp] theorem State.marchQuarter_regs (s : State) (q : Nat) : (s.marchQuarter q).regs = s.regs := by
  simp [State.marchQuarter]

@[simp] theorem State.putSignature_regs (s : State) (q : Nat) (good : Bool) : (s.putSignature q good).regs = s.regs := by
  simp [State.putSignature]

@[simp] theorem State.logicTest_lockBits (s : State) (k : RunKind) (q : Nat) (good : Bool) :
    lockBits (s.logicTest k q good).regs = lockBits s.regs := by
  simp [State.logicTest]

@[simp] theorem State.repairNow_regs (s : State) : s.repairNow.regs = s.regs := by
  simp [State.repairNow]

@[simp] theorem State.applyRepair_lockBits (s : State) : lockBits s.applyRepair.regs = lockBits s.regs := by
  simp [State.applyRepair]

@[simp] theorem State.endCold_lockBits (s : State) : lockBits s.endCold.regs = lockBits s.regs := by
  simp [State.endCold]

@[simp] theorem State.endRun_lockBits (s : State) (k : RunKind) : lockBits (s.endRun k).regs = lockBits s.regs := by
  unfold State.endRun
  split <;> simp

@[simp] theorem State.quarterEnd_lockBits (s : State) (signatureGood : Bool) (findings : List MacroFinding) :
    lockBits (s.quarterEnd signatureGood findings).regs = lockBits s.regs := by
  unfold State.quarterEnd
  split <;> simp

@[simp] theorem State.directRun_lockBits (s : State) : lockBits s.directRun.regs = lockBits s.regs := by
  simp [State.directRun]

@[simp] theorem State.clearRepair_lockBits (s : State) : lockBits s.clearRepair.regs = lockBits s.regs := by
  simp [State.clearRepair]

@[simp] theorem State.astWrite_lockBits (s : State) (w : Word) (hl : LockSet (lockBits s.regs)) :
    lockBits (s.astWrite w).regs = lockBits s.regs := by
  simp [State.astWrite, hl]

@[simp] theorem State.tapAct_lockBits (s : State) (op : TapOp) (hl : LockSet (lockBits s.regs)) :
    lockBits (s.tapAct op).regs = lockBits s.regs := by
  unfold State.tapAct
  split <;> simp [hl]

@[simp] theorem State.tapInstruction_lockBits (s : State) (op : TapOp) (hl : LockSet (lockBits s.regs)) :
    lockBits (s.tapInstruction op).regs = lockBits s.regs := by
  unfold State.tapInstruction
  extract_lets refused u
  have hu : u.regs = s.regs := rfl
  split
  · rw [State.tapAct_lockBits _ _ (hu ▸ hl), hu]
  · split
    · rw [hu]
    · rw [State.violation_lockBits _ _ _ _ (hu ▸ hl), hu]

/-! ### Sag detection, Temper rounds and the supply request (13 R450 to R460) -/

@[simp] theorem State.supplyLevel_regs (s : State) (supply : Nat) (n : Fin 8) : (s.supplyLevel supply n).regs = s.regs := by
  simp [State.supplyLevel]

@[simp] theorem execComparatorCrossing_keeps (level : Nat × Nat) (s : State) :
    (execComparatorCrossing level s).Keeps (lockBits s.regs) := by
  simp [execComparatorCrossing]

@[simp] theorem State.rateLevel_regs (s : State) (period : Nat) (n : Fin 8) : (s.rateLevel period n).regs = s.regs := by
  simp [State.rateLevel]

@[simp] theorem execRateMonitor_keeps (period : Nat) (now : Nat) (s : State) :
    (execRateMonitor period now s).Keeps (lockBits s.regs) := by
  simp [execRateMonitor]

@[simp] theorem execSagRelease_keeps (comparator : Bool) (level : Fin 8) (now : Nat) (s : State) :
    (execSagRelease comparator level now s).Keeps (lockBits s.regs) := by
  simp [execSagRelease]

@[simp] theorem execPmSag_keeps (level : BitVec 3) (s : State) : (execPmSag level s).Keeps (lockBits s.regs) := by
  simp [execPmSag]

@[simp] theorem execBankedSagRelease_keeps (now : Nat) (s : State) : (execBankedSagRelease now s).Keeps (lockBits s.regs) := by
  simp [execBankedSagRelease]

@[simp] theorem State.scheduled_regs (s : State) : s.scheduled.regs = s.regs := by
  simp -implicitDefEqProofs [State.scheduled]

@[simp] theorem execTemperRound_keeps (now : Nat) (s : State) : (execTemperRound now s).Keeps (lockBits s.regs) := by
  simp [execTemperRound]

@[simp] theorem State.tmpWrite_lockBits (s : State) (w : Word) (hl : LockSet (lockBits s.regs)) :
    lockBits (s.tmpWrite w).regs = lockBits s.regs := by
  simp [State.tmpWrite, hl]

@[simp] theorem execTemperGo_keeps (w : Word) (s : State) (hl : LockSet (lockBits s.regs)) :
    (execTemperGo w s).Keeps (lockBits s.regs) := by
  unfold execTemperGo
  exact hostRow_keeps (by simp [hl])

@[simp] theorem execTemperRoundEnd_keeps (counts : List (Nat × Nat)) (now : Nat) (s : State) :
    (execTemperRoundEnd counts now s).Keeps (lockBits s.regs) := by
  simp [execTemperRoundEnd]

@[simp] theorem State.codeChanged_lockBits (s : State) : lockBits s.codeChanged.regs = lockBits s.regs := by
  simp [State.codeChanged]

@[simp] theorem State.vreqWrite_lockBits (s : State) (w : Word) (hl : LockSet (lockBits s.regs)) :
    lockBits (s.vreqWrite w).regs = lockBits s.regs := by
  simp [State.vreqWrite, hl]

@[simp] theorem execVreqCodeWrite_keeps (w : Word) (s : State) (hl : LockSet (lockBits s.regs)) :
    (execVreqCodeWrite w s).Keeps (lockBits s.regs) := by
  unfold execVreqCodeWrite
  exact hostRow_keeps (by simp [hl])

@[simp] theorem State.vackTo_lockBits (s : State) (level : Bool) : lockBits (s.vackTo level).regs = lockBits s.regs := by
  simp [State.vackTo]

@[simp] theorem execPmVack_keeps (level : Bool × Nat) (s : State) : (execPmVack level s).Keeps (lockBits s.regs) := by
  simp [execPmVack]

/-! ### Core power in BANKED, reset, the end of COLD, and the transitions of an anvil (13 R441 to R443, 16 R519, 18 R565, R566,
19 R574 to R581) -/

@[simp] theorem State.coreOff_lockBits (s : State) : lockBits s.coreOff.regs = lockBits s.regs := by
  simp [State.coreOff]

@[simp] theorem State.ackOff_regs (s : State) : s.ackOff.regs = s.regs := by
  simp [State.ackOff]

@[simp] theorem State.heldExit_lockBits (s : State) (hl : LockSet (lockBits s.regs)) :
    lockBits s.heldExit.regs = lockBits s.regs := by
  simp -implicitDefEqProofs [State.heldExit, hl]

@[simp] theorem State.bankedOff_regs (s : State) : s.bankedOff.regs = s.regs := by
  simp [State.bankedOff]

@[simp] theorem State.idle_lockBits (s : State) (hl : LockSet (lockBits s.regs)) : lockBits s.idle.regs = lockBits s.regs := by
  simp [State.idle, hl]

@[simp] theorem execFaultDrainTimeout_keeps (now : Nat) (s : State) :
    (execFaultDrainTimeout now s).Keeps (lockBits s.regs) := by
  simp -implicitDefEqProofs [execFaultDrainTimeout]

@[simp] theorem execPmOffreq_keeps (level : Bool) (s : State) : (execPmOffreq level s).Keeps (lockBits s.regs) := by
  simp -implicitDefEqProofs [execPmOffreq]

@[simp] theorem State.hearthUp_lockBits (s : State) (h : HearthId) : lockBits (s.hearthUp h).regs = lockBits s.regs := by
  simp [State.hearthUp]

@[simp] theorem State.bankOut_regs (s : State) (c : Chan) : (s.bankOut c).regs = s.regs := by
  simp [State.bankOut]

@[simp] theorem State.wakeSmith_lockBits (s : State) (m : SmithId) : lockBits (s.wakeSmith m).regs = lockBits s.regs := by
  simp [State.wakeSmith]

@[simp] theorem State.liveCodes_regs (s : State) (c : Chan) : (s.liveCodes c).regs = s.regs := by
  simp [State.liveCodes]

@[simp] theorem execResetDeassert_keeps (gangId gangSize : BitVec 2) (s : State) :
    (execResetDeassert gangId gangSize s).Keeps (lockBits s.regs) := by
  refine (keeps_next _ _).mpr ?_
  rw [occur_regs]
  split
  · rw [State.onModes_regs, lockBits_setFld _ (by decide) (by decide), lockBits_setFld _ (by decide) (by decide)]
  · rfl

@[simp] theorem State.loadFuses_lockBits (s : State) (first : List Word) :
    lockBits (s.loadFuses first).regs = lockBits s.regs := by
  simp [State.loadFuses]

@[simp] theorem State.fusesGood_lockBits (s : State) : lockBits s.fusesGood.regs = lockBits s.regs := by
  simp [State.fusesGood]

@[simp] theorem State.fuseImageRead_lockBits (s : State) (first second : List Word) (hl : LockSet (lockBits s.regs)) :
    lockBits (s.fuseImageRead first second).regs = lockBits s.regs := by
  simp [State.fuseImageRead, hl]

@[simp] theorem execAlwaysOnPowerUp_keeps (s : State) : (execAlwaysOnPowerUp s).Keeps (lockBits s.regs) := by
  simp [execAlwaysOnPowerUp]

@[simp] theorem execAnvilTransitionEnd_keeps (c : Chan) (s : State) : (execAnvilTransitionEnd c s).Keeps (lockBits s.regs) := by
  unfold execAnvilTransitionEnd
  split <;> simp

end Sys2Proof.Machine
end

section
/-! SUPPORT. The mapping lock: the host port, and the instructions of a Smith. -/

namespace Sys2Proof.Machine

/-! ### What a read or a write of a register or window does (18 R556 to R571, 02 R53 to R58), shared by the host port and the
Smiths -/

@[simp] theorem State.onImage_regs (s : State) (anvil : Bool) (f : Image → Image) : (s.onImage anvil f).regs = s.regs := by
  simp [State.onImage]

@[simp] theorem State.clearAccepted_lockBits (s : State) (anvil : Bool) :
    lockBits (s.clearAccepted anvil).regs = lockBits s.regs := by
  simp [State.clearAccepted]

@[simp] theorem State.imemWrite_lockBits (s : State) (anvil : Bool) (i : Nat) (w : Word) :
    lockBits (s.imemWrite anvil i w).regs = lockBits s.regs := by
  simp [State.imemWrite]

@[simp] theorem State.hdrWrite_lockBits (s : State) (a : Nat) (w : Word) (hl : LockSet (lockBits s.regs)) :
    lockBits (s.hdrWrite a w).regs = lockBits s.regs := by
  simp [State.hdrWrite, hl]

@[simp] theorem State.loadWrite_lockBits (s : State) (w : Word) (hl : LockSet (lockBits s.regs)) :
    lockBits (s.loadWrite w).regs = lockBits s.regs := by
  simp [State.loadWrite, hl]

@[simp] theorem State.ctlWrite_lockBits (s : State) (w : Word) : lockBits (s.ctlWrite w).regs = lockBits s.regs := by
  simp [State.ctlWrite]

@[simp] theorem State.evsetWrite_regs (s : State) (w : Word) : (s.evsetWrite w).regs = s.regs := by
  simp -implicitDefEqProofs [State.evsetWrite]

@[simp] theorem State.mboxHeld_lockBits (s : State) {f : State → State} (hf : lockBits (f s).regs = lockBits s.regs) :
    lockBits (s.mboxHeld f).regs = lockBits s.regs := by
  unfold State.mboxHeld
  split <;> simp [hf]

@[simp] theorem State.mboxCmd_lockBits (s : State) (w : Word) (hl : LockSet (lockBits s.regs)) :
    lockBits (s.mboxCmd w).regs = lockBits s.regs := by
  simp -implicitDefEqProofs [State.mboxCmd, hl]

@[simp] theorem State.mboxStatus_lockBits (s : State) (w : Word) (hl : LockSet (lockBits s.regs)) :
    lockBits (s.mboxStatus w).regs = lockBits s.regs := by
  simp [State.mboxStatus, hl]

@[simp] theorem State.putBack_lockBits (s : State) {a : Nat} (old : Word) (h1 l1 h2 l2 : Nat) (ha : lockMask (regHome a) = 0) :
    lockBits (s.putBack a old h1 l1 h2 l2).regs = lockBits s.regs := by
  simp [State.putBack, ha]

/-- Where what LOCKED protects has not changed, GLB_FURROW keeps it too (04 R149). -/
theorem State.furrowGood_lockBits {s old : State} (h : lockBits s.regs = lockBits old.regs) :
    lockBits (s.furrowGood old).regs = lockBits s.regs := by
  unfold State.furrowGood State.putBack
  split
  · have hm3 := setFld_fld_lockBits (s := s) (v := old.fld aFURROW 12 12) (Nat.le_refl 12)
      (fld_eq_of_lockBits h.symm (Nat.le_refl 12) (by decide))
    exact (setFld_fld_lockBits (by decide) (fld_eq_of_lockBits (h.symm.trans hm3.symm) (by decide) (by decide))).trans hm3
  · rfl

@[simp] theorem State.mapWrite_lockBits (s : State) (a : Nat) (w : Word) (hl : LockSet (lockBits s.regs)) :
    lockBits (s.mapWrite a w).regs = lockBits s.regs := by
  have htyped := s.typed_lockBits a w hl
  have hfurrow := State.furrowGood_lockBits htyped
  simp -implicitDefEqProofs [State.mapWrite, hfurrow, htyped]

@[simp] theorem State.adjWrite_lockBits (s : State) (a : Nat) (w : Word) (hl : LockSet (lockBits s.regs)) :
    lockBits (s.adjWrite a w).regs = lockBits s.regs := by
  simp [State.adjWrite, hl]

@[simp] theorem State.rfmWrite_lockBits (s : State) (w : Word) (hl : LockSet (lockBits s.regs)) :
    lockBits (s.rfmWrite w).regs = lockBits s.regs := by
  simp [State.rfmWrite, hl]

@[simp] theorem State.loftWrite_lockBits (s : State) (w : Word) (hl : LockSet (lockBits s.regs)) :
    lockBits (s.loftWrite w).regs = lockBits s.regs := by
  simp [State.loftWrite, hl]

@[simp] theorem State.wdogWrite_lockBits (s : State) (w : Word) (hl : LockSet (lockBits s.regs)) :
    lockBits (s.wdogWrite w).regs = lockBits s.regs := by
  simp [State.wdogWrite, hl]

@[simp] theorem State.swdWrite_lockBits (s : State) {k : Nat} (w : Word) (hk : k < 4) (hl : LockSet (lockBits s.regs)) :
    lockBits (s.swdWrite k w).regs = lockBits s.regs := by
  simp [State.swdWrite, lockMask_aSWD_ACTIVE hk, hl]

@[simp] theorem State.injWrite_lockBits (s : State) (w : Word) (hl : LockSet (lockBits s.regs)) :
    lockBits (s.injWrite w).regs = lockBits s.regs := by
  simp [State.injWrite, hl]

@[simp] theorem State.gngWrite_lockBits (s : State) (w : Word) (hl : LockSet (lockBits s.regs)) :
    lockBits (s.gngWrite w).regs = lockBits s.regs := by
  simp [State.gngWrite, hl]

@[simp] theorem State.smiWrite_lockBits (s : State) (who : Agent) (a : Nat) (w : Word) (hl : LockSet (lockBits s.regs)) :
    lockBits (s.smiWrite who a w).regs = lockBits s.regs := by
  simp [State.smiWrite, hl]

@[simp] theorem State.masterOnly_lockBits (s : State) (who : Agent) {s' : State} (h : lockBits s'.regs = lockBits s.regs) :
    lockBits (s.masterOnly who s').regs = lockBits s.regs := by
  unfold State.masterOnly
  split
  · exact h
  · rfl

@[simp] theorem State.unitWrite_lockBits (s : State) (who : Agent) (a : Nat) (w : Word)
    (hl : LockSet (lockBits s.regs)) : lockBits (s.unitWrite who a w).regs = lockBits s.regs := by
  simp -implicitDefEqProofs [State.unitWrite, hl]

@[simp] theorem State.globalWrite_lockBits (s : State) (who : Agent) (a : Nat) (w : Word)
    (hl : LockSet (lockBits s.regs)) : lockBits (s.globalWrite who a w).regs = lockBits s.regs := by
  refine lockBits_of_ite (fun _ => s.unitWrite_lockBits who a w hl) fun _ => ?_
  refine lockBits_of_ite (fun _ => s.smiWrite_lockBits who a w hl) fun _ => ?_
  refine lockBits_of_ite (fun _ => s.modeWrite_lockBits _ w hl) fun _ => ?_
  refine lockBits_of_ite (fun _ => s.modeRequest_lockBits w hl) fun _ => ?_
  refine lockBits_of_ite (fun _ => s.masterOnly_lockBits who (s.shedWrite_lockBits _)) fun _ => ?_
  refine lockBits_of_ite (fun _ => s.mapWrite_lockBits a w hl) fun _ => ?_
  refine lockBits_of_ite (fun _ => s.adjWrite_lockBits a w hl) fun _ => ?_
  refine lockBits_of_ite (fun _ => s.rfmWrite_lockBits w hl) fun _ => ?_
  refine lockBits_of_ite (fun _ => s.loftWrite_lockBits w hl) fun _ => ?_
  refine lockBits_of_ite (fun _ => s.wdogWrite_lockBits w hl) fun _ => ?_
  refine lockBits_of_ite (fun h => s.swdWrite_lockBits w ?_ hl) fun _ => s.typed_lockBits a w hl
  simp only [aSWD_EN] at h ⊢
  omega

@[simp] theorem State.blwWrite_lockBits (s : State) (p : PortId) (w : Word) (hl : LockSet (lockBits s.regs)) :
    lockBits (s.blwWrite p w).regs = lockBits s.regs := by
  simp -implicitDefEqProofs [State.blwWrite, hl]

@[simp] theorem State.haltWrite_lockBits (s : State) (who : Agent) (p : PortId) (w : Word)
    (hl : LockSet (lockBits s.regs)) : lockBits (s.haltWrite who p w).regs = lockBits s.regs := by
  simp [State.haltWrite, hl]

@[simp] theorem State.label0_lockBits (s : State) {p l : Nat} (w : Word) (hp : p < 128) (hlabel : l < 32)
    (hl : LockSet (lockBits s.regs)) : lockBits (s.label0 p l w).regs = lockBits s.regs := by
  have hmask := lockMask_aLabel hp hlabel (show 0 < 2 by decide)
  dsimp only [State.label0]
  split <;> simp [hmask, hl]

@[simp] theorem State.label1_lockBits (s : State) (who : Agent) (p : PortId) {l : Nat} (w : Word) (hlabel : l < 32)
    (hl : LockSet (lockBits s.regs)) : lockBits (s.label1 who p l w).regs = lockBits s.regs := by
  have hmask := lockMask_aLabel p.isLt hlabel (show 1 < 2 by decide)
  dsimp only [State.label1]
  split <;> simp [hmask, hl]

@[simp] theorem State.portWrite_lockBits (s : State) (who : Agent) (a : Nat) (w : Word)
    (hl : LockSet (lockBits s.regs)) : lockBits (s.portWrite who a w).regs = lockBits s.regs := by
  have ho : (a % 0x200 - 0x100) / 8 < 32 := by omega
  simp [State.portWrite, ho, hl]

@[simp] theorem State.wmWrite_lockBits (s : State) (c : Chan) (w : Word) (hl : LockSet (lockBits s.regs)) :
    lockBits (s.wmWrite c w).regs = lockBits s.regs := by
  simp [State.wmWrite, hl]

@[simp] theorem State.cmderrWrite_lockBits (s : State) (c : Chan) (w : Word) (hl : LockSet (lockBits s.regs)) :
    lockBits (s.cmderrWrite c w).regs = lockBits s.regs := by
  simp [State.cmderrWrite, hl]

@[simp] theorem State.refreshWrite_lockBits (s : State) (c : Chan) (w : Word) (hl : LockSet (lockBits s.regs)) :
    lockBits (s.refreshWrite c w).regs = lockBits s.regs := by
  simp [State.refreshWrite, hl]

@[simp] theorem State.patWrite_lockBits (s : State) (c : Chan) (w : Word) (hl : LockSet (lockBits s.regs)) :
    lockBits (s.patWrite c w).regs = lockBits s.regs := by
  simp [State.patWrite, hl]

@[simp] theorem State.patEdge_lockBits (s : State) (c : Chan) (a : Nat) (w : Word) (hl : LockSet (lockBits s.regs)) :
    lockBits (s.patEdge c a w).regs = lockBits s.regs := by
  simp [State.patEdge, hl]

@[simp] theorem State.eccWrite_lockBits (s : State) (c : Chan) (w : Word) :
    lockBits (s.eccWrite c w).regs = lockBits s.regs := by
  simp [State.eccWrite]

@[simp] theorem State.hthWrite_lockBits (s : State) (c : Chan) (o : Nat) (w : Word) (hl : LockSet (lockBits s.regs)) :
    lockBits (s.hthWrite c o w).regs = lockBits s.regs := by
  simp [State.hthWrite, hl]

@[simp] theorem State.anvWrite_lockBits (s : State) (a : Nat) (w : Word) (hl : LockSet (lockBits s.regs)) :
    lockBits (s.anvWrite a w).regs = lockBits s.regs := by
  simp [State.anvWrite, hl]

@[simp] theorem State.windowWrite_lockBits (s : State) (a : Nat) (w : Word) :
    lockBits (s.windowWrite a w).regs = lockBits s.regs := by
  simp [State.windowWrite]

@[simp] theorem State.regWrite_lockBits (s : State) (who : Agent) (a : Nat) (w : Word) (hl : LockSet (lockBits s.regs)) :
    lockBits (s.regWrite who a w).regs = lockBits s.regs := by
  simp [State.regWrite, hl]

@[simp] theorem State.readTimeLo_regs (s : State) (who : Agent) : (s.readTimeLo who).2.regs = s.regs := by
  simp [State.readTimeLo]

@[simp] theorem State.readTimeHi_regs (s : State) (who : Agent) : (s.readTimeHi who).2.regs = s.regs := by
  simp [State.readTimeHi]

@[simp] theorem State.readPairLo_regs (s : State) (who : Agent) (c : Chan) (lap : Bool) :
    (s.readPairLo who c lap).2.regs = s.regs := by
  simp [State.readPairLo]

@[simp] theorem State.readPairHi_regs (s : State) (who : Agent) (c : Chan) (lap : Bool) :
    (s.readPairHi who c lap).2.regs = s.regs := by
  simp [State.readPairHi]

@[simp] theorem State.readMsgLo_regs (s : State) (who : Agent) : (s.readMsgLo who).2.regs = s.regs := by
  unfold State.readMsgLo
  split <;> simp

@[simp] theorem State.readMsgHi_regs (s : State) (who : Agent) : (s.readMsgHi who).2.regs = s.regs := by
  unfold State.readMsgHi
  split <;> simp

@[simp] theorem State.readEffect_lockBits (s : State) (who : Agent) (a : Nat) :
    lockBits (s.readEffect who a).regs = lockBits s.regs := by
  unfold State.readEffect
  split
  · simp
  · split
    · simp
    · split
      · rfl
      · rename_i r hr
        split
        · by_cases hm : lockMask (regHome a) = 0
          · simp [hm]
          · have hhome := regHome_of_lockMask hm
            obtain ⟨-, -, hrc⟩ := regInfo_of_lockMask hr (hhome ▸ hm)
            rw [show clearOnRead r (s.rd a) = s.rd a by simp [clearOnRead, hrc, and_ones], State.wr_regs]
            exact lockBits_set_of_and rfl
        · rfl

@[simp] theorem State.anvRead_lockBits (s : State) (who : Agent) (a : Nat) :
    lockBits (s.anvRead who a).2.regs = lockBits s.regs := by
  dsimp only [State.anvRead]
  repeat' split
  all_goals simp -implicitDefEqProofs

@[simp] theorem State.regRead_lockBits (s : State) (who : Agent) (a : Nat) :
    lockBits (s.regRead who a).2.regs = lockBits s.regs := by
  unfold State.regRead
  repeat' split
  all_goals simp

@[simp] theorem State.hostError_lockBits (s : State) (cause : Nat) (write : Bool) (a : Nat) :
    lockBits (s.hostError cause write a).regs = lockBits s.regs := by
  simp [State.hostError]

@[simp] theorem State.hostWrite_lockBits (s : State) (a : Nat) (w : Word) (hl : LockSet (lockBits s.regs)) :
    lockBits (s.hostWrite a w).regs = lockBits s.regs := by
  unfold State.hostWrite
  split <;> simp [hl]

@[simp] theorem State.hostRead_lockBits (s : State) (a : Nat) : lockBits (s.hostRead a).regs = lockBits s.regs := by
  unfold State.hostRead
  split <;> simp

@[simp] theorem State.hostAccess_lockBits (s : State) (a : Nat) (w : Option Word) (hl : LockSet (lockBits s.regs)) :
    lockBits (s.hostAccess a w).regs = lockBits s.regs := by
  unfold State.hostAccess
  split <;> simp [hl]

@[simp] theorem State.serveHeld_lockBits (s : State) (hl : LockSet (lockBits s.regs)) :
    lockBits s.serveHeld.regs = lockBits s.regs := by
  unfold State.serveHeld
  split
  · rfl
  · exact foldl_keeps (P := fun t => lockBits t.regs = lockBits s.regs)
      (fun u e hu => (u.hostAccess_lockBits e.1 e.2 (hu ▸ hl)).trans hu) _ rfl

@[simp] theorem hostAccessRow_keeps (a : Nat) (w : Option Word) (s : State) (hl : LockSet (lockBits s.regs)) :
    (hostAccessRow a w s).Keeps (lockBits s.regs) :=
  hostRow_keeps (s.hostAccess_lockBits a w hl)

@[simp] theorem hostWriteRow_keeps (a : Nat) (w : Word) (s : State) (hl : LockSet (lockBits s.regs)) :
    (hostWriteRow a w s).Keeps (lockBits s.regs) := by
  simp [hostWriteRow, hl]

@[simp] theorem hostWriteWhen_keeps (ok : Bool) (a : Nat) (w : Word) (s : State) (hl : LockSet (lockBits s.regs)) :
    (hostWriteWhen ok a w s).Keeps (lockBits s.regs) :=
  hostRow_keeps (s.hostAccess_lockBits a (some w) hl)

@[simp] theorem hostReadRow_keeps (a : Nat) (s : State) (hl : LockSet (lockBits s.regs)) :
    (hostReadRow a s).Keeps (lockBits s.regs) := by
  simp [hostReadRow, hl]

@[simp] theorem hostAccessAt_keeps (now a : Nat) (w : Option Word) (s : State) (hl : LockSet (lockBits s.regs)) :
    (hostAccessAt now a w s).Keeps (lockBits s.regs) :=
  hostRowAt_keeps ((s.at now).hostAccess_lockBits a w hl)

/-! ### Rows that are one access of the host register port or one register write of the Master Smith, and the end of image
verification -/

@[simp] theorem execMsStart_keeps (w : Word) (s : State) (hl : LockSet (lockBits s.regs)) :
    (execMsStart w s).Keeps (lockBits s.regs) := by
  simp [execMsStart, hl]

@[simp] theorem execMsStop_keeps (w : Word) (s : State) (hl : LockSet (lockBits s.regs)) :
    (execMsStop w s).Keeps (lockBits s.regs) := by
  simp [execMsStop, hl]

@[simp] theorem execAsStart_keeps (w : Word) (s : State) (hl : LockSet (lockBits s.regs)) :
    (execAsStart w s).Keeps (lockBits s.regs) := by
  simp [execAsStart, hl]

@[simp] theorem execAsStop_keeps (w : Word) (s : State) (hl : LockSet (lockBits s.regs)) :
    (execAsStop w s).Keeps (lockBits s.regs) := by
  simp [execAsStop, hl]

@[simp] theorem execGo_keeps (w : Word) (s : State) (hl : LockSet (lockBits s.regs)) :
    (execGo w s).Keeps (lockBits s.regs) := by
  simp [execGo, hl]

@[simp] theorem execSmiEvset_keeps (w : Word) (s : State) (hl : LockSet (lockBits s.regs)) :
    (execSmiEvset w s).Keeps (lockBits s.regs) := by
  simp [execSmiEvset, hl]

@[simp] theorem execInstructionMemoryWrite_keeps (addr : BitVec 24) (w : Word) (s : State)
    (hl : LockSet (lockBits s.regs)) : (execInstructionMemoryWrite addr w s).Keeps (lockBits s.regs) := by
  simp [execInstructionMemoryWrite, hl]

@[simp] theorem State.acceptImage_lockBits (s : State) (anvil reference : Bool) :
    lockBits (s.acceptImage anvil reference).regs = lockBits s.regs := by
  simp [State.acceptImage]

@[simp] theorem State.refuseTag_lockBits (s : State) (anvil : Bool) (hl : LockSet (lockBits s.regs)) :
    lockBits (s.refuseTag anvil).regs = lockBits s.regs := by
  simp -implicitDefEqProofs [State.refuseTag, hl]

@[simp] theorem State.endVerify_lockBits (s : State) (anvil reference : Bool) (hl : LockSet (lockBits s.regs)) :
    lockBits (s.endVerify anvil reference).regs = lockBits s.regs := by
  simp [State.endVerify, hl]

@[simp] theorem execVerifyEnd_keeps (reference : Bool) (s : State) (hl : LockSet (lockBits s.regs)) :
    (execVerifyEnd reference s).Keeps (lockBits s.regs) := by
  unfold execVerifyEnd
  split <;> simp [hl]

@[simp] theorem execPortEnable_keeps (k : Fin 4) (w : Word) (s : State) (hl : LockSet (lockBits s.regs)) :
    (execPortEnable k w s).Keeps (lockBits s.regs) := by
  simp [execPortEnable, hl]

@[simp] theorem execPortDisable_keeps (k : Fin 4) (w : Word) (s : State) (hl : LockSet (lockBits s.regs)) :
    (execPortDisable k w s).Keeps (lockBits s.regs) := by
  simp [execPortDisable, hl]

@[simp] theorem execHaltClear_keeps (p : PortId) (w : Word) (s : State) (hl : LockSet (lockBits s.regs)) :
    (execHaltClear p w s).Keeps (lockBits s.regs) := by
  simp [execHaltClear, hl]

@[simp] theorem execInvall_keeps (w : Word) (s : State) (hl : LockSet (lockBits s.regs)) :
    (execInvall w s).Keeps (lockBits s.regs) := by
  simp [execInvall, hl]

@[simp] theorem execWgEn_keeps (w : Word) (s : State) (hl : LockSet (lockBits s.regs)) :
    (execWgEn w s).Keeps (lockBits s.regs) := by
  simp [execWgEn, hl]

@[simp] theorem execRickEn_keeps (w : Word) (s : State) (hl : LockSet (lockBits s.regs)) :
    (execRickEn w s).Keeps (lockBits s.regs) := by
  simp [execRickEn, hl]

@[simp] theorem execPfEn_keeps (w : Word) (s : State) (hl : LockSet (lockBits s.regs)) :
    (execPfEn w s).Keeps (lockBits s.regs) := by
  simp [execPfEn, hl]

@[simp] theorem execHoldSet_keeps (c : Chan) (w : Word) (s : State) (hl : LockSet (lockBits s.regs)) :
    (execHoldSet c w s).Keeps (lockBits s.regs) := by
  simp [execHoldSet, hl]

@[simp] theorem execRetrainIntervalWrite_keeps (c : Chan) (w : Word) (now : Nat) (s : State)
    (hl : LockSet (lockBits s.regs)) : (execRetrainIntervalWrite c w now s).Keeps (lockBits s.regs) := by
  simp [execRetrainIntervalWrite, hl]

@[simp] theorem execPllEnable_keeps (c : Chan) (w : Word) (s : State) (hl : LockSet (lockBits s.regs)) :
    (execPllEnable c w s).Keeps (lockBits s.regs) := by
  simp [execPllEnable, hl]

@[simp] theorem execFspChange_keeps (c : Chan) (w : Word) (s : State) (hl : LockSet (lockBits s.regs)) :
    (execFspChange c w s).Keeps (lockBits s.regs) := by
  simp [execFspChange, hl]

@[simp] theorem execRateChange_keeps (c : Chan) (w : Word) (s : State) (hl : LockSet (lockBits s.regs)) :
    (execRateChange c w s).Keeps (lockBits s.regs) := by
  simp [execRateChange, hl]

@[simp] theorem execDlydatAccess_keeps (c : Chan) (w : Option Word) (s : State) (hl : LockSet (lockBits s.regs)) :
    (execDlydatAccess c w s).Keeps (lockBits s.regs) := by
  simp [execDlydatAccess, hl]

@[simp] theorem execPatdatAccess_keeps (c : Chan) (w : Option Word) (s : State) (hl : LockSet (lockBits s.regs)) :
    (execPatdatAccess c w s).Keeps (lockBits s.regs) := by
  simp [execPatdatAccess, hl]

@[simp] theorem execStgo_keeps (c : Chan) (w : Word) (s : State) (hl : LockSet (lockBits s.regs)) :
    (execStgo c w s).Keeps (lockBits s.regs) := by
  simp [execStgo, hl]

@[simp] theorem execGleanerEn_keeps (c : Chan) (w : Word) (s : State) (hl : LockSet (lockBits s.regs)) :
    (execGleanerEn c w s).Keeps (lockBits s.regs) := by
  simp [execGleanerEn, hl]

@[simp] theorem execKeyctlErase_keeps (w : Word) (s : State) (hl : LockSet (lockBits s.regs)) :
    (execKeyctlErase w s).Keeps (lockBits s.regs) := by
  simp [execKeyctlErase, hl]

@[simp] theorem execForceMessage_keeps (k : Fin 3) (w : Word) (s : State) (hl : LockSet (lockBits s.regs)) :
    (execForceMessage k w s).Keeps (lockBits s.regs) := by
  simp [execForceMessage, hl]

@[simp] theorem execFirstvRearm_keeps (w : Word) (s : State) (hl : LockSet (lockBits s.regs)) :
    (execFirstvRearm w s).Keeps (lockBits s.regs) := by
  simp [execFirstvRearm, hl]

@[simp] theorem execInjectionArm_keeps (w : Word) (s : State) (hl : LockSet (lockBits s.regs)) :
    (execInjectionArm w s).Keeps (lockBits s.regs) := by
  simp [execInjectionArm, hl]

@[simp] theorem execInjectionDisarm_keeps (w : Word) (s : State) (hl : LockSet (lockBits s.regs)) :
    (execInjectionDisarm w s).Keeps (lockBits s.regs) := by
  simp [execInjectionDisarm, hl]

@[simp] theorem execEvqPutHdr_keeps (w : Word) (now : Nat) (s : State) (hl : LockSet (lockBits s.regs)) :
    (execEvqPutHdr w now s).Keeps (lockBits s.regs) := by
  simp -implicitDefEqProofs [execEvqPutHdr, hl]

@[simp] theorem execEvqPutLo_keeps (w : Word) (s : State) (hl : LockSet (lockBits s.regs)) :
    (execEvqPutLo w s).Keeps (lockBits s.regs) := by
  simp [execEvqPutLo, hl]

@[simp] theorem execEvqPutHi_keeps (w : Word) (now : Nat) (s : State) (hl : LockSet (lockBits s.regs)) :
    (execEvqPutHi w now s).Keeps (lockBits s.regs) := by
  simp -implicitDefEqProofs [execEvqPutHi, hl]

@[simp] theorem execEvqDataLo_keeps (s : State) (hl : LockSet (lockBits s.regs)) :
    (execEvqDataLo s).Keeps (lockBits s.regs) := by
  simp [execEvqDataLo, hl]

@[simp] theorem execEvqDataHi_keeps (now : Nat) (s : State) (hl : LockSet (lockBits s.regs)) :
    (execEvqDataHi now s).Keeps (lockBits s.regs) := by
  simp [execEvqDataHi, hl]

@[simp] theorem execFlush_keeps (w : Word) (now : Nat) (s : State) (hl : LockSet (lockBits s.regs)) :
    (execFlush w now s).Keeps (lockBits s.regs) := by
  simp [execFlush, hl]

@[simp] theorem execTimebaseLoRead_keeps (now : Nat) (s : State) (hl : LockSet (lockBits s.regs)) :
    (execTimebaseLoRead now s).Keeps (lockBits s.regs) := by
  simp [execTimebaseLoRead, hl]

@[simp] theorem execSlotTloRead_keeps (c : Chan) (s : State) (hl : LockSet (lockBits s.regs)) :
    (execSlotTloRead c s).Keeps (lockBits s.regs) := by
  simp [execSlotTloRead, hl]

@[simp] theorem execLapLoRead_keeps (c : Chan) (s : State) (hl : LockSet (lockBits s.regs)) :
    (execLapLoRead c s).Keeps (lockBits s.regs) := by
  simp [execLapLoRead, hl]

@[simp] theorem execCapturedHiRead_keeps (addr : BitVec 24) (now : Nat) (s : State) (hl : LockSet (lockBits s.regs)) :
    (execCapturedHiRead addr now s).Keeps (lockBits s.regs) :=
  hostRowAt_keeps ((s.at now).hostAccess_lockBits _ _ hl)

@[simp] theorem execRcRead_keeps (addr : BitVec 24) (s : State) (hl : LockSet (lockBits s.regs)) :
    (execRcRead addr s).Keeps (lockBits s.regs) := by
  simp [execRcRead, hl]

@[simp] theorem execAdjacencyMapWrite_keeps (k : Fin 2) (w : Word) (s : State) (hl : LockSet (lockBits s.regs)) :
    (execAdjacencyMapWrite k w s).Keeps (lockBits s.regs) := by
  simp [execAdjacencyMapWrite, hl]

@[simp] theorem execRegisterWrite_keeps (addr : BitVec 24) (w : Word) (now : Nat) (s : State)
    (hl : LockSet (lockBits s.regs)) : (execRegisterWrite addr w now s).Keeps (lockBits s.regs) := by
  simp [execRegisterWrite, hl]

@[simp] theorem execUnalignedAccess_keeps (addr : BitVec 24) (w : Option Word) (s : State)
    (hl : LockSet (lockBits s.regs)) : (execUnalignedAccess addr w s).Keeps (lockBits s.regs) := by
  unfold execUnalignedAccess
  exact hostRow_keeps (by simp [hl])

@[simp] theorem execUnpopulatedAccess_keeps (addr : BitVec 24) (w : Option Word) (s : State)
    (hl : LockSet (lockBits s.regs)) : (execUnpopulatedAccess addr w s).Keeps (lockBits s.regs) := by
  unfold execUnpopulatedAccess
  exact hostRow_keeps (by simp [hl])

@[simp] theorem execBankedAccessRefused_keeps (addr : BitVec 24) (w : Option Word) (s : State)
    (hl : LockSet (lockBits s.regs)) : (execBankedAccessRefused addr w s).Keeps (lockBits s.regs) := by
  unfold execBankedAccessRefused
  exact hostRow_keeps (by simp [hl])

@[simp] theorem execFuseImageRead_keeps (first second : List Word) (s : State) (hl : LockSet (lockBits s.regs)) :
    (execFuseImageRead first second s).Keeps (lockBits s.regs) := by
  simp [execFuseImageRead, hl]

@[simp] theorem execQuarterEnd_keeps (signatureGood : Bool) (findings : List MacroFinding) (s : State)
    (hl : LockSet (lockBits s.regs)) : (execQuarterEnd signatureGood findings s).Keeps (lockBits s.regs) := by
  simp [execQuarterEnd, hl]

@[simp] theorem execDirectRun_keeps (w : Word) (s : State) (hl : LockSet (lockBits s.regs)) :
    (execDirectRun w s).Keeps (lockBits s.regs) := by
  simp [execDirectRun, hl]

@[simp] theorem execClrrep_keeps (w : Word) (s : State) (hl : LockSet (lockBits s.regs)) :
    (execClrrep w s).Keeps (lockBits s.regs) := by
  simp [execClrrep, hl]

@[simp] theorem execTapInstruction_keeps (op : TapOp) (s : State) (hl : LockSet (lockBits s.regs)) :
    (execTapInstruction op s).Keeps (lockBits s.regs) := by
  simp [execTapInstruction, hl]

@[simp] theorem execXchg_keeps (w : Word) (now : Nat) (s : State) (hl : LockSet (lockBits s.regs)) :
    (execXchg w now s).Keeps (lockBits s.regs) :=
  hostRowAt_keeps ((s.at now).hostAccess_lockBits _ _ hl)

@[simp] theorem execSmsgSend_keeps (w : Word) (s : State) (hl : LockSet (lockBits s.regs)) :
    (execSmsgSend w s).Keeps (lockBits s.regs) := by
  simp [execSmsgSend, hl]

@[simp] theorem execSmsgRxLo_keeps (s : State) (hl : LockSet (lockBits s.regs)) : (execSmsgRxLo s).Keeps (lockBits s.regs) := by
  simp [execSmsgRxLo, hl]

@[simp] theorem execSmsgRxHi_keeps (s : State) (hl : LockSet (lockBits s.regs)) : (execSmsgRxHi s).Keeps (lockBits s.regs) := by
  simp [execSmsgRxHi, hl]

/-! ### Smith instructions of arithmetic and control (02 Table 2.8) -/

@[simp] theorem State.setDone_lockBits (s : State) (m : SmithId) (d : RegNo) (v : Word) :
    lockBits (s.setDone m d v).regs = lockBits s.regs := by
  simp [State.setDone]

@[simp] theorem regRegRow_keeps (op : Nat) (m : SmithId) (d a b : RegNo) (f : Word → Word → Word) (s : State) :
    (regRegRow op m d a b f s).Keeps (lockBits s.regs) := by
  simp [regRegRow]

@[simp] theorem regImmRow_keeps (op : Nat) (m : SmithId) (d a : RegNo) (imm : BitVec 14) (f : Word → Word) (s : State) :
    (regImmRow op m d a imm f s).Keeps (lockBits s.regs) := by
  simp [regImmRow]

@[simp] theorem branchRow_keeps (op : Nat) (m : SmithId) (a b : RegNo) (imm : BitVec 14) (c : Word → Word → Bool)
    (s : State) : (branchRow op m a b imm c s).Keeps (lockBits s.regs) := by
  simp [branchRow]

@[simp] theorem execAdd_keeps (m : SmithId) (d a b : RegNo) (s : State) : (execAdd m d a b s).Keeps (lockBits s.regs) := by
  simp [execAdd]

@[simp] theorem execSub_keeps (m : SmithId) (d a b : RegNo) (s : State) : (execSub m d a b s).Keeps (lockBits s.regs) := by
  simp [execSub]

@[simp] theorem execAnd_keeps (m : SmithId) (d a b : RegNo) (s : State) : (execAnd m d a b s).Keeps (lockBits s.regs) := by
  simp [execAnd]

@[simp] theorem execOr_keeps (m : SmithId) (d a b : RegNo) (s : State) : (execOr m d a b s).Keeps (lockBits s.regs) := by
  simp [execOr]

@[simp] theorem execXor_keeps (m : SmithId) (d a b : RegNo) (s : State) : (execXor m d a b s).Keeps (lockBits s.regs) := by
  simp [execXor]

@[simp] theorem execShl_keeps (m : SmithId) (d a b : RegNo) (s : State) : (execShl m d a b s).Keeps (lockBits s.regs) := by
  simp [execShl]

@[simp] theorem execShr_keeps (m : SmithId) (d a b : RegNo) (s : State) : (execShr m d a b s).Keeps (lockBits s.regs) := by
  simp [execShr]

@[simp] theorem execSra_keeps (m : SmithId) (d a b : RegNo) (s : State) : (execSra m d a b s).Keeps (lockBits s.regs) := by
  simp [execSra]

@[simp] theorem execMul_keeps (m : SmithId) (d a b : RegNo) (s : State) : (execMul m d a b s).Keeps (lockBits s.regs) := by
  simp [execMul]

@[simp] theorem execSlt_keeps (m : SmithId) (d a b : RegNo) (s : State) : (execSlt m d a b s).Keeps (lockBits s.regs) := by
  simp [execSlt]

@[simp] theorem execSltu_keeps (m : SmithId) (d a b : RegNo) (s : State) : (execSltu m d a b s).Keeps (lockBits s.regs) := by
  simp [execSltu]

@[simp] theorem execAddi_keeps (m : SmithId) (d a : RegNo) (imm : BitVec 14) (s : State) :
    (execAddi m d a imm s).Keeps (lockBits s.regs) := by
  simp [execAddi]

@[simp] theorem execAndi_keeps (m : SmithId) (d a : RegNo) (imm : BitVec 14) (s : State) :
    (execAndi m d a imm s).Keeps (lockBits s.regs) := by
  simp [execAndi]

@[simp] theorem execOri_keeps (m : SmithId) (d a : RegNo) (imm : BitVec 14) (s : State) :
    (execOri m d a imm s).Keeps (lockBits s.regs) := by
  simp [execOri]

@[simp] theorem execXori_keeps (m : SmithId) (d a : RegNo) (imm : BitVec 14) (s : State) :
    (execXori m d a imm s).Keeps (lockBits s.regs) := by
  simp [execXori]

@[simp] theorem execShli_keeps (m : SmithId) (d a : RegNo) (imm : BitVec 14) (s : State) :
    (execShli m d a imm s).Keeps (lockBits s.regs) := by
  simp [execShli]

@[simp] theorem execShri_keeps (m : SmithId) (d a : RegNo) (imm : BitVec 14) (s : State) :
    (execShri m d a imm s).Keeps (lockBits s.regs) := by
  simp [execShri]

@[simp] theorem execLui_keeps (m : SmithId) (d : RegNo) (imm : BitVec 18) (s : State) :
    (execLui m d imm s).Keeps (lockBits s.regs) := by
  simp [execLui]

@[simp] theorem execBeq_keeps (m : SmithId) (a b : RegNo) (imm : BitVec 14) (s : State) :
    (execBeq m a b imm s).Keeps (lockBits s.regs) := by
  simp [execBeq]

@[simp] theorem execBne_keeps (m : SmithId) (a b : RegNo) (imm : BitVec 14) (s : State) :
    (execBne m a b imm s).Keeps (lockBits s.regs) := by
  simp [execBne]

@[simp] theorem execBlt_keeps (m : SmithId) (a b : RegNo) (imm : BitVec 14) (s : State) :
    (execBlt m a b imm s).Keeps (lockBits s.regs) := by
  simp [execBlt]

@[simp] theorem execBge_keeps (m : SmithId) (a b : RegNo) (imm : BitVec 14) (s : State) :
    (execBge m a b imm s).Keeps (lockBits s.regs) := by
  simp [execBge]

@[simp] theorem execJal_keeps (m : SmithId) (d : RegNo) (imm : BitVec 14) (s : State) :
    (execJal m d imm s).Keeps (lockBits s.regs) := by
  simp [execJal]

@[simp] theorem execJr_keeps (m : SmithId) (a : RegNo) (imm : BitVec 14) (s : State) :
    (execJr m a imm s).Keeps (lockBits s.regs) := by
  simp [execJr]

@[simp] theorem execHalt_keeps (m : SmithId) (s : State) : (execHalt m s).Keeps (lockBits s.regs) := by
  simp [execHalt]

/-! ### Smith instructions of DRAM commands, pauses, PHY, time, synchronisation, slot tables and faults (02 Table 2.9) -/

@[simp] theorem State.withChan_lockBits (s : State) (m : SmithId) (x : Nat) {f : Chan → State}
    (hf : ∀ c, lockBits (f c).regs = lockBits s.regs) : lockBits (s.withChan m x f).regs = lockBits s.regs := by
  unfold State.withChan
  split
  · exact hf _
  · simp

@[simp] theorem State.cmdRefused_lockBits (s : State) (m : SmithId) (c : Chan) (d : RegNo) (w : Word) (cause : Nat) :
    lockBits (s.cmdRefused m c d w cause).regs = lockBits s.regs := by
  simp [State.cmdRefused]

@[simp] theorem State.cmdSend_regs (s : State) (m : SmithId) (c : Chan) (d : RegNo) (k : Code) (w : Word) :
    (s.cmdSend m c d k w).regs = s.regs := by
  simp [State.cmdSend]

@[simp] theorem State.cmdOn_lockBits (s : State) (m : SmithId) (d : RegNo) (w : Word) (c : Chan) :
    lockBits (s.cmdOn m d w c).regs = lockBits s.regs := by
  dsimp only [State.cmdOn]
  repeat' split
  all_goals simp -implicitDefEqProofs

@[simp] theorem execCmd_keeps (m : SmithId) (d a : RegNo) (imm : BitVec 14) (s : State) :
    (execCmd m d a imm s).Keeps (lockBits s.regs) := by
  simp [execCmd]

@[simp] theorem State.rdmrOn_lockBits (s : State) (m : SmithId) (d : RegNo) (c : Chan) :
    lockBits (s.rdmrOn m d c).regs = lockBits s.regs := by
  simp [State.rdmrOn]

@[simp] theorem execRdmr_keeps (m : SmithId) (d : RegNo) (imm : BitVec 14) (s : State) :
    (execRdmr m d imm s).Keeps (lockBits s.regs) := by
  simp [execRdmr]

@[simp] theorem State.pauseNow_lockBits (s : State) (m : SmithId) (d : RegNo) (n : Nat) (c : Chan) :
    lockBits (s.pauseNow m d n c).regs = lockBits s.regs := by
  simp [State.pauseNow]

@[simp] theorem State.pauseAsk_regs (s : State) (m : SmithId) (d : RegNo) (n : Nat) (c : Chan) :
    (s.pauseAsk m d n c).regs = s.regs := by
  simp [State.pauseAsk]

@[simp] theorem State.pauseOn_lockBits (s : State) (m : SmithId) (d : RegNo) (n : Nat) (c : Chan) :
    lockBits (s.pauseOn m d n c).regs = lockBits s.regs := by
  simp [State.pauseOn]

@[simp] theorem execPause_keeps (m : SmithId) (d a : RegNo) (imm : BitVec 14) (now : Nat) (s : State) :
    (execPause m d a imm now s).Keeps (lockBits s.regs) := by
  simp -implicitDefEqProofs [execPause]

@[simp] theorem State.endpOn_lockBits (s : State) (m : SmithId) (d : RegNo) (c : Chan) :
    lockBits (s.endpOn m d c).regs = lockBits s.regs := by
  unfold State.endpOn
  split <;> simp

@[simp] theorem execEndp_keeps (m : SmithId) (d a : RegNo) (s : State) : (execEndp m d a s).Keeps (lockBits s.regs) := by
  simp [execEndp]

@[simp] theorem State.dlyOn_regs (s : State) (m : SmithId) (l : Lanes) (code : BitVec 10) (c : Chan) :
    (s.dlyOn m l code c).regs = s.regs := by
  simp [State.dlyOn]

@[simp] theorem execDly_keeps (m : SmithId) (a b : RegNo) (s : State) : (execDly m a b s).Keeps (lockBits s.regs) := by
  simp [execDly]

@[simp] theorem execDlyEffect_keeps (m : SmithId) (ck : Nat) (s : State) : (execDlyEffect m ck s).Keeps (lockBits s.regs) := by
  unfold execDlyEffect
  split <;> simp

@[simp] theorem State.eyeOn_regs (s : State) (m : SmithId) (d : RegNo) (l : Lanes) (pattern : Nat) (c : Chan) :
    (s.eyeOn m d l pattern c).regs = s.regs := by
  simp [State.eyeOn]

@[simp] theorem execEye_keeps (m : SmithId) (d a b : RegNo) (s : State) : (execEye m d a b s).Keeps (lockBits s.regs) := by
  simp [execEye]

@[simp] theorem execEyeEnd_keeps (m : SmithId) (samples : List EyeSample) (s : State) :
    (execEyeEnd m samples s).Keeps (lockBits s.regs) := by
  unfold execEyeEnd
  split <;> simp

@[simp] theorem State.oscOn_regs (s : State) (m : SmithId) (d : RegNo) (l : Lanes) (c : Chan) :
    (s.oscOn m d l c).regs = s.regs := by
  simp [State.oscOn]

@[simp] theorem execOsc_keeps (m : SmithId) (d a : RegNo) (s : State) : (execOsc m d a s).Keeps (lockBits s.regs) := by
  simp [execOsc]

@[simp] theorem execOscEnd_keeps (m : SmithId) (lower upper : BitVec 16) (s : State) :
    (execOscEnd m lower upper s).Keeps (lockBits s.regs) := by
  unfold execOscEnd
  split <;> simp

@[simp] theorem execWck_keeps (m : SmithId) (a : RegNo) (imm : BitVec 14) (ck : Nat) (s : State) :
    (execWck m a imm ck s).Keeps (lockBits s.regs) := by
  simp [execWck]

@[simp] theorem execWckEnd_keeps (m : SmithId) (ck : Nat) (s : State) : (execWckEnd m ck s).Keeps (lockBits s.regs) := by
  unfold execWckEnd
  split <;> simp

@[simp] theorem execWns_keeps (m : SmithId) (a : RegNo) (imm : BitVec 14) (now : Nat) (s : State) :
    (execWns m a imm now s).Keeps (lockBits s.regs) := by
  simp -implicitDefEqProofs [execWns]

@[simp] theorem execWnsEnd_keeps (m : SmithId) (now : Nat) (s : State) : (execWnsEnd m now s).Keeps (lockBits s.regs) := by
  refine (keeps_next _ _).mpr (timed_lockBits ?_)
  split
  · cases chanOfSmith m <;> simp
  · simp

@[simp] theorem State.wevTry_lockBits (s : State) (m : SmithId) : lockBits (s.wevTry m).regs = lockBits s.regs := by
  unfold State.wevTry
  repeat' split
  all_goals simp

@[simp] theorem execWev_keeps (m : SmithId) (d a : RegNo) (imm : BitVec 14) (now : Nat) (s : State) :
    (execWev m d a imm now s).Keeps (lockBits s.regs) := by
  simp -implicitDefEqProofs [execWev]

@[simp] theorem execWevEnd_keeps (m : SmithId) (now : Nat) (s : State) : (execWevEnd m now s).Keeps (lockBits s.regs) := by
  simp [execWevEnd]

@[simp] theorem execSig_keeps (m : SmithId) (a : RegNo) (imm : BitVec 14) (s : State) :
    (execSig m a imm s).Keeps (lockBits s.regs) := by
  unfold execSig
  repeat' split
  all_goals simp -implicitDefEqProofs

@[simp] theorem State.wsigTry_lockBits (s : State) (m : SmithId) : lockBits (s.wsigTry m).regs = lockBits s.regs := by
  unfold State.wsigTry
  split <;> simp

@[simp] theorem execWsig_keeps (m : SmithId) (d a : RegNo) (imm : BitVec 14) (now : Nat) (s : State) :
    (execWsig m d a imm now s).Keeps (lockBits s.regs) := by
  simp -implicitDefEqProofs [execWsig]

@[simp] theorem execWsigEnd_keeps (m : SmithId) (now : Nat) (s : State) : (execWsigEnd m now s).Keeps (lockBits s.regs) := by
  simp [execWsigEnd]

@[simp] theorem State.slwOn_lockBits (s : State) (m : SmithId) (i : Nat) (x : Byte) (c : Chan) :
    lockBits (s.slwOn m i x c).regs = lockBits s.regs := by
  simp [State.slwOn]

@[simp] theorem execSlw_keeps (m : SmithId) (a b : RegNo) (imm : BitVec 14) (s : State) :
    (execSlw m a b imm s).Keeps (lockBits s.regs) := by
  simp [execSlw]

@[simp] theorem State.slcOn_lockBits (s : State) (m : SmithId) (d : RegNo) (t : Nat) (c : Chan) :
    lockBits (s.slcOn m d t c).regs = lockBits s.regs := by
  simp [State.slcOn]

@[simp] theorem execSlc_keeps (m : SmithId) (d a b : RegNo) (imm : BitVec 14) (now : Nat) (s : State) :
    (execSlc m d a b imm now s).Keeps (lockBits s.regs) := by
  simp -implicitDefEqProofs [execSlc]

@[simp] theorem execRaise_keeps (m : SmithId) (d a b : RegNo) (imm : BitVec 14) (s : State) :
    (execRaise m d a b imm s).Keeps (lockBits s.regs) := by
  simp [execRaise]

end Sys2Proof.Machine
end

section
/-! SUPPORT. The mapping lock: the programs of the reference Master Smith image, the mailbox, and memory accesses of a Smith. -/

namespace Sys2Proof.Machine

/-! ### What the programs of the reference Master Smith image decide (08 R271 to R286, 12 R422 to R429, 13 R447, R459 to R461,
17 R552 to R554) -/

@[simp] theorem State.lapseRecord_lockBits (s : State) (resume : Bool) (p : Nat) (w : Nat) :
    lockBits (s.lapseRecord resume p w).regs = lockBits s.regs := by
  simp [State.lapseRecord]

theorem State.lt_of_mem_byImportance {s : State} {p : Nat} (h : p ∈ s.byImportance) : p < 128 := by
  obtain ⟨r, -, hp⟩ := List.mem_flatMap.mp h
  exact List.mem_range.mp (List.mem_filter.mp hp).1

theorem State.lt_of_overloaded {s : State} {c : Chan} {p : Nat} (h : s.overloaded = some (c, p)) : p < 128 := by
  obtain ⟨d, -, hd⟩ := List.exists_of_findSome?_eq_some h
  dsimp only at hd
  split_ifs at hd
  obtain ⟨q, hq, heq⟩ := Option.map_eq_some_iff.mp hd
  obtain ⟨-, rfl⟩ := Prod.mk.inj heq
  exact State.lt_of_mem_byImportance (List.mem_reverse.mp (List.mem_of_find?_eq_some hq))

theorem State.lapsePort_lockBits (s : State) (c : Chan) {p : Nat} (hp : p < 128) :
    lockBits (s.lapsePort c p).regs = lockBits s.regs := by
  simp [State.lapsePort, lockMask_aLAPSE hp]

@[simp] theorem State.lapseAll_lockBits (s : State) (n : Nat) : lockBits (s.lapseAll n).regs = lockBits s.regs := by
  induction n generalizing s with
  | zero => rfl
  | succ n ih =>
    unfold State.lapseAll
    split
    · rfl
    · rename_i c p hover
      rw [ih, State.lapsePort_lockBits _ _ (State.lt_of_overloaded hover)]

theorem State.resumePort_lockBits (s : State) {p : Nat} (hp : p < 128) : lockBits (s.resumePort p).regs = lockBits s.regs := by
  simp [State.resumePort, lockMask_aLAPSE hp]

@[simp] theorem State.admission_lockBits (s : State) : lockBits s.admission.regs = lockBits s.regs := by
  unfold State.admission
  rw [foldl_lockBits_of_mem (fun p hp u => ?_), State.lapseAll_lockBits]
  split
  · exact u.resumePort_lockBits (State.lt_of_mem_byImportance (List.mem_filter.mp hp).1)
  · rfl

@[simp] theorem State.setri_lockBits (s : State) (i ri : Nat) (hl : LockSet (lockBits s.regs)) :
    lockBits (s.setri i ri).regs = lockBits s.regs := by
  unfold State.setri
  rw [foldl_lockBits_of_locked (fun u c hu => u.retrainWrite_lockBits c _ hu) _ (by simpa using hl), State.setBlock_regs]

@[simp] theorem State.thermo_lockBits (s : State) (hl : LockSet (lockBits s.regs)) :
    lockBits s.thermo.regs = lockBits s.regs := by
  simp [State.thermo, hl]

@[simp] theorem State.shedRun_lockBits (s : State) : lockBits s.shedRun.regs = lockBits s.regs := by
  simp [State.shedRun]

@[simp] theorem State.temperOutputs_lockBits (s : State) (a e : Nat) (hl : LockSet (lockBits s.regs)) :
    lockBits (s.temperOutputs a e).regs = lockBits s.regs := by
  unfold State.temperOutputs
  extract_lets code g thresh ri cap u v w
  have hv : lockBits v.regs = lockBits s.regs := u.vreqWrite_lockBits _ hl
  have hw : lockBits w.regs = lockBits s.regs := (foldl_lockBits (fun x c => by simp) _ _).trans hv
  rw [State.setri_lockBits _ _ _ (by simpa [hw] using hl)]
  simpa using hw

@[simp] theorem State.guardFall_lockBits (s : State) (was : Nat) : lockBits (s.guardFall was).regs = lockBits s.regs := by
  simp [State.guardFall]

@[simp] theorem State.temperRun_lockBits (s : State) (hl : LockSet (lockBits s.regs)) :
    lockBits s.temperRun.regs = lockBits s.regs := by
  simp [State.temperRun, hl]

@[simp] theorem State.temperMeasure_regs (s : State) : s.temperMeasure.regs = s.regs := by
  unfold State.temperMeasure
  split <;> simp

@[simp] theorem State.stewardWm_lockBits (s : State) (c : Chan) (hl : LockSet (lockBits s.regs)) :
    lockBits (s.stewardWm c).regs = lockBits s.regs := by
  simp -implicitDefEqProofs [State.stewardWm, hl]

@[simp] theorem State.stewardPf_lockBits (s : State) (c : Chan) : lockBits (s.stewardPf c).regs = lockBits s.regs := by
  simp [State.stewardPf]

@[simp] theorem State.stewardRi_lockBits (s : State) (hl : LockSet (lockBits s.regs)) :
    lockBits s.stewardRi.regs = lockBits s.regs := by
  simp [State.stewardRi, hl]

@[simp] theorem State.stewardTick_lockBits (s : State) (hl : LockSet (lockBits s.regs)) :
    lockBits s.stewardTick.regs = lockBits s.regs := by
  have hwm (u : State) (hu : LockSet (lockBits u.regs)) :
      lockBits (u.popChans.foldl (fun u c => u.stewardWm c) u).regs = lockBits u.regs :=
    foldl_lockBits_of_locked (fun v c hv => v.stewardWm_lockBits c hv) _ hu
  simp -implicitDefEqProofs [State.stewardTick, hwm, hl]

@[simp] theorem State.cmderrRecord_lockBits (s : State) : lockBits s.cmderrRecord.regs = lockBits s.regs := by
  unfold State.cmderrRecord
  split <;> simp

@[simp] theorem State.firstRecord_lockBits (s : State) : lockBits s.firstRecord.regs = lockBits s.regs := by
  simp [State.firstRecord]

@[simp] theorem State.peerRecord_lockBits (s : State) (i : Fin 4) : lockBits (s.peerRecord i).regs = lockBits s.regs := by
  simp [State.peerRecord]

@[simp] theorem State.skewRecord_lockBits (s : State) : lockBits s.skewRecord.regs = lockBits s.regs := by
  unfold State.skewRecord
  split <;> simp

@[simp] theorem State.gangSend_lockBits (s : State) (mask : Nat) (lo hi : Word) :
    lockBits (s.gangSend mask lo hi).regs = lockBits s.regs := by
  simp [State.gangSend]

@[simp] theorem State.overbooked_regs (s : State) (detail : Nat) : (s.overbooked detail).regs = s.regs := by
  simp [State.overbooked]

@[simp] theorem State.peerCommit_lockBits (s : State) (c : Chan) (peer : Nat) (lo : Word) :
    lockBits (s.peerCommit c peer lo).regs = lockBits s.regs := by
  simp [State.peerCommit]

@[simp] theorem State.gangMsg_lockBits (s : State) (m : BitVec 64 × BitVec 2) :
    lockBits (s.gangMsg m).regs = lockBits s.regs := by
  dsimp only [State.gangMsg]
  repeat' split
  all_goals simp -implicitDefEqProofs

@[simp] theorem State.gangRun_lockBits (s : State) : lockBits s.gangRun.regs = lockBits s.regs := by
  simp [State.gangRun]

/-! ### The mailbox commands as the reference images carry them out (08 R272 to R287), and the dispatch of events (02 R61, R62)
-/

@[simp] theorem State.setArg_lockBits (s : State) {n : Nat} (v : Nat) (hn : n < 4) :
    lockBits (s.setArg n v).regs = lockBits s.regs := by
  simp [State.setArg, hn]

@[simp] theorem State.done_snd (s : State) : s.done.2 = s := rfl

@[simp] theorem State.later_regs (s : State) (t : Task) : (s.later t).2.regs = s.regs := rfl

@[simp] theorem State.mboxReply_lockBits (r : Answer) (hl : LockSet (lockBits r.2.regs)) :
    lockBits (State.mboxReply r).regs = lockBits r.2.regs := by
  unfold State.mboxReply
  split
  · rfl
  · exact State.mboxStatus_lockBits _ _ hl

@[simp] theorem State.kindlePll_lockBits (s : State) (h : HearthId) (n : Nat) (hl : LockSet (lockBits s.regs)) :
    lockBits (s.kindlePll h n).regs = lockBits s.regs := by
  simp [State.kindlePll, hl]

@[simp] theorem State.kindleTiming_lockBits (s : State) (c : Chan) (hl : LockSet (lockBits s.regs)) :
    lockBits (s.kindleTiming c).regs = lockBits s.regs := by
  have htim := foldl_lockBits_of_locked
    (fun u n hu => u.typed_lockBits (aTIM c.val n) ((u.free n).setWidth 32) hu) (List.range 8) hl
  simp [State.kindleTiming, htim]

@[simp] theorem State.kindleRefresh_lockBits (s : State) (c : Chan) (hl : LockSet (lockBits s.regs)) :
    lockBits (s.kindleRefresh c).regs = lockBits s.regs := by
  simp [State.kindleRefresh, hl]

@[simp] theorem State.wakeRanks_regs (s : State) (c : Chan) : (s.wakeRanks c).regs = s.regs := by
  simp [State.wakeRanks]

@[simp] theorem State.kindleWake_regs (s : State) (c : Chan) : (s.kindleWake c).regs = s.regs := by
  simp [State.kindleWake]

@[simp] theorem State.kindleTrained_lockBits (s : State) (n : Nat) (failed : List Chan) (h : HearthId) :
    lockBits (s.kindleTrained n failed h).regs = lockBits s.regs := by
  simp [State.kindleTrained]

@[simp] theorem State.kindleBlock_regs (s : State) : s.kindleBlock.regs = s.regs := by
  simp [State.kindleBlock]

@[simp] theorem State.kindlePoint_lockBits (s : State) (n : Nat) (hl : LockSet (lockBits s.regs)) :
    lockBits (s.kindlePoint n).regs = lockBits s.regs := by
  exact foldl_lockBits_of_locked (fun u h hu => u.kindlePll_lockBits h n hu) _ hl

@[simp] theorem State.kindleChange_lockBits (s : State) (n : Nat) (hl : LockSet (lockBits s.regs)) :
    lockBits (s.kindleChange n).regs = lockBits s.regs := by
  have hfsp : (s.kindleChans.foldl (fun u c => (u.rankNos c).foldl (fun u r => u.progFsp c r n) u) s).regs = s.regs :=
    foldl_regs (fun u c => foldl_regs (fun v r => v.progFsp_regs c r n) _ u) _ s
  rw [State.kindleChange, State.kindlePoint_lockBits _ _ (by simpa only [hfsp] using hl), hfsp]

@[simp] theorem State.releaseReset_regs (s : State) (c : Chan) : (s.releaseReset c).regs = s.regs := by
  simp [State.releaseReset]

@[simp] theorem State.kindleAnswer_lockBits (s : State) (failed : List Chan) :
    lockBits (s.kindleAnswer failed).2.regs = lockBits s.regs := by
  dsimp only [State.kindleAnswer]
  split <;> simp

@[simp] theorem State.kindleEnd_lockBits (s : State) (failed : List Chan) (hl : LockSet (lockBits s.regs)) :
    lockBits (s.kindleEnd failed).2.regs = lockBits s.regs := by
  unfold State.kindleEnd
  extract_lets a u v w x
  have hu : lockBits u.regs = lockBits s.regs := s.kindleChange_lockBits _ hl
  have hv : lockBits v.regs = lockBits s.regs :=
    (foldl_lockBits_of_locked (fun y c hy => y.kindleTiming_lockBits c hy) _ (hu ▸ hl)).trans hu
  have hw : lockBits w.regs = lockBits s.regs := (v.rfmWrite_lockBits _ (hv ▸ hl)).trans hv
  have hx : lockBits x.regs = lockBits s.regs := by
    unfold x
    split <;> simp [hw]
  simp [hx]

@[simp] theorem State.kindleNext_lockBits (s : State) (failed : List Chan) (limit : Nat) (points : List Nat)
    (hl : LockSet (lockBits s.regs)) : lockBits (s.kindleNext failed limit points).2.regs = lockBits s.regs := by
  induction points generalizing s with
  | nil => simp [State.kindleNext, hl]
  | cons n rest ih =>
    have hchange := s.kindleChange_lockBits n hl
    dsimp only [State.kindleNext]
    split
    · rw [ih _ (hchange ▸ hl), hchange]
    · simp [hl]

@[simp] theorem State.kindleBring_lockBits (s : State) (limit : Nat) (points : List Nat) (hl : LockSet (lockBits s.regs)) :
    lockBits (s.kindleBring limit points).2.regs = lockBits s.regs := by
  simp [State.kindleBring, hl]

@[simp] theorem State.kindleSettle_lockBits (s : State) (points : List Nat) (limit : Nat) (hl : LockSet (lockBits s.regs)) :
    lockBits (s.kindleSettle points limit).regs = lockBits s.regs := by
  unfold State.kindleSettle
  extract_lets u
  have hu : u.regs = s.regs := foldl_regs (fun v c => v.releaseReset_regs c) _ s
  split
  · rw [State.mboxReply_lockBits _ (by rw [State.kindleBring_lockBits _ _ _ (hu ▸ hl), hu]; exact hl),
      State.kindleBring_lockBits _ _ _ (hu ▸ hl), hu]
  · rw [hu]

@[simp] theorem State.kindleRun_lockBits (s : State) (hl : LockSet (lockBits s.regs)) :
    lockBits s.kindleRun.2.regs = lockBits s.regs := by
  dsimp only [State.kindleRun]
  split
  · rfl
  · split <;> simp [hl]

@[simp] theorem State.slc_lockBits (s : State) (c : Chan) (t : Nat) (late : Bool) :
    lockBits (s.slc c t late).2.regs = lockBits s.regs := s.commit_lockBits c t

@[simp] theorem State.setLoad_lockBits (s : State) (l : Nat × Nat) : lockBits (s.setLoad l).regs = lockBits s.regs := by
  simp [State.setLoad]

@[simp] theorem State.gangCommit_lockBits (s : State) (c : Chan) (at64 : Nat) (l : Nat × Nat) (t : Told) :
    lockBits (s.gangCommit c at64 l t).2.regs = lockBits s.regs := by
  dsimp only [State.gangCommit]
  split
  · split <;> simp
  · simp

@[simp] theorem State.slotCommit_lockBits (s : State) (t : Told) : lockBits (s.slotCommit t).2.regs = lockBits s.regs := by
  dsimp only [State.slotCommit]
  repeat' split
  all_goals simp

@[simp] theorem State.setTarget_lockBits (s : State) : lockBits s.setTarget.2.regs = lockBits s.regs := by
  have hlabel : lockMask (regHome (aLabel (wbits (s.arg 0) 6 0) (wbits (s.arg 0) 12 8) 1)) = 0 :=
    lockMask_aLabel (wbits_lt _ 6 0) (wbits_lt _ 12 8) (by decide)
  dsimp only [State.setTarget]
  split <;> simp [hlabel]

@[simp] theorem State.ping_lockBits (s : State) : lockBits s.ping.2.regs = lockBits s.regs := by
  simp [State.ping]

@[simp] theorem State.shedFloor_lockBits (s : State) : lockBits s.shedFloor.2.regs = lockBits s.regs := by
  simp [State.shedFloor]

@[simp] theorem State.steward_lockBits (s : State) : lockBits s.steward.2.regs = lockBits s.regs := by
  simp [State.steward]

@[simp] theorem State.temperNow_lockBits (s : State) (hl : LockSet (lockBits s.regs)) :
    lockBits s.temperNow.2.regs = lockBits s.regs := by
  simp [State.temperNow, hl]

@[simp] theorem State.hear_lockBits (s : State) (e : Fin 3 × BitVec 128) : lockBits (s.hear e).regs = lockBits s.regs := by
  simp [State.hear]

@[simp] theorem State.rejoinAnswer_lockBits (s : State) : lockBits s.rejoinAnswer.2.regs = lockBits s.regs := by
  simp [State.rejoinAnswer]

@[simp] theorem State.gangRejoin_lockBits (s : State) (t : Told) : lockBits (s.gangRejoin t).2.regs = lockBits s.regs := by
  unfold State.gangRejoin
  split <;> simp

@[simp] theorem State.margin_regs (s : State) : s.margin.2.regs = s.regs := by
  simp [State.margin]

@[simp] theorem State.parkMaster_lockBits (s : State) : lockBits s.parkMaster.regs = lockBits s.regs := by
  simp [State.parkMaster]

@[simp] theorem State.parkEnd_lockBits (s : State) : lockBits s.parkEnd.2.regs = lockBits s.regs := by
  simp [State.parkEnd]

@[simp] theorem State.park_lockBits (s : State) : lockBits s.park.2.regs = lockBits s.regs := by
  unfold State.park
  split
  · simp
  · split <;> simp

@[simp] theorem State.noteMargin_regs (s : State) (c : Chan) (w : Nat × Nat × Nat) : (s.noteMargin c w).regs = s.regs := by
  simp [State.noteMargin]

@[simp] theorem State.takeReport_lockBits (s : State) (e : Chan × Report) (hl : LockSet (lockBits s.regs)) :
    lockBits (s.takeReport e).regs = lockBits s.regs := by
  dsimp only [State.takeReport]
  repeat' split
  all_goals simp -implicitDefEqProofs [hl]

@[simp] theorem State.taskDone_lockBits (s : State) (hl : LockSet (lockBits s.regs)) :
    lockBits s.taskDone.regs = lockBits s.regs := by
  unfold State.taskDone
  split
  · rename_i rest n failed limit _
    have htrained : lockBits (s.liveHearths.foldl (fun u h => u.kindleTrained n failed h) s).regs = lockBits s.regs :=
      foldl_lockBits (fun u h => u.kindleTrained_lockBits n failed h) _ s
    have hnext := State.kindleNext_lockBits _ failed limit rest (htrained ▸ hl)
    rw [State.mboxReply_lockBits _ (by rwa [hnext, htrained]), hnext, htrained]
  · simp [hl]
  · rfl

@[simp] theorem State.cancelMargin_regs (s : State) (c : Chan) : (s.cancelMargin c).regs = s.regs := by
  simp [State.cancelMargin]

@[simp] theorem State.taskTimeout_lockBits (s : State) (t : Task) (hl : LockSet (lockBits s.regs)) :
    lockBits (s.taskTimeout t).regs = lockBits s.regs := by
  unfold State.taskTimeout
  extract_lets u
  have hu : u.regs = s.regs := by
    unfold u
    split
    · exact s.cancelMargin_regs _
    all_goals rfl
  split
  · rw [State.mboxReply_lockBits _ (by rw [State.rejoinAnswer_lockBits, hu]; exact hl), State.rejoinAnswer_lockBits, hu]
  · rw [State.mboxReply_lockBits _ (hu ▸ hl), hu]

@[simp] theorem State.rejoinHeard_lockBits (s : State) (hl : LockSet (lockBits s.regs)) :
    lockBits s.rejoinHeard.regs = lockBits s.regs := by
  unfold State.rejoinHeard
  split <;> simp [hl]

@[simp] theorem State.taskClock_lockBits (s : State) (hl : LockSet (lockBits s.regs)) :
    lockBits s.taskClock.regs = lockBits s.regs := by
  unfold State.taskClock
  split
  · split
    · simp [hl]
    · split <;> simp [hl]
  · rfl

@[simp] theorem State.collect_lockBits (s : State) (hl : LockSet (lockBits s.regs)) :
    lockBits s.collect.regs = lockBits s.regs := by
  unfold State.collect
  extract_lets rs
  have hclock := s.taskClock_lockBits hl
  have hreports : lockBits (rs.foldl (fun u e => u.takeReport e) (s.taskClock.onProg (fun p => { p with reports := [] }))).regs =
      lockBits s.regs :=
    (foldl_lockBits_of_locked (fun u e hu => u.takeReport_lockBits e hu) _ (hclock ▸ hl)).trans hclock
  rw [State.taskDone_lockBits _ (hreports ▸ hl), hreports]

@[simp] theorem State.cancelTask_lockBits (s : State) (hl : LockSet (lockBits s.regs)) :
    lockBits s.cancelTask.regs = lockBits s.regs := by
  unfold State.cancelTask
  split <;> simp [hl]

@[simp] theorem State.parkAnvil_regs (s : State) (c : Chan) : (s.parkAnvil c).regs = s.regs := by
  simp [State.parkAnvil]

@[simp] theorem State.bankOutAnvil_lockBits (s : State) (c : Chan) : lockBits (s.bankOutAnvil c).regs = lockBits s.regs := by
  simp [State.bankOutAnvil]

@[simp] theorem State.carryOut_lockBits (s : State) (c : Chan) (o : Order) :
    lockBits (s.carryOut c o).regs = lockBits s.regs := by
  unfold State.carryOut
  split <;> simp

@[simp] theorem State.takeOrder_lockBits (s : State) (c : Chan) : lockBits (s.takeOrder c).regs = lockBits s.regs := by
  unfold State.takeOrder
  split <;> simp

@[simp] theorem State.handleAnvil_lockBits (s : State) (c : Chan) (n : Nat) :
    lockBits (s.handleAnvil c n).regs = lockBits s.regs := by
  unfold State.handleAnvil
  repeat' split
  all_goals simp

@[simp] theorem State.mboxCarry_lockBits (s : State) (code : Nat) (t : Told) (hl : LockSet (lockBits s.regs)) :
    lockBits (s.mboxCarry code t).2.regs = lockBits s.regs := by
  unfold State.mboxCarry
  split <;> simp [hl]

@[simp] theorem State.mboxAnswer_lockBits (s : State) (code : Nat) (t : Told) (hl : LockSet (lockBits s.regs)) :
    lockBits (s.mboxAnswer code t).2.regs = lockBits s.regs := by
  unfold State.mboxAnswer
  split_ifs <;> simp [hl]

@[simp] theorem State.mboxHandler_lockBits (s : State) (t : Told) (hl : LockSet (lockBits s.regs)) :
    lockBits (s.mboxHandler t).regs = lockBits s.regs := by
  simp [State.mboxHandler, hl]

@[simp] theorem State.handle_lockBits (s : State) (n : Nat) (hl : LockSet (lockBits s.regs)) :
    lockBits (s.handle n).regs = lockBits s.regs := by
  unfold State.handle
  split <;> simp [hl]

@[simp] theorem State.takeEvent_regs (s : State) (m : SmithId) (n : Fin 16) : (s.takeEvent m n).regs = s.regs := by
  simp [State.takeEvent]

@[simp] theorem State.dispatchReference_lockBits (s : State) (m : SmithId) (hl : LockSet (lockBits s.regs)) :
    lockBits (s.dispatchReference m).regs = lockBits s.regs := by
  unfold State.dispatchReference
  split
  · dsimp only
    split <;> simp [hl]
  · rfl

@[simp] theorem execEventDispatch_keeps (m : SmithId) (s : State) (hl : LockSet (lockBits s.regs)) :
    (execEventDispatch m s).Keeps (lockBits s.regs) := by
  simp [execEventDispatch, hl]

@[simp] theorem State.mboxServe_lockBits (s : State) (t : Told) (hl : LockSet (lockBits s.regs)) :
    lockBits (s.mboxServe t).regs = lockBits s.regs := by
  simp [State.mboxServe, hl]

@[simp] theorem State.mboxIssue_lockBits (s : State) (seq : Byte) (code : Nat) (args : List Word) (t : Told)
    (hl : LockSet (lockBits s.regs)) : lockBits (s.mboxIssue seq code args t).regs = lockBits s.regs := by
  have hargs := foldl_lockBits_of_locked
    (fun u (e : Word × Nat) hu => u.hostWrite_lockBits (aMBOX_ARG e.2) e.1 hu) args.zipIdx hl
  dsimp only [State.mboxIssue]
  split <;> simp [hargs, hl]

@[simp] theorem mboxRow_keeps (seq : Byte) (code : Nat) (args : List Word) (t : Told) (s : State)
    (hl : LockSet (lockBits s.regs)) : (mboxRow seq code args t s).Keeps (lockBits s.regs) :=
  hostRow_keeps (s.mboxIssue_lockBits seq code args t hl)

@[simp] theorem mboxRowAt_keeps (now : Nat) (seq : Byte) (code : Nat) (args : List Word) (t : Told) (s : State)
    (hl : LockSet (lockBits s.regs)) : (mboxRowAt now seq code args t s).Keeps (lockBits s.regs) :=
  hostRowAt_keeps ((s.at now).mboxIssue_lockBits seq code args t hl)

@[simp] theorem execPing_keeps (seq : Byte) (s : State) (hl : LockSet (lockBits s.regs)) :
    (execPing seq s).Keeps (lockBits s.regs) := by
  simp [execPing, hl]

@[simp] theorem execKindleRun_keeps (seq : Byte) (arg0 arg1 : Word) (now : Nat) (s : State)
    (hl : LockSet (lockBits s.regs)) : (execKindleRun seq arg0 arg1 now s).Keeps (lockBits s.regs) := by
  simp [execKindleRun, hl]

@[simp] theorem execSlotCommit_keeps (seq : Byte) (arg0 arg1 arg2 : Word) (votes : List (Fin 4 × Word)) (late : Bool)
    (now : Nat) (s : State) (hl : LockSet (lockBits s.regs)) :
    (execSlotCommit seq arg0 arg1 arg2 votes late now s).Keeps (lockBits s.regs) := by
  simp [execSlotCommit, hl]

@[simp] theorem execSetTarget_keeps (seq : Byte) (arg0 arg1 : Word) (s : State) (hl : LockSet (lockBits s.regs)) :
    (execSetTarget seq arg0 arg1 s).Keeps (lockBits s.regs) := by
  simp [execSetTarget, hl]

@[simp] theorem execShedFloor_keeps (seq : Byte) (arg0 : Word) (s : State) (hl : LockSet (lockBits s.regs)) :
    (execShedFloor seq arg0 s).Keeps (lockBits s.regs) := by
  simp [execShedFloor, hl]

@[simp] theorem execSteward_keeps (seq : Byte) (arg0 arg1 : Word) (s : State) (hl : LockSet (lockBits s.regs)) :
    (execSteward seq arg0 arg1 s).Keeps (lockBits s.regs) := by
  simp [execSteward, hl]

@[simp] theorem execTemperNow_keeps (seq : Byte) (now : Nat) (s : State) (hl : LockSet (lockBits s.regs)) :
    (execTemperNow seq now s).Keeps (lockBits s.regs) := by
  simp [execTemperNow, hl]

@[simp] theorem execGangRejoin_keeps (seq : Byte) (heard : List (Fin 3 × BitVec 128)) (now : Nat) (s : State)
    (hl : LockSet (lockBits s.regs)) : (execGangRejoin seq heard now s).Keeps (lockBits s.regs) := by
  simp [execGangRejoin, hl]

@[simp] theorem execMargin_keeps (seq : Byte) (arg0 arg1 arg2 arg3 : Word) (now : Nat) (s : State)
    (hl : LockSet (lockBits s.regs)) : (execMargin seq arg0 arg1 arg2 arg3 now s).Keeps (lockBits s.regs) := by
  simp [execMargin, hl]

@[simp] theorem execPark_keeps (seq : Byte) (arg0 : Word) (now : Nat) (s : State) (hl : LockSet (lockBits s.regs)) :
    (execPark seq arg0 now s).Keeps (lockBits s.regs) := by
  simp [execPark, hl]

/-! ### Smith instructions of memory and register access (02 Table 2.8, R53 to R59, R67) -/

@[simp] theorem execLdw_keeps (m : SmithId) (d a : RegNo) (imm : BitVec 14) (s : State) :
    (execLdw m d a imm s).Keeps (lockBits s.regs) := by
  simp [execLdw]

@[simp] theorem execStw_keeps (m : SmithId) (d a : RegNo) (imm : BitVec 14) (s : State) :
    (execStw m d a imm s).Keeps (lockBits s.regs) := by
  simp [execStw]

@[simp] theorem State.localWrite_regs (s : State) (m : SmithId) (x : Nat) (w : Word) : (s.localWrite m x w).regs = s.regs := by
  simp [State.localWrite]

@[simp] theorem State.csrRead_lockBits (s : State) (m : SmithId) (x : Nat) :
    lockBits (s.csrRead m x).2.regs = lockBits s.regs := by
  unfold State.csrRead
  split <;> simp

@[simp] theorem State.csrWrite_lockBits (s : State) (m : SmithId) (x : Nat) (w : Word) (hl : LockSet (lockBits s.regs)) :
    lockBits (s.csrWrite m x w).regs = lockBits s.regs := by
  simp [State.csrWrite, hl]

@[simp] theorem State.doneIfRunning_lockBits (s : State) (m : SmithId) :
    lockBits (s.doneIfRunning m).regs = lockBits s.regs := by
  simp [State.doneIfRunning]

@[simp] theorem execCsrr_keeps (m : SmithId) (d a : RegNo) (imm : BitVec 14) (now : Nat) (s : State) :
    (execCsrr m d a imm now s).Keeps (lockBits s.regs) := by
  simp [execCsrr]

@[simp] theorem execCsrw_keeps (m : SmithId) (a b : RegNo) (imm : BitVec 14) (now : Nat) (s : State)
    (hl : LockSet (lockBits s.regs)) : (execCsrw m a b imm now s).Keeps (lockBits s.regs) := by
  simp -implicitDefEqProofs [execCsrw, hl]

@[simp] theorem State.rmw_lockBits (s : State) (set : Bool) (m : SmithId) (d b : RegNo) (x : Nat)
    (hl : LockSet (lockBits s.regs)) : lockBits (s.rmw set m d b x).regs = lockBits s.regs := by
  simp [State.rmw, hl]

@[simp] theorem execCsrs_keeps (m : SmithId) (d a b : RegNo) (imm : BitVec 14) (now : Nat) (s : State)
    (hl : LockSet (lockBits s.regs)) : (execCsrs m d a b imm now s).Keeps (lockBits s.regs) := by
  simp -implicitDefEqProofs [execCsrs, hl]

@[simp] theorem execCsrc_keeps (m : SmithId) (d a b : RegNo) (imm : BitVec 14) (now : Nat) (s : State)
    (hl : LockSet (lockBits s.regs)) : (execCsrc m d a b imm now s).Keeps (lockBits s.regs) := by
  simp -implicitDefEqProofs [execCsrc, hl]

end Sys2Proof.Machine
end

section
/-! SUPPORT. The mapping lock at every step (04 R170, 18 R565, R566). -/

namespace Sys2Proof.Machine

/-! ### The core comes up again (18 R565) -/

theorem SMap.get_of_forall_lt {β : Type} {d : Nat → β} {m : List (Nat × β)} {k : Nat} (h : ∀ e ∈ m, k < e.1) :
    SMap.get d m k = d k := by
  induction m with
  | nil => rfl
  | cons e m ih =>
    have hk : k < e.1 := h e (List.mem_cons_self ..)
    rw [SMap.get, if_neg (Nat.ne_of_lt hk), ih fun x hx => h x (List.mem_cons_of_mem _ hx)]

/-- A canonical memory whose words are all rewritten reads at each address what it read, or that rewritten. -/
theorem SMap.get_map_filter {β : Type} [DecidableEq β] {d : Nat → β} (g : Nat → β → β) {m : List (Nat × β)}
    (hm : SMap.rising m = true) (k : Nat) :
    let new := SMap.get d ((m.map (fun e => (e.1, g e.1 e.2))).filter (fun e => e.2 != d e.1)) k
    new = SMap.get d m k ∨ new = g k (SMap.get d m k) := by
  induction m with
  | nil => exact .inl rfl
  | cons e m ih =>
    obtain ⟨a, v⟩ := e
    have hrest := ih (SMap.rising_tail hm)
    by_cases hk : k = a
    · subst hk
      right
      by_cases hv : g k v = d k
      · have habove : ∀ e ∈ (m.map (fun e => (e.1, g e.1 e.2))).filter (fun e => e.2 != d e.1), k < e.1 := by
          intro e he
          obtain ⟨x, hx, rfl⟩ := List.mem_map.mp (List.mem_of_mem_filter he)
          exact SMap.rising_head hm x hx
        simp [SMap.get, hv, SMap.get_of_forall_lt habove]
      · simp [SMap.get, hv]
    · by_cases hv : g a v = d a
      · simpa [SMap.get, hv, hk] using hrest
      · simpa [SMap.get, hv, hk] using hrest

theorem exitWord_of_lockMask {a : Nat} (w : Word) (h : lockMask a ≠ 0) : exitWord a w = w := by
  have hglobal : ∀ b ∈ mapRegs, fltReset b = false ∧ bankedReach b = true := by decide
  suffices hkept : fltReset a = false ∧ bankedReach a = true by simp [exitWord, hkept]
  rcases lockMask_ne_zero h with hmap | ⟨hlo, hhi, hmod⟩
  · exact hglobal a hmap
  · constructor
    · have hout : ¬ a ≤ 0x1040 := by omega
      simp [fltReset, hout]
    · simp [bankedReach, hlo, hhi, hmod]

theorem State.setFld_wf {s : State} (a hi lo v : Nat) (h : Memory.wf resetWord s.regs = true) :
    Memory.wf resetWord (s.setFld a hi lo v).regs = true := by
  rw [State.setFld_regs]
  exact Memory.wf_set _ _ h

theorem State.coreOff_wf {s : State} (h : Memory.wf resetWord s.regs = true) : Memory.wf resetWord s.coreOff.regs = true :=
  foldl_keeps (P := fun t => Memory.wf resetWord t.regs = true) (fun _ _ hu => State.setFld_wf _ _ _ _ hu) _ h

theorem State.exitRegs_lockBits {s : State} (h : Memory.wf resetWord s.regs = true) :
    lockBits s.exitRegs.regs = lockBits s.regs := by
  have hrising : SMap.rising s.regs = true := by
    rw [Memory.wf, Bool.and_eq_true] at h
    exact h.1
  have hmap : lockBits ((s.regs.map (fun e => (e.1, exitWord e.1 e.2))).filter (fun e => e.2 != resetWord e.1)) =
      lockBits s.regs := by
    funext a
    by_cases ha : lockMask a = 0
    · simp [lockBits, ha]
    · rcases SMap.get_map_filter (d := resetWord) exitWord hrising a with hsame | hexit
      · simp only [lockBits, hsame]
      · simp only [lockBits, hexit, exitWord_of_lockMask _ ha]
  exact (foldl_lockBits_of_mem (fun k hk u => by simp [lockMask_aSWD_ACTIVE (List.mem_range.mp hk)]) _).trans hmap

theorem State.coreOn_lockBits {s : State} (h : Memory.wf resetWord s.regs = true) :
    lockBits s.coreOn.regs = lockBits s.regs := by
  unfold State.coreOn
  extract_lets u v w x y z
  have hu : Memory.wf resetWord u.regs = true ∧ lockBits u.regs = lockBits s.regs := by
    simp only [u, State.repairNow_regs]
    split
    · exact ⟨h, rfl⟩
    · exact ⟨State.coreOff_wf h, s.coreOff_lockBits⟩
  have hv : lockBits v.regs = lockBits s.regs := (State.exitRegs_lockBits (s := u.onModes _) hu.1).trans hu.2
  have hz : lockBits z.regs = lockBits s.regs := by
    simp [z, y, x, w, hv]
  rw [foldl_lockBits (fun u m => u.wakeSmith_lockBits m), hz]

theorem execPowerGateAck_keeps {s : State} (h : Memory.wf resetWord s.regs = true) :
    (execPowerGateAck s).Keeps (lockBits s.regs) := by
  refine (keeps_next _ _).mpr ?_
  split
  · simp
  · split
    · exact State.coreOn_lockBits h
    · rfl

/-! ### Every command, and the step -/

/-- Each command by the lemma of its row; POWER_GATE_ACK alone needs the canonical memory. -/
theorem exec_keeps {i : Instr} {s : State} (hi : i ≠ .resetAssert) (hwf : Memory.wf resetWord s.regs = true)
    (hl : LockSet (lockBits s.regs)) : Out.Keeps (exec i s) (lockBits s.regs) := by
  cases i with
  | resetAssert => exact absurd rfl hi
  | powerGateAck => exact execPowerGateAck_keeps hwf
  | _ => simp [exec, hl]

/-- What LOCKED protects changes at RST_N only (04 R170, 18 R565). -/
theorem step_lockBits {s t : State} (hwf : Memory.wf resetWord s.regs = true) (hl : LockSet (lockBits s.regs))
    (hi : s.pending.head? ≠ some .resetAssert) (hstep : step s = .next t) : lockBits t.regs = lockBits s.regs := by
  unfold step at hstep
  split at hstep
  · cases hstep
    exact s.idle_lockBits hl
  · rename_i i rest hpending
    have hne : i ≠ .resetAssert := fun h => hi (by rw [hpending, h]; rfl)
    exact exec_keeps (s := { s with pending := rest }) hne hwf hl t hstep

theorem rd_and_eq_of_lockBits {s t : State} (h : lockBits t.regs = lockBits s.regs) {a : Nat} {w : Word}
    (hmask : w &&& ~~~lockMask (regHome a) = 0) : t.rd a &&& w = s.rd a &&& w := by
  have hsub : w = lockMask (regHome a) &&& w := by
    refine BitVec.eq_of_getLsbD_eq fun i hi => ?_
    have hbit := congrArg (fun x => x.getLsbD i) hmask
    simp only [BitVec.getLsbD_and, BitVec.getLsbD_not] at hbit
    cases hw : w.getLsbD i <;> simp_all
  have hword : t.rd a &&& lockMask (regHome a) = s.rd a &&& lockMask (regHome a) := congrFun h (regHome a)
  rw [hsub, ← BitVec.and_assoc, hword, BitVec.and_assoc]

theorem regHome_aMAP (c : Nat) : regHome (aMAP c) = aMAP c := if_neg (by unfold aMAP aAnv; omega)

theorem lockMask_aMAP (c : Chan) : lockMask (aMAP c.val) = 0x1F33 := by
  revert c
  decide

/-- RST_N clears LOCKED (18 R566). -/
theorem State.resetAll_locked (s : State) : s.resetAll.flag aCAP 31 = false := by
  have hne : regHome aCAP ≠ regHome aMODE ∧ regHome aCAP ≠ regHome aAST_STAT := by decide
  have hrd : s.resetAll.rd aCAP = State.reset.rd aCAP := by
    simp [State.resetAll, State.rd, hne, State.setFlag_regs, State.wr_regs]
  rw [State.flag, hrd]
  decide

/-- Settles O58: `exec_keeps` goes through the commands, and only the BANKED exit needs the canonical memory. -/
theorem lockedMappingChangesOnlyAtReset : Obligations.LockedMappingChangesOnlyAtReset := by
  unfold Obligations.LockedMappingChangesOnlyAtReset
  intro s t hwf hlocked hstep
  refine ⟨fun hi => ?_, fun hi hpins => ?_⟩
  · have hl : LockSet (lockBits s.regs) := (lockSet_iff s).mpr hlocked
    have hkept : lockBits t.regs = lockBits s.regs := step_lockBits hwf hl hi hstep
    refine ⟨(lockSet_iff t).mp (hkept ▸ hl), rd_and_eq_of_lockBits hkept (by decide), rd_and_eq_of_lockBits hkept (by decide),
      fun n hn => rd_and_eq_of_lockBits hkept ?_, rd_and_eq_of_lockBits hkept (by decide),
      fun c => rd_and_eq_of_lockBits hkept ?_⟩
    · revert n
      decide
    · rw [regHome_aMAP, lockMask_aMAP]
      decide
  · unfold step at hstep
    split at hstep
    · rename_i hnone
      simp [hnone] at hi
    · rename_i i rest hpending
      obtain rfl : i = .resetAssert := by simpa [hpending] using hi
      have ht : t = State.resetAll { s with pending := rest } := by
        simpa [exec, execResetAssert, hpins] using hstep.symm
      rw [ht, State.resetAll_locked]

end Sys2Proof.Machine
end

section
/-! SUPPORT. Commands of the slot that the rules keep from issuing (05 R182, R206, 07 R244). -/

namespace Sys2Proof.Machine

/-- The order of the slot names commands of the slot alone (R182). -/
theorem State.mem_slot_of_mem_slotOrder {s : State} {c : Chan} {l : Cmd} (h : l ∈ s.slotOrder c) : l ∈ s.anvils[c].slot := by
  unfold State.slotOrder at h
  split at h
  next a b hslot =>
    rw [hslot]
    dsimp only at h
    split at h
    · exact List.mem_pair.mpr (List.mem_pair.mp h).symm
    · exact h
  next => exact h

/-- Where no command of the slot may issue, none does. -/
theorem State.issuing_eq_none {s : State} {c : Chan} {ck : Nat} (code : Code)
    (h : ∀ l ∈ s.anvils[c].slot, s.mayIssue c l ck = false) : s.issuing c code ck = none := by
  have hbarred : ∀ l ∈ s.slotOrder c, s.mayIssue c l ck = false := fun l hl => h l (State.mem_slot_of_mem_slotOrder hl)
  unfold State.issuing
  split
  next => rfl
  next a more horder =>
    rw [horder, List.forall_mem_cons] at hbarred
    obtain ⟨ha, hmore⟩ := hbarred
    rw [if_neg (by simp [ha]), List.find?_eq_none]
    intro b hb
    simp [hmore b hb]

/-- A command row changes nothing where no command of its code issues. -/
theorem exec_commandRow_of_none {s : State} {c : Chan} {ck now : Nat} (h : ∀ code, s.issuing c code ck = none) {i : Instr}
    (hi : i ∈ commandRows c ck now) : exec i s = .next s := by
  simp only [commandRows, List.mem_cons, List.not_mem_nil, or_false] at hi
  rcases hi with rfl | rfl | rfl | rfl | rfl | rfl | rfl | rfl | rfl | rfl | rfl | rfl | rfl | rfl | rfl <;>
    simp only [exec, execAct, execPre, execPrea, execRd, execWr, execRefpb, execRefab, execRfm, execMrw, execMrr, execMpc, execSre,
      execSrx, execPde, execPdx, h]

/-- No command issues while the PLL is unlocked (07 R244). -/
theorem State.mayIssue_of_unlocked {s : State} {c : Chan} (l : Cmd) (ck : Nat) (h : s.pllLock c = false) :
    s.mayIssue c l ck = false := by
  simp [State.mayIssue, h]

/-- The distance from an ACT to a RD or WR of its bank is tRCD at least (Table 5.5). -/
theorem Anvil.trcd_le_gap (v : Anvil) (bg : Bool) {e : Issued} {l : Cmd} (he : e.code = .act) (hl : l.code = .rd ∨ l.code = .wr)
    (hrank : e.rank = l.rank) (hbank : e.bank = l.bank) : v.trcd ≤ v.gap bg e l := by
  have hburst : (l.code == .rd || l.code == .wr) = true := by simpa using hl
  simp only [Anvil.gap, he, hrank, hbank, hburst, beq_self_eq_true, Bool.and_self, if_true, List.foldl_cons]
  simp

/-- A rule that an earlier command leaves unsatisfied does not allow a command (R206). -/
theorem Anvil.allowed_of_gap {v : Anvil} {bg : Bool} {l : Cmd} {ck : Nat} {e : Issued} (he : e ∈ v.hist)
    (hbounds : e.bounds l = true) (hgap : ck < e.ck + v.gap bg e l) : v.allowed bg l ck = false := by
  have hearly : v.hist.all (fun e => (!e.bounds l || decide (e.ck + v.gap bg e l ≤ ck)) && v.dqClear e l ck) = false :=
    List.all_eq_false.mpr ⟨e, he, by simp [hbounds, Nat.not_le.mpr hgap]⟩
  simp only [Anvil.allowed, hearly, Bool.and_false, Bool.false_and]

theorem State.mayIssue_of_not_allowed {s : State} {c : Chan} {l : Cmd} {ck : Nat}
    (h : s.anvils[c].allowed (s.bgMode c) l ck = false) : s.mayIssue c l ck = false := by
  simp only [State.mayIssue, h, Bool.and_false, Bool.false_and]

/-- Settles O27: what keeps every command of the slot from issuing leaves `State.issuing` empty-handed, and an unlocked PLL
and tRCD do. -/
theorem noCommandIssuesAgainstTheTimingRules : Obligations.NoCommandIssuesAgainstTheTimingRules := by
  unfold Obligations.NoCommandIssuesAgainstTheTimingRules
  intro s c ck now i hi
  have hbarred : (∀ l ∈ s.anvils[c].slot, s.mayIssue c l ck = false) → exec i s = .next s := fun h =>
    exec_commandRow_of_none (fun code => State.issuing_eq_none code h) hi
  refine ⟨hbarred, fun hpll => hbarred (fun l _ => State.mayIssue_of_unlocked l ck hpll), ?_⟩
  intro l e hslot hl he hact hrank hbank hck
  have htrcd := s.anvils[c].trcd_le_gap (s.bgMode c) hact hl hrank hbank
  refine hbarred (fun l' hl' => ?_)
  obtain rfl : l' = l := List.mem_singleton.mp (hslot ▸ hl')
  exact State.mayIssue_of_not_allowed (Anvil.allowed_of_gap he (by simp [Issued.bounds, hact]) (by omega))

end Sys2Proof.Machine
end

section
/-! SUPPORT. The issue of ACT, PRE, PREA, REFPB, REFAB and RFM (05 R174, R206, 06 R228 to R240). -/

namespace Sys2Proof.Machine

/-! ### Tables of the banks -/

/-- The page register of a bank. -/
theorem Anvil.page_eq (v : Anvil) {r b : Nat} (hr : r < 2) (hb : b < 16) : v.page r b = v.pages[16 * r + b] := by
  have hlt : 16 * r + b < 32 := by omega
  simp [Anvil.page, List.getD_eq_getElem?_getD, hlt]

/-- The page registers after a write of one. -/
theorem Anvil.page_setPage (v : Anvil) (rank bank : Nat) (row : Option Nat) {r b : Nat} (hbank : bank < 16) (hr : r < 2)
    (hb : b < 16) : (v.setPage rank bank row).page r b = if r = rank ∧ b = bank then row else v.page r b := by
  have hiff : 16 * r + b = 16 * rank + bank ↔ r = rank ∧ b = bank := by omega
  simp only [Anvil.page_eq _ hr hb, Anvil.setPage, Vector.getElem_mapIdx, hiff]

/-- The RAA of a bank after a change of all. -/
theorem Anvil.raaOf_mapRaa (v : Anvil) (f : Nat → Nat → Nat) {r b : Nat} (hr : r < 2) (hb : b < 16) :
    (v.mapRaa f).raaOf r b = f (16 * r + b) (v.raaOf r b) := by
  have hlt : 16 * r + b < 32 := by omega
  simp [Anvil.raaOf, Anvil.mapRaa, List.getD_eq_getElem?_getD, hlt]

@[simp] theorem Anvil.mapRaa_id (v : Anvil) : v.mapRaa (fun _ n => n) = v := by
  have hraa : v.raa.mapIdx (fun _ n => n) = v.raa := Vector.ext (fun i hi => by rw [Vector.getElem_mapIdx])
  rw [Anvil.mapRaa, hraa]

/-- A key that has been inserted is found. -/
theorem SMap.lookup_insert {β : Type} (m : List (Nat × β)) (k : Nat) (x : β) : (SMap.insert m k x).lookup k = some x := by
  induction m with
  | nil => simp [SMap.insert]
  | cons e m ih =>
    obtain ⟨k', y⟩ := e
    simp only [SMap.insert]
    split_ifs with hlt heq
    · simp
    · simp
    · simpa [List.lookup_cons, beq_false_of_ne heq] using ih

/-- The table of a bank after a write of it. -/
theorem Anvil.table_setTable (v : Anvil) (rank bank : Nat) (t : List (Nat × Nat)) : (v.setTable rank bank t).table rank bank = t := by
  simp [Anvil.table, Anvil.setTable, SMap.lookup_insert]

/-! ### The end of a Smith's CMD (02 R73) -/

/-- The Smith that a command comes from. -/
def Cmd.smithPart (l : Cmd) (x : Part) : Prop := ∃ m, l.src = .smith m ∧ x = .smith m

/-- The Smith that waits for a command completes after its issue, whatever else the issue has done outside the Smiths and
their images. -/
theorem cmdDone_completes {P : Part → Prop} {s u : State} {l : Cmd} (hd : driver s l) (hu : Only P s u)
    (hsmith : ∀ m, ¬ P (.smith m)) (hMS : ¬ P .imageMS) (hAS : ¬ P .imageAS) :
    completes s (u.cmdDone l.src) l ∧ Only l.smithPart u (u.cmdDone l.src) := by
  cases hsrc : l.src with
  | smith m =>
    obtain ⟨d, x, hwait, hgo⟩ := hd m hsrc
    have hm : u.smiths[m] = s.smiths[m] := hu (.smith m) (hsmith m)
    have hdone : u.cmdDone (.smith m) = u.setDone m d 0 := by
      simp only [State.cmdDone, hm, hwait]
      rfl
    have hfin := hgo.setDone_of_only hu (hsmith m) hMS hAS d 0
    rw [hdone]
    refine ⟨fun n e y hn hy => ?_, hfin.only.mono (fun _ hp => ⟨m, hsrc, hp⟩)⟩
    obtain rfl : m = n := CmdSrc.smith.inj (hsrc.symm.trans hn)
    obtain ⟨rfl, rfl⟩ := Wait.cmd.inj (Option.some.inj (hwait.symm.trans hy))
    exact ⟨fun z => (hfin.1 z).trans (by rw [State.g_congr (s := s) (by rw [hm])]), hfin.run, by rw [hfin.smith], hfin.pc⟩
  | _ => exact ⟨fun m d x hm => by simp [hsrc] at hm, Only.refl _ u⟩

/-- The frame of an issue at anvil `c` and of the end of the CMD that it comes from. -/
theorem Only.issueParts {s u t : State} {c : Chan} {l : Cmd} (h : Only (· = .anvil c) s u) (h' : Only l.smithPart u t) :
    Only (issueParts c l) s t := h.seq h'

/-- The anvils are as before the end of a CMD. -/
theorem anvil_of_smithPart {u t : State} {l : Cmd} (h : Only l.smithPart u t) (c : Chan) : t.anvils[c] = u.anvils[c] :=
  h (.anvil c) (by simp [Cmd.smithPart])

/-! ### The slot, the history and the page registers -/

/-- The slot of an anvil, its history and its page registers. -/
def Anvil.stage (v : Anvil) : List Cmd × List Issued × Nat × Vector (Option Nat) 32 := (v.slot, v.hist, v.ck, v.pages)

theorem Anvil.page_of_stage {v w : Anvil} (h : w.stage = v.stage) (rank bank : Nat) : w.page rank bank = v.page rank bank := by
  have hpages : w.pages = v.pages := congrArg (fun x => x.2.2.2) h
  rw [Anvil.page, hpages, Anvil.page]

/-- A step at an anvil that leaves its slot, its history and its page registers. -/
def KeepsStage (c : Chan) (s t : State) : Prop := Only (· = .anvil c) s t ∧ t.anvils[c].stage = s.anvils[c].stage

theorem KeepsStage.refl (c : Chan) (s : State) : KeepsStage c s s := ⟨Only.refl _ s, rfl⟩

theorem KeepsStage.trans {c : Chan} {s t u : State} (h : KeepsStage c s t) (h' : KeepsStage c t u) : KeepsStage c s u :=
  ⟨h.1.trans h'.1, h'.2.trans h.2⟩

theorem KeepsStage.onAnvil {s : State} {c : Chan} {f : Anvil → Anvil} (h : (f s.anvils[c]).stage = s.anvils[c].stage) :
    KeepsStage c s (s.onAnvil c f) := ⟨onAnvil_only s c f, by rwa [State.onAnvil_get]⟩

/-! ### The command leaves the slot (R182, R206) -/

/-- An anvil after the issue of a command, with the ZQ codes that its drivers then use. -/
def Anvil.issued (v : Anvil) (l : Cmd) (ck : Nat) (zq : Bool × BitVec 6 × BitVec 6) : Anvil :=
  { v.note l ck with slot := v.slotAfter l, zqApply := zq.1, zqUsed := zq.2 }

/-- The issue of a command is one change of its anvil. -/
theorem State.issue_eq (s : State) (c : Chan) (l : Cmd) (ck : Nat) :
    ∃ zq, s.issue c l ck = s.onAnvil c (fun v => v.issued l ck zq) := by
  refine ⟨((s.zqAt c ck).anvils[c].zqApply, (s.zqAt c ck).anvils[c].zqUsed), ?_⟩
  unfold State.issue State.zqAt State.applyZq
  split
  · rw [State.onAnvil_onAnvil, State.onAnvil_get]
    refine State.onAnvil_congr ?_
    split <;> rfl
  · exact State.onAnvil_congr rfl

/-! ### ACT (R174, 06 R228 to R231, R236) -/

/-- An anvil after an ACT has opened its row, with RFM on or off. -/
def Anvil.activated (v : Anvil) (l : Cmd) (on : Bool) : Anvil :=
  ((v.setPage l.rank l.bank (some l.row)).setHits l.bank []).mapRaa
    (fun i n => if on = true ∧ i = 16 * l.rank + l.bank then n + 1 else n)

theorem Anvil.activated_page (v : Anvil) {l : Cmd} (on : Bool) (hr : l.rank < 2) (hb : l.bank < 16) :
    (v.activated l on).page l.rank l.bank = some l.row :=
  (v.page_setPage l.rank l.bank (some l.row) hb hr hb).trans (if_pos ⟨rfl, rfl⟩)

theorem Anvil.activated_raaOf (v : Anvil) {l : Cmd} (on : Bool) (hr : l.rank < 2) (hb : l.bank < 16) :
    (v.activated l on).raaOf l.rank l.bank = v.raaOf l.rank l.bank + (if on then 1 else 0) := by
  rw [Anvil.activated, Anvil.raaOf_mapRaa _ _ hr hb]
  cases on <;> simp <;> rfl

/-- An ACT opens its row and counts in RAA. -/
theorem State.raaAct_activated (s : State) (c : Chan) (l : Cmd) :
    (s.onAnvil c (fun v => (v.setPage l.rank l.bank (some l.row)).setHits l.bank [])).raaAct c l.rank l.bank =
      s.onAnvil c (fun v => v.activated l (s.flag aRFM 30)) := by
  have hflag : ∀ f, (s.onAnvil c f).flag aRFM 30 = s.flag aRFM 30 := fun _ => rfl
  unfold State.raaAct
  rw [hflag]
  cases s.flag aRFM 30 with
  | true =>
    rw [if_pos rfl, State.onAnvil_onAnvil]
    exact State.onAnvil_congr (by simp [Anvil.activated])
  | false =>
    rw [if_neg Bool.false_ne_true]
    exact State.onAnvil_congr (by simp [Anvil.activated])

/-- An ACT of a client's entry is counted (06 R228). -/
theorem State.actEffect_client {s : State} {c : Chan} {l : Cmd} (h : l.client = true) :
    s.actEffect c l = (s.onAnvil c (fun v => v.activated l (s.flag aRFM 30))).tallyRow c
      { rank := l.rank, bank := l.bank, row := l.row } := by
  rw [← State.raaAct_activated]
  unfold State.actEffect
  cases hsrc : l.src <;> simp [Cmd.client, hsrc] at h ⊢

/-- The ACT of a neighbour refresh uses BUDGET (06 R240). -/
theorem State.actEffect_neighbour {s : State} {c : Chan} {l : Cmd} {q : Place} (h : l.src = .neighbour q) :
    s.actEffect c l = (s.onAnvil c (fun v => v.activated l (s.flag aRFM 30))).neighbourAct c q := by
  rw [← State.raaAct_activated]
  simp only [State.actEffect, h]

/-- A Smith's ACT into a closed bank ends its CMD (02 R73). -/
theorem State.actEffect_smith {s : State} {c : Chan} {l : Cmd} {m : SmithId} (h : l.src = .smith m)
    (hclosed : s.anvils[c].page l.rank l.bank = none) :
    s.actEffect c l = (s.onAnvil c (fun v => v.activated l (s.flag aRFM 30))).cmdDone l.src := by
  rw [← State.raaAct_activated]
  simp only [State.actEffect, h, hclosed]
  rfl

/-- A count below THRESH stays in its table (06 R228). -/
theorem State.tallyRow_below {s : State} {c : Chan} {q : Place}
    (h : ∀ e ∈ tallyAct (s.anvils[c].table q.rank q.bank) q.row, e.1 = q.row → e.2 < s.thresh c) :
    s.tallyRow c q =
      s.onAnvil c (fun v => v.setTable q.rank q.bank (tallyAct (s.anvils[c].table q.rank q.bank) q.row)) := by
  have hnone : (tallyAct (s.anvils[c].table q.rank q.bank) q.row).any (fun e => e.1 == q.row && decide (s.thresh c ≤ e.2)) =
      false := by
    rw [List.any_eq_false]
    intro e he
    simpa using h e he
  rw [State.tallyRow, hnone]
  rfl

/-- A count that reaches THRESH returns to 0, and a neighbour refresh of the row is released (06 R228, R230). -/
theorem tallyRow_reached {s : State} {c : Chan} {q : Place} {n x : Nat} {rest : List Nat}
    (hmem : (q.row, n) ∈ tallyAct (s.anvils[c].table q.rank q.bank) q.row) (hn : s.thresh c ≤ n)
    (hvictims : s.victims c q.row = x :: rest) :
    KeepsStage c s (s.tallyRow c q) ∧
      (s.tallyRow c q).anvils[c].table q.rank q.bank = (tallyAct (s.anvils[c].table q.rank q.bank) q.row).map
        (fun e => if e.1 = q.row then (e.1, 0) else e) ∧
      (s.tallyRow c q).anvils[c].neighbour = s.anvils[c].neighbour ++ [(q, x :: rest, false)] ∧
      (s.tallyRow c q).anvils[c].heat7 = s.anvils[c].heat7 ++
        [(plainCmd .act q.rank q.bank x (.neighbour q), !s.anvils[c].granted.isEmpty)] := by
  have hany : (tallyAct (s.anvils[c].table q.rank q.bank) q.row).any (fun e => e.1 == q.row && decide (s.thresh c ≤ e.2)) =
      true := List.any_eq_true.mpr ⟨_, hmem, by simp [hn]⟩
  have hvictims' : ∀ f, (s.onAnvil c f).victims c q.row = x :: rest := fun _ => hvictims
  rw [State.tallyRow, hany]
  simp only [if_true, State.pushNeighbour, hvictims']
  have htable := s.anvils[c].table_setTable q.rank q.bank
    ((tallyAct (s.anvils[c].table q.rank q.bank) q.row).map (fun e => if e.1 = q.row then (e.1, 0) else e))
  refine ⟨(KeepsStage.onAnvil rfl).trans (KeepsStage.onAnvil rfl), ?_, ?_, ?_⟩ <;>
    rw [State.onAnvil_get, State.onAnvil_get]
  · exact htable
  · rfl
  · rfl

/-- A use of BUDGET counts at its anvil, and beyond BUDGET in HOVER (06 R240). -/
theorem useBudget_spec (s : State) (c : Chan) :
    Only (fun x => x = .anvil c ∨ x = .reg (aRFSTAT c.val)) s (s.useBudget c).1 ∧
      (s.useBudget c).1.anvils[c] = { s.anvils[c] with hammer := s.anvils[c].hammer + 1 } := by
  have hhome : regHome (aRFSTAT c.val) = aRFSTAT c.val := regHome_aAnv c (by decide) (by decide)
  have hcount := count_only (s.onAnvil c (fun v => { v with hammer := v.hammer + 1 })) (aRFSTAT c.val) 23 16
  rw [hhome] at hcount
  have hone := onAnvil_only s c (fun v => { v with hammer := v.hammer + 1 })
  unfold State.useBudget
  dsimp only
  split
  · exact ⟨hone.seq hcount, State.onAnvil_get s c _⟩
  · exact ⟨hone.mono (fun _ h => .inl h), State.onAnvil_get s c _⟩

/-! ### PRE and PREA (R183) -/

/-- The reads that begin again at the end of a row visit stand in the queue, not in the slot (09 R306). -/
theorem rewind_keepsStage (s : State) (c : Chan) (q : Place) : KeepsStage c s (s.rewind c q) := by
  unfold State.rewind
  dsimp only
  split
  · exact (KeepsStage.onAnvil rfl).trans (KeepsStage.onAnvil rfl)
  · exact KeepsStage.onAnvil rfl

/-- The banks of `banks` of a rank have been closed. -/
structure BanksClosed (c : Chan) (rank : Nat) (banks : List Nat) (s t : State) : Prop where
  only : Only (· = .anvil c) s t
  slot : t.anvils[c].slot = s.anvils[c].slot
  hist : t.anvils[c].hist = s.anvils[c].hist
  ck : t.anvils[c].ck = s.anvils[c].ck
  page : ∀ r b, r < 2 → b < 16 → t.anvils[c].page r b = if r = rank ∧ b ∈ banks then none else s.anvils[c].page r b

theorem BanksClosed.trans {c : Chan} {rank : Nat} {l l' : List Nat} {s t u : State} (h : BanksClosed c rank l s t)
    (h' : BanksClosed c rank l' t u) : BanksClosed c rank (l ++ l') s u where
  only := h.only.trans h'.only
  slot := h'.slot.trans h.slot
  hist := h'.hist.trans h.hist
  ck := h'.ck.trans h.ck
  page r b hr hb := by
    rw [h'.page r b hr hb, h.page r b hr hb]
    by_cases hrank : r = rank <;> by_cases hl : b ∈ l <;> by_cases hl' : b ∈ l' <;> simp [hrank, hl, hl']

/-- A change that closes a bank, after steps that leave the stage as it is. -/
theorem KeepsStage.closes {c : Chan} {rank bank : Nat} {s u : State} {f : Anvil → Anvil} (hbank : bank < 16) (hu : KeepsStage c s u)
    (hf : ∀ v, (f v).stage = (v.setPage rank bank none).stage) : BanksClosed c rank [bank] s (u.onAnvil c f) := by
  have hstage : (u.onAnvil c f).anvils[c].stage = (s.anvils[c].setPage rank bank none).stage := by
    rw [State.onAnvil_get, hf]
    exact congrArg (fun x => (x.1, x.2.1, x.2.2.1, x.2.2.2.mapIdx (fun i r => if i = 16 * rank + bank then none else r))) hu.2
  simp only [Anvil.stage, Prod.mk.injEq] at hstage
  obtain ⟨hslot, hhist, hck, hpages⟩ := hstage
  refine ⟨hu.1.trans (onAnvil_only u c f), hslot, hhist, hck, fun r b hr hb => ?_⟩
  rw [Anvil.page, hpages, ← Anvil.page, Anvil.page_setPage _ _ _ _ hbank hr hb]
  simp only [List.mem_singleton]

/-- PRE closes its bank. -/
theorem closeBank_closes (s : State) (c : Chan) (rank : Nat) {bank : Nat} (hbank : bank < 16) :
    BanksClosed c rank [bank] s (s.closeBank c rank bank) := by
  unfold State.closeBank
  refine KeepsStage.closes hbank ?_ (fun v => ?_)
  · split
    · split
      · exact rewind_keepsStage s c _
      · exact .refl c s
    · exact .refl c s
  · dsimp only
    split
    · cases s.swath <;> rfl
    · rfl

/-- PREA closes one bank of its rank after another. -/
theorem closeBanks_closes (c : Chan) (rank : Nat) {banks : List Nat} (hbanks : ∀ b ∈ banks, b < 16) (s : State) :
    BanksClosed c rank banks s (banks.foldl (fun s b => s.closeBank c rank b) s) := by
  induction banks generalizing s with
  | nil => exact ⟨Only.refl _ s, rfl, rfl, rfl, fun r b _ _ => by simp⟩
  | cons b banks ih =>
    obtain ⟨hb, hbanks⟩ := List.forall_mem_cons.mp hbanks
    exact (closeBank_closes s c rank hb).trans (ih hbanks _)

/-! ### REFPB, REFAB and RFM (06 R236, R237, R240) -/

/-- A step at an anvil that leaves its RAA. -/
def KeepsRaa (c : Chan) (s t : State) : Prop := Only (· = .anvil c) s t ∧ t.anvils[c].raa = s.anvils[c].raa

theorem releaseRefresh_keepsRaa (s : State) (c : Chan) (k : Fin 2) : KeepsRaa c s (s.releaseRefresh c k) := by
  have hself : KeepsRaa c s s := ⟨Only.refl _ s, rfl⟩
  have hone : ∀ f : Anvil → Anvil, (∀ v, (f v).raa = v.raa) → KeepsRaa c s (s.onAnvil c f) := fun f hf =>
    ⟨onAnvil_only s c f, by rw [State.onAnvil_get, hf]⟩
  unfold State.releaseRefresh
  dsimp only
  split
  · exact hself
  · split
    · split
      · exact hself
      · refine hone _ (fun v => ?_)
        dsimp only [Anvil.push7]
        split <;> rfl
    · split
      · exact hone _ (fun _ => rfl)
      · exact hself

/-- The release decision changes no RAA. -/
theorem releaseAll_keepsRaa (s : State) (c : Chan) : KeepsRaa c s (s.releaseAll c) :=
  foldl_keeps (P := KeepsRaa c s)
    (fun u k hu => ⟨hu.1.trans (releaseRefresh_keepsRaa u c k).1, (releaseRefresh_keepsRaa u c k).2.trans hu.2⟩) _ ⟨Only.refl _ s, rfl⟩

/-- A change of an anvil that leaves it as it is changes nothing. -/
theorem State.onAnvil_of_fixed {s : State} {c : Chan} {f : Anvil → Anvil} (h : f s.anvils[c] = s.anvils[c]) : s.onAnvil c f = s := by
  simp only [State.onAnvil, upd, h]
  simp

/-- A refresh command lowers the RAA of the banks that it covers, where RFM is on (06 R236). -/
theorem State.raaRefresh_eq (s : State) (c : Chan) (covered : Nat → Nat → Bool) (n : Nat) :
    s.raaRefresh c covered n = s.onAnvil c (fun v =>
      v.mapRaa (fun i x => x - if (s.flag aRFM 30 && covered (i / 16) (i % 16)) = true then n else 0)) := by
  unfold State.raaRefresh
  cases s.flag aRFM 30 with
  | true =>
    rw [if_pos rfl]
    refine State.onAnvil_congr (congrArg _ ?_)
    funext i x
    cases covered (i / 16) (i % 16) <;> simp
  | false =>
    rw [if_neg Bool.false_ne_true, State.onAnvil_of_fixed]
    simp

/-- An anvil after the issue of a command that lowers RAA. -/
theorem issue_raaRefresh_spec (s : State) (c : Chan) (l : Cmd) (ck : Nat) (covered : Nat → Nat → Bool) (n : Nat) :
    ∃ u, (s.issue c l ck).raaRefresh c covered n = u ∧ Only (· = .anvil c) s u ∧ u.anvils[c].slot = s.anvils[c].slotAfter l ∧
      u.anvils[c].hist = (s.anvils[c].note l ck).hist ∧ u.anvils[c].ck = ck ∧ u.anvils[c].hammer = s.anvils[c].hammer ∧
      ∀ r b, r < 2 → b < 16 → u.anvils[c].raaOf r b =
        s.anvils[c].raaOf r b - if (s.flag aRFM 30 && covered r b) = true then n else 0 := by
  obtain ⟨zq, hissue⟩ := s.issue_eq c l ck
  refine ⟨_, rfl, ?_⟩
  rw [hissue, State.raaRefresh_eq, State.onAnvil_onAnvil, State.onAnvil_get]
  refine ⟨onAnvil_only s c _, rfl, rfl, rfl, rfl, fun r b hr hb => ?_⟩
  have hrank : (16 * r + b) / 16 = r := by omega
  have hbank : (16 * r + b) % 16 = b := by omega
  rw [Anvil.raaOf_mapRaa _ _ hr hb, hrank, hbank]
  rfl

/-- REFPB and REFAB: RAA falls, and what the anvil then releases waits at heat 7 (06 R217, R236). -/
theorem refresh_issues {s : State} {c : Chan} {l : Cmd} (hd : driver s l) (ck : Nat) (covered : Nat → Nat → Bool) (n : Nat) :
    ∃ t, (((s.issue c l ck).raaRefresh c covered n).releaseAll c).cmdDone l.src = t ∧ completes s t l ∧
      (∀ r b, r < 2 → b < 16 → t.anvils[c].raaOf r b =
        s.anvils[c].raaOf r b - if (s.flag aRFM 30 && covered r b) = true then n else 0) ∧ Only (issueParts c l) s t := by
  obtain ⟨u, hu, honly, -, -, -, -, hraa⟩ := issue_raaRefresh_spec s c l ck covered n
  obtain ⟨hrelease, hkept⟩ := releaseAll_keepsRaa u c
  have hstep := honly.trans hrelease
  obtain ⟨hdone, hsmith⟩ := cmdDone_completes hd hstep (by simp) (by simp) (by simp)
  refine ⟨_, rfl, ?_⟩
  rw [hu]
  refine ⟨hdone, fun r b hr hb => ?_, hstep.issueParts hsmith⟩
  rw [anvil_of_smithPart hsmith, ← hraa r b hr hb, Anvil.raaOf, hkept, Anvil.raaOf]

/-! ### The rows -/

/-- An ACT has issued at anvil `c` and opened its row. -/
structure Opened (s u : State) (c : Chan) (l : Cmd) (ck : Nat) : Prop where
  only : Only (· = .anvil c) s u
  slot : u.anvils[c].slot = s.anvils[c].slotAfter l
  hist : u.anvils[c].hist = (s.anvils[c].note l ck).hist
  ck : u.anvils[c].ck = ck
  page : u.anvils[c].page l.rank l.bank = some l.row
  raa : u.anvils[c].raaOf l.rank l.bank = s.anvils[c].raaOf l.rank l.bank + (if s.flag aRFM 30 then 1 else 0)
  table : u.anvils[c].table l.rank l.bank = s.anvils[c].table l.rank l.bank
  neighbour : u.anvils[c].neighbour = s.anvils[c].neighbour
  heat7 : u.anvils[c].heat7 = s.anvils[c].heat7
  granted : u.anvils[c].granted = s.anvils[c].granted
  hammer : u.anvils[c].hammer = s.anvils[c].hammer
  lost : u.anvils[c].lost = s.anvils[c].lost

section
variable {s : State} {c : Chan} {ck : Nat} {l : Cmd}

theorem opened_of_issue {zq : Bool × BitVec 6 × BitVec 6} (hr : l.rank < 2) (hb : l.bank < 16) :
    Opened s (s.onAnvil c (fun v => (v.issued l ck zq).activated l (s.flag aRFM 30))) c l ck := by
  constructor
  case only => exact onAnvil_only s c _
  all_goals rw [State.onAnvil_get]
  case page => exact Anvil.activated_page _ _ hr hb
  case raa => exact Anvil.activated_raaOf _ _ hr hb
  all_goals rfl

theorem rfmFirst_keepsStage (s : State) (c : Chan) (rank bank : Nat) : KeepsStage c s (s.rfmFirst c rank bank) := by
  unfold State.rfmFirst
  dsimp only
  split
  · exact .refl c s
  · exact KeepsStage.onAnvil rfl

/-- An ACT that does not issue leaves the slot, and the RFM of its pair goes first (06 R237). -/
theorem deferAct_keepsStage (s : State) (c : Chan) (l : Cmd) :
    KeepsStage c (s.onAnvil c (fun v => { v with slot := v.slot.erase l })) (s.deferAct c l) := by
  unfold State.deferAct
  dsimp only
  split
  · exact rfmFirst_keepsStage _ c _ _
  · exact (KeepsStage.onAnvil rfl).trans (rfmFirst_keepsStage _ c _ _)

theorem deferAct_spec (s : State) (c : Chan) (l : Cmd) : (s.deferAct c l).anvils[c].slot = s.anvils[c].slot.erase l ∧
    (s.deferAct c l).anvils[c].hist = s.anvils[c].hist ∧ (s.deferAct c l).anvils[c].pages = s.anvils[c].pages ∧
    Only (· = .anvil c) s (s.deferAct c l) := by
  obtain ⟨honly, hstage⟩ := deferAct_keepsStage s c l
  simp only [Anvil.stage, State.onAnvil_get, Prod.mk.injEq] at hstage
  obtain ⟨hslot, hhist, -, hpages⟩ := hstage
  exact ⟨hslot, hhist, hpages, (onAnvil_only s c _).trans honly⟩

theorem exec_act (h : s.issuing c .act ck = some l) : exec (.act c ck) s =
    .next (if s.raaBlocks c l.rank l.bank then s.deferAct c l else (s.issue c l ck).actEffect c l) := by
  show execAct c ck s = _
  simp only [execAct, h]

/-- The ACT of a client's entry. -/
theorem exec_act_client (hr : l.rank < 2) (hb : l.bank < 16) (h : s.issuing c .act ck = some l)
    (hraa : s.raaBlocks c l.rank l.bank = false) (hl : l.client = true) :
    ∃ u, Opened s u c l ck ∧ u.thresh c = s.thresh c ∧ u.victims c l.row = s.victims c l.row ∧
      exec (.act c ck) s = .next (u.tallyRow c { rank := l.rank, bank := l.bank, row := l.row }) := by
  obtain ⟨zq, hissue⟩ := s.issue_eq c l ck
  refine ⟨_, opened_of_issue (zq := zq) hr hb, rfl, rfl, ?_⟩
  rw [exec_act h, hraa, hissue, State.actEffect_client hl, State.onAnvil_onAnvil]
  rfl

/-- The ACT of a neighbour refresh. -/
theorem exec_act_neighbour {q : Place} (hr : l.rank < 2) (hb : l.bank < 16) (h : s.issuing c .act ck = some l)
    (hraa : s.raaBlocks c l.rank l.bank = false) (hl : l.src = .neighbour q) :
    ∃ u, Opened s u c l ck ∧ exec (.act c ck) s = .next (u.neighbourAct c q) := by
  obtain ⟨zq, hissue⟩ := s.issue_eq c l ck
  refine ⟨_, opened_of_issue (zq := zq) hr hb, ?_⟩
  rw [exec_act h, hraa, hissue, State.actEffect_neighbour hl, State.onAnvil_onAnvil]
  rfl

/-- The ACT of a Smith into a closed bank. -/
theorem exec_act_smith {m : SmithId} (hr : l.rank < 2) (hb : l.bank < 16) (h : s.issuing c .act ck = some l)
    (hraa : s.raaBlocks c l.rank l.bank = false) (hl : l.src = .smith m) (hclosed : s.anvils[c].page l.rank l.bank = none) :
    ∃ u, Opened s u c l ck ∧ exec (.act c ck) s = .next (u.cmdDone l.src) := by
  obtain ⟨zq, hissue⟩ := s.issue_eq c l ck
  have hpage : (s.onAnvil c (fun v => v.issued l ck zq)).anvils[c].page l.rank l.bank = none := by
    rw [State.onAnvil_get]
    exact hclosed
  refine ⟨_, opened_of_issue (zq := zq) hr hb, ?_⟩
  rw [exec_act h, hraa, hissue, State.actEffect_smith hl hpage, State.onAnvil_onAnvil]
  rfl

/-- The PRE of a neighbour refresh waits right after its ACT (06 R230). -/
theorem neighbourAct_spec (u : State) (c : Chan) (q : Place) :
    Only (fun x => x = .anvil c ∨ x = .reg (aRFSTAT c.val)) u (u.neighbourAct c q) ∧
      (u.neighbourAct c q).anvils[c].stage = u.anvils[c].stage ∧
      (u.neighbourAct c q).anvils[c].hammer = u.anvils[c].hammer + 1 ∧
      (u.neighbourAct c q).anvils[c].heat7 = (plainCmd .pre q.rank q.bank 0 (.neighbour q), false) :: u.anvils[c].heat7 := by
  obtain ⟨honly, hget⟩ := useBudget_spec u c
  unfold State.neighbourAct
  dsimp only
  rw [State.onAnvil_get, hget]
  exact ⟨honly.trans ((onAnvil_only _ c _).mono (fun _ h => .inl h)), rfl, rfl, rfl⟩

/-- PRE of anything but a neighbour refresh. -/
theorem exec_pre (h : s.issuing c .pre ck = some l) (hl : ∀ p, l.src ≠ .neighbour p) :
    exec (.pre c ck) s = .next (((s.issue c l ck).closeBank c l.rank l.bank).cmdDone l.src) := by
  show execPre c ck s = _
  cases hsrc : l.src with
  | neighbour p => exact absurd hsrc (hl p)
  | _ => simp only [execPre, h, hsrc]

theorem exec_prea (h : s.issuing c .prea ck = some l) :
    exec (.prea c ck) s =
      .next (((List.range 16).foldl (fun s b => s.closeBank c l.rank b) (s.issue c l ck)).cmdDone l.src) := by
  show execPrea c ck s = _
  simp only [execPrea, h]

/-- What a command that closes rows leaves: it has left the slot, its CMD is complete, and its banks are closed. -/
theorem closing_issues {banks : List Nat} {u : State} (hd : driver s l) (hu : BanksClosed c l.rank banks (s.issue c l ck) u) :
    (u.cmdDone l.src).anvils[c].slot = s.anvils[c].slotAfter l ∧
      (u.cmdDone l.src).anvils[c].hist = (s.anvils[c].note l ck).hist ∧ (u.cmdDone l.src).anvils[c].ck = ck ∧
      completes s (u.cmdDone l.src) l ∧
      (∀ r b, r < 2 → b < 16 → (u.cmdDone l.src).anvils[c].page r b =
        if r = l.rank ∧ b ∈ banks then none else s.anvils[c].page r b) ∧
      Only (issueParts c l) s (u.cmdDone l.src) := by
  obtain ⟨zq, hissue⟩ := s.issue_eq c l ck
  rw [hissue] at hu
  have hstep := (onAnvil_only s c _).trans hu.only
  obtain ⟨hdone, hsmith⟩ := cmdDone_completes hd hstep (by simp) (by simp) (by simp)
  have hget := State.onAnvil_get s c (fun v => v.issued l ck zq)
  rw [anvil_of_smithPart hsmith, hu.slot, hu.hist, hu.ck, hget]
  refine ⟨rfl, rfl, rfl, hdone, fun r b hr hb => ?_, hstep.issueParts hsmith⟩
  rw [hu.page r b hr hb, hget]
  rfl

end

/-- Settles O28: every row is the issue, one change of the anvil (`State.issue_eq`), and what its command does: ACT opens its
row (`Opened`) and is counted, PRE and PREA close banks (`closing_issues`), REFPB, REFAB and RFM lower RAA
(`issue_raaRefresh_spec`); the CMD that the command comes from is complete by `cmdDone_completes`. -/
theorem rowAndRefreshCommandsIssue : Obligations.RowAndRefreshCommandsIssue := by
  unfold Obligations.RowAndRefreshCommandsIssue
  intro s c ck l q v left on client row hr hb hd
  refine ⟨fun h hraa => ?_, fun h hraa => ⟨fun hl hbelow => ?_, fun x rest n hl hmem hn hvictims => ?_, fun hl => ?_,
    fun m hl hclosed => ?_⟩, fun h hl => ?_, fun h => ?_, fun h => ?_, fun h => ?_, fun h => ?_⟩
  · obtain ⟨hslot, hhist, hpages, honly⟩ := deferAct_spec s c l
    exact ⟨_, (exec_act h).trans (by rw [hraa, if_pos rfl]), hslot, hhist, hpages, honly⟩
  · obtain ⟨u, hu, hthresh, -, hexec⟩ := exec_act_client hr hb h hraa hl
    rw [State.tallyRow_below (by rw [hu.table, hthresh]; exact hbelow), hu.table] at hexec
    refine ⟨_, hexec, ?_⟩
    simp only [left]
    rw [State.onAnvil_get]
    exact ⟨⟨hu.slot, hu.hist, hu.ck⟩, hu.page, Anvil.table_setTable _ _ _ _, hu.raa, hu.only.trans (onAnvil_only _ c _)⟩
  · obtain ⟨u, hu, hthresh, hrows, hexec⟩ := exec_act_client hr hb h hraa hl
    obtain ⟨⟨honly, hstage⟩, htable, hneighbour, hheat7⟩ := tallyRow_reached (s := u) (c := c)
      (q := { rank := l.rank, bank := l.bank, row := l.row }) (by rw [hu.table]; exact hmem)
      (by rw [hthresh]; exact hn) (hrows.trans hvictims)
    have hpage := Anvil.page_of_stage hstage l.rank l.bank
    simp only [Anvil.stage, Prod.mk.injEq] at hstage
    obtain ⟨hslot, hhist, hck, -⟩ := hstage
    rw [hu.table] at htable
    rw [hu.neighbour] at hneighbour
    have hmark : (!s.anvils[c].granted.isEmpty) = decide (s.anvils[c].granted ≠ []) := by
      cases s.anvils[c].granted <;> rfl
    rw [hu.heat7, hu.granted, hmark] at hheat7
    exact ⟨_, hexec, ⟨hslot.trans hu.slot, hhist.trans hu.hist, hck.trans hu.ck⟩, hpage.trans hu.page, htable, hneighbour, hheat7,
      hu.only.trans honly⟩
  · obtain ⟨u, hu, hexec⟩ := exec_act_neighbour hr hb h hraa hl
    obtain ⟨honly, hstage, hhammer, hheat7⟩ := neighbourAct_spec u c q
    have hpage := Anvil.page_of_stage hstage l.rank l.bank
    simp only [Anvil.stage, Prod.mk.injEq] at hstage
    obtain ⟨hslot, hhist, hck, -⟩ := hstage
    exact ⟨_, hexec, ⟨hslot.trans hu.slot, hhist.trans hu.hist, hck.trans hu.ck⟩, hpage.trans hu.page,
      hhammer.trans (by rw [hu.hammer]), hheat7.trans (by rw [hu.heat7]), (hu.only.mono (fun _ h => .inl h)).trans honly⟩
  · obtain ⟨u, hu, hexec⟩ := exec_act_smith hr hb h hraa hl hclosed
    obtain ⟨hdone, hsmith⟩ := cmdDone_completes hd hu.only (by simp) (by simp) (by simp)
    refine ⟨_, hexec, ?_⟩
    simp only [left]
    rw [anvil_of_smithPart hsmith]
    exact ⟨⟨hu.slot, hu.hist, hu.ck⟩, hdone, hu.page, hu.lost, hu.only.issueParts hsmith⟩
  · obtain ⟨hslot, hhist, hck, hdone, hpage, honly⟩ := closing_issues hd (closeBank_closes (s.issue c l ck) c l.rank hb)
    refine ⟨_, exec_pre h hl, ⟨hslot, hhist, hck⟩, hdone, ?_, fun r b hr' hb' hne => ?_, honly⟩
    · rw [hpage _ _ hr hb, if_pos ⟨rfl, List.mem_singleton_self _⟩]
    · rw [hpage r b hr' hb', if_neg]
      simpa using hne
  · obtain ⟨hslot, hhist, hck, hdone, hpage, honly⟩ :=
      closing_issues hd (closeBanks_closes c l.rank (banks := List.range 16) (fun _ => List.mem_range.mp) (s.issue c l ck))
    refine ⟨_, exec_prea h, ⟨hslot, hhist, hck⟩, hdone, fun r b hr' hb' => ?_, honly⟩
    rw [hpage r b hr' hb']
    simp only [List.mem_range, hb', and_true]
    rfl
  · obtain ⟨t, rfl, hdone, hraa, honly⟩ := refresh_issues hd ck (c := c) (fun r b => r == l.rank && samePair b l.bank) s.raaimt
    refine ⟨_, ?_, hdone, fun r b hr' hb' => ?_, honly⟩
    · show execRefpb c ck s = _
      simp only [execRefpb, h]
    · rw [hraa r b hr' hb', samePair, Bool.and_assoc]
  · obtain ⟨t, rfl, hdone, hraa, honly⟩ := refresh_issues hd ck (c := c) (fun r _ => r == l.rank) s.raaimt
    refine ⟨_, ?_, hdone, hraa, honly⟩
    show execRefab c ck s = _
    simp only [execRefab, h]
  · obtain ⟨u, hu, honly, hslot, hhist, hck, hhammer, hraa⟩ :=
      issue_raaRefresh_spec s c l ck (fun r b => r == l.rank && samePair b l.bank) s.rfmdec
    obtain ⟨hbudget, hget⟩ := useBudget_spec u c
    have hstep := (honly.mono (fun _ h => .inl h)).trans hbudget
    obtain ⟨hdone, hsmith⟩ := cmdDone_completes hd hstep (by simp) (by simp) (by simp)
    refine ⟨(u.useBudget c).1.cmdDone l.src, ?_, ?_⟩
    · show execRfm c ck s = _
      simp only [execRfm, h, hu]
    · simp only [left]
      rw [anvil_of_smithPart hsmith, hget]
      refine ⟨⟨hslot, hhist, hck⟩, hdone, fun r b hr' hb' => ?_, congrArg (· + 1) hhammer, (hstep.seq hsmith).mono ?_⟩
      · rw [Bool.and_assoc]
        exact hraa r b hr' hb'
      · rintro x ((rfl | rfl) | hx)
        · exact .inl (.inl rfl)
        · exact .inr rfl
        · exact .inl (.inr hx)

end Sys2Proof.Machine
end

section
/-! SUPPORT. What an anvil takes from its slice: line reads and flushed merge entries (05 R173 to R177, R192, R199, 09 R316). -/

namespace Sys2Proof.Machine

/-! ### One element of a list -/

/-- A change of the elements of one key changes the only one that has it. -/
theorem map_key_append_cons {α : Type} (k : α → Nat) (f : α → α) {x : α} {before after : List α}
    (h : ∀ y ∈ before ++ after, k y ≠ k x) :
    (before ++ x :: after).map (fun y => if k y = k x then f y else y) = before ++ f x :: after := by
  obtain ⟨hbefore, hafter⟩ := List.forall_mem_append.mp h
  have hkeep : ∀ l : List α, (∀ y ∈ l, k y ≠ k x) → l.map (fun y => if k y = k x then f y else y) = l := fun l hl =>
    (List.map_congr_left (fun y hy => if_neg (hl y hy))).trans (List.map_id' l)
  rw [List.map_append, List.map_cons, if_pos rfl, hkeep _ hbefore, hkeep _ hafter]

/-- The only element of a key leaves the list. -/
theorem filter_key_append_cons {α : Type} (k : α → Nat) {x : α} {before after : List α}
    (h : ∀ y ∈ before ++ after, k y ≠ k x) :
    (before ++ x :: after).filter (fun y => k y != k x) = before ++ after := by
  obtain ⟨hbefore, hafter⟩ := List.forall_mem_append.mp h
  have hkeep : ∀ l : List α, (∀ y ∈ l, k y ≠ k x) → l.filter (fun y => k y != k x) = l := fun l hl =>
    List.filter_eq_self.mpr (fun y hy => bne_iff_ne.mpr (hl y hy))
  rw [List.filter_append, List.filter_cons_of_neg (by simp), hkeep _ hbefore, hkeep _ hafter]

/-! ### LINE_READ_ACCEPT (R173, R192, R193, 09 R316) -/

theorem State.lineParts_one {s : State} {c : Chan} {line n0 n1 : Nat} {q : Place} (h0 : s.secPlace c (128 * line) = (q, n0))
    (h1 : s.secPlace c (128 * line + 64) = (q, n1)) : s.lineParts c line = [(q, [(false, n0), (true, n1)])] := by
  simp [State.lineParts, h0, h1]

/-- Without writes and plot fills nothing is earlier (R192). -/
theorem State.earlierWrites_nil {s : State} {c : Chan} (q : Place) (ns : List Nat) (but : Nat → Bool)
    (hwrites : s.anvils[c].writes = []) (hfills : s.anvils[c].fills = []) (hfeed : s.anvils[c].feed = []) :
    s.earlierWrites c q ns but = [] := by
  simp only [State.earlierWrites, hwrites, hfills, hfeed, List.filter_nil, List.map_nil, List.append_nil]

theorem Slice.mergesOn_nil {l : Slice} {line : Nat} (halves : List Bool) (h : ∀ x ∈ l.merge, x.line ≠ line) :
    l.mergesOn line halves = [] := by
  have hnone : l.merge.filter (fun m => m.line == line && halves.any (fun h => if h then m.smask.2 else m.smask.1)) = [] :=
    List.filter_eq_nil_iff.mpr (fun m hm => by simp [h m hm])
  rw [Slice.mergesOn, hnone, List.map_nil]

theorem State.flushFor_nil (s : State) (c : Chan) : s.flushFor c [] = s :=
  State.onSlice_of_fixed (by simp [Slice.flushIf])

theorem Slice.pushFill_line {l : Slice} {miss : Nat} {a b : SecRes} (h : ∀ f ∈ l.fills, f.miss ≠ miss) :
    l.pushFill miss [(false, a), (true, b)] =
      { l with fills := l.fills ++ [{ miss := miss, fresh := false, res := (some a, some b) }] } := by
  have hnone : l.fills.any (fun f => f.miss == miss) = false := by
    simpa using h
  rw [Slice.pushFill, hnone]
  rfl

/-- The slice once the miss `m` has been sent to its anvil (05 R175). -/
def Slice.send (l : Slice) (m : Miss) : Slice :=
  { l with miss := l.miss.map (fun x => if x.id = m.id then { x with sent := true } else x) }

section
variable {s : State} {c : Chan} {m : Miss} {q : Place} {n0 n1 : Nat}

/-- A line of unwritten plots that nothing waits to write reads as zeros at once (09 R316). -/
theorem State.acceptPart_unwritten (hearlier : ∀ ns but, s.earlierWrites c q ns but = [])
    (hmerge : ∀ halves, s.slices[c].mergesOn m.line halves = []) (h0 : s.secWritten c q n0 = false)
    (h1 : s.secWritten c q n1 = false) :
    s.acceptPart c m (q, [(false, n0), (true, n1)]) = s.onSlice c (fun l => l.pushFill m.id [(false, zeroRes), (true, zeroRes)]) := by
  simp only [State.acceptPart, hearlier, hmerge]
  simp [h0, h1]

/-- A line of a written plot becomes a read entry (R173). -/
theorem State.acceptPart_written (hearlier : ∀ ns but, s.earlierWrites c q ns but = [])
    (hmerge : ∀ halves, s.slices[c].mergesOn m.line halves = []) (h0 : s.secWritten c q n0 = true) :
    s.acceptPart c m (q, [(false, n0), (true, n1)]) =
      s.addRead c (.demand m.id (true, true)) q [n0, n1] [n0, n1] m.heat m.port [] [] := by
  simp only [State.acceptPart, hearlier, hmerge, State.flushFor_nil]
  simp [h0]

/-- LINE_READ_ACCEPT of a line in one row, with no error of the plot bitmap. -/
theorem exec_lineReadAccept (now : Nat) (hopen : s.anvilOpen c = true) (hfind : s.slices[c].miss.find? (fun m => !m.sent) = some m)
    (hdrop : s.slices[c].drops.contains m.line = false) (h0 : s.secPlace c (128 * m.line) = (q, n0))
    (h1 : s.secPlace c (128 * m.line + 64) = (q, n1)) :
    exec (.lineReadAccept c .none now) s = .next (if 160 ≤ s.anvils[c].rdq then s.at now
      else ((s.at now).onSlice c (·.send m)).acceptPart c m (q, [(false, n0), (true, n1)])) := by
  have hfind' : (s.at now).slices[c].miss.find? (fun m => !m.sent) = some m := hfind
  have hdrop' : (s.at now).slices[c].drops.contains m.line = false := hdrop
  have hparts : (s.at now).lineParts c m.line = [(q, [(false, n0), (true, n1)])] := State.lineParts_one h0 h1
  have hfull : (160 < (s.at now).anvils[c].rdq + 1) = (160 ≤ s.anvils[c].rdq) := propext Nat.lt_succ_iff
  show Host.Outcome.next (timed now _ _ s) = _
  rw [timed_pos (show (s.at now).anvilOpen c = true from hopen)]
  simp only [hfind', hparts, hdrop', List.length_singleton, hfull, Bool.false_eq_true, or_false, State.bitmapErr, List.foldl_cons,
    List.foldl_nil]
  rfl

end

/-! ### MERGE_FLUSH_ACCEPT (R175, R192, R199) -/

/-- What the arrival of a write entry fixes. -/
def WriteEnt.arrival (w : WriteEnt) : (Nat × Nat × WriteKind × Place) × List WSec × Nat × Option Nat × Option Nat × Bool :=
  ((w.seq, w.stamp, w.kind, w.place), w.secs, w.heat, w.port, w.group, w.fill)

/-- A step at an anvil that leaves what the arrivals of its write entries have fixed. -/
def KeepsArrivals (c : Chan) (s t : State) : Prop :=
  Only (· = .anvil c) s t ∧ t.anvils[c].writes.map WriteEnt.arrival = s.anvils[c].writes.map WriteEnt.arrival

theorem KeepsArrivals.refl (c : Chan) (s : State) : KeepsArrivals c s s := ⟨Only.refl _ s, rfl⟩

theorem KeepsArrivals.trans {c : Chan} {s t u : State} (h : KeepsArrivals c s t) (h' : KeepsArrivals c t u) : KeepsArrivals c s u :=
  ⟨h.1.trans h'.1, h'.2.trans h.2⟩

theorem KeepsArrivals.onAnvil {s : State} {c : Chan} {f : Anvil → Anvil}
    (h : (f s.anvils[c]).writes.map WriteEnt.arrival = s.anvils[c].writes.map WriteEnt.arrival) :
    KeepsArrivals c s (s.onAnvil c f) := ⟨onAnvil_only s c f, by rwa [State.onAnvil_get]⟩

theorem makeReady_keepsArrivals (s : State) (c : Chan) (w : WriteEnt) (old : List (Nat × Decoded)) :
    KeepsArrivals c s (s.makeReady c w old) := by
  unfold State.makeReady State.onWrite
  refine KeepsArrivals.onAnvil ?_
  simp only [List.map_map]
  refine List.map_congr_left (fun x _ => ?_)
  simp only [Function.comp_apply]
  split <;> rfl

/-- A pre-read that enters the queue, or a write that becomes ready, arrives at nothing new (R195). -/
theorem spawn_keepsArrivals (s : State) (c : Chan) (seq : Nat) : KeepsArrivals c s (s.spawn c seq) := by
  have hself : KeepsArrivals c s s := .refl c s
  unfold State.spawn
  split
  · exact hself
  · dsimp only
    split
    · exact hself
    · split
      · split
        · exact hself
        · exact makeReady_keepsArrivals s c _ _
      · exact KeepsArrivals.onAnvil rfl

/-- What a step has put in the write queue is there, as it arrived, after steps that keep the arrivals. -/
theorem KeepsArrivals.enters {c : Chan} {s t : State} {f : Anvil → Anvil} (h : KeepsArrivals c (s.onAnvil c f) t) {a}
    (ha : a ∈ (f s.anvils[c]).writes.map WriteEnt.arrival) : Only (· = .anvil c) s t ∧ ∃ w ∈ t.anvils[c].writes, w.arrival = a :=
  ⟨(onAnvil_only s c f).trans h.1, List.mem_map.mp (by rwa [h.2, State.onAnvil_get])⟩

/-- A write that encodes its sectors enters the queue under its sequence number. -/
theorem enterWrite_enters (s : State) (c : Chan) (kind : WriteKind) (seq : Nat) (q : Place) (secs : List WSec) (heat : Nat)
    (port group : Option Nat) (found : ReadEnt → Bool) (but : Nat → Bool) :
    Only (· = .anvil c) s (s.enterWrite c kind seq q secs heat port group found but) ∧
      ∃ w ∈ (s.enterWrite c kind seq q secs heat port group found but).anvils[c].writes,
        w.arrival = ((seq, s.stamp, kind, q), secs, heat, port, group, false) := by
  have hkeeps : ∀ u : State, KeepsArrivals c u ((u.touchRow c q).spawn c seq) := fun u =>
    (KeepsArrivals.onAnvil rfl).trans (spawn_keepsArrivals _ c seq)
  refine KeepsArrivals.enters (hkeeps _) ?_
  rw [List.map_append]
  exact List.mem_append_right _ (List.mem_singleton_self _)

/-- A write of data enters the queue under the next sequence number. -/
theorem addWrite_enters (s : State) (c : Chan) (q : Place) (secs : List WSec) (heat : Nat) (port group : Option Nat)
    (found : ReadEnt → Bool) :
    Only (· = .anvil c) s (s.addWrite c q secs heat port group found) ∧
      ∃ w ∈ (s.addWrite c q secs heat port group found).anvils[c].writes,
        w.arrival = ((s.anvils[c].seq, s.stamp, .data, q), secs, heat, port, group, false) := by
  obtain ⟨honly, hw⟩ := enterWrite_enters (s.onAnvil c (fun v => { v with seq := v.seq + 1 })) c .data s.anvils[c].seq q secs heat
    port group found (fun _ => false)
  exact ⟨(onAnvil_only s c _).trans honly, hw⟩

section
variable {s : State} {c : Chan} {m : Merge} {q : Place} {n0 : Nat}

/-- A flush of the lower sector alone has one part. -/
theorem State.flushParts_low (hm : m.smask = (true, false)) (h0 : s.secPlace c (128 * m.line) = (q, n0)) :
    s.flushParts c m = [(q, [(false, n0)])] := by
  unfold State.flushParts State.lineParts
  rw [h0]
  dsimp only
  split <;> simp [hm]

/-- A flushed sector of a written plot enters the queue as a write (R175). -/
theorem acceptWrite_enters (hwritten : s.anvils[c].written (plotOf (128 * m.line)) = true) :
    Only (fun x => x = .anvil c ∨ x = .hedge) s (s.acceptWrite c m (q, [(false, n0)])) ∧
      ∃ w ∈ (s.acceptWrite c m (q, [(false, n0)])).anvils[c].writes,
        w.arrival = ((s.anvils[c].seq, s.stamp, .data, q),
          [{ pos := n0, data := m.data.1, mask := m.mask.1, pset := m.pset.1, pclr := m.pclr.1 }], m.heat, m.port, m.group, false) := by
  unfold State.acceptWrite
  simp only [hwritten, Bool.true_or, if_true]
  obtain ⟨honly, hw⟩ := addWrite_enters _ c q [m.sec false n0] m.heat m.port m.group (fun e => e.waitsM.contains m.id)
  exact ⟨((onHedge_only s _).mono (fun _ h => .inr h)).trans (honly.mono (fun _ h => .inl h)), hw⟩

/-- MERGE_FLUSH_ACCEPT of an entry with one part, with no error of the plot bitmap or of its own storage. -/
theorem exec_mergeFlushAccept (now : Nat) (hopen : s.anvilOpen c = true)
    (hfind : s.slices[c].merge.find? (fun m => m.flush) = some m) (hparts : s.flushParts c m = [(q, [(false, n0)])]) :
    exec (.mergeFlushAccept c (.none, .none) now) s = .next (if 96 ≤ s.anvils[c].wrq then s.at now
      else (((s.at now).acceptWrite c m (q, [(false, n0)])).onSlice c (fun l =>
        { l with merge := l.merge.filter (fun x => x.id != m.id)
                 cleaning := l.cleaning.map (fun e => (e.1, e.2.filter (· != m.id))) })).onAnvil c (fun v =>
        { v with reads := v.reads.map (fun e => { e with waitsM := e.waitsM.filter (· != m.id) }) })) := by
  have hfind' : (s.at now).slices[c].merge.find? (fun m => m.flush) = some m := hfind
  have hparts' : (s.at now).flushParts c m = [(q, [(false, n0)])] := hparts
  have hfull : (!(s.at now).anvils[c].wrRoom 1) = decide (96 ≤ s.anvils[c].wrq) := by
    rw [Anvil.wrRoom, State.at_anvils, ← decide_not, decide_eq_decide]
    omega
  show Host.Outcome.next (timed now _ _ s) = _
  rw [timed_pos (show (s.at now).anvilOpen c = true from hopen)]
  simp only [hfind', hparts', List.length_singleton, hfull, decide_eq_true_eq, State.bitmapErr, State.mergeErr, List.foldl_cons,
    List.foldl_nil]

end

/-- Settles O25: `exec_lineReadAccept` takes the oldest miss, whose line crosses back by `State.acceptPart_unwritten` or joins the
queue by `State.acceptPart_written`; `exec_mergeFlushAccept` takes the flushed entry, which `acceptWrite_enters`. -/
theorem lineReadsAndFlushesEnterTheAnvilQueue : Obligations.LineReadsAndFlushesEnterTheAnvilQueue := by
  unfold Obligations.LineReadsAndFlushesEnterTheAnvilQueue
  intro s c now q n0 n1 u v l hopen
  have hat : ∀ P : Part → Prop, P .time → Only P s (s.at now) := fun P hP => (at_only s now).mono (fun _ h => h ▸ hP)
  constructor
  · intro before m after hmiss hbefore hm hids hdrop h0 h1 sent
    have hfind : l.miss.find? (fun m => !m.sent) = some m :=
      List.find?_eq_some_iff_append.mpr ⟨by rw [hm]; rfl, before, after, hmiss, fun x hx => by rw [hbefore x hx]; rfl⟩
    have hsent : (l.send m).miss = sent := by
      show l.miss.map (fun x => if x.id = m.id then _ else x) = sent
      rw [hmiss]
      exact map_key_append_cons Miss.id (fun x => { x with sent := true }) hids
    have hexec := exec_lineReadAccept now hopen hfind hdrop h0 h1
    refine ⟨fun hfull => ⟨_, hexec.trans (by rw [if_pos hfull]), at_only s now⟩, fun hroom hwrites hfills hfeed hline => ?_⟩
    rw [if_neg (Nat.not_le.mpr hroom)] at hexec
    have hearlier : ∀ ns but, ((s.at now).onSlice c (·.send m)).earlierWrites c q ns but = [] := fun ns but =>
      State.earlierWrites_nil q ns but hwrites hfills hfeed
    have hmerges : ∀ halves, ((s.at now).onSlice c (·.send m)).slices[c].mergesOn m.line halves = [] := fun halves => by
      rw [State.onSlice_get]
      exact Slice.mergesOn_nil halves hline
    constructor
    · intro hw0 hw1 hmiss'
      rw [State.acceptPart_unwritten hearlier hmerges hw0 hw1] at hexec
      refine ⟨_, hexec, ?_, ?_⟩
      · rw [State.onSlice_get, State.onSlice_get, ← hsent]
        exact Slice.pushFill_line hmiss'
      · refine Only.trans ?_ ((onSlice_only _ c _).mono (fun _ h => .inl h))
        exact (hat _ (.inr rfl)).trans ((onSlice_only _ c _).mono (fun _ h => .inl h))
    · intro hw0
      rw [State.acceptPart_written hearlier hmerges hw0] at hexec
      refine ⟨_, hexec, ?_, ?_, ?_, ?_⟩
      · rw [State.addRead, State.onAnvil_slices, State.onSlice_get, ← hsent]
        rfl
      · rw [State.addRead, State.onAnvil_slices, State.onSlice_get]
        rfl
      · rw [State.addRead, State.onAnvil_get]
        rfl
      · refine Only.trans ?_ ((onAnvil_only _ c _).mono (fun _ h => .inr (.inl h)))
        exact (hat _ (.inr (.inr rfl))).trans ((onSlice_only _ c _).mono (fun _ h => .inl h))
  · intro before m after hmerge hbefore hm hmask hids h0
    have hfind : l.merge.find? (fun m => m.flush) = some m :=
      List.find?_eq_some_iff_append.mpr ⟨hm, before, after, hmerge, fun x hx => by rw [hbefore x hx]; rfl⟩
    have hexec := exec_mergeFlushAccept now hopen hfind (State.flushParts_low hmask h0)
    refine ⟨fun hfull => ⟨_, hexec.trans (by rw [if_pos hfull]), at_only s now⟩, fun hroom _ hwritten => ?_⟩
    rw [if_neg (Nat.not_le.mpr hroom)] at hexec
    obtain ⟨honly, w, hw, harrival⟩ := acceptWrite_enters (s := s.at now) (c := c) (q := q) (n0 := n0) hwritten
    have hslice : ((s.at now).acceptWrite c m (q, [(false, n0)])).slices[c] = l := honly (.slice c) (fun h => h.elim nofun nofun)
    simp only [WriteEnt.arrival, Prod.mk.injEq] at harrival
    obtain ⟨⟨hseq, hstamp, hkind, hplace⟩, hsecs, hheat, hport, hgroup, hfill⟩ := harrival
    refine ⟨_, hexec, ?_, ⟨w, ?_, hseq, hkind, hplace, hheat, hport, hstamp, hfill, hgroup, hsecs⟩, ?_⟩
    · rw [State.onAnvil_slices, State.onSlice_get, hslice]
      show l.merge.filter _ = _
      rw [hmerge]
      exact filter_key_append_cons Merge.id hids
    · rw [State.onAnvil_get, State.onSlice_anvils]
      exact hw
    · refine (Only.trans ?_ ((onAnvil_only _ c _).mono (fun _ h => .inr (.inl h))))
      refine (Only.trans ?_ ((onSlice_only _ c _).mono (fun _ h => .inl h)))
      exact (hat _ (.inr (.inr (.inr rfl)))).trans (honly.mono (fun _ h => .inr (h.imp_right .inl)))

end Sys2Proof.Machine
end

section
/-! SUPPORT. One selection of an anvil that has nothing to bring up to date first (05 R181, R182, R202 to R204, 06 R214). -/

namespace Sys2Proof.Machine

/-! ### Nothing to bring up to date -/

/-- An anvil whose only work is its read entries and its heat-7 work: the slot is empty, and no write, plot fill, row visit, pause,
complete read, refresh or RFM stands between the queues and a selection. -/
structure Settled (s : State) (c : Chan) : Prop where
  slot : s.anvils[c].slot = []
  writes : s.anvils[c].writes = []
  fills : s.anvils[c].fills = []
  visit : s.anvils[c].visit = none
  granted : s.anvils[c].granted = []
  pauses : s.anvils[c].pauses = []
  on : s.keptOff c.val = false
  noRefresh : s.flag (aREFRESH c.val) 31 = false
  noRfm : s.flag aRFM 30 = false
  reads : ∀ e ∈ s.anvils[c].reads, s.readComplete c e = false

section
variable {s : State} {c : Chan}

theorem Anvil.room_of_empty {v : Anvil} (h : v.slot = []) : v.room = true := by
  rw [Anvil.room, h]
  rfl

/-- Without a row visit none is fed (09 R322). -/
theorem State.feedVisit_of_none (h : s.anvils[c].visit = none) (fuel : Nat) : s.feedVisit c fuel = s := by
  cases fuel with
  | zero => rfl
  | succ fuel => rw [State.feedVisit, h]

/-- No refresh is released while ANV_REFRESH.EN is 0 (06 R217). -/
theorem State.releaseAll_of_off (h : s.flag (aREFRESH c.val) 31 = false) : s.releaseAll c = s := by
  refine foldl_keeps (P := (· = s)) (fun t k ht => ?_) _ rfl
  have hoff : t.refreshing c = false := by simp [State.refreshing, ht, h]
  rw [State.releaseRefresh, hoff]
  exact ht

theorem State.releaseRfm_of_off (h : s.flag aRFM 30 = false) : s.releaseRfm c = s := by
  rw [State.releaseRfm, h]
  rfl

theorem State.sealClose_of_noWrite (h : s.anvils[c].writes = []) : s.sealClose c = s := by
  simp only [State.sealClose, h, List.any_nil, Bool.and_false, Bool.false_and, List.filter_false, List.foldl_nil]

theorem State.prepareClose_of_noPause (h : s.anvils[c].pauses = []) : s.prepareClose c = s := by
  have hidle : s.anvils[c].preparing = false := by rw [Anvil.preparing, h]; rfl
  rw [State.prepareClose, hidle]
  rfl

/-- The anvil in the direction `d`. -/
def Anvil.facing (v : Anvil) (d : Dir) : Anvil := { v with dir := d }

/-- Where the slot is empty, a turn changes the direction alone. -/
theorem State.turn_of_empty (h : s.anvils[c].slot = []) : s.turn c = s.onAnvil c (·.facing (s.nextDir c)) :=
  State.onAnvil_congr (by simp only [Anvil.facing, h, List.filter_nil, ite_self])

/-- All that a settled anvil brings up to date is its direction. -/
theorem Settled.refreshed (h : Settled s c) : s.refreshed c = s.onAnvil c (·.facing (s.nextDir c)) := by
  have hsettle : s.settle c = s :=
    State.settle_of_none (fun e he => by rw [State.settled, h.reads e he, Bool.false_and])
  have hrespawn : s.respawn c = s := by rw [State.respawn, h.writes, List.foldl_nil]
  unfold State.refreshed
  rw [hsettle, hrespawn, State.feedVisit_of_none h.visit, State.turn_of_empty h.slot]
  generalize ht : s.onAnvil c (·.facing (s.nextDir c)) = t
  have hanvil : t.anvils[c] = s.anvils[c].facing (s.nextDir c) := by rw [← ht, State.onAnvil_get]
  rw [State.releaseAll_of_off (by rw [← ht]; exact h.noRefresh), State.releaseRfm_of_off (by rw [← ht]; exact h.noRfm),
    State.sealClose_of_noWrite (by rw [hanvil]; exact h.writes), State.prepareClose_of_noPause (by rw [hanvil]; exact h.pauses)]

theorem Settled.exec_commandSelect (h : Settled s c) (p : EntryParity) : exec (.commandSelect c p) s = .next (s.selectOne c p) := by
  have hroom : (s.anvils[c].room && !s.keptOff c.val) = true := by rw [Anvil.room_of_empty h.slot, h.on]; rfl
  show Host.Outcome.next (occur _ _ _) = _
  rw [hroom, occur_true]

end

/-! ### Heat-7 work (R181, 06 R214) -/

section
variable {s : State} {c : Chan}

/-- The command that the heat-7 work `l` takes next, in an empty slot. -/
theorem State.select7_empty {l : Cmd × Bool} (hslot : s.anvils[c].slot = []) (hact : (s.anvils[c].next7Cmd l.1).1.code ≠ .act) :
    s.select7 c l = s.onAnvil c (fun v =>
      ({ v with heat7 := if (s.anvils[c].next7Cmd l.1).2 then v.heat7.erase l else v.heat7 }).place (s.anvils[c].next7Cmd l.1).1) := by
  unfold State.select7
  simp only [hslot, List.any_nil, Bool.false_eq_true, if_false, hact, false_and]

/-- Of a settled anvil, the oldest heat-7 work whose time has come is selected. -/
theorem Settled.selectOne_heat7 (h : Settled s c) {l : Cmd} {late : Bool} {rest : List (Cmd × Bool)} (p : EntryParity)
    (h7 : s.anvils[c].heat7 = (l, late) :: rest) (hcode : l.code = .refab) (hbound : l.bound = false)
    (hdue : l.due ≤ s.anvils[c].ck) :
    s.selectOne c p = (s.onAnvil c (·.facing (s.nextDir c))).select7 c (l, late) := by
  unfold State.selectOne
  rw [h.refreshed]
  generalize ht : s.onAnvil c (·.facing (s.nextDir c)) = t
  have hanvil : t.anvils[c] = s.anvils[c].facing (s.nextDir c) := by rw [← ht, State.onAnvil_get]
  have hroom : t.anvils[c].room = true := by
    rw [hanvil]
    exact Anvil.room_of_empty h.slot
  have hsel : t.anvils[c].selectable l = true := by
    rw [hanvil]
    show (!l.bound && (s.anvils[c].granted.isEmpty || l.bySmith) && !(l.code == .sre && _)) = true
    rw [hbound, h.granted, hcode]
    rfl
  have hearly : decide (t.anvils[c].ck < l.due) = false := by
    rw [hanvil]
    exact decide_eq_false (Nat.not_lt.mpr hdue)
  have hfind : t.anvils[c].heat7.find? (fun e => t.anvils[c].selectable e.1 && !decide (t.anvils[c].ck < e.1.due)) = some (l, late) := by
    rw [show t.anvils[c].heat7 = (l, late) :: rest from by rw [hanvil]; exact h7]
    exact List.find?_cons_of_pos (by rw [hsel, hearly]; rfl)
  simp only [hroom, hfind, Bool.not_true, Bool.false_eq_true, if_false]

/-- An REFab goes itself where every bank of its rank is closed, and gives way to a PREA where one is open (06 R214). -/
theorem Anvil.next7Cmd_refab {v : Anvil} {l : Cmd} (hcode : l.code = .refab) (hsrc : l.src = .refresh) :
    v.next7Cmd l =
      if (List.range 16).any (fun b => (v.page l.rank b).isSome) then (plainCmd .prea l.rank 0 0 .close, false) else (l, true) := by
  unfold Anvil.next7Cmd
  rw [hcode, hsrc]

/-- Heat-7 work of a settled anvil puts the command `x` in the slot, and leaves the list where `x` is the work itself. -/
theorem Settled.heat7_enters (h : Settled s c) {l x : Cmd} {late self : Bool} {rest : List (Cmd × Bool)}
    (h7 : s.anvils[c].heat7 = (l, late) :: rest) (hcode : l.code = .refab) (hbound : l.bound = false)
    (hdue : l.due ≤ s.anvils[c].ck) (hnext : s.anvils[c].next7Cmd l = (x, self)) (hact : x.code ≠ .act) :
    ∃ t, exec (.commandSelect c .good) s = .next t ∧ t.anvils[c].slot = [{ x with seen := false }] ∧
      t.anvils[c].heat7 = (if self then rest else s.anvils[c].heat7) ∧ Only (· = .anvil c) s t := by
  have hnext' : (s.onAnvil c (·.facing (s.nextDir c))).anvils[c].next7Cmd l = (x, self) := by
    rw [State.onAnvil_get]
    exact hnext
  refine ⟨_, (h.exec_commandSelect .good).trans (by
    rw [h.selectOne_heat7 .good h7 hcode hbound hdue,
      State.select7_empty (by rw [State.onAnvil_get]; exact h.slot) (by rw [hnext']; exact hact), hnext', State.onAnvil_onAnvil]),
    ?_, ?_, onAnvil_only s c _⟩
  · rw [State.onAnvil_get]
    show s.anvils[c].slot ++ _ = _
    rw [h.slot]
    rfl
  · rw [State.onAnvil_get]
    show (if self then s.anvils[c].heat7.erase (l, late) else s.anvils[c].heat7) = _
    rw [h7, List.erase_cons_head]

end

/-! ### A lone demand read (R181, R182, R202 to R204) -/

/-- A settled anvil in READ whose only read entry is a demand read that nothing holds; `n` is the written sector that it reads next. -/
structure LoneRead (s : State) (c : Chan) (e : ReadEnt) (n : Nat) : Prop extends Settled s c where
  heat7 : s.anvils[c].heat7 = []
  noHalt : s.flag (aCMDERR c.val) 30 = false
  mode : s.modes.mode ≠ .quench
  dir : s.anvils[c].dir = .read
  only : s.anvils[c].reads = [e]
  demand : ∃ i half, e.kind = .demand i half
  todo : ∃ more, e.todo = n :: more
  waits : e.waits = []
  waitsM : e.waitsM = []
  neighbour : s.anvils[c].neighbour = []
  sweep : s.anvils[c].sweep = []
  bitten : s.tongs.bitten = none
  written : s.secWritten c e.place n = true

/-- A demand read as a candidate for a data burst. -/
def ReadEnt.cand (e : ReadEnt) (n eff : Nat) : Cand :=
  { read := true, seq := e.seq, place := e.place, pos := n, eff := eff, stamp := e.stamp, last := false, cont := false }

/-- One candidate that follows no burst of its own is the best. -/
theorem State.best_singleton (s : State) (c : Chan) {x : Cand} (hlast : x.last = false) : s.best c [x] = some x := by
  have hone : s.anvils[c].first [x] = some x := rfl
  have hcapped : s.firstCapped c [x] = some x := by
    rw [State.firstCapped, hone]
    cases hhit : s.anvils[c].isHit x.place with
    | false => simp only [hhit, Bool.false_eq_true, if_false]
    | true =>
      have hfed : ([x].filter (fun m => m.place.bank == x.place.bank && s.anvils[c].starved (s.hitcap c) m)) = [] :=
        List.filter_cons_of_neg (by simp only [Anvil.starved, hhit, Bool.not_true, Bool.false_and, Bool.and_false]; exact Bool.false_ne_true)
      simp only [hhit, if_true, hfed, Anvil.first]
  rw [State.best, List.filter_cons_of_neg (by simp [hlast]), List.filter_nil, Anvil.first]
  exact hcapped

namespace LoneRead

variable {s : State} {c : Chan} {e : ReadEnt} {n : Nat}

theorem nextDir (h : LoneRead s c e n) : s.nextDir c = .read := by
  have hstay : s.enterDrain c = false := by
    rw [State.enterDrain, h.fills, Anvil.wrq, h.writes]
    rfl
  rw [State.nextDir, h.dir]
  simp only [hstay, Bool.false_eq_true, if_false]

theorem refreshed (h : LoneRead s c e n) : s.refreshed c = s := by
  rw [h.toSettled.refreshed, h.nextDir]
  exact State.onAnvil_of_fixed (by rw [Anvil.facing, ← h.dir])

theorem todoNow (h : LoneRead s c e n) : ∃ more, s.todoNow c e = n :: more := by
  obtain ⟨i, half, hkind⟩ := h.demand
  obtain ⟨more, htodo⟩ := h.todo
  rw [State.todoNow, hkind, htodo]
  cases e.locate with
  | true => exact ⟨_, rfl⟩
  | false =>
    have hpos : (s.isCheck n || s.secWritten c e.place n) = true := by rw [h.written, Bool.or_true]
    exact ⟨_, (if_neg Bool.false_ne_true).trans (List.filter_cons_of_pos hpos)⟩

theorem readFree (h : LoneRead s c e n) : s.readFree c e = true := by
  obtain ⟨more, hnow⟩ := h.todoNow
  rw [State.readFree, State.rdsNow, hnow, State.readBlocked, h.waits, h.waitsM]
  rfl

theorem checksFollow (h : LoneRead s c e n) : s.checksFollow c e = false := by
  obtain ⟨more, hnow⟩ := h.todoNow
  rw [State.checksFollow, hnow]
  rfl

theorem readEligible (h : LoneRead s c e n) : s.readEligible c e = true := by
  obtain ⟨i, half, hkind⟩ := h.demand
  unfold State.readEligible
  simp only [h.readFree, h.dir, hkind, ReadEnt.sealed, Bool.not_false, Bool.true_and, Bool.or_true]

theorem nextRd (h : LoneRead s c e n) : s.nextRd c e = some n := by
  obtain ⟨more, hnow⟩ := h.todoNow
  have hhere : s.anvils[c].inSlot true e.seq = [] := by rw [Anvil.inSlot, h.slot, List.filterMap_nil]
  rw [State.nextRd, hhere, hnow, List.filter_cons_of_pos rfl]

/-- The read's burst of sector `n` is the only candidate. -/
theorem cands (h : LoneRead s c e n) : s.cands c = [e.cand n (s.anvils[c].effR e)] := by
  have hcand : s.candR c e = some (e.cand n (s.anvils[c].effR e)) := by
    rw [State.candR, if_pos h.readEligible, h.nextRd, h.checksFollow]
    rfl
  rw [State.cands, h.only, h.writes, List.filterMap_cons_some hcand]
  rfl

theorem clientsHeld (h : LoneRead s c e n) : s.clientsHeld c = false := by
  have hmode : (s.modes.mode == Mode.quench) = false := beq_eq_false_iff_ne.mpr h.mode
  rw [State.clientsHeld, h.noHalt, Anvil.preparing, h.pauses, h.granted, hmode, h.on, h.bitten, Anvil.hammering, h.neighbour, h.sweep]
  simp

/-- The selection takes the read from the queues. -/
theorem selectClient (h : LoneRead s c e n) (p : EntryParity) :
    s.selectClient c p = if p ≠ .good then s.parityError c (e.cand n (s.anvils[c].effR e)) p
      else s.onAnvil c (fun v => v.place (s.anvils[c].nextCmd (e.cand n (s.anvils[c].effR e)))) := by
  have hstands : ∀ l, s.anvils[c].stands l = false := fun l => by rw [Anvil.stands, h.slot, List.any_nil, Bool.and_false]
  have hfull : s.anvils[c].hammerFull = false := by rw [Anvil.hammerFull, h.neighbour]; rfl
  have hplace : ∀ x l, s.anvils[c].noPlace x l = false := fun x l => by
    simp only [Anvil.noPlace, h.slot, List.any_nil, Bool.and_false, Bool.or_false]
  have hraa : ∀ r b, s.raaBlocks c r b = false := fun r b => by rw [State.raaBlocks, h.noRfm, Bool.false_and]
  unfold State.selectClient
  rw [h.cands]
  simp only [hstands, hfull, Bool.and_false, Bool.not_false, Bool.and_true, List.filter_true, s.best_singleton c (x := e.cand n _) rfl,
    hplace, hraa, Bool.false_eq_true, and_false, if_false]

/-- The selection takes the read: with good parity its next command enters the slot (R181, R182), else the error is reported (R202). -/
theorem selectOne (h : LoneRead s c e n) (p : EntryParity) :
    s.selectOne c p = if p ≠ .good then s.parityError c (e.cand n (s.anvils[c].effR e)) p
      else s.onAnvil c (fun v => v.place (s.anvils[c].nextCmd (e.cand n (s.anvils[c].effR e)))) := by
  rw [State.selectOne, h.refreshed]
  simp only [Anvil.room_of_empty h.slot, h.heat7, List.find?_nil, h.clientsHeld, Bool.not_true, Bool.false_eq_true, if_false]
  exact h.selectClient p

/-- Read with good parity, the command that the read needs next enters the slot. -/
theorem puts (h : LoneRead s c e n) {l : Cmd} (hnext : s.anvils[c].nextCmd (e.cand n (s.anvils[c].effR e)) = l)
    (hseen : { l with seen := false } = l) :
    ∃ t, exec (.commandSelect c .good) s = .next t ∧ t.anvils[c].slot = [l] ∧
      t.anvils[c].reads = s.anvils[c].reads ∧ Only (· = .anvil c) s t := by
  refine ⟨_, (h.exec_commandSelect .good).trans (by rw [h.selectOne, if_neg (fun hne => hne rfl), hnext]), ?_, ?_, onAnvil_only s c _⟩
  · rw [State.onAnvil_get]
    show s.anvils[c].slot ++ [{ l with seen := false }] = [l]
    rw [h.slot, hseen]
    rfl
  · rw [State.onAnvil_get]
    rfl

/-- A held check sector with bad parity costs the read nothing (R202, 09 R300). -/
theorem cacheBad (h : LoneRead s c e n) : ∃ t, exec (.commandSelect c .cacheBad) s = .next t ∧
    t.anvils[c].reads = s.anvils[c].reads ∧ t.anvils[c].slot = [] ∧ Only (· = .anvil c) s t := by
  refine ⟨_, (h.exec_commandSelect .cacheBad).trans (by rw [h.selectOne, if_pos (by decide), State.parityError, if_pos rfl]), ?_⟩
  unfold State.cacheError
  split
  · rw [State.onAnvil_get]
    exact ⟨rfl, h.slot, onAnvil_only s c _⟩
  · exact ⟨rfl, h.slot, Only.refl _ s⟩

/-- With bad parity the read itself is the command error (R203). -/
theorem exec_entryBad (h : LoneRead s c e n) : exec (.commandSelect c .entryBad) s = .next (s.readParity c e) := by
  have hfind : s.anvils[c].reads.find? (fun x => x.seq == e.seq) = some e := by
    rw [h.only]
    exact List.find?_cons_of_pos (beq_self_eq_true e.seq)
  rw [h.exec_commandSelect, h.selectOne, if_pos (by decide), State.parityError, if_neg (by decide)]
  simp only [ReadEnt.cand, if_true, hfind]

end LoneRead

/-! ### The command a read needs next (R181) -/

section
variable {v : Anvil} {e : ReadEnt} {n eff : Nat}

theorem Anvil.nextCmd_hit (h : v.page e.place.rank e.place.bank = some e.place.row) :
    v.nextCmd (e.cand n eff) =
      { plainCmd .rd e.place.rank e.place.bank e.place.row (.readEnt e.seq n) with col := 2 * n } := by
  simp [Anvil.nextCmd, ReadEnt.cand, h]

theorem Anvil.nextCmd_miss {r : Nat} (h : v.page e.place.rank e.place.bank = some r) (hr : r ≠ e.place.row) :
    v.nextCmd (e.cand n eff) = plainCmd .pre e.place.rank e.place.bank r (.readEnt e.seq n) := by
  simp [Anvil.nextCmd, ReadEnt.cand, h, hr]

theorem Anvil.nextCmd_closed (h : v.page e.place.rank e.place.bank = none) :
    v.nextCmd (e.cand n eff) = plainCmd .act e.place.rank e.place.bank e.place.row (.readEnt e.seq n) := by
  simp [Anvil.nextCmd, ReadEnt.cand, h]

end

/-! ### The command error of a read (R203, R205) -/

/-- A command error is pending as event 7 in the Master Smith and in the channel's Smith. -/
theorem State.recordCmdError_evpend (s : State) (c : Chan) (cause : Nat) :
    (s.recordCmdError c cause).smiths[masterSmith].evpend = s.smiths[masterSmith].evpend ||| 0x80 ∧
      (s.recordCmdError c cause).smiths[anvilSmith c].evpend = s.smiths[anvilSmith c].evpend ||| 0x80 := by
  have hne : anvilSmith c ≠ masterSmith := fun h => by
    have := congrArg Fin.val h
    exact absurd this (Nat.ne_of_lt c.isLt)
  obtain ⟨u, hu, hsmiths⟩ : ∃ u : State, s.recordCmdError c cause = u.eventBoth c 7 ∧ u.smiths = s.smiths := by
    refine ⟨_, rfl, ?_⟩
    split <;> rfl
  rw [hu, State.eventBoth, State.eventMS, State.event, State.event, ← hsmiths]
  constructor
  · rw [State.onSmith_smiths, upd_get, if_neg (Ne.symm hne), State.onSmith_get]
    rfl
  · rw [State.onSmith_get, State.onSmith_smiths, upd_get, if_neg hne]
    rfl

/-- CMDERR.VALID is 1 after a command error. -/
theorem State.recordCmdError_valid (s : State) (c : Chan) (cause : Nat) : (s.recordCmdError c cause).flag (aCMDERR c.val) 31 = true := by
  obtain ⟨u, hu, hvalid⟩ : ∃ u : State, s.recordCmdError c cause = (u.count (aCMDERR c.val) 23 16).eventBoth c 7 ∧
      u.flag (aCMDERR c.val) 31 = true := by
    refine ⟨_, rfl, ?_⟩
    split
    · assumption
    · exact State.flag_setFlag _ _ 31 true (by decide)
  rw [hu, State.flag, State.rd, State.eventBoth_regs, ← State.rd, ← State.flag, State.count,
    State.flag_setFld _ _ 23 16 _ 31 (by decide) (by decide), if_neg (by decide)]
  exact hvalid

/-- The result of a half is in the fill of its miss. -/
theorem Slice.pushFill_has (l : Slice) (miss : Nat) (r : SecRes) :
    ∃ f ∈ (l.pushFill miss [(false, r)]).fills, f.miss = miss ∧ f.res.1 = some r := by
  unfold Slice.pushFill
  dsimp only
  split
  case isTrue hany =>
    obtain ⟨f, hf, hmiss⟩ := List.any_eq_true.mp hany
    refine ⟨_, List.mem_map_of_mem hf, ?_⟩
    rw [if_pos (eq_of_beq hmiss)]
    exact ⟨eq_of_beq hmiss, rfl⟩
  case isFalse => exact ⟨_, List.mem_append_right _ (List.mem_singleton_self _), rfl, rfl⟩

/-- The state at the record of a read's command error: the entry has left the queue and the message is under way (R203). -/
def State.readErrorSent (s : State) (c : Chan) (e : ReadEnt) : State :=
  (s.dropRead c e.seq).send c.val 0x05 sevUncorrected 0 (1 + e.place.rank * 2 ^ 4 + e.place.bank * 2 ^ 5)

/-- The parity error of a demand read for a lower half: the message, the record of the error and the answer to the slice. -/
theorem State.readParity_demand {s : State} {c : Chan} {e : ReadEnt} {i : Nat} (hkind : e.kind = .demand i (true, false))
    (hp : s.populated c.val = true) :
    s.readParity c e = ((((s.readErrorSent c e).recordCmdError c 1).onSlice c (·.pushFill i [(false, cmdErrorRes)])).dropLines c
      e.place e.secs) := by
  have hp' : (s.dropRead c e.seq).populated c.val = true := hp
  rw [State.readParity, hkind]
  simp only [State.cmdError, hp', if_true]
  rfl

/-- Settles O26: the anvil has nothing to bring up to date first (`Settled.refreshed`), so that its heat-7 work is selected
(`Settled.heat7_enters`) or its lone read (`LoneRead.puts`, `LoneRead.cacheBad`, `LoneRead.exec_entryBad`). -/
theorem commandSelectTakesHeatSevenWorkFirst : Obligations.CommandSelectTakesHeatSevenWorkFirst := by
  unfold Obligations.CommandSelectTakesHeatSevenWorkFirst
  intro s c e n more v hslot hwrites hfills hvisit hgranted hpauses hon hrefresh hrfm hreads
  have hset : Settled s c := ⟨hslot, hwrites, hfills, hvisit, hgranted, hpauses, hon, hrefresh, hrfm, hreads⟩
  constructor
  · intro l late rest h7 hcode hsrc hbound hdue
    have hnext := Anvil.next7Cmd_refab (v := v) hcode hsrc
    constructor
    · intro hclosed
      have hnone : (List.range 16).any (fun b => (v.page l.rank b).isSome) = false :=
        List.any_eq_false.mpr (fun b hb => by rw [hclosed b (List.mem_range.mp hb)]; exact Bool.false_ne_true)
      rw [hnone, if_neg Bool.false_ne_true] at hnext
      exact hset.heat7_enters h7 hcode hbound hdue hnext (by rw [hcode]; decide)
    · rintro ⟨b, hb, hopen⟩
      have hsome : (List.range 16).any (fun b => (v.page l.rank b).isSome) = true :=
        List.any_eq_true.mpr ⟨b, List.mem_range.mpr hb, Option.isSome_iff_ne_none.mpr hopen⟩
      rw [hsome, if_pos rfl] at hnext
      exact hset.heat7_enters h7 hcode hbound hdue hnext nofun
  · intro i half h7 hhalt hmode hdir honly hkind htodo hwaits hwaitsM _ _ hneighbour hsweep hbitten hwritten
    have hlone : LoneRead s c e n :=
      ⟨hset, h7, hhalt, hmode, hdir, honly, ⟨i, half, hkind⟩, ⟨more, htodo⟩, hwaits, hwaitsM, hneighbour, hsweep, hbitten, hwritten⟩
    refine ⟨fun hhit => hlone.puts (Anvil.nextCmd_hit hhit) rfl, fun r hopen hr => hlone.puts (Anvil.nextCmd_miss hopen hr) rfl,
      fun hclosed => hlone.puts (Anvil.nextCmd_closed hclosed) rfl, hlone.cacheBad, fun hp hhalf => ?_⟩
    have hexec := hlone.exec_entryBad
    rw [State.readParity_demand (hhalf ▸ hkind) hp] at hexec
    have hrecord := recordCmdError_only (s.readErrorSent c e) c 1
    have hanvil : ((s.readErrorSent c e).recordCmdError c 1).anvils[c] = (s.dropRead c e.seq).anvils[c] :=
      hrecord (.anvil c) (by simp [cmdErrorParts])
    have hfaults : ((s.readErrorSent c e).recordCmdError c 1).faults = (s.readErrorSent c e).faults :=
      hrecord .faults (by simp [cmdErrorParts])
    obtain ⟨hmaster, hsmith⟩ := (s.readErrorSent c e).recordCmdError_evpend c 1
    obtain ⟨f, hf, hmiss, hres⟩ := Slice.pushFill_has ((s.readErrorSent c e).recordCmdError c 1).slices[c] i cmdErrorRes
    refine ⟨_, hexec, ?_, ?_, ⟨_, congrArg FaultUnit.arriving hfaults, rfl, rfl, rfl, rfl⟩, ⟨f, ?_, hmiss, _, hres, rfl⟩,
      ?_, ?_, ?_⟩
    · rw [State.dropLines, State.onSlice_anvils, State.onSlice_anvils, hanvil, State.dropRead, State.onAnvil_get]
      show v.reads.filter (fun x => x.seq != e.seq) = []
      rw [honly]
      exact List.filter_cons_of_neg (by simp)
    · rw [State.dropLines, State.onSlice_anvils, State.onSlice_anvils, hanvil, State.dropRead, State.onAnvil_get]
      exact hslot
    · rw [State.dropLines, State.onSlice_get, State.onSlice_get]
      exact hf
    · rw [State.dropLines, State.onSlice_smiths, State.onSlice_smiths]
      exact hmaster
    · rw [State.dropLines, State.onSlice_smiths, State.onSlice_smiths]
      exact hsmith
    · rw [State.dropLines, State.flag, State.rd, State.onSlice_regs, State.onSlice_regs]
      exact State.recordCmdError_valid _ c 1

end Sys2Proof.Machine
end

section
/-! SUPPORT. Refresh debt, and the polls of MR4 with their results (06 R217, R221 to R225). -/

namespace Sys2Proof.Machine

/-! ### Registers and events of an anvil -/

theorem regHome_aRFSTAT (c : Chan) : regHome (aRFSTAT c.val) = aRFSTAT c.val := regHome_aAnv c (by decide) (by decide)

theorem regHome_aREFRESH_ne (c : Chan) : regHome (aREFRESH c.val) ≠ regHome (aRFSTAT c.val) := by
  rw [regHome_aRFSTAT, aREFRESH, regHome_aAnv c (by decide) (by decide)]
  unfold aRFSTAT aAnv
  omega

/-- The two Smiths that hear of an event of channel `c` (02 Table 2.5). -/
def bothSmiths (c : Chan) (x : Part) : Prop := x = .smith masterSmith ∨ x = .smith (anvilSmith c)

theorem eventBoth_only (s : State) (c : Chan) (n : Nat) : Only (bothSmiths c) s (s.eventBoth c n) :=
  (eventMS_only s n).seq (event_only _ (anvilSmith c) n)

theorem State.eventBoth_rd (s : State) (c : Chan) (n a : Nat) : (s.eventBoth c n).rd a = s.rd a :=
  (eventBoth_only s c n).rd (by simp [bothSmiths])

/-- Event `n` has become pending in both Smiths of channel `c`. -/
def BothTold (c : Chan) (n : Nat) (s t : State) : Prop :=
  t.smiths[masterSmith].evpend = s.smiths[masterSmith].evpend ||| BitVec.ofNat 16 (2 ^ n) ∧
  t.smiths[anvilSmith c].evpend = s.smiths[anvilSmith c].evpend ||| BitVec.ofNat 16 (2 ^ n)

theorem eventBoth_told (s : State) (c : Chan) (n : Nat) : BothTold c n s (s.eventBoth c n) := by
  have hne := anvilSmith_ne_master c
  rw [State.eventBoth, State.eventMS, State.event, State.event]
  constructor
  · rw [State.onSmith_smiths, upd_get, if_neg hne.symm, State.onSmith_get]
  · rw [State.onSmith_get, State.onSmith_smiths, upd_get, if_neg hne]

/-- A second event of the same number merges (02 R60). -/
theorem BothTold.again {c : Chan} {n : Nat} {s t u : State} (h : BothTold c n s t) (h' : BothTold c n t u) : BothTold c n s u := by
  obtain ⟨hmaster, hanvil⟩ := h
  obtain ⟨hmaster', hanvil'⟩ := h'
  exact ⟨by rw [hmaster', hmaster, BitVec.or_assoc, BitVec.or_self], by rw [hanvil', hanvil, BitVec.or_assoc, BitVec.or_self]⟩

/-! ### A debt that rises (R217, R221) -/

/-- The refresh state of the rank that changed. -/
theorem Anvil.onRank_get (v : Anvil) (k : Fin 2) (f : RankRefresh → RankRefresh) : (v.onRank k f).ranks[k] = f v.ranks[k] := by
  simp [Anvil.onRank]

/-- The refresh state of the other rank. -/
theorem Anvil.onRank_get_ne (v : Anvil) {j k : Fin 2} (h : j ≠ k) (f : RankRefresh → RankRefresh) :
    (v.onRank k f).ranks[j] = v.ranks[j] := by
  rw [Anvil.onRank, upd_get, if_neg h]

/-- The refresh state of a rank after a rise of its debt. -/
def State.rankAfter (s : State) (c : Chan) (r : RankRefresh) : RankRefresh :=
  { r with debt := r.debt + 1, next := r.next + s.debtPeriod c }

/-- The debt of a rank has risen, and nothing else. -/
def State.owesMore (s : State) (c : Chan) (k : Fin 2) : State := s.onAnvil c (·.onRank k (s.rankAfter c))

theorem State.owesMore_anvil (s : State) (c : Chan) (k : Fin 2) :
    (s.owesMore c k).anvils[c] = s.anvils[c].onRank k (s.rankAfter c) := State.onAnvil_get s c _

theorem State.owesMore_rank (s : State) (c : Chan) (k : Fin 2) :
    (s.owesMore c k).anvils[c].ranks[k] = s.rankAfter c s.anvils[c].ranks[k] := by
  rw [State.owesMore_anvil, Anvil.onRank_get]

/-- The debt of a rank has risen and an episode of R221 is open, and nothing else. -/
def State.owesOverdue (s : State) (c : Chan) (k : Fin 2) : State :=
  s.onAnvil c (·.onRank k (fun r => { s.rankAfter c r with overdue := true }))

theorem State.owesOverdue_anvil (s : State) (c : Chan) (k : Fin 2) : (s.owesOverdue c k).anvils[c] =
    s.anvils[c].onRank k (fun r => { s.rankAfter c r with overdue := true }) := State.onAnvil_get s c _

/-- A debt below 64 sends nothing. -/
theorem State.raiseDebt_below {s : State} {c : Chan} {k : Fin 2} (h : s.anvils[c].ranks[k].debt + 1 < 64) :
    s.raiseDebt c k = s.owesMore c k := by
  have hdebt : ¬ (64 ≤ (s.owesMore c k).anvils[c].ranks[k].debt ∧ ¬ (s.owesMore c k).anvils[c].ranks[k].overdue) := by
    rw [State.owesMore_rank]
    exact fun hover => absurd hover.1 (Int.not_le.mpr h)
  exact if_neg hdebt

/-- The debt that reaches 64 outside an episode opens one. -/
theorem State.raiseDebt_overdue {s : State} {c : Chan} {k : Fin 2} (hdebt : s.anvils[c].ranks[k].debt = 63)
    (hnew : s.anvils[c].ranks[k].overdue = false) :
    s.raiseDebt c k = (((s.owesOverdue c k).setFlag (aRFSTAT c.val) 31 true).eventBoth c 12).send c.val 0x09 sevUncorrected 0
      (k.val * 2 ^ 4 + 64 * 2 ^ 8) := by
  have hrank := s.owesMore_rank c k
  have hafter : (s.rankAfter c s.anvils[c].ranks[k]).debt = 64 := by
    rw [State.rankAfter, hdebt]
    rfl
  have hover : 64 ≤ (s.owesMore c k).anvils[c].ranks[k].debt ∧ ¬ (s.owesMore c k).anvils[c].ranks[k].overdue := by
    rw [hrank]
    exact ⟨hafter.ge, by rw [State.rankAfter, hnew]; exact Bool.false_ne_true⟩
  have hopen : (s.owesMore c k).onAnvil c (fun v => v.onRank k (fun r => { r with overdue := true })) =
      s.owesOverdue c k := by
    rw [State.owesMore, State.onAnvil_onAnvil]
    refine State.onAnvil_congr ?_
    simp only [Anvil.onRank, upd_upd]
  refine (if_pos hover).trans ?_
  show ((((s.owesMore c k).onAnvil c (fun v => v.onRank k (fun r => { r with overdue := true }))).setFlag
    (aRFSTAT c.val) 31 true).eventBoth c 12).send c.val 0x09 sevUncorrected 0
      (k.val * 2 ^ 4 + debtDetail (s.owesMore c k).anvils[c].ranks[k].debt * 2 ^ 8) = _
  rw [hopen, hrank, hafter]
  rfl

/-! ### The release decision (R217, R219) -/

theorem Anvil.push7_ranks (v : Anvil) (l : Cmd) : (v.push7 l).ranks = v.ranks := rfl

/-- Work that falls due while no pause is granted is not marked (07 R266). -/
theorem Anvil.push7_heat7 {v : Anvil} (l : Cmd) (h : v.granted = []) : (v.push7 l).heat7 = v.heat7 ++ [(l, false)] := by
  rw [Anvil.push7, h]
  rfl

theorem Anvil.endRound_granted (v : Anvil) (k : Fin 2) : (v.endRound k).granted = v.granted := rfl

theorem Anvil.endRound_heat7 (v : Anvil) (k : Fin 2) : (v.endRound k).heat7 = v.heat7 := rfl

/-- The end of a round changes no debt. -/
theorem Anvil.endRound_debt (v : Anvil) (k : Fin 2) : (v.endRound k).ranks[k].debt = v.ranks[k].debt := by
  simp [Anvil.endRound, Anvil.onRank]

/-- Nothing is released while the command slot is full. -/
theorem State.releaseRefresh_full {s : State} {c : Chan} {k : Fin 2} (h : s.anvils[c].slot.length = 2) :
    s.releaseRefresh c k = s := by
  have hroom : s.anvils[c].room = false := by rw [Anvil.room, h]; rfl
  simp only [State.releaseRefresh, hroom, Bool.and_false, Bool.false_and, Bool.not_false, if_true]

/-- At URGENT or above the lowest unmarked pair is refreshed, whatever is queued for it. -/
theorem State.refreshPair_urgent {s : State} {c : Chan} {k : Fin 2} {b : Nat}
    (hurgent : (s.urgent c : Int) ≤ s.anvils[c].ranks[k].debt) (hb : b < 8) (hlower : ∀ x < b, s.anvils[c].ranks[k].marks.getLsbD x = true)
    (hfree : s.anvils[c].ranks[k].marks.getLsbD b = false) : s.refreshPair c k = some b := by
  have hbit : ∀ x, bit s.anvils[c].ranks[k].marks.toNat x = s.anvils[c].ranks[k].marks.getLsbD x := fun x => bit_eq_testBit _ x
  simp only [State.refreshPair, hurgent, if_true, List.head?_filter, List.find?_range_eq_some, hbit, List.mem_range]
  exact ⟨by rw [hfree]; rfl, hb, fun x hx => by rw [hlower x hx]; rfl⟩

/-- Rank `k` may have a refresh released. -/
structure MayRelease (s : State) (c : Chan) (k : Fin 2) : Prop where
  refreshing : s.refreshing c = true
  on : s.anvils[c].fn.state = .on
  awake : s.anvils[c].selfRef[k] = false
  room : s.anvils[c].slot.length < 2
  free : s.anvils[c].granted = []

namespace MayRelease
variable {s : State} {c : Chan} {k : Fin 2}

/-- A rise of the debt changes nothing of what allows a release. -/
theorem owesMore (h : MayRelease s c k) : MayRelease (s.owesMore c k) c k where
  refreshing := h.refreshing
  on := by rw [State.owesMore_anvil]; exact h.on
  awake := by rw [State.owesMore_anvil]; exact h.awake
  room := by rw [State.owesMore_anvil]; exact h.room
  free := by rw [State.owesMore_anvil]; exact h.free

theorem guard (h : MayRelease s c k) : (s.refreshing c && s.anvils[c].room && s.anvils[c].granted.isEmpty &&
    !s.anvils[c].selfRef[k] && s.anvils[c].fn.state == .on) = true := by
  rw [h.refreshing, h.on, h.awake, h.free, Anvil.room, decide_eq_true h.room]
  rfl

/-- In service the pair picked is refreshed by a REFpb, here before the last of its round. -/
theorem releases_pair (h : MayRelease s c k) {b : Nat} (hservice : s.inService = true) (hpair : s.refreshPair c k = some b)
    (hround : s.anvils[c].ranks[k].marks ||| BitVec.ofNat 8 (2 ^ b) ≠ 0xFF) :
    s.releaseRefresh c k = s.onAnvil c (fun v => (v.onRank k (fun r =>
      { r.pay 1 (s.urgent c) with marks := r.marks ||| BitVec.ofNat 8 (2 ^ b) })).push7 (plainCmd .refpb k.val b 0 .refresh)) := by
  simp only [State.releaseRefresh, h.guard, Bool.not_true, Bool.false_eq_true, if_false, hservice, if_true, hpair]
  refine State.onAnvil_congr ?_
  have hne : (s.anvils[c].ranks[k].marks ||| BitVec.ofNat 8 (2 ^ b) == (0xFF : BitVec 8)) = false := beq_false_of_ne hround
  simp only [RankRefresh.pay, hne, Bool.false_eq_true, if_false]
  rfl

/-- Outside service a debt of 8 is paid by one REFab. -/
theorem releases_all (h : MayRelease s c k) (hservice : s.inService = false) (hdebt : 8 ≤ s.anvils[c].ranks[k].debt) :
    s.releaseRefresh c k = s.onAnvil c (fun v => ((v.onRank k (·.pay 8 (s.urgent c))).endRound k).push7
      (plainCmd .refab k.val 0 0 .refresh)) := by
  simp only [State.releaseRefresh, h.guard, Bool.not_true, Bool.false_eq_true, if_false, hservice, hdebt, if_true]

end MayRelease

/-! ### REFRESH_DEBT_TICK -/

section
variable {s : State} {c : Chan} {k : Fin 2}

/-- With no room in the slot a debt rises and nothing is released. -/
theorem State.debtTick_full (hfull : s.anvils[c].slot.length = 2) (hdebt : s.anvils[c].ranks[k].debt + 1 < 64) :
    (s.raiseDebt c k).releaseRefresh c k = s.owesMore c k := by
  rw [State.raiseDebt_below hdebt, State.releaseRefresh_full (by rw [State.owesMore_anvil]; exact hfull)]

/-- With no room in the slot the debt that reaches 64 opens an episode and nothing is released. -/
theorem debtTick_overdue (hfull : s.anvils[c].slot.length = 2) (hdebt : s.anvils[c].ranks[k].debt = 63)
    (hnew : s.anvils[c].ranks[k].overdue = false) : ∃ t, (s.raiseDebt c k).releaseRefresh c k = t ∧
      t.anvils[c].ranks[k] = { s.rankAfter c s.anvils[c].ranks[k] with debt := 64, overdue := true } ∧
      t.flag (aRFSTAT c.val) 31 = true ∧ BothTold c 12 s t ∧
      ∃ e, t.faults.arriving = s.faults.arriving ++ [e] ∧ e.kind = 0x09 ∧ e.sev = 2 ∧ e.source = BitVec.ofNat 8 c.val ∧
        e.detail = BitVec.ofNat 23 (k.val * 2 ^ 4 + 64 * 2 ^ 8) := by
  have hanvil := s.owesOverdue_anvil c k
  rw [State.raiseDebt_overdue hdebt hnew, State.releaseRefresh_full (by exact (congrArg (·.slot.length) hanvil).trans hfull)]
  refine ⟨_, rfl, ?_, ?_, eventBoth_told ((s.owesOverdue c k).setFlag (aRFSTAT c.val) 31 true) c 12, _,
    State.send_arriving _ _ _ _ _ _, rfl, rfl, rfl, rfl⟩
  · refine (congrArg (fun a : Anvil => a.ranks[k]) hanvil).trans ((Anvil.onRank_get _ k _).trans ?_)
    rw [State.rankAfter, hdebt]
    rfl
  · rw [State.flag, (send_only _ _ _ _ _ _).rd (by simp), State.eventBoth_rd, ← State.flag, State.flag_setFlag _ _ _ _ (by decide)]

/-- In service, at URGENT or above, a debt that rises is paid at once by a REFpb of the lowest unmarked pair. -/
theorem MayRelease.debtTick_pair (h : MayRelease s c k) {b : Nat} (hservice : s.inService = true)
    (hurgent : (s.urgent c : Int) ≤ s.anvils[c].ranks[k].debt + 1) (hdebt : s.anvils[c].ranks[k].debt + 1 < 64) (hb : b < 8)
    (hlower : ∀ x < b, s.anvils[c].ranks[k].marks.getLsbD x = true) (hopen : s.anvils[c].ranks[k].marks.getLsbD b = false)
    (hround : s.anvils[c].ranks[k].marks ||| BitVec.ofNat 8 (2 ^ b) ≠ 0xFF) : ∃ t, (s.raiseDebt c k).releaseRefresh c k = t ∧
      t.anvils[c].heat7 = s.anvils[c].heat7 ++ [(plainCmd .refpb k.val b 0 .refresh, false)] ∧
      t.anvils[c].ranks[k].debt = s.anvils[c].ranks[k].debt ∧
      t.anvils[c].ranks[k].marks = s.anvils[c].ranks[k].marks ||| BitVec.ofNat 8 (2 ^ b) ∧ Only (· = .anvil c) s t := by
  have hrank := s.owesMore_rank c k
  have hpair : (s.owesMore c k).refreshPair c k = some b :=
    State.refreshPair_urgent (by rw [hrank]; exact hurgent) hb (by rw [hrank]; exact hlower) (by rw [hrank]; exact hopen)
  rw [State.raiseDebt_below hdebt, h.owesMore.releases_pair hservice hpair (by rw [hrank]; exact hround)]
  refine ⟨_, rfl, ?_, ?_, ?_, (onAnvil_only s c _).trans (onAnvil_only _ c _)⟩
  · rw [State.onAnvil_get, Anvil.push7_heat7 _ (by exact h.owesMore.free), State.owesMore_anvil]
    rfl
  · rw [State.onAnvil_get, Anvil.push7_ranks, Anvil.onRank_get, hrank]
    exact Int.add_sub_cancel _ 1
  · rw [State.onAnvil_get, Anvil.push7_ranks, Anvil.onRank_get, hrank]
    rfl

/-- Outside service the debt that rises to 8 is paid at once by a REFab. -/
theorem MayRelease.debtTick_all (h : MayRelease s c k) (hservice : s.inService = false) (hdebt : s.anvils[c].ranks[k].debt = 7) :
    ∃ t, (s.raiseDebt c k).releaseRefresh c k = t ∧
      t.anvils[c].heat7 = s.anvils[c].heat7 ++ [(plainCmd .refab k.val 0 0 .refresh, false)] ∧
      t.anvils[c].ranks[k].debt = 0 ∧ Only (· = .anvil c) s t := by
  have height : (s.owesMore c k).anvils[c].ranks[k].debt = 8 := by
    rw [State.owesMore_rank, State.rankAfter, hdebt]
    rfl
  rw [State.raiseDebt_below (by rw [hdebt]; decide), h.owesMore.releases_all hservice height.ge]
  refine ⟨_, rfl, ?_, ?_, (onAnvil_only s c _).trans (onAnvil_only _ c _)⟩
  · rw [State.onAnvil_get, Anvil.push7_heat7 _ (by rw [Anvil.endRound_granted]; exact h.owesMore.free), Anvil.endRound_heat7,
      State.owesMore_anvil]
    rfl
  · rw [State.onAnvil_get, Anvil.push7_ranks, Anvil.endRound_debt, Anvil.onRank_get, RankRefresh.pay, height]
    rfl

end

/-- The debt of a rank falls due. -/
structure DebtDue (s : State) (c : Chan) (k : Fin 2) : Prop where
  refreshing : s.refreshing c = true
  rank : k ∈ s.ranksOf c
  awake : s.anvils[c].selfRef[k] = false
  due : s.anvils[c].ranks[k].next ≤ 32 * s.timebase

theorem exec_refreshDebtTick_due {s : State} {c : Chan} {k : Fin 2} {now : Nat} (h : DebtDue (s.at now) c k) :
    exec (.refreshDebtTick c k now) s = .next (((s.at now).raiseDebt c k).releaseRefresh c k) := by
  have hdue : ((s.at now).refreshing c && ((s.at now).ranksOf c).contains k && !(s.at now).anvils[c].selfRef[k] &&
      decide ((s.at now).anvils[c].ranks[k].next ≤ 32 * (s.at now).timebase)) = true := by
    simp only [h.refreshing, List.contains_iff_mem.mpr h.rank, h.awake, decide_eq_true h.due]
    rfl
  exact congrArg Host.Outcome.next (timed_pos (f := fun s => (s.raiseDebt c k).releaseRefresh c k) hdue)

/-! ### The polls of MR4 (R222) -/

/-- Work that falls due in a row joins the heat-7 work in its order. -/
theorem Anvil.foldl_push7 {α : Type} (f : α → Cmd) (l : List α) (v : Anvil) :
    l.foldl (fun v k => v.push7 (f k)) v = { v with heat7 := v.heat7 ++ l.map (fun k => (f k, decide (v.granted ≠ []))) } := by
  induction l generalizing v with
  | nil => simp
  | cons k l ih =>
    have hlate : (!v.granted.isEmpty) = decide (v.granted ≠ []) := by cases v.granted <;> rfl
    rw [List.foldl_cons, ih]
    simp only [Anvil.push7, hlate, List.append_assoc, List.singleton_append, List.map_cons]

theorem exec_mr4Poll_due {s : State} {c : Chan} {now due : Nat} (hrefreshing : s.refreshing c = true)
    (hon : s.anvils[c].fn.state = .on) (hat : s.anvils[c].mr4Due = some due) (hdue : due ≤ s.timeAt now) :
    exec (.mr4Poll c now) s = .next ((s.at now).onAnvil c (fun v => { v with
      mr4Due := some (due + 16000)
      heat7 := v.heat7 ++ ((s.ranksOf c).filter (fun j => !v.selfRef[j])).map (fun j =>
        ({ plainCmd .mrr j.val 0 0 .mr4 with ma := 4, bound := true }, decide (v.granted ≠ []))) })) := by
  have hcond : (s.refreshing c && s.anvils[c].fn.state == .on &&
      s.anvils[c].mr4Due.any (fun t => decide (t ≤ s.timeAt now))) = true := by
    rw [hrefreshing, hon, hat, Option.any_some, decide_eq_true hdue]
    rfl
  have hnext : (s.at now).anvils[c].mr4Due = some due := hat
  refine (congrArg Host.Outcome.next (timed_pos hcond)).trans (congrArg Host.Outcome.next (State.onAnvil_congr ?_))
  simp only [Anvil.foldl_push7, hnext]
  rfl

/-! ### Shed levels under the thermal floor (R225, 13 R445) -/

/-- What a rise of the shed level below 7 may touch. -/
def floorParts (x : Part) : Prop :=
  x = .reg aSHED ∨ x = .reg aMODE ∨ x = .modes ∨ x = .faults ∨ x = .loftFns ∨ (∃ p, x = .port p) ∨ ∃ c, x = .slice c

theorem aSHED_floor {s t : State} (h : Only (· = .reg (regHome aSHED)) s t) : Only floorParts s t :=
  h.mono (fun _ hx => .inl hx)

theorem aMODE_floor {s t : State} (h : Only (· = .reg (regHome aMODE)) s t) : Only floorParts s t :=
  h.mono (fun _ hx => .inr (.inl hx))

theorem setMode_floor (s : State) (m : Mode) : Only floorParts s (s.setMode m) := by
  have hmode : Only floorParts s (s.onModes (fun x => { x with mode := m })) :=
    (onModes_only s _).mono (fun _ hx => .inr (.inr (.inl hx)))
  have hfld := hmode.trans (aMODE_floor (setFld_only _ aMODE 2 0 m.code))
  have hhot := Only.ite (c := m = .forge ∨ m = .lowfire) hfld (hfld.trans (aSHED_floor (setFlag_only _ aSHED 31 false)))
  exact Only.ite (Only.refl _ s) (Only.ite hhot (hhot.trans (aMODE_floor (setFlag_only _ aMODE 31 true))))

theorem throttleEdge_floor (s before : State) : Only floorParts s (s.throttleEdge before) := by
  have hports : ∀ l : Vector Port 128, Only floorParts s { s with ports := l } := by
    intro l x hx
    cases x with
    | port p => exact absurd (.inr (.inr (.inr (.inr (.inr (.inl ⟨p, rfl⟩)))))) hx
    | _ => first | rfl | exact ⟨rfl, rfl⟩
  exact hports _

theorem loftStopping_floor (s : State) (k : Fin 6) : Only floorParts s (s.loftStopping k) := by
  have hslices : ∀ f : Slice → Slice, Only floorParts s { s with slices := s.slices.map f } := by
    intro f x hx
    cases x with
    | slice c => exact absurd (.inr (.inr (.inr (.inr (.inr (.inr ⟨c, rfl⟩)))))) hx
    | _ => first | rfl | exact ⟨rfl, rfl⟩
  exact Only.ite (hslices _) (Only.ite (hslices _) (hslices _))

theorem loftRequest_floor (s : State) (k : Fin 6) : Only floorParts s (s.loftRequest k) := by
  have hfns : ∀ l : Vector Fn 6, Only floorParts s { s with loftFns := l } := by
    intro l x hx
    cases x with
    | loftFns => exact absurd (.inr (.inr (.inr (.inr (.inl rfl))))) hx
    | _ => first | rfl | exact ⟨rfl, rfl⟩
  exact Only.ite ((hfns _).trans (loftStopping_floor _ k)) (hfns _)

theorem loftRequests_floor (s : State) : Only floorParts s s.loftRequests :=
  foldl_keeps (P := Only floorParts s) (fun u k hu => hu.trans (loftRequest_floor u k)) _ (Only.refl _ s)

/-- A shed level below 7 begins no BANKED transition (13 R449). -/
theorem setShed_floor (s : State) {level : Nat} (h : level ≠ 7) : Only floorParts s (s.setShed level) := by
  unfold State.setShed
  dsimp only
  split
  · exact Only.refl _ s
  · rw [if_neg (fun hbank => h hbank.1)]
    refine Only.trans ?_ (loftRequests_floor _)
    refine Only.trans ?_ (throttleEdge_floor _ _)
    have hlevel : ∀ n f, Only floorParts s (((s.setFld aSHED 2 0 level).send 0x50 0x1A sevInfo 0 n).onModes f) := fun n f =>
      ((aSHED_floor (setFld_only s aSHED 2 0 level)).trans
        ((send_only _ _ _ _ _ n).mono (fun _ hx => .inr (.inr (.inr (.inl hx)))))).trans
        ((onModes_only _ f).mono (fun _ hx => .inr (.inr (.inl hx))))
    exact Only.ite ((hlevel _ _).trans (setMode_floor _ _)) (hlevel _ _)

theorem thermalFloor_floor (s : State) : Only floorParts s s.thermalFloor := by
  have hhot := aSHED_floor (setFlag_only s aSHED 31 (s.thermal && s.inService))
  exact Only.ite (hhot.trans (setShed_floor _ (by decide))) hhot

/-! ### The multiplier state and the results of the polls (R223 to R225) -/

/-- The multiplier state has changed, with its event. -/
def State.multTold (s : State) (c : Chan) (new : Nat) : State :=
  (s.onAnvil c (fun a => { a with mult := new })).eventBoth c 5

theorem multTold_anvil (s : State) (c : Chan) (new : Nat) : (s.multTold c new).anvils[c] = { s.anvils[c] with mult := new } :=
  State.onAnvil_get s c _

theorem multTold_only (s : State) (c : Chan) (new : Nat) : Only (fun x => x = .anvil c ∨ bothSmiths c x) s (s.multTold c new) :=
  (onAnvil_only s c _).seq (eventBoth_only _ c 5)

/-- Outside critical a change of the multiplier state is told, and nothing else. -/
theorem State.setMult_cool {s : State} {c : Chan} {old new : Nat} (v : Nat) (h : old ≠ new) (hold : old ≠ 2) (hnew : new ≠ 2) :
    s.setMult c old new v = s.multTold c new := by
  rw [State.setMult, if_neg h, if_neg hnew, if_neg hold]
  rfl

/-- At an entry or an end of critical a thermal request is made or withdrawn too, and the thermal floor follows it. -/
theorem State.setMult_critical {s : State} {c : Chan} {old new : Nat} (v : Nat) (h : old ≠ new) (hcrit : old = 2 ∨ new = 2) :
    ∃ u hot, Only (· = .faults) (s.multTold c new) u ∧
      s.setMult c old new v = (u.onAnvil c (fun a => { a with thermReq := hot })).thermalFloor := by
  rw [State.setMult, if_neg h]
  by_cases hnew : new = 2
  · rw [if_pos hnew]
    exact ⟨_, true, send_only (s.multTold c new) c.val 0x0A sevCorrected 0 v, rfl⟩
  · rw [if_neg hnew, if_pos (hcrit.resolve_right hnew)]
    exact ⟨_, false, Only.refl _ (s.multTold c new), rfl⟩

/-- What a change of the multiplier state leaves: the state itself, the polls counted, ANV_RFSTAT and the event. -/
theorem setMult_spec {s : State} {c : Chan} {old : Nat} (new v : Nat) (hold : s.anvils[c].mult = old) :
    (s.setMult c old new v).anvils[c].mult = new ∧ (s.setMult c old new v).anvils[c].mr4Lower = s.anvils[c].mr4Lower ∧
    (s.setMult c old new v).rd (aRFSTAT c.val) = s.rd (aRFSTAT c.val) ∧
    (old ≠ new → BothTold c 5 s (s.setMult c old new v)) := by
  by_cases heq : old = new
  · rw [State.setMult, if_pos heq]
    exact ⟨hold.trans heq, rfl, rfl, fun hne => absurd heq hne⟩
  have htold : BothTold c 5 s (s.multTold c new) := eventBoth_told (s.onAnvil c _) c 5
  by_cases hcrit : old = 2 ∨ new = 2
  · obtain ⟨u, hot, hu, he⟩ := State.setMult_critical v heq hcrit
    have hfloor := thermalFloor_floor (u.onAnvil c (fun a => { a with thermReq := hot }))
    rw [← he] at hfloor
    have hanvil : (s.setMult c old new v).anvils[c] = { s.anvils[c] with mult := new, thermReq := hot } := by
      have hkept : u.anvils[c] = (s.multTold c new).anvils[c] := hu (.anvil c) (by simp)
      refine (hfloor (.anvil c) (by simp [floorParts])).trans ?_
      rw [State.onAnvil_get, hkept, multTold_anvil]
    have hsmiths : ∀ m : SmithId, (s.setMult c old new v).smiths[m] = (s.multTold c new).smiths[m] := fun m =>
      (hfloor (.smith m) (by simp [floorParts])).trans (hu (.smith m) (by simp))
    have hreg : ¬ floorParts (.reg (regHome (aRFSTAT c.val))) := by
      rw [regHome_aRFSTAT]
      simp only [floorParts, Part.reg.injEq, reduceCtorEq, exists_false, or_false, aRFSTAT, aAnv, aSHED, aMODE]
      omega
    refine ⟨by rw [hanvil], by rw [hanvil], (hfloor.rd hreg).trans (hu.rd (by simp)), fun _ => ?_⟩
    obtain ⟨hmaster, hsmith⟩ := htold
    exact ⟨by rw [hsmiths, hmaster], by rw [hsmiths, hsmith]⟩
  · rw [State.setMult_cool v heq (fun h => hcrit (.inl h)) (fun h => hcrit (.inr h)), multTold_anvil]
    exact ⟨rfl, rfl, rfl, fun _ => htold⟩

theorem setMult_only_of_cool (s : State) (c : Chan) {old new : Nat} (v : Nat) (hold : old ≠ 2) (hnew : new ≠ 2) :
    Only (fun x => x = .anvil c ∨ bothSmiths c x) s (s.setMult c old new v) := by
  by_cases heq : old = new
  · rw [State.setMult, if_pos heq]
    exact Only.refl _ s
  · rw [State.setMult_cool v heq hold hnew]
    exact multTold_only s c new

/-- ANV_RFSTAT shows the value of a poll. -/
def State.mr4Shown (s : State) (c : Chan) (v : Nat) : State :=
  if s.fld (aRFSTAT c.val) 12 8 = v then s else (s.setFld (aRFSTAT c.val) 12 8 v).eventBoth c 5

theorem mr4Shown_only (s : State) (c : Chan) (v : Nat) :
    Only (fun x => x = .reg (aRFSTAT c.val) ∨ bothSmiths c x) s (s.mr4Shown c v) := by
  have hset := (setFld_only s (aRFSTAT c.val) 12 8 v).seq (eventBoth_only _ c 5)
  rw [regHome_aRFSTAT] at hset
  exact Only.ite (Only.refl _ s) hset

theorem State.mr4Shown_fld (s : State) (c : Chan) {v : Nat} (h : v < 32) : (s.mr4Shown c v).fld (aRFSTAT c.val) 12 8 = v := by
  unfold State.mr4Shown
  split
  · assumption
  · rw [State.fld, State.eventBoth_rd, ← State.fld, State.fld_setFld s (aRFSTAT c.val) 12 8 v (by decide) (by decide)]
    exact Nat.mod_eq_of_lt h

/-- Where a poll shows another value than before, event 5 tells it; a later event 5 merges with that one. -/
theorem mr4Shown_told {s t : State} {c : Chan} {v : Nat} (h : BothTold c 5 (s.mr4Shown c v) t) : BothTold c 5 s t := by
  unfold State.mr4Shown at h
  split at h
  · exact h
  · exact (eventBoth_told (s.setFld (aRFSTAT c.val) 12 8 v) c 5).again h

theorem State.mr4State_shown (s : State) (c : Chan) (v : Nat) : (s.mr4Shown c v).mr4State c v = s.mr4State c v := by
  have hrd : (s.mr4Shown c v).rd (aREFRESH c.val) = s.rd (aREFRESH c.val) :=
    (mr4Shown_only s c v).rd (by
      rw [bothSmiths, ← regHome_aRFSTAT]
      simp [regHome_aREFRESH_ne c])
  unfold State.mr4State State.fld
  rw [hrd]

/-- What a poll that returned `v` leaves, `n` being what R224 makes of it. -/
theorem takeMr4_spec {s : State} {c : Chan} {v : Nat} (hv : v < 32) {n : Nat × List Nat}
    (hn : mr4Next s.anvils[c].mult s.anvils[c].mr4Lower (s.mr4State c v) = n) :
    (s.takeMr4 c v).fld (aRFSTAT c.val) 12 8 = v ∧ (s.takeMr4 c v).anvils[c].mult = n.1 ∧
    (s.takeMr4 c v).anvils[c].mr4Lower = n.2 ∧ (s.anvils[c].mult ≠ n.1 → BothTold c 5 s (s.takeMr4 c v)) ∧
    (s.anvils[c].mult ≠ 2 → n.1 ≠ 2 →
      Only (fun x => x = .anvil c ∨ x = .reg (aRFSTAT c.val) ∨ bothSmiths c x) s (s.takeMr4 c v)) := by
  have hshown := mr4Shown_only s c v
  have hanvil : (s.mr4Shown c v).anvils[c] = s.anvils[c] := hshown (.anvil c) (by simp [bothSmiths])
  have htake : s.takeMr4 c v = ((s.mr4Shown c v).onAnvil c (fun a => { a with mr4Lower := n.2 })).setMult c
      s.anvils[c].mult n.1 v := by
    rw [← hn, ← hanvil, ← State.mr4State_shown]
    rfl
  have hget := State.onAnvil_get (s.mr4Shown c v) c (fun a => { a with mr4Lower := n.2 })
  obtain ⟨hmult, hlower, hrd, htold⟩ := setMult_spec (s := (s.mr4Shown c v).onAnvil c (fun a => { a with mr4Lower := n.2 }))
    (old := s.anvils[c].mult) n.1 v (by rw [hget, hanvil])
  rw [htake]
  refine ⟨?_, hmult, hlower.trans (by rw [hget]), fun hne => mr4Shown_told (htold hne), fun hold hnew => ?_⟩
  · rw [State.fld, hrd]
    exact State.mr4Shown_fld s c hv
  · exact ((hshown.seq (onAnvil_only _ c _)).seq (setMult_only_of_cool _ c v hold hnew)).mono (by grind)

theorem foldl_max_lt {l : List Nat} {a n : Nat} (ha : a < n) (h : ∀ y ∈ l, y < n) : l.foldl max a < n := by
  induction l generalizing a with
  | nil => exact ha
  | cons y l ih =>
    obtain ⟨hy, hl⟩ := List.forall_mem_cons.mp h
    exact ih (max_lt ha hy) hl

/-- The dies show values of 5 bits. -/
theorem State.mr4Value_lt (s : State) (c : Chan) (rank0 rank1 : List (BitVec 5)) : s.mr4Value c rank0 rank1 < 32 := by
  refine foldl_max_lt (by decide) (fun y hy => ?_)
  obtain ⟨x, _, rfl⟩ := List.mem_map.mp hy
  exact x.isLt

/-! ### What R224 makes of a poll -/

theorem mr4Next_rise {cur x : Nat} (lower : List Nat) (h : cur < x) : mr4Next cur lower x = (x, []) := if_pos h

theorem mr4Next_same {cur x : Nat} (lower : List Nat) (h : cur = x) : mr4Next cur lower x = (cur, []) := by
  rw [mr4Next, if_neg (by omega), if_pos h]

theorem mr4Next_wait {cur x : Nat} {lower : List Nat} (h : x < cur) (hfew : lower.length < 3) :
    mr4Next cur lower x = (cur, lower ++ [x]) := by
  rw [mr4Next, if_neg (by omega), if_neg (by omega), if_neg (by omega)]

theorem mr4Next_fall {cur x : Nat} {lower : List Nat} (h : x < cur) (hfour : 3 ≤ lower.length) :
    mr4Next cur lower x = ((lower ++ [x]).foldl max 0, []) := by
  rw [mr4Next, if_neg (by omega), if_neg (by omega), if_pos hfour]

/-- Polls that show no critical state lead to none. -/
theorem mr4Next_lt_two {cur x : Nat} {lower : List Nat} (hcur : cur < 2) (hx : x < 2) (hlower : ∀ y ∈ lower, y < 2) :
    (mr4Next cur lower x).1 < 2 := by
  rcases Nat.lt_trichotomy cur x with hlt | heq | hgt
  · rwa [mr4Next_rise lower hlt]
  · rwa [mr4Next_same lower heq]
  · rcases Nat.lt_or_ge lower.length 3 with hfew | hfour
    · rwa [mr4Next_wait hgt hfew]
    · rw [mr4Next_fall hgt hfour]
      exact foldl_max_lt (by decide) (List.forall_mem_append.mpr ⟨hlower, List.forall_mem_singleton.mpr hx⟩)

/-- MR4_RESULT takes the largest value over the dies once every MRR of the poll has issued (R222, R223). -/
theorem exec_mr4Result_back {s : State} {c : Chan} (a b : List (BitVec 5)) (h : s.anvils[c].mr4Back = true) :
    exec (.mr4Result c a b) s = .next ((s.onAnvil c (fun v =>
      { v with bursts := v.bursts.filter (fun b => b.cmd.src != .mr4) })).takeMr4 c (s.mr4Value c a b)) :=
  congrArg Host.Outcome.next (if_pos h)

/-- Settles O31: a debt that falls due is `State.debtTick_full` or `debtTick_overdue` with a full slot, and is paid by
`MayRelease.debtTick_pair` or `MayRelease.debtTick_all`; a poll is `exec_mr4Poll_due`; a result is taken by `takeMr4_spec`, in the
cases of `mr4Next`. -/
theorem refreshDebtPollsAndTheirCommands : Obligations.RefreshDebtPollsAndTheirCommands := by
  unfold Obligations.RefreshDebtPollsAndTheirCommands
  intro s c k now u v r urgent period here told
  have hhere : ∀ t, Only (· = .anvil c) (s.at now) t → Only here s t := fun t h =>
    ((at_only s now).seq h).mono (fun _ hx => hx.symm)
  refine ⟨fun hrefreshing hon hrank hawake hdue => ?_, fun due hrefreshing hon hat hdue => ?_, fun a b hback => ?_⟩
  · have hexec := exec_refreshDebtTick_due (s := s) (now := now) ⟨hrefreshing, hrank, hawake, hdue⟩
    have hmay : v.slot.length < 2 → v.granted = [] → MayRelease (s.at now) c k := fun hroom hfree =>
      ⟨hrefreshing, hon, hawake, hroom, hfree⟩
    refine ⟨fun hfull hdebt => ?_, fun hfull hdebt hnew => ?_, fun b hb hroom hfree hservice hurgent hdebt hlower hopen hround => ?_,
      fun hroom hfree hmode hdebt => ?_⟩
    · have hget := (s.at now).owesMore_anvil c k
      refine ⟨_, hexec.trans (congrArg _ (State.debtTick_full (s := s.at now) hfull hdebt)), (s.at now).owesMore_rank c k,
        fun j hj => ?_, by rw [hget]; rfl, hhere _ (onAnvil_only _ c _)⟩
      rw [hget]
      exact Anvil.onRank_get_ne _ hj _
    · obtain ⟨t, ht, hspec⟩ := debtTick_overdue (s := s.at now) hfull hdebt hnew
      exact ⟨t, hexec.trans (congrArg _ ht), hspec⟩
    · obtain ⟨t, ht, hheat, hrank, hmarks, honly⟩ :=
        (hmay hroom hfree).debtTick_pair hservice hurgent hdebt hb hlower hopen hround
      exact ⟨t, hexec.trans (congrArg _ ht), hheat, hrank, hmarks, hhere t honly⟩
    · have hservice : s.inService = false := by
        rcases hmode with hmode | hmode <;> rw [State.inService, hmode] <;> rfl
      obtain ⟨t, ht, hheat, hrank, honly⟩ := (hmay hroom hfree).debtTick_all hservice hdebt
      exact ⟨t, hexec.trans (congrArg _ ht), hheat, hrank, hhere t honly⟩
  · exact ⟨_, exec_mr4Poll_due hrefreshing hon hat hdue, State.onAnvil_get _ c _, hhere _ (onAnvil_only _ c _)⟩
  · intro x shown
    have hbursts := onAnvil_only s c (fun v => { v with bursts := v.bursts.filter (fun b => b.cmd.src != .mr4) })
    have hget := State.onAnvil_get s c (fun v => { v with bursts := v.bursts.filter (fun b => b.cmd.src != .mr4) })
    have hmult := congrArg Anvil.mult hget
    obtain ⟨hfld, hnew, hlower, htold, honly⟩ := takeMr4_spec (s.mr4Value_lt c a b) (n := mr4Next v.mult v.mr4Lower shown)
      (by rw [hget]; rfl)
    refine ⟨_, exec_mr4Result_back a b hback, hfld, fun hrise => ?_, fun hsame => ?_, fun hfall hfew => ?_, fun hfall hfour => ?_,
      fun hcool hshown hpolls => ?_⟩
    · rw [mr4Next_rise _ hrise] at hnew hlower htold
      exact ⟨hnew, hlower, htold (hmult.trans_ne hrise.ne)⟩
    · rw [mr4Next_same _ hsame] at hnew hlower
      exact ⟨hnew, hlower⟩
    · rw [mr4Next_wait hfall hfew] at hnew hlower
      exact ⟨hnew, hlower⟩
    · rw [mr4Next_fall hfall hfour.ge] at hnew hlower
      exact ⟨hnew, hlower⟩
    · exact (hbursts.mono (fun _ h => .inl h)).trans (honly (hmult.trans_ne hcool.ne) (mr4Next_lt_two hcool hshown hpolls).ne)

end Sys2Proof.Machine
end

section
/-! SUPPORT. The host's accesses of an anvil block (18 Table 18.6), and what a write by the types of the fields leaves in one field. -/

namespace Sys2Proof.Machine

/-! ### One field of a typed write (00 Table 0.4, R17) -/

/-- A bit of a register is its field of one bit. -/
theorem State.flag_eq_fld (s : State) (a i : Nat) : s.flag a i = (s.fld a i i == 1) := by
  simp [State.flag, State.fld, wbit, wbits, bit, bits]

theorem getLsbD_eq_bits (w : Word) (i : Nat) : w.getLsbD i = (bits w.toNat i i == 1) := by
  rw [← wbit_eq_getLsbD]
  simp [wbit, bit, bits]

/-- What one field with reserved encodings does to the word that a write leaves (`keepReserved`). -/
def keepField (old new w : Word) (f : Nat × Nat × (Nat → Bool)) : Word :=
  if f.2.2 (wbits new f.1 f.2.1) then putBits w f.1 f.2.1 (wbits old f.1 f.2.1) else w

theorem keepReserved_eq_foldl (l : List (Nat × Nat × (Nat → Bool))) (old new : Word) :
    keepReserved l old new = l.foldl (keepField old new) new := rfl

/-- Fields beside the one looked at. -/
def FieldsApart (hi lo : Nat) (l : List (Nat × Nat × (Nat → Bool))) : Prop :=
  ∀ f ∈ l, f.2.1 ≤ f.1 ∧ (hi < f.2.1 ∨ f.1 < lo)

section
variable {hi lo : Nat} (hle : lo ≤ hi) (h32 : hi < 32)
include hle h32

theorem wbits_foldl_keepField (old new : Word) {l : List (Nat × Nat × (Nat → Bool))} (hl : FieldsApart hi lo l) (acc : Word) :
    wbits (l.foldl (keepField old new) acc) hi lo = wbits acc hi lo := by
  induction l generalizing acc with
  | nil => rfl
  | cons f l ih =>
    obtain ⟨⟨hf, hapart⟩, hl⟩ := List.forall_mem_cons.mp hl
    rw [List.foldl_cons, ih hl, keepField]
    split
    · exact wbits_putBits_of_disjoint _ _ _ _ _ _ hf hle h32 hapart
    · rfl

/-- A field with reserved encodings takes the new value unless it is one of them. -/
theorem wbits_keepReserved (old new : Word) {before after : List (Nat × Nat × (Nat → Bool))} (res : Nat → Bool)
    (hb : FieldsApart hi lo before) (ha : FieldsApart hi lo after) :
    wbits (keepReserved (before ++ (hi, lo, res) :: after) old new) hi lo =
      if res (wbits new hi lo) then wbits old hi lo else wbits new hi lo := by
  rw [keepReserved_eq_foldl, List.foldl_append, List.foldl_cons, wbits_foldl_keepField hle h32 _ _ ha, keepField]
  split
  · rw [wbits_putBits _ _ _ _ hle h32, Nat.mod_eq_of_lt (wbits_lt _ _ _)]
  · exact wbits_foldl_keepField hle h32 _ _ hb _

/-- A field outside a mask reads as before where the bits of the mask change alone. -/
theorem wbits_congr_of_apart {w x m : Word} (hm : maskBits hi lo &&& m = 0)
    (h : ∀ i, m.getLsbD i = false → w.getLsbD i = x.getLsbD i) :
    wbits w hi lo = wbits x hi lo := by
  apply Nat.eq_of_testBit_eq
  intro i
  rw [wbits_testBit, wbits_testBit]
  by_cases hlt : i < hi - lo + 1
  · have hbit := congrArg (fun y => y.getLsbD (lo + i)) hm
    have h1 : lo + i < 32 := by omega
    have h2 : lo + i ≤ hi := by omega
    rw [h (lo + i) (by simpa [maskBits_getLsbD _ _ _ hle, h1, h2] using hbit)]
  · simp [hlt]

theorem wbits_clear_of_apart (w x : Word) {m : Word} (hm : maskBits hi lo &&& m = 0) :
    wbits (w &&& ~~~(x &&& m)) hi lo = wbits w hi lo :=
  wbits_congr_of_apart hle h32 hm fun i hi => by
    simp only [BitVec.getLsbD_and, BitVec.getLsbD_not, hi, Bool.and_false, Bool.not_false, Bool.and_true]
    by_cases h : i < 32
    · simp [h]
    · simp [BitVec.getLsbD_of_ge w i (by omega)]

/-- A field outside the bits that a write takes reads as before. -/
theorem wbits_merge_of_apart (old w : Word) {m : Word} (hm : maskBits hi lo &&& m = 0) :
    wbits ((old &&& ~~~m) ||| (w &&& m)) hi lo = wbits old hi lo :=
  wbits_congr_of_apart hle h32 hm fun i hi => by
    simp only [BitVec.getLsbD_or, BitVec.getLsbD_and, BitVec.getLsbD_not, hi, Bool.and_false, Bool.not_false, Bool.and_true,
      Bool.or_false]
    by_cases h : i < 32
    · simp [h]
    · simp [BitVec.getLsbD_of_ge old i (by omega)]

/-! A register `r` without LK fields, in which the field looked at holds no W1C bit. -/

variable {s : State} {a : Nat} {r : RegInfo} (hr : regInfo a = some r) (hlk : r.lk = 0) (hw1c : maskBits hi lo &&& r.w1c = 0)
include hr hlk hw1c

/-- A write by the types of the fields, as one field sees it. -/
theorem State.typed_fld (w : Word) : (s.typed a w).fld a hi lo =
    wbits (keepReserved (r.resv.filter (fun f => maskBits f.1 f.2.1 &&& r.rw != 0)) (s.rd a)
      ((s.rd a &&& ~~~r.rw) ||| (w &&& r.rw))) hi lo := by
  have hm : ∀ b : Bool, r.rw ||| (if b then 0 else r.lk) = r.rw := fun b => by simp [hlk]
  simp only [State.fld, State.typed_eq_wr hr, State.rd_wr, if_true, typedWrite, hm]
  exact wbits_clear_of_apart hle h32 _ _ hw1c

/-- A field that no write takes keeps its value. -/
theorem State.typed_fld_ro (w : Word) (hm : maskBits hi lo &&& r.rw = 0) (hf : FieldsApart hi lo r.resv) :
    (s.typed a w).fld a hi lo = s.fld a hi lo := by
  rw [State.typed_fld hle h32 hr hlk hw1c, keepReserved_eq_foldl,
    wbits_foldl_keepField hle h32 _ _ (fun f h => hf f (List.mem_of_mem_filter h)), wbits_merge_of_apart hle h32 _ _ hm]
  rfl

/-- An RW field with no reserved encoding takes what is written. -/
theorem State.typed_fld_rw (w : Word) (hm : maskBits hi lo &&& ~~~r.rw = 0) (hf : FieldsApart hi lo r.resv) :
    (s.typed a w).fld a hi lo = bits w.toNat hi lo := by
  rw [State.typed_fld hle h32 hr hlk hw1c, keepReserved_eq_foldl,
    wbits_foldl_keepField hle h32 _ _ (fun f h => hf f (List.mem_of_mem_filter h)), wbits_merge _ _ _ hle h32 hm]
  rfl

/-- An RW field with reserved encodings takes what is written unless it is one of them (R17). -/
theorem State.typed_fld_resv (w : Word) (hm : maskBits hi lo &&& ~~~r.rw = 0) {res : Nat → Bool}
    {before after : List (Nat × Nat × (Nat → Bool))}
    (hresv : r.resv.filter (fun f => maskBits f.1 f.2.1 &&& r.rw != 0) = before ++ (hi, lo, res) :: after)
    (hb : FieldsApart hi lo before) (ha : FieldsApart hi lo after) :
    (s.typed a w).fld a hi lo = if res (bits w.toNat hi lo) then s.fld a hi lo else bits w.toNat hi lo := by
  rw [State.typed_fld hle h32 hr hlk hw1c, hresv, wbits_keepReserved hle h32 _ _ _ hb ha, wbits_merge _ _ _ hle h32 hm]
  rfl

end

section
variable {P : Part → Prop} {s t : State} {a : Nat}

/-- A field of a register outside the frame reads as before. -/
theorem Only.fld (h : Only P s t) (ha : ¬ P (.reg (regHome a))) (hi lo : Nat) : t.fld a hi lo = s.fld a hi lo :=
  congrArg (wbits · hi lo) (h.rd ha)

/-- A bit of a register outside the frame reads as before. -/
theorem Only.flag (h : Only P s t) (ha : ¬ P (.reg (regHome a))) (i : Nat) : t.flag a i = s.flag a i :=
  congrArg (wbit · i) (h.rd ha)

end

/-! ### The registers of an anvil block -/

/-- The place of a register of an anvil block. -/
theorem aAnv_place (c : Chan) {o : Nat} (ho : o < 0x800) : 0x020000 ≤ aAnv c.val o ∧ aAnv c.val o < 0x02C000 ∧
    (aAnv c.val o - 0x020000) / 0x800 = c.val ∧ aAnv c.val o % 0x800 = o := by
  have hc := c.isLt
  simp only [aAnv]
  omega

theorem chanOf_val (c : Chan) : chanOf c.val = c := Fin.ext (Nat.mod_eq_of_lt c.isLt)

theorem windowAt_aAnv (c : Chan) {o : Nat} (ho : o < 0x800) : windowAt (aAnv c.val o) = false := by
  obtain ⟨hlo, hhi, -⟩ := aAnv_place c ho
  simp only [windowAt, Bool.or_eq_false_iff, decide_eq_false_iff_not]
  omega

/-- The register of an anvil block at an offset (Table 18.6). -/
def anvilReg (o : Nat) : Option RegInfo := (anvilRegs.lookup o).or (anvilRegs2.lookup o)

theorem regInfo_aAnv (c : Chan) {o : Nat} (ho : o < 0x800) : regInfo (aAnv c.val o) = anvilReg o := by
  obtain ⟨hlo, hhi, -, hoff⟩ := aAnv_place c ho
  have hglobal : ¬ aAnv c.val o < 0x005000 := by omega
  have hport : ¬ (0x010000 ≤ aAnv c.val o ∧ aAnv c.val o < 0x020000) := by omega
  rw [regInfo, if_neg hglobal, if_neg hport, if_pos ⟨hlo, hhi⟩, hoff, anvilReg]
  cases anvilRegs.lookup o <;> rfl

/-- An offset at which an anvil block has a register. -/
def anvilOffset (o : Nat) : Bool := decide (o < 0x800) && o % 4 == 0 && (anvilReg o).isSome

section
variable {s : State} {c : Chan} {o : Nat} (ho : anvilOffset o = true)
include ho

theorem State.hostCause_anv (write : Bool) (hb : s.modes.mode ≠ .banked) : s.hostCause write (aAnv c.val o) = none := by
  simp only [anvilOffset, Bool.and_eq_true, decide_eq_true_eq, beq_iff_eq] at ho
  obtain ⟨⟨hlt, h4⟩, hinfo⟩ := ho
  refine State.hostCause_of_populated write ?_ ?_ hb
  · simp only [aAnv]
    omega
  · rw [populatedAt, regInfo_aAnv c hlt, hinfo, Bool.or_true]

/-- A host write to a register of an anvil block outside BANKED. -/
theorem hostAccess_anvWrite (w : Word) (hb : s.modes.mode ≠ .banked) :
    s.hostAccess (aAnv c.val o) (some w) = s.anvWrite (aAnv c.val o) w := by
  have hlt : o < 0x800 := by
    simp only [anvilOffset, Bool.and_eq_true, decide_eq_true_eq] at ho
    exact ho.1.1
  obtain ⟨hlo, hhi, -⟩ := aAnv_place c hlt
  have hglobal : ¬ aAnv c.val o < 0x005000 := by omega
  have hport : ¬ aAnv c.val o < 0x020000 := by omega
  simp only [State.hostAccess, State.hostWrite, State.hostCause_anv ho true hb, State.regWrite, windowAt_aAnv c hlt, hglobal,
    hport, hhi, if_true, if_false, Bool.false_eq_true]

/-- A host read of a register of an anvil block outside BANKED. -/
theorem hostAccess_anvRead (hb : s.modes.mode ≠ .banked) : s.hostAccess (aAnv c.val o) none =
    { (s.anvRead .host (aAnv c.val o)).2 with hrpRdata := (s.anvRead .host (aAnv c.val o)).1 } := by
  have hlt : o < 0x800 := by
    simp only [anvilOffset, Bool.and_eq_true, decide_eq_true_eq] at ho
    exact ho.1.1
  obtain ⟨hlo, hhi, -⟩ := aAnv_place c hlt
  have hne : ∀ a < 0x020000, aAnv c.val o ≠ a := fun a ha => by omega
  have hread : s.regRead .host (aAnv c.val o) = s.anvRead .host (aAnv c.val o) := by
    simp only [State.regRead, windowAt_aAnv c hlt, hne _ (by decide : aTB_LO < 0x020000), hne _ (by decide : aTB_HI < 0x020000),
      hne _ (by decide : aEVQ_LO < 0x020000), hne _ (by decide : aEVQ_HI < 0x020000), hne _ (by decide : aRX_LO < 0x020000),
      hne _ (by decide : aRX_HI < 0x020000), hne _ (by decide : aRX_SRC < 0x020000), hlo, hhi, and_self, if_true, if_false,
      Bool.false_eq_true]
  simp only [State.hostAccess, State.hostRead, State.hostCause_anv ho false hb, hread]

end

/-! ### Rows that are one host access -/

theorem hostAccessRow_up {s : State} (a : Nat) (w : Option Word) (hc : s.modes.mode ≠ .cold) :
    hostAccessRow a w s = .next { s.hostAccess a w with hrpRvalid := true } := by
  simp only [hostAccessRow, hostRow, occur_true, if_neg hc]

theorem hostAccessAt_up {s : State} (now a : Nat) (w : Option Word) (hc : s.modes.mode ≠ .cold) :
    hostAccessAt now a w s = .next { (s.at now).hostAccess a w with hrpRvalid := true } := by
  simp only [hostAccessAt, hostRowAt, occur_true, if_neg hc]

theorem hostWriteRow_anv {s : State} (c : Chan) {o : Nat} (ho : anvilOffset o = true) (w : Word) (hc : s.modes.mode ≠ .cold)
    (hb : s.modes.mode ≠ .banked) :
    hostWriteRow (aAnv c.val o) w s = .next { s.anvWrite (aAnv c.val o) w with hrpRvalid := true } := by
  rw [hostWriteRow, hostAccessRow_up _ _ hc, hostAccess_anvWrite ho w hb]

theorem hostAccessAt_anvWrite {s : State} (c : Chan) {o : Nat} (ho : anvilOffset o = true) (w : Word) (now : Nat)
    (hc : s.modes.mode ≠ .cold) (hb : s.modes.mode ≠ .banked) :
    hostAccessAt now (aAnv c.val o) (some w) s = .next { (s.at now).anvWrite (aAnv c.val o) w with hrpRvalid := true } := by
  rw [hostAccessAt_up _ _ _ hc, hostAccess_anvWrite (s := s.at now) ho w hb]

end Sys2Proof.Machine
end

section
/-! SUPPORT. Retraining intervals, and the ZQ calibrations of a hearth (07 R259, R267, R268). -/

namespace Sys2Proof.Machine

/-! ### Changes of several anvils -/

/-- A change of the anvils of a list touches them alone. -/
theorem foldl_onAnvil_only (f : State → Chan → Anvil → Anvil) (l : List Chan) (s : State) :
    Only (fun e => ∃ x ∈ l, e = .anvil x) s (l.foldl (fun s x => s.onAnvil x (f s x)) s) := by
  induction l generalizing s with
  | nil => exact Only.refl _ s
  | cons y l ih =>
    exact ((onAnvil_only s y _).seq (ih _)).mono (by simp +contextual)

/-- Each anvil of a list without repetition is changed once. -/
theorem foldl_onAnvil_get (f : Anvil → Anvil) {l : List Chan} (hl : l.Nodup) (s : State) (x : Chan) :
    (l.foldl (fun s x => s.onAnvil x f) s).anvils[x] = if x ∈ l then f s.anvils[x] else s.anvils[x] := by
  induction l generalizing s with
  | nil => rfl
  | cons y l ih =>
    obtain ⟨hy, hl⟩ := List.nodup_cons.mp hl
    rw [List.foldl_cons, ih hl]
    by_cases hxy : x = y
    · subst hxy
      simp [hy]
    · have hother : (s.onAnvil y f).anvils[x] = s.anvils[x] := onAnvil_only s y f (.anvil x) (by simpa using hxy)
      simp only [List.mem_cons, hxy, false_or, hother]

theorem hearthChans_nodup (h : HearthId) : (hearthChans h).Nodup := (List.nodup_finRange 24).filter _

theorem mem_hearthChans {h : HearthId} {x : Chan} : x ∈ hearthChans h ↔ hearthOf x = h := by
  simp [hearthChans, allChans]

/-- The register of a hearth stands in the block of its first channel (07 R243). -/
theorem regHome_firstChan (h : HearthId) {o : Nat} (ho : o < 0x40C) :
    regHome (aAnv (firstChan h).val o) = aAnv (firstChan h).val o := by
  have hh := h.isLt
  unfold regHome
  split
  · simp only [aAnv, firstChan]
    omega
  · rfl

/-- A change of one hearth. -/
def State.onHearth (s : State) (h : HearthId) (f : Hearth → Hearth) : State := { s with hearths := upd s.hearths h f }

theorem State.onHearth_get (s : State) (h : HearthId) (f : Hearth → Hearth) : (s.onHearth h f).hearths[h] = f s.hearths[h] :=
  (upd_get _ h h f).trans (if_pos rfl)

theorem onHearth_only (s : State) (h : HearthId) (f : Hearth → Hearth) : Only (· = .hearth h) s (s.onHearth h f) := by
  intro x hx
  cases x with
  | hearth k =>
    have hk : k ≠ h := fun e => hx (by rw [e])
    simp only [Part.kept, State.onHearth, upd_get, if_neg hk]
  | _ => first | rfl | exact ⟨rfl, rfl⟩

/-! ### Event 6 (R259) -/

theorem exec_retrain_due {s : State} {c : Chan} {now : Nat} (hrun : s.retrainRuns c = true)
    (hdue : s.anvils[c].retrainAt + s.retrainNs c ≤ s.timeAt now) :
    exec (.retrain c now) s = .next (((s.at now).onAnvil c (fun v =>
      { v with retrainAt := v.retrainAt + s.retrainNs c })).event (anvilSmith c) 6) := by
  refine congrArg Host.Outcome.next (timed_pos ?_)
  rw [show (s.at now).retrainRuns c = true from hrun, Bool.true_and]
  exact decide_eq_true hdue

/-- ANV_RETRAIN_US (Table 18.6). -/
theorem regInfo_retrain (c : Chan) : regInfo (aRETRAIN c.val) =
    some { rw := 0xFFFF, reset := 0x32, resv := [(15, 0, fun v => 1 ≤ v && v ≤ 9)] } := regInfo_aAnv c (by decide)

theorem State.typed_anvils (s : State) (a : Nat) (w : Word) : (s.typed a w).anvils = s.anvils := by
  unfold State.typed
  split <;> rfl

theorem State.retrainWrite_anvil (s : State) (c : Chan) (w : Word) :
    (s.retrainWrite c w).anvils[c] = { s.anvils[c] with retrainAt := s.timebase } := by
  rw [State.retrainWrite, State.onAnvil_get, State.typed_anvils]

theorem exec_retrainIntervalWrite_up {s : State} (c : Chan) (w : Word) (now : Nat) (hc : s.modes.mode ≠ .cold)
    (hb : s.modes.mode ≠ .banked) :
    exec (.retrainIntervalWrite c w now) s = .next { (s.at now).retrainWrite c w with hrpRvalid := true } := by
  obtain ⟨-, -, hchan, hoff⟩ := aAnv_place c (o := 0x04C) (by decide)
  have hwrite : (s.at now).anvWrite (aRETRAIN c.val) w = (s.at now).retrainWrite c w := by
    unfold aRETRAIN
    simp [State.anvWrite, hchan, hoff, chanOf_val]
  refine (hostAccessAt_anvWrite c (o := 0x04C) (by decide) w now hc hb).trans ?_
  rw [← hwrite]
  rfl

/-! ### ZQ (R267, R268) -/

/-- A calibration starts: BUSY rises, and the interval runs from here (R267). -/
def State.zqStart (s : State) (a : Nat) (h : HearthId) (u : Nat) : State :=
  (s.setFlag a 31 true).onHearth h (fun x => { x with zqFrom := u })

theorem State.zqStart_spec (s : State) {a : Nat} (ha : regHome a = a) (h : HearthId) (u : Nat) {s₀ : State}
    (hs : Only (· = .time) s₀ s) : (s.zqStart a h u).flag a 31 = true ∧ (s.zqStart a h u).fld a 29 0 = s₀.fld a 29 0 ∧
      (s.zqStart a h u).hearths[h] = { s₀.hearths[h] with zqFrom := u } ∧
      Only (fun e => e = .reg a ∨ e = .hearth h ∨ e = .time) s₀ (s.zqStart a h u) := by
  have hset := onHearth_only (s.setFlag a 31 true) h (fun x => { x with zqFrom := u })
  have hbusy := setFlag_only s a 31 true
  refine ⟨(hset.flag (by simp) 31).trans (State.flag_setFlag s a 31 true (by decide)), ?_, ?_, ?_⟩
  · have hrest : (s.setFlag a 31 true).fld a 29 0 = s.fld a 29 0 := by simp [State.setFlag, State.fld_setFld_of_ne]
    exact (hset.fld (by simp) 29 0).trans (hrest.trans (hs.fld (by simp) 29 0))
  · have hkept : s.hearths[h] = s₀.hearths[h] := hs (.hearth h) (by simp)
    rw [← hkept]
    exact State.onHearth_get _ h _
  · exact ((hs.seq hbusy).seq hset).mono (by simp +contextual [or_imp, ha])

theorem exec_zqCalibration_due {s : State} {h : HearthId} {now : Nat} (hdue : (s.at now).zqDueNow h = true) :
    exec (.zqCalibration h now) s = .next ((s.at now).zqStart (aZQ (6 * h.val)) h (s.timeAt now)) :=
  congrArg Host.Outcome.next (timed_pos hdue)

/-- A calibration ends: BUSY clears, and PCODE and NCODE take the new codes (R267). -/
def State.zqCodes (s : State) (a : Nat) (p n : BitVec 6) : State :=
  ((s.setFlag a 31 false).setFld a 29 24 p.toNat).setFld a 21 16 n.toNat

theorem State.zqCodes_spec (s : State) (a : Nat) (p n : BitVec 6) : (s.zqCodes a p n).flag a 31 = false ∧
    (s.zqCodes a p n).fld a 29 24 = p.toNat ∧ (s.zqCodes a p n).fld a 21 16 = n.toNat ∧
    (s.zqCodes a p n).fld a 15 0 = s.fld a 15 0 ∧ Only (· = .reg (regHome a)) s (s.zqCodes a p n) := by
  refine ⟨?_, ?_, ?_, ?_, ((setFlag_only s a 31 false).trans (setFld_only _ a 29 24 _)).trans (setFld_only _ a 21 16 _)⟩
  · simp [State.zqCodes, State.flag_setFld, State.flag_setFlag]
  · simp [State.zqCodes, State.fld_setFld_of_ne, State.fld_setFld, Nat.mod_eq_of_lt p.isLt]
  · simp [State.zqCodes, State.fld_setFld, Nat.mod_eq_of_lt n.isLt]
  · simp [State.zqCodes, State.fld_setFld_of_ne, State.setFlag]

/-- The end of a calibration: its codes then wait on the channels of the hearth (R267, R268). -/
def State.zqEnd (s : State) (a : Nat) (h : HearthId) (p n : BitVec 6) : State :=
  (hearthChans h).foldl (fun s c => s.onAnvil c (fun v => { v with zqApply := true }))
    ((s.zqCodes a p n).onHearth h (fun x => { x with zqDone := true }))

theorem State.zqEnd_spec (s : State) {a : Nat} (ha : regHome a = a) (h : HearthId) (p n : BitVec 6) :
    (s.zqEnd a h p n).flag a 31 = false ∧ (s.zqEnd a h p n).fld a 29 24 = p.toNat ∧ (s.zqEnd a h p n).fld a 21 16 = n.toNat ∧
      (s.zqEnd a h p n).fld a 15 0 = s.fld a 15 0 ∧
      (∀ x : Chan, (s.zqEnd a h p n).anvils[x] = if x.val / 6 = h.val then { s.anvils[x] with zqApply := true } else s.anvils[x]) ∧
      (s.zqEnd a h p n).hearths[h] = { s.hearths[h] with zqDone := true } ∧
      Only (fun e => e = .reg a ∨ e = .hearth h ∨ ∃ x : Chan, x.val / 6 = h.val ∧ e = .anvil x) s (s.zqEnd a h p n) := by
  obtain ⟨hidle, hp, hn, hkept, hcodes⟩ := s.zqCodes_spec a p n
  have hdone := onHearth_only (s.zqCodes a p n) h (fun x => { x with zqDone := true })
  have hwait : Only _ _ (s.zqEnd a h p n) := foldl_onAnvil_only (fun _ _ v => { v with zqApply := true }) (hearthChans h) _
  have hall := hdone.seq hwait
  have hmem : ∀ x : Chan, x ∈ hearthChans h ↔ x.val / 6 = h.val := fun x => by rw [mem_hearthChans, hearthOf, Fin.ext_iff]
  refine ⟨(hall.flag (by simp) 31).trans hidle, (hall.fld (by simp) 29 24).trans hp, (hall.fld (by simp) 21 16).trans hn,
    (hall.fld (by simp) 15 0).trans hkept, fun x => ?_, ?_, ?_⟩
  · refine (foldl_onAnvil_get _ (hearthChans_nodup h) _ x).trans (if_congr (hmem x) rfl rfl)
  · exact (hwait (.hearth h) (by simp)).trans (State.onHearth_get _ h _)
  · exact (hcodes.seq hall).mono (by simp +contextual [ha, hmem])

theorem exec_zqCalibrationEnd_busy {s : State} {h : HearthId} (p n : BitVec 6) (hbusy : s.flag (aZQ (6 * h.val)) 31 = true) :
    exec (.zqCalibrationEnd h p n) s = .next (s.zqEnd (aZQ (6 * h.val)) h p n) := by
  have hbusy' : s.flag (aZQ (firstChan h).val) 31 = true := hbusy
  show execZqCalibrationEnd h p n s = _
  simp only [execZqCalibrationEnd, hbusy', occur_true]
  rfl

theorem exec_zqCodeApply_idle {s : State} {c : Chan} {ck : Nat} (hck : s.anvils[c].ck ≤ ck) (hidle : s.anvils[c].idle4 ck = true) :
    exec (.zqCodeApply (c, ck)) s = .next ((s.applyZq c).onAnvil c (fun v => { v with ck := max v.ck ck })) := by
  refine congrArg Host.Outcome.next (if_pos ?_)
  rw [hidle, Bool.and_true]
  exact decide_eq_true hck

/-- An MPC ZQ latch of a rank joins heat-7 work, and the next one falls due `period` later. -/
def Anvil.latched (period : Nat) (rank : Fin 2) (v : Anvil) : Anvil :=
  ({ v with zqDue := upd v.zqDue rank (fun t => t.map (· + period)) }).push7
    { plainCmd .mpc rank.val 0 0 .zq with op := Config.zqLatchOp }

theorem exec_zqLatchDue_due {s : State} {c : Chan} {rank : Fin 2} {now due : Nat} (hservice : s.inService = true)
    (hpop : s.populated c.val = true) (hat : s.anvils[c].zqDue[rank] = some due) (hdue : due ≤ s.timeAt now) :
    exec (.zqLatchDue c rank now) s = .next ((s.at now).onAnvil c (Anvil.latched (s.latchNs c) rank)) := by
  refine congrArg Host.Outcome.next (timed_pos ?_)
  have hwhen : ((s.at now).inService && (s.at now).populated c.val) = true := Bool.and_eq_true_iff.mpr ⟨hservice, hpop⟩
  rw [hwhen, Bool.true_and, State.at_anvils, hat]
  exact decide_eq_true hdue

/-- Settles O33: each clause is the due case of one row, and each row touches one anvil or one hearth and its register. -/
theorem retrainingAndZqFollowTheirIntervals : Obligations.RetrainingAndZqFollowTheirIntervals := by
  unfold Obligations.RetrainingAndZqFollowTheirIntervals
  intro s c h rank now due w p n u v zq interval
  have hhome : regHome zq = zq := regHome_firstChan h (o := 0x408) (by decide)
  refine ⟨?retrain, ?write, ?start, ?stop, ?apply, ?latch⟩
  case retrain =>
    intro hpos hon hmode hdue
    have hrun : s.retrainRuns c = true := by
      rcases hmode with hmode | hmode <;> simp_all [State.retrainRuns, State.retrainNs, interval, v]
    refine ⟨_, exec_retrain_due hrun hdue, State.onAnvil_get (s.at now) c _, State.onSmith_get _ _ _,
      (((at_only s now).seq (onAnvil_only _ c _)).seq (event_only _ (anvilSmith c) 6)).mono (by simp +contextual [or_imp])⟩
  case write =>
    intro hc hb
    refine ⟨_, exec_retrainIntervalWrite_up c w now hc hb, ?_, (s.at now).retrainWrite_anvil c w, ?_⟩
    · refine (State.typed_fld_resv (s := s.at now) (by decide) (by decide) (regInfo_retrain c) rfl (by decide) w (by decide)
        (before := []) (after := []) rfl (List.forall_mem_nil _) (List.forall_mem_nil _)).trans ?_
      simp
      rfl
    · have hret : regHome (aRETRAIN c.val) = aRETRAIN c.val := regHome_aAnv c (by decide) (by decide)
      have hall := ((at_only s now).seq (typed_only _ (aRETRAIN c.val) w)).seq
        (onAnvil_only _ c (fun v => { v with retrainAt := u }))
      exact (hall.mono (by simp +contextual [or_imp, hret])).hostOnly
  case start =>
    intro hc hb hidle hdue
    have hnow : (s.at now).zqDueNow h = true := by
      have hpower : ((s.at now).modes.mode != .cold && (s.at now).modes.mode != .banked && !(s.at now).flag zq 31) = true := by
        simp only [Bool.and_eq_true, bne_iff_ne, Bool.not_eq_true']
        exact ⟨⟨hc, hb⟩, hidle⟩
      refine (Bool.and_eq_true_iff).mpr ⟨hpower, ?_⟩
      rcases hdue with hfirst | hdue
      · exact Bool.or_eq_true_iff.mpr (.inl (by rw [State.at_hearths, hfirst]; rfl))
      · exact Bool.or_eq_true_iff.mpr (.inr (decide_eq_true hdue))
    exact ⟨_, exec_zqCalibration_due hnow, (s.at now).zqStart_spec hhome h u (at_only s now)⟩
  case stop =>
    intro hbusy
    obtain ⟨hidle, hp, hn, hkept, hwait, hdone, honly⟩ := s.zqEnd_spec hhome h p n
    exact ⟨_, exec_zqCalibrationEnd_busy p n hbusy, hidle, hp, hn, hkept, hwait, hdone, honly⟩
  case apply =>
    intro ck hwait hck hidle
    refine ⟨_, exec_zqCodeApply_idle hck hidle, ?_, (applyZq_only s c).trans (onAnvil_only _ c _)⟩
    rw [State.onAnvil_get, State.applyZq, State.onAnvil_get, if_pos hwait]
    exact congrArg (fun k => { v with ck := k, zqApply := false, zqUsed := (BitVec.ofNat 6 (s.fld (aZQ c.val) 29 24),
      BitVec.ofNat 6 (s.fld (aZQ c.val) 21 16)) }) (Nat.max_eq_right hck)
  case latch =>
    intro hservice hpop hat hdue
    have hexec := exec_zqLatchDue_due (s := s) (now := now) hservice hpop hat hdue
    have hget := State.onAnvil_get (s.at now) c (Anvil.latched (s.latchNs c) rank)
    refine ⟨_, hexec, ?_, ?_, ((at_only s now).seq (onAnvil_only _ c _)).mono (by simp +contextual [or_imp])⟩
    · rw [hget]
      refine (upd_get v.zqDue rank rank _).trans ((if_pos rfl).trans ?_)
      rw [hat]
      rfl
    · rw [hget]
      refine congrArg (fun b => v.heat7 ++ [({ plainCmd .mpc rank.val 0 0 .zq with op := Config.zqLatchOp }, b)]) ?_
      show (!v.granted.isEmpty) = _
      cases v.granted <;> rfl

end Sys2Proof.Machine
end

section
/-! SUPPORT. The PLL and the set points of a hearth, its delay store and its pattern buffer (07 R243 to R253). -/

namespace Sys2Proof.Machine

/-! ### HTH_PLL and HTH_FSP -/

/-- HTH_PLL, HTH_FSP and HTH_ZQ stand once in a hearth (07 R243). -/
theorem regHome_shared (c : Chan) {o : Nat} (hlo : 0x400 ≤ o) (hhi : o < 0x40C) :
    regHome (aAnv c.val o) = aAnv (c.val / 6 * 6) o := by
  obtain ⟨hlo', hhi', hchan, hoff⟩ := aAnv_place c (o := o) (by omega)
  rw [regHome, hchan, hoff, if_pos ⟨hlo', hhi', hlo, hhi⟩]

theorem regHome_aFSP_ne_aPLL (c : Chan) : regHome (aFSP c.val) ≠ regHome (aPLL c.val) := by
  rw [aFSP, aPLL, regHome_shared c (by decide) (by decide), regHome_shared c (by decide) (by decide), aAnv, aAnv]
  omega

theorem regInfo_aPLL (c : Chan) : regInfo (aPLL c.val) =
    some { rw := 0x130, w1c := 0x40000000, resv := [(5, 4, fun v => v == 3)] } := regInfo_aAnv c (by decide)

theorem regInfo_aFSP (c : Chan) : regInfo (aFSP c.val) =
    some { rw := 0x00070777, resv := [(2, 0, fun v => 6 ≤ v), (6, 4, fun v => 6 ≤ v), (10, 8, fun v => 6 ≤ v)] } :=
  regInfo_aAnv c (by decide)

/-- A host write to an HTH register. -/
theorem anvWrite_hth (s : State) (c : Chan) {o : Nat} (hlo : 0x400 ≤ o) (hhi : o < 0x800) (w : Word) :
    s.anvWrite (aAnv c.val o) w = s.hthWrite c o w := by
  obtain ⟨-, -, hchan, hoff⟩ := aAnv_place c hhi
  simp only [State.anvWrite, hchan, hoff, chanOf_val, hlo, if_true]

theorem hostWriteRow_pll {s : State} (c : Chan) (w : Word) (hc : s.modes.mode ≠ .cold) (hb : s.modes.mode ≠ .banked) :
    hostWriteRow (aPLL c.val) w s = .next { s.pllWrite c w with hrpRvalid := true } := by
  rw [aPLL, hostWriteRow_anv c (by decide) w hc hb, anvWrite_hth s c (by decide) (by decide)]
  rfl

theorem hostWriteRow_fsp {s : State} (c : Chan) (w : Word) (hc : s.modes.mode ≠ .cold) (hb : s.modes.mode ≠ .banked) :
    hostWriteRow (aFSP c.val) w s = .next { s.fspWrite c w with hrpRvalid := true } := by
  rw [aFSP, hostWriteRow_anv c (by decide) w hc hb, anvWrite_hth s c (by decide) (by decide)]
  rfl

section
variable (s : State) (c : Chan) (w : Word)

/-- EN takes what is written. -/
theorem State.typed_pll_en : (s.typed (aPLL c.val) w).flag (aPLL c.val) 8 = w.getLsbD 8 := by
  rw [State.flag_eq_fld, getLsbD_eq_bits]
  exact congrArg (· == 1)
    (State.typed_fld_rw (by decide) (by decide) (regInfo_aPLL c) rfl (by decide) w (by decide) (by simp [FieldsApart]))

/-- LOCK is not the host's to write. -/
theorem State.typed_pll_lock : (s.typed (aPLL c.val) w).flag (aPLL c.val) 31 = s.flag (aPLL c.val) 31 := by
  rw [State.flag_eq_fld, State.flag_eq_fld]
  exact congrArg (· == 1)
    (State.typed_fld_ro (by decide) (by decide) (regInfo_aPLL c) rfl (by decide) w (by decide) (by simp [FieldsApart]))

/-- FSP takes a set point that exists. -/
theorem State.typed_fsp : (s.typed (aPLL c.val) w).fsp c = if bits w.toNat 5 4 = 3 then s.fsp c else bits w.toNat 5 4 := by
  refine (State.typed_fld_resv (by decide) (by decide) (regInfo_aPLL c) rfl (by decide) w (by decide)
    (before := []) (after := []) rfl (List.forall_mem_nil _) (List.forall_mem_nil _)).trans ?_
  simp [State.fsp]

end

/-! ### The lock, the rate and the live codes of a hearth -/

/-- What a change of the set point of the hearth of `c` may touch. -/
def hearthParts (c : Chan) (e : Part) : Prop :=
  e = .reg (regHome (aPLL c.val)) ∨ e = .hearth (hearthOf c) ∨ ∃ x : Chan, hearthOf x = hearthOf c ∧ e = .anvil x

theorem hearthParts_pll {c : Chan} (e : Part) (h : e = .reg (regHome (aPLL c.val))) : hearthParts c e := .inl h

theorem not_hearthParts_fsp (c : Chan) : ¬ hearthParts c (.reg (regHome (aFSP c.val))) := by
  simp [hearthParts, regHome_aFSP_ne_aPLL c]

section
variable (s : State) (c : Chan)

theorem State.startLock_eq : s.startLock c =
    (s.setFlag (aPLL c.val) 31 false).onHearth (hearthOf c) (fun h => { h with locking := s.flag (aPLL c.val) 8 }) := rfl

theorem startLock_only : Only (hearthParts c) s (s.startLock c) :=
  ((setFlag_only s (aPLL c.val) 31 false).mono hearthParts_pll).trans ((onHearth_only _ _ _).mono fun _ h => .inr (.inl h))

theorem State.startLock_lock : (s.startLock c).flag (aPLL c.val) 31 = false := by
  rw [State.startLock_eq, (onHearth_only _ _ _).flag (by simp), State.flag_setFlag _ _ _ _ (by decide)]

theorem State.startLock_hearth : (s.startLock c).hearths[hearthOf c] =
    { s.hearths[hearthOf c] with locking := s.flag (aPLL c.val) 8 } := by
  have hkept : (s.setFlag (aPLL c.val) 31 false).hearths[hearthOf c] = s.hearths[hearthOf c] :=
    setFlag_only s (aPLL c.val) 31 false (.hearth (hearthOf c)) (by simp)
  rw [State.startLock_eq, State.onHearth_get, hkept]

/-- The fields below LOCK stay. -/
theorem State.startLock_fld {hi lo : Nat} (hle : lo ≤ hi) (h31 : hi < 31) :
    (s.startLock c).fld (aPLL c.val) hi lo = s.fld (aPLL c.val) hi lo := by
  rw [State.startLock_eq, (onHearth_only _ _ _).fld (by simp), State.setFlag,
    State.fld_setFld_of_ne _ _ _ _ _ _ _ _ (Nat.le_refl 31) hle (by omega) (.inr (.inl h31))]

theorem State.startLock_en : (s.startLock c).flag (aPLL c.val) 8 = s.flag (aPLL c.val) 8 := by
  rw [State.flag_eq_fld, State.startLock_fld s c (by decide) (by decide), ← State.flag_eq_fld]

/-- The live codes of the channels of a hearth are loaded from the store entries of a set point (R246). -/
def State.loadHearth (n : Nat) : State := (hearthChans (hearthOf c)).foldl (fun s x => s.onAnvil x (fun v => v.loadLive n)) s

theorem loadHearth_only (n : Nat) : Only (fun e => ∃ x : Chan, hearthOf x = hearthOf c ∧ e = .anvil x) s (s.loadHearth c n) :=
  (foldl_onAnvil_only (fun _ _ v => v.loadLive n) _ s).mono fun _ ⟨x, hx, he⟩ => ⟨x, mem_hearthChans.mp hx, he⟩

theorem State.loadHearth_anvil (n : Nat) {x : Chan} (hx : hearthOf x = hearthOf c) :
    (s.loadHearth c n).anvils[x] = s.anvils[x].loadLive n :=
  (foldl_onAnvil_get _ (hearthChans_nodup _) s x).trans (if_pos (mem_hearthChans.mpr hx))

theorem State.newRate_eq : s.newRate c = ((s.setFld (aPLL c.val) 2 0 (s.fspRate c (s.fsp c))).loadHearth c (s.fsp c)).startLock c := by
  simp only [State.newRate, State.loadHearth, sameHearth]

theorem newRate_only : Only (hearthParts c) s (s.newRate c) := by
  have hload := loadHearth_only (s.setFld (aPLL c.val) 2 0 (s.fspRate c (s.fsp c))) c (s.fsp c)
  exact (((setFld_only s _ 2 0 _).mono hearthParts_pll).trans (hload.mono fun _ h => .inr (.inr h))).trans (startLock_only _ c)

theorem State.newRate_lock : (s.newRate c).flag (aPLL c.val) 31 = false := State.startLock_lock _ c

/-- HTH_PLL apart from RATE and LOCK stays. -/
theorem State.newRate_fld {hi lo : Nat} (hle : lo ≤ hi) (hlo : 2 < lo) (h31 : hi < 31) :
    (s.newRate c).fld (aPLL c.val) hi lo = s.fld (aPLL c.val) hi lo := by
  rw [State.newRate_eq, State.startLock_fld _ c hle h31, (loadHearth_only _ c _).fld (by simp),
    State.fld_setFld_of_ne _ _ _ _ _ _ _ _ (by decide) hle (by omega) (.inr (.inr hlo))]

theorem State.newRate_en : (s.newRate c).flag (aPLL c.val) 8 = s.flag (aPLL c.val) 8 := by
  rw [State.flag_eq_fld, State.newRate_fld s c (by decide) (by decide) (by decide), ← State.flag_eq_fld]

theorem State.newRate_rate : (s.newRate c).fld (aPLL c.val) 2 0 = s.fspRate c (s.fsp c) := by
  rw [State.newRate_eq, State.startLock_fld _ c (by decide) (by decide), (loadHearth_only _ c _).fld (by simp),
    State.fld_setFld _ _ _ _ _ (by decide) (by decide)]
  refine Nat.mod_eq_of_lt ((wbits_lt _ _ _).trans_eq ?_)
  rw [Nat.add_sub_cancel_left]

theorem State.newRate_locking : (s.newRate c).hearths[hearthOf c].locking = s.flag (aPLL c.val) 8 := by
  rw [State.newRate_eq, State.startLock_hearth, (loadHearth_only _ c _).flag (by simp),
    State.flag_setFld _ _ _ _ _ _ (by decide) (by decide)]
  rfl

theorem State.newRate_anvil {x : Chan} (hx : hearthOf x = hearthOf c) : (s.newRate c).anvils[x] = s.anvils[x].loadLive (s.fsp c) := by
  have hkept := setFld_only s (aPLL c.val) 2 0 (s.fspRate c (s.fsp c)) (.anvil x) (by simp)
  rw [← show _ = s.anvils[x] from hkept, ← State.loadHearth_anvil _ c _ hx, State.newRate_eq, State.startLock_eq]
  exact (onHearth_only _ _ _ (.anvil x) (by simp)).trans (setFlag_only _ (aPLL c.val) 31 false (.anvil x) (by simp))

end

/-- The live codes after those of a list of lanes are loaded. -/
theorem Anvil.loadLanes_get (n o : Nat) (ho : dlyOffset o = true) (l : List Nat) (v : Anvil) :
    SMap.get (fun _ => 0) (l.foldl (fun v o => v.liveSet o (v.dlyGet (128 * n + o))) v).live o =
      if o ∈ l then v.dlyGet (128 * n + o) else SMap.get (fun _ => 0) v.live o := by
  induction l generalizing v with
  | nil => rfl
  | cons k l ih =>
    rw [List.foldl_cons, ih, Anvil.liveSet_dlyGet, Anvil.liveSet_live]
    by_cases hk : o = k
    · subst hk
      simp [ho]
    · simp [hk]

/-- Each lane takes the code of its store entry (R246). -/
theorem Anvil.loadLive_get (v : Anvil) (n : Nat) {o : Nat} (h128 : o < 128) (ho : dlyOffset o = true) :
    SMap.get (fun _ => 0) (v.loadLive n).live o = v.dlyGet (128 * n + o) :=
  (Anvil.loadLanes_get n o ho _ _).trans (if_pos (by simp [h128, ho]))

/-! ### A write of HTH_PLL (R243 to R246) -/

section
variable {s : State} {c : Chan} {w : Word}

/-- EN alone changes. -/
theorem State.pllWrite_en (hfsp : bits w.toNat 5 4 = s.fsp c) (hen : w.getLsbD 8 ≠ s.flag (aPLL c.val) 8) :
    s.pllWrite c w = (s.typed (aPLL c.val) w).startLock c := by
  have hsame : (s.typed (aPLL c.val) w).fsp c = s.fsp c := by
    rw [State.typed_fsp, hfsp, ite_self]
  rw [State.pllWrite, State.fspJudge, if_pos hsame, State.typed_pll_en, if_neg hen]

/-- FSP changes in KINDLE. -/
theorem State.pllWrite_fsp (h3 : bits w.toNat 5 4 < 3) (hnew : bits w.toNat 5 4 ≠ s.fsp c)
    (hen : w.getLsbD 8 = s.flag (aPLL c.val) 8) (hk : s.modes.mode = .kindle) :
    s.pllWrite c w = (s.typed (aPLL c.val) w).newRate c := by
  have hset : (s.typed (aPLL c.val) w).fsp c = bits w.toNat 5 4 := (State.typed_fsp s c w).trans (if_neg (by omega))
  have hmode : (s.typed (aPLL c.val) w).modes.mode = .kindle :=
    (congrArg (·.mode) (typed_only s (aPLL c.val) w .modes (by simp))).trans hk
  have hopen : (s.typed (aPLL c.val) w).rateChangeOpen c = true := by
    rw [State.rateChangeOpen, hmode]
    rfl
  have hjudge : (s.typed (aPLL c.val) w).fspJudge c (s.fsp c) = (s.typed (aPLL c.val) w).newRate c := by
    rw [State.fspJudge, if_neg (by rwa [hset]), hopen, if_neg (by decide), if_neg (fun h => h.1 hmode)]
  rw [State.pllWrite, hjudge, State.newRate_en, State.typed_pll_en, if_pos hen]

/-- A change of FSP that is ignored is put back (R245). -/
def State.fspBack (s : State) (c : Chan) (old : Nat) : State := (s.setFld (aPLL c.val) 5 4 old).rateIgnored c

theorem State.fspBack_spec (s : State) (c : Chan) {old : Nat} (ho : old < 4) : (s.fspBack c old).fsp c = old ∧
    (s.fspBack c old).flag (aPLL c.val) 30 = true ∧
    (∀ i < 32, i ≠ 4 → i ≠ 5 → i ≠ 30 → (s.fspBack c old).flag (aPLL c.val) i = s.flag (aPLL c.val) i) ∧ Only (· = .reg (regHome (aPLL c.val))) s (s.fspBack c old) := by
  refine ⟨?_, State.flag_setFlag _ _ _ _ (by decide), fun i hi h4 h5 h30 => ?_,
    (setFld_only s _ 5 4 _).trans (setFlag_only _ _ 30 true)⟩
  · rw [State.fsp, State.fspBack, State.rateIgnored, State.setFlag,
      State.fld_setFld_of_ne _ _ _ _ _ _ _ _ (by decide) (by decide) (by decide) (.inr (.inl (by decide))),
      State.fld_setFld _ _ _ _ _ (by decide) (by decide)]
    exact Nat.mod_eq_of_lt ho
  · rw [State.fspBack, State.rateIgnored, State.setFlag, State.flag_setFld _ _ _ _ _ _ (by decide) hi,
      if_neg (by omega), State.flag_setFld _ _ _ _ _ _ (by decide) hi, if_neg (by omega)]

/-- FSP changes where no change is accepted. -/
theorem State.pllWrite_ignored (h3 : bits w.toNat 5 4 < 3) (hnew : bits w.toNat 5 4 ≠ s.fsp c)
    (hen : w.getLsbD 8 = s.flag (aPLL c.val) 8) (hk : s.modes.mode ≠ .kindle) (hbank : s.modes.step ≠ .bankOut) :
    s.pllWrite c w = (s.typed (aPLL c.val) w).fspBack c (s.fsp c) := by
  have hset : (s.typed (aPLL c.val) w).fsp c = bits w.toNat 5 4 := (State.typed_fsp s c w).trans (if_neg (by omega))
  have hmodes : (s.typed (aPLL c.val) w).modes = s.modes := typed_only s (aPLL c.val) w .modes (by simp)
  have hclosed : (s.typed (aPLL c.val) w).rateChangeOpen c = false := by
    simp [State.rateChangeOpen, State.hearthAsleep, hmodes, hk, hbank]
  have hjudge : (s.typed (aPLL c.val) w).fspJudge c (s.fsp c) = (s.typed (aPLL c.val) w).fspBack c (s.fsp c) := by
    rw [State.fspJudge, if_neg (by rwa [hset]), hclosed]
    rfl
  obtain ⟨-, -, hrest, -⟩ := (s.typed (aPLL c.val) w).fspBack_spec c (old := s.fsp c) (wbits_lt _ _ _)
  rw [State.pllWrite, hjudge, hrest 8 (by decide) (by decide) (by decide) (by decide), State.typed_pll_en, if_pos hen]

end

/-! ### A write of HTH_FSP (R243, R247) -/

theorem State.typed_fspRate (s : State) (c : Chan) (w : Word) (n : Fin 3) (hcode : bits w.toNat (4 * n.val + 2) (4 * n.val) < 6) :
    (s.typed (aFSP c.val) w).fspRate c n.val = bits w.toNat (4 * n.val + 2) (4 * n.val) := by
  have hlegal : ¬ 6 ≤ bits w.toNat (4 * n.val + 2) (4 * n.val) := by omega
  obtain ⟨before, after, hresv, hb, ha⟩ : ∃ before after, [(2, 0, fun v => decide (6 ≤ v)), (6, 4, fun v => decide (6 ≤ v)),
      (10, 8, fun v => decide (6 ≤ v))] = before ++ (4 * n.val + 2, 4 * n.val, fun v => decide (6 ≤ v)) :: after ∧
      FieldsApart (4 * n.val + 2) (4 * n.val) before ∧ FieldsApart (4 * n.val + 2) (4 * n.val) after := by
    match n with
    | 0 => exact ⟨[], _, rfl, by simp [FieldsApart], by simp [FieldsApart]⟩
    | 1 => exact ⟨[_], _, rfl, by simp [FieldsApart], by simp [FieldsApart]⟩
    | 2 => exact ⟨[_, _], [], rfl, by simp [FieldsApart], by simp [FieldsApart]⟩
  have hm : maskBits (4 * n.val + 2) (4 * n.val) &&& ~~~(0x00070777 : Word) = 0 := by
    match n with
    | 0 | 1 | 2 => decide
  refine (State.typed_fld_resv (by omega) (by omega) (regInfo_aFSP c) rfl (by simp) w hm
    (Eq.trans (by simp [maskBits]) hresv) hb ha).trans ?_
  rw [if_neg (by simpa using hlegal)]

/-- What the judgement of the rate of one set point may touch. -/
theorem rateJudge_only (s : State) (c : Chan) (old : Word) (m : Nat) :
    Only (fun e => hearthParts c e ∨ e = .reg (regHome (aFSP c.val))) s (s.rateJudge c old m) := by
  have hflag := (setFlag_only s (aFSP c.val) (16 + m) false)
  have hback := (setFld_only s (aFSP c.val) (4 * m + 2) (4 * m) (wbits old (4 * m + 2) (4 * m)))
  refine Only.ite (Only.refl _ s) (Only.ite (Only.ite ?_ ?_) (hflag.mono fun _ h => .inr h))
  · exact (hflag.mono fun _ h => .inr h).trans ((newRate_only _ c).mono fun _ h => .inl h)
  · exact (hback.mono fun _ h => .inr h).trans ((setFlag_only _ _ 30 true).mono fun _ h => .inl (.inl h))

theorem fspWrite_only (s : State) (c : Chan) (w : Word) :
    Only (fun e => hearthParts c e ∨ e = .reg (regHome (aFSP c.val))) s (s.fspWrite c w) :=
  ((typed_only s (aFSP c.val) w).mono fun _ h => .inr h).trans (((rateJudge_only _ c _ 0).trans (rateJudge_only _ c _ 1)).trans
    (rateJudge_only _ c _ 2))

/-- The set point in use, the rate of set point `n` and its TRAINED bit are in `t` what they are in `s`. -/
def SetPointKept (c : Chan) (n : Nat) (s t : State) : Prop :=
  t.fsp c = s.fsp c ∧ t.fspRate c n = s.fspRate c n ∧ t.flag (aFSP c.val) (16 + n) = s.flag (aFSP c.val) (16 + n)

section
variable {c : Chan} {n m : Nat}

theorem SetPointKept.of_pll {s t : State} (h : Only (hearthParts c) s t) (hfsp : t.fsp c = s.fsp c) : SetPointKept c n s t :=
  ⟨hfsp, h.fld (not_hearthParts_fsp c) _ _, h.flag (not_hearthParts_fsp c) _⟩

theorem SetPointKept.trans {s t u : State} (h : SetPointKept c n s t) (h' : SetPointKept c n t u) : SetPointKept c n s u :=
  ⟨h'.1.trans h.1, h'.2.1.trans h.2.1, h'.2.2.trans h.2.2⟩

theorem SetPointKept.ite {s t u : State} {p : Prop} [Decidable p] (h : SetPointKept c n s t) (h' : SetPointKept c n s u) :
    SetPointKept c n s (if p then t else u) := by split <;> assumption

theorem SetPointKept.newRate (s : State) : SetPointKept c n s (s.newRate c) :=
  .of_pll (newRate_only s c) (s.newRate_fld c (by decide) (by decide) (by decide))

theorem SetPointKept.rateIgnored (s : State) : SetPointKept c n s (s.rateIgnored c) :=
  .of_pll ((setFlag_only s (aPLL c.val) 30 true).mono hearthParts_pll)
    (State.fld_setFld_of_ne _ _ _ _ _ _ _ _ (Nat.le_refl 30) (by decide) (by decide) (.inr (.inl (by decide))))

variable (hn : n < 3)
include hn

theorem SetPointKept.of_fsp (s : State) {hi lo v : Nat} (hle : lo ≤ hi) (hfield : hi < 4 * n ∨ 4 * n + 2 < lo)
    (hbit : 16 + n < lo ∨ hi < 16 + n) : SetPointKept c n s (s.setFld (aFSP c.val) hi lo v) := by
  refine ⟨(setFld_only s (aFSP c.val) hi lo v).fld ?_ 5 4, ?_, ?_⟩
  · simpa using Ne.symm (regHome_aFSP_ne_aPLL c)
  · exact State.fld_setFld_of_ne _ _ _ _ _ _ _ _ hle (by omega) (by omega) (.inr (by omega))
  · rw [State.flag_setFld _ _ _ _ _ _ hle (by omega), if_neg (by omega)]

/-- The judgement of another set point keeps set point `n`. -/
theorem SetPointKept.rateJudge (s : State) (old : Word) (hm : m < 3) (hne : m ≠ n) : SetPointKept c n s (s.rateJudge c old m) := by
  have hflag : SetPointKept c n s (s.setFlag (aFSP c.val) (16 + m) false) :=
    .of_fsp hn s (Nat.le_refl _) (.inr (by omega)) (by omega)
  have hback := SetPointKept.of_fsp (c := c) hn s (hi := 4 * m + 2) (lo := 4 * m) (v := wbits old (4 * m + 2) (4 * m)) (by omega)
    (by omega) (.inr (by omega))
  exact .ite ⟨rfl, rfl, rfl⟩ (.ite (.ite (hflag.trans (.newRate _)) (hback.trans (.rateIgnored _))) hflag)

/-- A new rate of a set point that is not in use is stored, and clears its TRAINED bit (R247). -/
theorem State.rateJudge_other {s : State} {old : Word} (hnew : s.fspRate c n ≠ wbits old (4 * n + 2) (4 * n))
    (hfsp : s.fsp c ≠ n) : (s.rateJudge c old n).fsp c ≠ n ∧ (s.rateJudge c old n).fspRate c n = s.fspRate c n ∧
      (s.rateJudge c old n).flag (aFSP c.val) (16 + n) = false := by
  have hflag := setFlag_only s (aFSP c.val) (16 + n) false
  rw [State.rateJudge, if_neg hnew, if_neg hfsp]
  refine ⟨?_, ?_, State.flag_setFlag _ _ _ _ (by omega)⟩
  · rwa [State.fsp, hflag.fld (by simpa using Ne.symm (regHome_aFSP_ne_aPLL c)) 5 4]
  · exact State.fld_setFld_of_ne _ _ _ _ _ _ _ _ (Nat.le_refl _) (by omega) (by omega) (.inr (by omega))

end

/-- The set points are judged one by one. -/
theorem rateJudges_other {c : Chan} {old : Word} {n : Nat} (hn : n < 3) {l : List Nat} (hl : l.Nodup)
    (h3 : ∀ m ∈ l, m < 3) {s : State}
    (hnew : s.fspRate c n ≠ wbits old (4 * n + 2) (4 * n)) (hfsp : s.fsp c ≠ n) :
    (l.foldl (fun s m => s.rateJudge c old m) s).fspRate c n = s.fspRate c n ∧
      (n ∈ l ∨ s.flag (aFSP c.val) (16 + n) = false →
        (l.foldl (fun s m => s.rateJudge c old m) s).flag (aFSP c.val) (16 + n) = false) := by
  induction l generalizing s with
  | nil => simp
  | cons m l ih =>
    obtain ⟨hm, hl⟩ := List.nodup_cons.mp hl
    obtain ⟨hm3, h3⟩ := List.forall_mem_cons.mp h3
    rw [List.foldl_cons]
    by_cases hmn : m = n
    · subst hmn
      obtain ⟨hfsp', hrate, hclear⟩ := State.rateJudge_other hn hnew hfsp
      obtain ⟨hrate', hclear'⟩ := ih hl h3 (hrate ▸ hnew) hfsp'
      exact ⟨hrate'.trans hrate, fun _ => hclear' (.inr hclear)⟩
    · obtain ⟨hfsp', hrate, hflag⟩ := SetPointKept.rateJudge hn s old hm3 hmn
      obtain ⟨hrate', hclear'⟩ := ih hl h3 (hrate ▸ hnew) (hfsp' ▸ hfsp)
      refine ⟨hrate'.trans hrate, fun h => hclear' (h.imp (fun hmem => ?_) hflag.trans)⟩
      exact (List.mem_cons.mp hmem).resolve_left (Ne.symm hmn)

/-- A write of HTH_FSP that changes the rate of a set point not in use. -/
theorem State.fspWrite_other (s : State) (c : Chan) (w : Word) (n : Fin 3) (h6 : bits w.toNat (4 * n.val + 2) (4 * n.val) < 6)
    (hnew : bits w.toNat (4 * n.val + 2) (4 * n.val) ≠ s.fspRate c n.val) (hfsp : s.fsp c ≠ n.val) :
    (s.fspWrite c w).fspRate c n.val = bits w.toNat (4 * n.val + 2) (4 * n.val) ∧
      (s.fspWrite c w).flag (aFSP c.val) (16 + n.val) = false := by
  have hstored := s.typed_fspRate c w n h6
  have hkept : (s.typed (aFSP c.val) w).fsp c = s.fsp c :=
    (typed_only s (aFSP c.val) w).fld (by simpa using Ne.symm (regHome_aFSP_ne_aPLL c)) 5 4
  obtain ⟨hrate, hclear⟩ := rateJudges_other (l := [0, 1, 2]) n.isLt (by decide) (by decide) (s := s.typed (aFSP c.val) w)
    (old := s.rd (aFSP c.val)) (by rwa [hstored]) (by rwa [hkept])
  exact ⟨hrate.trans hstored, hclear (.inl (by have := n.isLt; simp only [List.mem_cons]; omega))⟩

/-! ### PLL_LOCK and PLL_LOCK_LOSS (R244, R248) -/

theorem exec_pllLock_locking {s : State} {h : HearthId} (hlocking : s.hearths[h].locking = true)
    (hen : s.flag (aPLL (firstChan h).val) 8 = true) : exec (.pllLock h) s = .next (s.lockRise h) := by
  show execPllLock h s = _
  simp only [execPllLock, hlocking, hen, Bool.and_self, occur_true]

/-- LOCK of the hearth whose HTH_PLL stands at `a` rises. -/
def State.lockUp (s : State) (a : Nat) (h : HearthId) : State :=
  (s.setFlag a 31 true).onHearth h (fun x => { x with locking := false, lockAt := s.timebase })

theorem State.lockUp_spec (s : State) {a : Nat} (ha : regHome a = a) (h : HearthId) : (s.lockUp a h).flag a 31 = true ∧
    (s.lockUp a h).hearths[h] = { s.hearths[h] with locking := false, lockAt := s.timebase } ∧
    Only (fun e => e = .reg a ∨ e = .hearth h) s (s.lockUp a h) := by
  have hflag := setFlag_only s a 31 true
  have hset := onHearth_only (s.setFlag a 31 true) h (fun x => { x with locking := false, lockAt := s.timebase })
  refine ⟨(hset.flag (by simp) 31).trans (State.flag_setFlag s a 31 true (by decide)), ?_,
    (hflag.seq hset).mono (by simp +contextual [ha])⟩
  have hkept : _ = s.hearths[h] := hflag (.hearth h) (by simp)
  rw [← hkept]
  exact State.onHearth_get _ h _

theorem State.lockRise_eq (s : State) (h : HearthId) : s.lockRise h = (hearthChans h).foldl (fun s c =>
    s.onAnvil c (fun v => { v.unsee with slotFresh := v.slotFresh || s.alen c.val == 0 })) (s.lockUp (aPLL (firstChan h).val) h) := by
  rw [State.lockRise, State.lockUp, State.onHearth, State.setFlag_hearths]

theorem State.lockRise_spec (s : State) (h : HearthId) {a : Nat} (ha : a = aPLL (firstChan h).val) :
    (s.lockRise h).flag a 31 = true ∧
    (s.lockRise h).hearths[h] = { s.hearths[h] with locking := false, lockAt := s.timebase } ∧
    Only (fun e => e = .reg a ∨ e = .hearth h ∨ ∃ x : Chan, hearthOf x = h ∧ e = .anvil x) s (s.lockRise h) := by
  have hhome : regHome a = a := ha ▸ regHome_firstChan h (by decide)
  obtain ⟨hlock, hhearth, hup⟩ := s.lockUp_spec hhome h
  have hchans := foldl_onAnvil_only (fun s c v => { v.unsee with slotFresh := v.slotFresh || s.alen c.val == 0 }) (hearthChans h)
    (s.lockUp a h)
  rw [State.lockRise_eq, ← ha]
  exact ⟨(hchans.flag (by simp) 31).trans hlock, (hchans (.hearth h) (by simp)).trans hhearth,
    (hup.seq hchans).mono (by simp +contextual [or_imp, mem_hearthChans])⟩

theorem exec_pllLockLoss_locked {s : State} {h : HearthId} (hen : s.flag (aPLL (firstChan h).val) 8 = true)
    (hlock : s.flag (aPLL (firstChan h).val) 31 = true) (hidle : s.hearths[h].locking = false) :
    exec (.pllLockLoss h) s = .next ((s.setFlag (aPLL (firstChan h).val) 31 false).lockFault h) := by
  show execPllLockLoss h s = _
  simp only [execPllLockLoss, hen, hlock, hidle, Bool.not_false, Bool.and_self, occur_true]

/-- Channels of a hearth stand in its list in their order. -/
theorem find?_hearthChans {h : HearthId} {c : Chan} {p : Chan → Bool} (hc : hearthOf c = h) (hp : p c = true)
    (hfirst : ∀ x : Chan, hearthOf x = h → p x = true → c ≤ x) : (hearthChans h).find? p = some c := by
  cases hfind : (hearthChans h).find? p with
  | none => exact absurd hp (by simpa using List.find?_eq_none.mp hfind c (mem_hearthChans.mpr hc))
  | some x =>
    obtain ⟨hpx, before, after, heq, hbefore⟩ := List.find?_eq_some_iff_append.mp hfind
    have hx : hearthOf x = h := mem_hearthChans.mp (by simp [heq])
    have hsorted : (hearthChans h).Pairwise (· < ·) := (List.pairwise_lt_finRange 24).filter _
    have hmem : c ∈ before ++ x :: after := heq ▸ mem_hearthChans.mpr hc
    rw [heq, List.pairwise_append] at hsorted
    obtain ⟨-, hafter, -⟩ := hsorted
    have hle := hfirst x hx hpx
    rcases List.mem_append.mp hmem with hin | hin
    · exact absurd (hbefore c hin) (by simp [hp])
    · rcases List.mem_cons.mp hin with rfl | hin
      · rfl
      · exact absurd ((List.pairwise_cons.mp hafter).1 c hin) (not_lt.mpr hle)

/-- The lowest populated anvil of a hearth sends the fault of its lost lock. -/
theorem State.lockFault_eq {s : State} {h : HearthId} {c : Chan} (hc : hearthOf c = h) (hpop : s.populated c.val = true)
    (hfirst : ∀ x : Chan, hearthOf x = h → s.populated x.val = true → c ≤ x) :
    s.lockFault h = s.send c.val 0x08 sevFatal 0 (0xF + h.val * 2 ^ 8) := by
  rw [State.lockFault, find?_hearthChans (p := fun x => s.populated x.val) hc hpop hfirst]

/-- The channels that the map names follow from the registers below the port blocks (R148, R151). -/
theorem State.populated_congr {s t : State} (h : ∀ a < 0x005000, t.rd a = s.rd a) (x : Nat) : t.populated x = s.populated x := by
  have hfurrow := h aFURROW (by decide)
  have hM : t.mapM = s.mapM := by rw [State.mapM, State.mapM, State.flag, State.flag, hfurrow]
  have hK : t.mapK = s.mapK := congrArg (wbits · 10 8) hfurrow
  have hcount : s.nChan ≤ 3 * 2 ^ 7 :=
    Nat.mul_le_mul (by unfold State.mapM; split <;> decide) (Nat.pow_le_pow_right (by decide) (Nat.le_of_lt_succ (wbits_lt _ _ _)))
  have hentry : ∀ j ∈ List.range s.nChan, t.mapEntry j = s.mapEntry j := fun j hj => by
    have hlt := List.mem_range.mp hj
    rw [State.mapEntry, State.mapEntry, State.fld, State.fld, h _ (by unfold aCHMAP; omega)]
  have hnChan : t.nChan = s.nChan := by rw [State.nChan, State.nChan, hM, hK]
  rw [State.populated, State.populated, State.named, State.named, hnChan, List.map_congr_left hentry]

/-- The loss of a lock (R248). -/
theorem exec_pllLockLoss_spec {s : State} {h : HearthId} {c : Chan} {a : Nat} (ha : a = aPLL (firstChan h).val)
    (hen : s.flag a 8 = true) (hlock : s.flag a 31 = true) (hidle : s.hearths[h].locking = false) (hc : hearthOf c = h)
    (hpop : s.populated c.val = true) (hfirst : ∀ x : Chan, hearthOf x = h → s.populated x.val = true → c ≤ x) :
    exec (.pllLockLoss h) s = .next ((s.setFlag a 31 false).send c.val 0x08 sevFatal 0 (0xF + h.val * 2 ^ 8)) ∧
      ((s.setFlag a 31 false).send c.val 0x08 sevFatal 0 (0xF + h.val * 2 ^ 8)).flag a 31 = false ∧
      Only (fun x => x = .reg a ∨ x = .faults) s ((s.setFlag a 31 false).send c.val 0x08 sevFatal 0 (0xF + h.val * 2 ^ 8)) := by
  have hhome : regHome a = a := ha ▸ regHome_firstChan h (by decide)
  have hflag := setFlag_only s a 31 false
  rw [hhome] at hflag
  have hsend := send_only (s.setFlag a 31 false) c.val 0x08 sevFatal 0 (0xF + h.val * 2 ^ 8)
  have hpop' : ∀ x, (s.setFlag a 31 false).populated x = s.populated x :=
    State.populated_congr fun b hb => hflag.rd (by rw [regHome_of_lt (by omega), Part.reg.injEq, ha, aPLL, aAnv]; omega)
  refine ⟨?_, (hsend.flag (by simp) 31).trans (State.flag_setFlag s a 31 false (by decide)), hflag.seq hsend⟩
  subst ha
  rw [exec_pllLockLoss_locked hen hlock hidle, State.lockFault_eq hc ((hpop' _).trans hpop)
    (fun x hx hp => hfirst x hx ((hpop' _).symm.trans hp))]

/-! ### The indexed windows (R251, R253) -/

theorem regHome_aDLYIDX (c : Chan) : regHome (aDLYIDX c.val) = aDLYIDX c.val := regHome_aAnv c (by decide) (by decide)

theorem regHome_aPATIDX (c : Chan) : regHome (aPATIDX c.val) = aPATIDX c.val := regHome_aAnv c (by decide) (by decide)

section
variable (s : State) (c : Chan)

theorem dlyStep_only : Only (· = .reg (aDLYIDX c.val)) s (s.dlyStep c) := by
  have hset := setFld_only s (aDLYIDX c.val) 8 0
  rw [regHome_aDLYIDX] at hset
  exact Only.ite (hset _) (Only.refl _ s)

theorem State.dlyStep_index : (s.dlyStep c).fld (aDLYIDX c.val) 8 0 =
    if s.flag (aDLYIDX c.val) 16 = true then (if 383 ≤ s.fld (aDLYIDX c.val) 8 0 then 0 else s.fld (aDLYIDX c.val) 8 0 + 1)
    else s.fld (aDLYIDX c.val) 8 0 := by
  rw [State.dlyStep]
  split_ifs with hauto hend
  · exact State.fld_setFld _ _ _ _ _ (by decide) (by decide)
  · rw [State.fld_setFld _ _ _ _ _ (by decide) (by decide)]
    exact Nat.mod_eq_of_lt (by omega)
  · rfl

/-- An anvil after a write of the delay store outside DLY (R252). -/
def Anvil.stored (v : Anvil) (inUse held : Bool) (i : Nat) (code : BitVec 10) : Anvil :=
  if !inUse then v.dlySet i code
  else if held then (v.dlySet i code).liveSet (i % 128) code
  else { v.dlySet i code with dlyPend := (v.dlySet i code).dlyPend ++ [(i % 128, code)] }

theorem Anvil.stored_dlyGet (v : Anvil) (inUse held : Bool) (i j : Nat) (code : BitVec 10) :
    (v.stored inUse held i code).dlyGet j = (v.dlySet i code).dlyGet j := by
  unfold Anvil.stored
  split_ifs
  · rfl
  · exact Anvil.liveSet_dlyGet _ _ _ _
  · rfl

theorem State.dlyWrite_eq (i : Nat) (code : BitVec 10) : s.dlyWrite c i code =
    s.onAnvil c (fun v => v.stored (i / 128 == s.fsp c && dlyOffset (i % 128)) (s.heldAny c) i code) := rfl

/-- A store entry after a write (R251). -/
theorem State.dlyWrite_dlyGet (i j : Nat) (code : BitVec 10) : (s.dlyWrite c i code).anvils[c].dlyGet j =
    if j = i ∧ dlyOffset (i % 128) = true then code else s.anvils[c].dlyGet j := by
  rw [State.dlyWrite_eq, State.onAnvil_get, Anvil.stored_dlyGet, Anvil.dlySet_get]
  exact if_congr and_comm rfl rfl

theorem patStep_only : Only (· = .reg (aPATIDX c.val)) s (s.patStep c) := by
  have hset := fun s => setFld_only s (aPATIDX c.val)
  rw [regHome_aPATIDX] at hset
  exact Only.ite (Only.ite ((hset s 8 4 _).trans (hset _ 3 0 _)) (hset s 8 4 _)) (Only.refl _ s)

/-- With AUTO the index steps through the words of an entry, then to the next entry. -/
theorem State.patStep_index (hauto : s.flag (aPATIDX c.val) 16 = true) (hk : s.fld (aPATIDX c.val) 8 4 < 18) :
    (s.patStep c).fld (aPATIDX c.val) 8 4 = (s.fld (aPATIDX c.val) 8 4 + 1) % 18 ∧
      (s.patStep c).fld (aPATIDX c.val) 3 0 =
        if s.fld (aPATIDX c.val) 8 4 = 17 then (s.fld (aPATIDX c.val) 3 0 + 1) % 16 else s.fld (aPATIDX c.val) 3 0 := by
  rw [State.patStep]
  by_cases hlast : 17 ≤ s.fld (aPATIDX c.val) 8 4
  · have h17 : s.fld (aPATIDX c.val) 8 4 = 17 := by omega
    simp only [hauto, hlast, if_true]
    rw [State.fld_setFld_of_ne _ _ _ _ _ _ _ _ (by decide) (by decide) (by decide) (.inr (.inr (by decide))),
      State.fld_setFld _ _ _ _ _ (by decide) (by decide), State.fld_setFld _ _ _ _ _ (by decide) (by decide), h17]
    exact ⟨rfl, rfl⟩
  · simp only [hauto, hlast, if_true, if_false]
    rw [State.fld_setFld _ _ _ _ _ (by decide) (by decide), if_neg (by omega),
      State.fld_setFld_of_ne s _ 8 4 _ (aPATIDX c.val) 3 0 (by decide) (by decide) (by decide) (.inr (.inl (by decide)))]
    exact ⟨by omega, rfl⟩

theorem anvRead_dlydat : s.anvRead .host (aAnv c.val 0x414) = s.dlydatRead c := by
  obtain ⟨hlo, hhi, hchan, hoff⟩ := aAnv_place c (o := 0x414) (by decide)
  have hlo' : ¬ aAnv c.val 0x414 < 0x020000 := by omega
  have hglobal : ¬ aAnv c.val 0x414 < 0x005000 := by omega
  simp [State.anvRead, State.regView, State.readEffect, State.anvView, hoff, hchan, hlo, hhi, hlo', hglobal, chanOf_val]

theorem anvRead_patdat : s.anvRead .host (aAnv c.val 0x41C) = s.patdatRead c := by
  obtain ⟨hlo, hhi, hchan, hoff⟩ := aAnv_place c (o := 0x41C) (by decide)
  have hlo' : ¬ aAnv c.val 0x41C < 0x020000 := by omega
  have hglobal : ¬ aAnv c.val 0x41C < 0x005000 := by omega
  simp [State.anvRead, State.regView, State.readEffect, State.anvView, hoff, hchan, hlo, hhi, hlo', hglobal, chanOf_val]

end

section
variable {s : State} (c : Chan) (hc : s.modes.mode ≠ .cold) (hb : s.modes.mode ≠ .banked)
include hc hb

theorem exec_dlydatAccess_read : exec (.dlydatAccess c none) s =
    .next { s.dlyStep c with hrpRdata := (s.dlydatRead c).1, hrpRvalid := true } := by
  refine (hostAccessRow_up _ none hc).trans ?_
  rw [hostAccess_anvRead (by decide) hb, anvRead_dlydat]
  rfl

theorem exec_dlydatAccess_write (w : Word) : exec (.dlydatAccess c (some w)) s =
    .next { s.dlydatWrite c w with hrpRvalid := true } := by
  refine (hostAccessRow_up _ (some w) hc).trans ?_
  rw [hostAccess_anvWrite (by decide) w hb, anvWrite_hth s c (by decide) (by decide)]
  rfl

theorem exec_patdatAccess_read : exec (.patdatAccess c none) s =
    .next { s.patStep c with hrpRdata := (s.patdatRead c).1, hrpRvalid := true } := by
  refine (hostAccessRow_up _ none hc).trans ?_
  rw [hostAccess_anvRead (by decide) hb, anvRead_patdat]
  rfl

theorem exec_patdatAccess_write (w : Word) : exec (.patdatAccess c (some w)) s =
    .next { s.patdatWrite c w with hrpRvalid := true } := by
  refine (hostAccessRow_up _ (some w) hc).trans ?_
  rw [hostAccess_anvWrite (by decide) w hb, anvWrite_hth s c (by decide) (by decide)]
  rfl

end

/-- The frame of a read that shows a word. -/
theorem Only.rdata {P : Part → Prop} {s t : State} (h : Only P s t) (x : Word) :
    Only (fun e => e = .hrp ∨ P e) s { t with hrpRdata := x } := fun e he => by
  have hk := h e fun hp => he (.inr hp)
  have hne : e ≠ .hrp := fun h => he (.inl h)
  cases e <;> first | exact hk | exact absurd rfl hne

/-- A write of HTH_DLYDAT. -/
theorem State.dlydatWrite_spec (s : State) (c : Chan) (w : Word) :
    (s.dlydatWrite c w).fld (aDLYIDX c.val) 8 0 =
        (if s.flag (aDLYIDX c.val) 16 = true then (if 383 ≤ s.fld (aDLYIDX c.val) 8 0 then 0 else s.fld (aDLYIDX c.val) 8 0 + 1)
          else s.fld (aDLYIDX c.val) 8 0) ∧
      (∀ j, (s.dlydatWrite c w).anvils[c].dlyGet j =
        if j = s.fld (aDLYIDX c.val) 8 0 ∧ dlyOffset (s.fld (aDLYIDX c.val) 8 0 % 128) = true then w.setWidth 10
        else s.anvils[c].dlyGet j) ∧
      Only (fun e => e = .anvil c ∨ e = .reg (aDLYIDX c.val)) s (s.dlydatWrite c w) := by
  have hstore : Only (· = .anvil c) s (s.dlyWrite c (s.fld (aDLYIDX c.val) 8 0) (w.setWidth 10)) := onAnvil_only s c _
  have hstep := dlyStep_only (s.dlyWrite c (s.fld (aDLYIDX c.val) 8 0) (w.setWidth 10)) c
  have hanvil : (s.dlydatWrite c w).anvils[c] = _ := hstep (.anvil c) (by simp)
  refine ⟨?_, fun j => ?_, hstore.seq hstep⟩
  · rw [State.dlydatWrite, State.dlyStep_index, hstore.fld (by simp), hstore.flag (by simp)]
  · rw [hanvil, State.dlyWrite_dlyGet]

/-! ### The pattern buffer (Table 7.10) -/

section
variable (v : Anvil) (e k : Nat) (x : Word)

/-- The 64 data mask bits of an entry after one of its last two words is written. -/
def dmiWord (old : BitVec 64) (k : Nat) (x : Word) : BitVec 64 :=
  if k = 16 then (old >>> 32 <<< 32) ||| x.setWidth 64 else (old <<< 32 >>> 32) ||| (x.setWidth 64 <<< 32)

theorem Anvil.patSet_data (h : k < 16) : v.patSet e k x = { v with pat := v.pat.set (16 * e + k) x } := if_pos h

theorem Anvil.patSet_dmi (h : ¬ k < 16) : v.patSet e k x = { v with
    patDmi := SMap.set (fun _ => 0) v.patDmi e (dmiWord (SMap.get (fun _ => 0) v.patDmi e) k x) } := if_neg h

theorem dmiWord_same (old : BitVec 64) (hk : k = 16 ∨ k = 17) : (dmiWord old k x >>> (32 * (k - 16))).setWidth 32 = x := by
  refine BitVec.eq_of_getLsbD_eq fun i hi => ?_
  have h64 : 32 + i < 64 := by omega
  have hpast : ¬ 32 + (32 + i) < 64 := by omega
  rcases hk with rfl | rfl
  · simp [dmiWord, hi]
  · simp [dmiWord, hi, h64, hpast, show i < 64 by omega]

theorem dmiWord_other (old : BitVec 64) {k' : Nat} (hk : k = 16 ∨ k = 17) (hk' : k' = 16 ∨ k' = 17) (hne : k' ≠ k) :
    (dmiWord old k x >>> (32 * (k' - 16))).setWidth 32 = (old >>> (32 * (k' - 16))).setWidth 32 := by
  refine BitVec.eq_of_getLsbD_eq fun i hi => ?_
  have h64 : 32 + i < 64 := by omega
  rcases hk with rfl | rfl <;> rcases hk' with rfl | rfl
  · exact absurd rfl hne
  · simp [dmiWord, hi, h64]
  · simp [dmiWord, hi, h64, BitVec.getLsbD_eq_getElem (show i < 64 by omega)]
  · exact absurd rfl hne

/-- The word that was written. -/
theorem Anvil.patSet_get (hk : k < 18) : (v.patSet e k x).patGet e k = x := by
  by_cases h : k < 16
  · rw [Anvil.patSet_data _ _ _ _ h, Anvil.patGet, if_pos h, WMem.get_set, if_pos rfl]
  · rw [Anvil.patSet_dmi _ _ _ _ h, Anvil.patGet, if_neg h, SMap.get_set, if_pos rfl, dmiWord_same _ _ _ (by omega)]

/-- Every other word stays. -/
theorem Anvil.patSet_get_of_ne {e' k' : Nat} (hk : k < 18) (hk' : k' < 18) (hne : (e', k') ≠ (e, k)) :
    (v.patSet e k x).patGet e' k' = v.patGet e' k' := by
  rw [Ne, Prod.mk.injEq] at hne
  by_cases h : k < 16
  · rw [Anvil.patSet_data _ _ _ _ h, Anvil.patGet, Anvil.patGet]
    split
    · rw [WMem.get_set, if_neg (by omega)]
    · rfl
  · rw [Anvil.patSet_dmi _ _ _ _ h, Anvil.patGet, Anvil.patGet]
    split
    · rfl
    · rw [SMap.get_set]
      split
      · next he =>
        subst he
        exact dmiWord_other _ _ _ (by omega) (by omega) (by omega)
      · rfl

end

/-- A write of HTH_PATDAT. -/
theorem State.patdatWrite_spec (s : State) (c : Chan) (w : Word) (hk : s.fld (aPATIDX c.val) 8 4 < 18) :
    (s.patdatWrite c w).anvils[c].patGet (s.fld (aPATIDX c.val) 3 0) (s.fld (aPATIDX c.val) 8 4) = w ∧
      (∀ e' k', e' < 16 → k' < 18 → (e', k') ≠ (s.fld (aPATIDX c.val) 3 0, s.fld (aPATIDX c.val) 8 4) →
        (s.patdatWrite c w).anvils[c].patGet e' k' = s.anvils[c].patGet e' k') ∧
      Only (fun x => x = .anvil c ∨ x = .reg (aPATIDX c.val)) s (s.patdatWrite c w) := by
  have hstore := onAnvil_only s c (fun v => v.patSet (s.fld (aPATIDX c.val) 3 0) (s.fld (aPATIDX c.val) 8 4) w)
  have hstep := patStep_only (s.onAnvil c (fun v => v.patSet (s.fld (aPATIDX c.val) 3 0) (s.fld (aPATIDX c.val) 8 4) w)) c
  have hanvil : (s.patdatWrite c w).anvils[c] = s.anvils[c].patSet (s.fld (aPATIDX c.val) 3 0) (s.fld (aPATIDX c.val) 8 4) w :=
    (hstep (.anvil c) (by simp)).trans (State.onAnvil_get _ _ _)
  rw [hanvil]
  exact ⟨Anvil.patSet_get _ _ _ _ hk, fun e' k' _ hk' hne => Anvil.patSet_get_of_ne _ _ _ _ hk hk' hne, hstore.seq hstep⟩

/-- Settles O34: each clause is one write, one read or one event of the PLL, by the laws of the set points and of the two
indexed windows. -/
theorem pllSetPointsAndStoresOfAHearth : Obligations.PllSetPointsAndStoresOfAHearth := by
  unfold Obligations.PllSetPointsAndStoresOfAHearth
  intro s c h w n v pll fsp hc new mine top
  refine ⟨fun hcold hbanked => ⟨?enable, ?change, ?ignored, ?rate, ⟨?dlyRead, ?dlyWrite⟩, ?pat⟩, ?lock, ?loss⟩
  case enable =>
    intro hnew hen
    have hkept : (s.typed pll w).hearths[hc] = s.hearths[hc] := typed_only s pll w (.hearth hc) (by simp)
    have hexec : exec (.pllEnable c w) s = .next { (s.typed pll w).startLock c with hrpRvalid := true } := by
      rw [← State.pllWrite_en hnew hen]
      exact hostWriteRow_pll c w hcold hbanked
    have hen' := ((s.typed pll w).startLock_en c).trans (s.typed_pll_en c w)
    have hlow := (s.typed pll w).startLock_lock c
    have hhearth := (s.typed pll w).startLock_hearth c
    rw [State.typed_pll_en, hkept] at hhearth
    have honly := ((typed_only s pll w).mono hearthParts_pll).trans (startLock_only _ c)
    generalize (s.typed pll w).startLock c = t at hexec hen' hlow hhearth honly
    exact ⟨_, hexec, hen', hlow, hhearth, honly.hostOnly⟩
  case change =>
    intro h3 hnew hen hk
    have hexec : exec (.fspChange c w) s = .next { (s.typed pll w).newRate c with hrpRvalid := true } := by
      rw [← State.pllWrite_fsp h3 hnew hen hk]
      exact hostWriteRow_pll c w hcold hbanked
    have hset : (s.typed pll w).fsp c = new := (State.typed_fsp s c w).trans (if_neg (by omega))
    have hrate : (s.typed pll w).fspRate c new = s.fspRate c new :=
      (typed_only s pll w).fld (a := fsp) (by simpa using regHome_aFSP_ne_aPLL c) (4 * new + 2) (4 * new)
    have hfsp := ((s.typed pll w).newRate_fld c (hi := 5) (lo := 4) (by decide) (by decide) (by decide)).trans hset
    have hcode := (s.typed pll w).newRate_rate c
    rw [hset, hrate] at hcode
    have hlow := (s.typed pll w).newRate_lock c
    have hlocking := ((s.typed pll w).newRate_locking c).trans (s.typed_pll_en c w)
    have hlive : ∀ x : Chan, hearthOf x = hc → ((s.typed pll w).newRate c).anvils[x] = s.anvils[x].loadLive new := fun x hx => by
      rw [State.newRate_anvil _ c hx, hset, show (s.typed pll w).anvils[x] = s.anvils[x] from typed_only s pll w (.anvil x) (by simp)]
    have honly := ((typed_only s pll w).mono hearthParts_pll).trans (newRate_only _ c)
    generalize (s.typed pll w).newRate c = t at hexec hfsp hcode hlow hlocking hlive honly
    exact ⟨_, hexec, hfsp, hcode, hlow, hlocking, fun x hx o ho hdly => (congrArg (fun y : Anvil => SMap.get (fun _ => 0) y.live o)
      (hlive x hx)).trans (Anvil.loadLive_get _ _ ho hdly), honly.hostOnly⟩
  case ignored =>
    intro h3 hnew hen hk hbank
    have hexec : exec (.fspChange c w) s = .next { (s.typed pll w).fspBack c (s.fsp c) with hrpRvalid := true } := by
      rw [← State.pllWrite_ignored h3 hnew hen hk hbank]
      exact hostWriteRow_pll c w hcold hbanked
    obtain ⟨hback, hign, hrest, honly⟩ := (s.typed pll w).fspBack_spec c (old := s.fsp c) (wbits_lt _ _ _)
    have hlock := (hrest 31 (by decide) (by decide) (by decide) (by decide)).trans (s.typed_pll_lock c w)
    have honly := (typed_only s pll w).trans honly
    generalize (s.typed pll w).fspBack c (s.fsp c) = t at hexec hback hign hlock honly
    exact ⟨_, hexec, hback, hign, hlock, honly.hostOnly⟩
  case rate =>
    intro code h6 hnew hfsp
    obtain ⟨hstored, hclear⟩ := s.fspWrite_other c w n h6 hnew hfsp
    exact ⟨_, hostWriteRow_fsp c w hcold hbanked, hstored, hclear, (fspWrite_only s c w).hostOnly⟩
  case dlyRead =>
    refine ⟨_, exec_dlydatAccess_read c hcold hbanked, rfl, s.dlyStep_index c, ?_⟩
    exact ((dlyStep_only s c).rdata (s.dlydatRead c).1).hostOnly
  case dlyWrite =>
    obtain ⟨hindex, hstore, honly⟩ := s.dlydatWrite_spec c w
    exact ⟨_, exec_dlydatAccess_write c hcold hbanked w, hindex, hstore, honly.hostOnly⟩
  case pat =>
    intro e k hk
    obtain ⟨hword, hrest, honly⟩ := s.patdatWrite_spec c w hk
    exact ⟨⟨_, exec_patdatAccess_read c hcold hbanked, rfl, fun hauto => s.patStep_index c hauto hk,
      ((patStep_only s c).rdata (s.patdatRead c).1).hostOnly⟩,
      _, exec_patdatAccess_write c hcold hbanked w, hword, hrest, honly.hostOnly⟩
  case lock =>
    intro hlocking hen
    obtain ⟨hlock, hhearth, honly⟩ := s.lockRise_spec h (a := top) rfl
    exact ⟨_, exec_pllLock_locking hlocking hen, hlock, hhearth, honly⟩
  case loss =>
    intro hen hlock hidle hch hpop hfirst
    obtain ⟨hexec, hlow, honly⟩ := exec_pllLockLoss_spec (a := top) rfl hen hlock hidle hch hpop hfirst
    exact ⟨_, _, hexec, hlow, State.send_arriving _ _ _ _ _ _, rfl, rfl, rfl, rfl, honly⟩

end Sys2Proof.Machine
end

section
/-! SUPPORT. A channel map that runs into the mailbox: with GLB_FURROW.M3 = 1 and the reserved K = 7 the map has 384 entries, and
entries 360 to 365 are read from SMI_MBOX_CMD (04 R148, R151). -/

namespace Sys2Proof.Machine

/-- FORGE, with the reference Master Smith image IDLE and event 2 enabled. Of the 384 entries of the map one names channel 23, the
entry that SMI_MBOX_CMD holds, and every other one names channel 0. ANV_DERATE[11:0] of channel 23 shows 1. -/
def mappedByMailbox : State :=
  let s := (List.range 64).foldl (fun s j => s.wr (aCHMAP j) 0) (Tests.served .forge)
  (((s.setFlag aFURROW 12 true).setFld aFURROW 10 8 7).wr aMBOX_CMD 23).setFld (aDERATE 23) 11 0 1

/-- The write of TEMPER_NOW into SMI_MBOX_CMD takes channel 23 off the map, so that the temper program passes it by. -/
theorem mappedByMailbox_temperNow : ∀ t, exec (.temperNow 0 0) mappedByMailbox = .next t → t.fld (aDERATE 23) 11 0 = 1 := by
  intro t ht
  have hkept : (match exec (.temperNow 0 0) mappedByMailbox with
    | .next t => decide (t.fld (aDERATE 23) 11 0 = 1)
    | _ => false) = true := by decide +kernel
  rw [ht] at hkept
  exact of_decide_eq_true hkept

/-- Refutes O53: its clause on TEMPER_NOW looks for the populated channels before the command is written, and in
`mappedByMailbox` the command's own code unmaps channel 23, whose ANV_DERATE then stays 1 where the clause has 0. -/
theorem not_kindleCommitTargetShedTemperAndRejoin : ¬ Obligations.KindleCommitTargetShedTemperAndRejoin := by
  unfold Obligations.KindleCommitTargetShedTemperAndRejoin
  intro h
  obtain ⟨-, -, -, -, -, -, -, -, -, -, -, htemper, -⟩ := h mappedByMailbox 0 0 0 0 0 23
  have hserves : mappedByMailbox.modes.mode ≠ .cold ∧ mappedByMailbox.modes.mode ≠ .banked ∧
      mappedByMailbox.flag aMBOX_STATUS 31 = false ∧ mappedByMailbox.imageMS.reference = true ∧
      mappedByMailbox.smiths[masterSmith].run = .idle ∧ mappedByMailbox.smiths[masterSmith].evpend = 0 ∧
      mappedByMailbox.smiths[masterSmith].evmask.getLsbD 2 = true ∧
      (mappedByMailbox.smiths[masterSmith].dmem.get 5).getLsbD 0 = false := by decide +kernel
  have hservice : mappedByMailbox.modes.mode = .forge := by decide +kernel
  have hpopulated : mappedByMailbox.populated 23 = true := by decide +kernel
  obtain ⟨t, ht, -, -, -, -, -, -, hderate⟩ := htemper hserves (.inl hservice)
  have hguard : max mappedByMailbox.prog.guard
      (min 15 (mappedByMailbox.fld aAGE 9 0 / 20 + if mappedByMailbox.eyeFlag then 1 else 0)) = 0 := by decide +kernel
  have hzero := hderate hpopulated
  rw [hguard] at hzero
  exact absurd ((mappedByMailbox_temperNow t ht).symm.trans hzero) (by decide)

end Sys2Proof.Machine
end
